-- ==== Sys2Proof/Word.lean ====
section
/-! DEFINITION. The word types of the PB7260, and the plain-data operand types that the commands carry. -/

namespace Sys2Proof

/-- A byte of memory. -/
abbrev Byte := BitVec 8
/-- A 16-bit halfword: a sample, a FIFO index, an RTP sequence number. -/
abbrev Half := BitVec 16
/-- A 32-bit register or memory word (R6). -/
abbrev Word := BitVec 32
/-- A 64-bit counter (R73). -/
abbrev DWord := BitVec 64

/-- Who issues a register or FIFO access (R26, R27, R393). -/
inductive Agent where
  /-- Firmware on control core `c`. -/
  | fw (c : Fin 4)
  /-- A kernel running on media core `c`. -/
  | kernel (c : Fin 512)
  /-- Function `fn` of a host, through its BAR0. -/
  | host (fn : Fin 256)
  /-- The Safelight management controller. -/
  | smc
  deriving DecidableEq, Repr

/-- The path a Vusta message takes (R351): a mailbox channel (R354) or a host command ring (R396). -/
inductive Path where
  | mbx (ch : Fin 64)
  | ring (r : Fin 4096)
  deriving DecidableEq, Repr

/-- The cryptographic facts of a firmware image (R446, R447): its keys' digests match an OTP entry, its signatures verify,
and its SHA-384 measurement. -/
structure ImgFact where
  keyOk : Bool := true
  ed : Bool := true
  ml : Bool := true
  meas : List Word := []
  deriving DecidableEq, Repr

/-- One Vusta message as firmware takes it (R351), with the facts of its surroundings that no register holds. -/
structure Cmd where
  /-- Where the message was posted. -/
  via : Path
  /-- `FLAGS`, word 0 bits [15:8]. -/
  flags : Byte := 0
  /-- `SEQ`, word 0 bits [7:0]. -/
  seq : Byte := 0
  /-- `HANDLE`, word 1. -/
  handle : Word := 0
  /-- Payload words 2 to 15, in order; a word that is not listed reads zero. -/
  pay : List Word := []
  /-- The message waited more than 100 ms to be taken (R367). -/
  late : Bool := false
  /-- Every DMA of a host address that the command names succeeds (R404). -/
  dmaOk : Bool := true
  /-- The words that DMA reads from the host addresses the command names, in order. -/
  host : List Word := []
  /-- The signatures or authentication tags that the command makes firmware check are valid. -/
  authOk : Bool := true
  /-- The facts of the firmware image that the command completes. -/
  img : ImgFact := {}
  /-- The conversions of HUP_SNS, in mV, that the command's commits take, in order; then the last one stands. -/
  sense : List Nat := []
  /-- PFAIL_N falls just before the command's commit of this number. -/
  pfailAt : Option Nat := none
  /-- SAFE_SLOW ticks that pass before the command is taken. -/
  el : Nat := 0
  deriving DecidableEq, Repr

/-- The FIFO instances of the device (R35): every engine's request, completion, encoder input and output FIFOs, and the
host rings. -/
inductive FifoId where
  /-- The decode-request FIFO of an engine (R160). -/
  | decReq (pe : Fin 8)
  /-- The decode-completion FIFO of an engine (R162). -/
  | decDone (pe : Fin 8)
  /-- The encode-input FIFO of an engine (R180). -/
  | encIn (pe : Fin 8)
  /-- The bitstream output FIFO of residual coder `c` of an engine (R202). -/
  | encOut (pe : Fin 8) (c : Fin 4)
  /-- The encode-completion FIFO of an engine (R206). -/
  | encDone (pe : Fin 8)
  /-- Host ring `r`, qid 61,440 + r (R396). -/
  | ring (r : Fin 4096)
  deriving DecidableEq, Repr

/-- What a dependency-descriptor element says (R52, R53), as read by the AV1 RTP payload format. -/
structure DdFact where
  /-- A template structure comes with the element: (templates, decode targets, chains, highest temporal layer of each
  spatial layer). -/
  struct : Option (Nat × Nat × Nat × List Nat) := none
  s : Fin 4 := 0
  t : Fin 8 := 0
  sof : Bool := true
  eof : Bool := true
  /-- The frame is a key frame. -/
  key : Bool := false
  /-- The decode targets (S, T) for which the frame's indication is Switch. -/
  switch : List (Nat × Nat) := []
  deriving DecidableEq, Repr

/-- What a frame-marking element says (R52). -/
structure FmFact where
  tid : Fin 8 := 0
  lid : Byte := 0
  i : Bool := false
  b : Bool := false
  s : Bool := true
  e : Bool := true
  deriving DecidableEq, Repr

/-- The facts of a decrypted RTP payload that outside payload formats define (R52). -/
structure MediaFacts where
  dd : Option DdFact := none
  fm : Option FmFact := none
  /-- The packet opens a recovery point by its codec (R52 row CODEC). -/
  codecRp : Bool := false
  deriving DecidableEq, Repr

/-- A packet of a device-originated stream as a class encode or a packetiser kernel hands it to Strata (R52, R114,
R128). -/
structure DevPkt where
  stream : Nat := 0
  seq : Half := 0
  ts : Word := 0
  marker : Bool := false
  pt : BitVec 7 := 0
  s : Fin 4 := 0
  t : Fin 8 := 0
  sof : Bool := true
  eof : Bool := true
  rp : Bool := false
  wd : Bool := false
  /-- For a class stream: the first mix frame in the packet, which gives its timestamp (R114). -/
  frame : Nat := 0
  /-- Padding or probe traffic (R99). -/
  probe : Bool := false
  bytes : List Byte := []
  deriving DecidableEq, Repr

/-- What the estimator kernel knows of a video output of a leg (R101): the output context, its weight, and for each layer
(S, T) of its source the cumulative rate with the overhead of its packets, kb/s. -/
structure EstOut where
  sub : Nat := 0
  weight : Nat := 0
  layers : List (Nat × Nat × Nat) := []
  deriving DecidableEq, Repr

/-- A run of the estimator kernel for a leg (R101): what its own algorithm estimates and the measured rate of the leg's audio flow
queues, kb/s, and the leg's video outputs. -/
structure EstRun where
  kbps : Nat := 0
  audio : Nat := 0
  outs : List EstOut := []
  deriving DecidableEq, Repr

/-- What the decoder of a source has for a frame (R116, R117): the source; 0 DECODED, 1 FEC, 2 CONCEALED; whether it came after
the deadline; the delay that the jitter buffer seeks, in ms; and the decoder's samples at the codec's own rate, a stereo Opus
frame's left and right in turn. -/
structure SrcFrame where
  src : Nat := 0
  state : Fin 3 := 0
  late : Bool := false
  stereo : Bool := false
  delay : Nat := 0
  samples : List Half := []
  deriving DecidableEq, Repr

/-- What a decode pipe finds in a unit (R148, R165 to R170): facts of the bitstream. References are named by spatial layer
and RTP timestamp. -/
structure PicFacts where
  width : Nat := 16
  height : Nat := 16
  /-- The unit keeps to the profile, level, tools and bit depth of R148 and of its context. -/
  inLimits : Bool := true
  /-- The bitstream is in error, or cannot be read (R341). -/
  error : Bool := false
  /-- A key picture: H.264 IDR, H.265 IDR, BLA or CRA, AV1 key frame. -/
  key : Bool := false
  /-- The key picture is a CRA. -/
  cra : Bool := false
  /-- A RASL picture of the latest CRA. -/
  rasl : Bool := false
  /-- The picture is shown. -/
  shown : Bool := true
  /-- The references that the picture uses, and those of them that cannot be read (R341). -/
  refs : List (Nat × Nat) := []
  unread : List (Nat × Nat) := []
  /-- `frame_id_numbers_present_flag` is 1. -/
  frameIds : Bool := false
  /-- Reference slots that the picture takes, and slots that it empties. -/
  slots : List Nat := []
  empties : List Nat := []
  /-- The content has 10 bits, and it has no chroma (R148). -/
  deep : Bool := false
  mono : Bool := false
  /-- H.264's `frame_num` and `MaxFrameNum`, H.265's POC, and the count of a recovery point SEI of the unit (R170). -/
  frameNum : Nat := 0
  maxFrameNum : Nat := 16
  poc : Int := 0
  sei : Option Int := none
  /-- AV1 film grain is signalled. -/
  grain : Bool := false
  /-- Decode-pipe cycles spent. -/
  cycles : Nat := 0
  deriving DecidableEq, Repr

/-- The header that firmware has written for a rendition-picture (R189): its byte offset in the engine's rendition-context area,
and its length in bits. -/
structure EncHdr where
  off : Nat := 0
  bits : Nat := 0
  deriving DecidableEq, Repr

/-- The two operand vectors of a vector multiply: register pairs (VR) or LDM vectors (VM) (R241, R253). -/
inductive VSrc2 where
  | vr (gs gt : BitVec 5)
  | vm (xA : BitVec 3) (pmA : BitVec 2) (xB : BitVec 3) (pmB : BitVec 2)
  deriving DecidableEq, Repr

/-- One vector operand: a register pair (VR) or an LDM vector (VM). -/
inductive VSrc1 where
  | vr (g : BitVec 5)
  | vm (xA : BitVec 3) (pmA : BitVec 2)
  deriving DecidableEq, Repr

/-- What the outer code finds in a unit (R338, R340). -/
inductive Outer where
  | clean
  /-- One to four wrong byte symbols: `n` + 1. -/
  | corrected (n : Fin 4)
  | uncorrectable
  /-- A pattern of five or more wrong symbols within `n` + 1 symbols of another codeword, whose 64 data bytes are delivered
  as corrected. -/
  | miscorrected (n : Fin 4) (data : List Byte)
  deriving DecidableEq, Repr

/-- A completed telephone event that a jitter-buffer kernel hands to firmware (R118): the source, the event's code and its
duration in ms. -/
structure Tone where
  src : Nat
  event : BitVec 8
  ms : BitVec 16
  deriving DecidableEq, Repr

/-- How a block's command stands in time and what its reads meet: the SAFE_SLOW ticks that pass before it, and the 64-byte units of
HBM, by address / 64, that are uncorrectable, so that their reads end in a bus error (R340, R341). -/
structure Reads where
  el : Nat := 0
  ue : List Nat := []
  deriving DecidableEq, Repr

/-- Does a read of `n` bytes at an address meet an uncorrectable unit? -/
def Reads.hit (r : Reads) (a n : Nat) : Bool := r.ue.any fun u => decide (64 * u < a + n) && decide (a < 64 * u + 64)

/-- How a work item starts: the ticks that pass before it, and the bit errors that its core meets in it (R237, R258, R341): 8-byte
units of its LDM (true: a double-bit error), 64-byte lines of the kernel's code with a parity error in the instruction cache, lines
that memory cannot deliver, and uncorrectable 64-byte units of HBM, by address / 64. -/
structure Upsets where
  el : Nat := 0
  ldm : List (Nat × Bool) := []
  ic : List Nat := []
  image : List Nat := []
  ue : List Nat := []
  deriving DecidableEq, Repr

/-- What a memory read finds: the outer code's outcome, and the stack's own severity (R339): 0 clean, 1 corrected, 2
uncorrectable. -/
structure EccFact where
  outer : Outer := .clean
  inner : Fin 3 := 0
  deriving DecidableEq, Repr

/-- What the board holds at a start: ranges of the journal flash that were programmed outside the device (R445), the facts
of the images in slots 0 and 1, and the voltage at HUP_SNS in mV. -/
structure Board where
  flash : List (Nat × List Byte) := []
  imgs : List (Nat × ImgFact) := []
  sense : Nat := 0
  deriving DecidableEq, Repr

/-- Where a notification is delivered (R369). -/
inductive NoteDest where
  | mbx (ch : Fin 64)
  | ring (r : Fin 4096)
  deriving DecidableEq, Repr

/-- A write of a function's configuration space that the spec gives an effect (R388, R405). -/
inductive CfgWrite where
  /-- Bus Master Enable. -/
  | busMaster (on : Bool)
  /-- NumVFs of the PF's SR-IOV capability. -/
  | numVfs (n : Fin 64)
  /-- VF Enable of the PF's SR-IOV capability, set to 1. -/
  | vfEnable
  deriving DecidableEq, Repr

/-- The kinds of object that a function creates (R409). -/
inductive ObjKind where
  | tap | inject | sampler | snapshot | sub | source | mixClass | group | rend | layout | image | dec | stream | leg
  | peer | conf | flowq | policer | dispq | kernel | key | window | timer | meter
  deriving DecidableEq, Repr

/-- An object by kind and number. -/
structure ObjId where
  kind : ObjKind
  num : Nat
  deriving DecidableEq, Repr

end Sys2Proof
end

