-- ==== Sys2Proof/Syntax.lean ====
section
/-! DEFINITION. The commands of the PB7260: one constructor for each row of the opcode table. -/

namespace Sys2Proof

/-- The commands, in the order of the opcode table. -/
inductive Instr where
  /-- REGISTER_WRITE (R10). A write to any register that has no row of its own sets, clears or ignores its fields according to their access codes. -/
  | registerWrite (a : Agent) (addr : Nat) (v : Word)
  /-- COUNTER_LATCH_READ (R73). A read of the low half of a 64-bit counter or time register returns it and latches the upper half into its HI register. -/
  | counterLatchRead (a : Agent) (addr : Nat)
  /-- FIFO_PIDX_WRITE (R37). A software producer writes FIFO_PIDX, publishing items and possibly a packet end, or is refused with OVERFLOW. -/
  | fifoPidxWrite (a : Agent) (f : FifoId) (v : Word) (items : List (List Word))
  /-- FIFO_CIDX_WRITE (R38). A consumer writes FIFO_CIDX to return space, or is ignored with UNDERRUN when it would pass PIDX. -/
  | fifoCidxWrite (a : Agent) (f : FifoId) (v : Word)
  /-- FIFO_DATA_READ (R38). A consumer reads one word of the head item from FIFO_DATA, advancing CIDX at the item's last word. -/
  | fifoDataRead (a : Agent) (f : FifoId)
  /-- FLUSH (R39). A FIFO_CMD write with FLUSH discards all items and packet ends and sets CIDX to PIDX. -/
  | fifoFlush (a : Agent) (f : FifoId)
  /-- DROP_REST (R39). A FIFO_CMD write with DROP_REST discards the rest of the head packet, including later items of an open packet. -/
  | dropRest (a : Agent) (f : FifoId)
  /-- FIFO_HW_PUBLISH (R37). A hardware producer publishes items once free space exists, after stalling while the FIFO was full. -/
  | fifoHwPublish (f : FifoId) (items : List (List Word)) (eop : Bool)
  /-- ETH_PCFG_WRITE (R45). Firmware writes ETH_PCFG, enabling or reconfiguring a port, which is checked and may go to CFG_ERR. -/
  | ethPcfgWrite (port : Fin 8) (v : Word)
  /-- AN_RESOLVED (R44). Auto-negotiation and link training finish and resolve the port's lane rate and FEC, or report NO_COMMON. -/
  | anResolved (port : Fin 8) (rates : BitVec 4) (fecs : BitVec 4) (trained : Bool)
  /-- AN_RESTART_TIMEOUT (R44). One second after three training failures, negotiation restarts. -/
  | anRestartTimeout (port : Fin 8)
  /-- LINK_CHANGE (R46). An Ethernet port's link comes up or goes down, setting LINK_CHG and changing Strata's handling of its legs. -/
  | linkChange (port : Fin 8) (up : Bool)
  /-- EFFECTIVE_MIN_APPLY (R94). After a port's rate changes, firmware checks tenant minimums and applies or removes scaled effective minimums. -/
  | effectiveMinApply (port : Fin 8)
  /-- FRAME_RECEIVED (R47). A received Ethernet frame is timestamped and classified by the parser and handed to firmware, Tolku handling, SRTP or dropped. -/
  | frameReceived (port : Fin 8) (macOk : Bool) (bytes : List Byte) (facts : MediaFacts) (el : Nat)
  /-- SRTP_DECRYPT (R302). A decrypt lane estimates the index, checks replay, authenticates with the chosen half and decrypts the packet. -/
  | srtpDecrypt (lane : Fin 16) (authOk : Bool) (plain : List Byte) (facts : MediaFacts) (el : Nat)
  /-- STRATA_FORWARD (R54). Strata decides, for each subscription of the source, whether and at which layer to forward a packet, rewrites headers and enqueues descriptors. -/
  | strataForward (dev : Option DevPkt) (el : Nat)
  /-- EGRESS_SELECT (R88). When a MAC can accept a frame, the port's selector picks an eligible flow queue and releases its head frame. -/
  | egressSelect (port : Fin 8) (reads : Reads)
  /-- SRTP_ENCRYPT (R299). An encrypt lane checks the index against the half's high-water map, encrypts or refuses the packet, and releases its payload reference. -/
  | srtpEncrypt (lane : Fin 16) (reads : Reads)
  /-- TENANT_BUCKET_FULL (R93). A tenant's minimum bucket reaches its size while the tenant holds an eligible frame, counting MIN_MISSED. -/
  | tenantBucketFull (port : Fin 8) (tenant : Fin 4) (el : Nat)
  /-- GATE_ENTRY_ADVANCE (R95). A gate-control entry's interval expires and the port moves to the next entry's gate states. -/
  | gateEntryAdvance (port : Fin 8) (el : Nat)
  /-- GATE_LIST_SWITCH (R96). A pending gate list becomes active at the first cycle boundary at or after its change time. -/
  | gateListSwitch (port : Fin 8) (el : Nat)
  /-- LAYER_TARGET_APPLY (R60). Strata consumes a layer-target item and applies it to the subscription, or rejects it. -/
  | layerTargetApply
  /-- SHAPER_TARGET_APPLY (R102). The scheduler consumes a shaper-target item, clamps the rate and applies it to the adaptive shaper, or rejects it. -/
  | shaperTargetApply (el : Nat)
  /-- ESTIMATE_APPLY (R103). Firmware takes an estimate item and sets the window and picture caps of the leg's renditions. -/
  | estimateApply (core : Fin 512) (leg : Fin 16384) (run : EstRun) (el : Nat)
  /-- LOUPE_SAMPLE (R105). A queue sampler's period ends and it writes one entry to its Loupe ring or counts it lost. -/
  | loupeSample (sampler : Fin 1024) (cons : Nat) (el : Nat)
  /-- TOLKU_KEEPALIVE (R72). Every second firmware sends a keepalive to each cascade peer. -/
  | tolkuKeepalive (el : Nat)
  /-- CASCADE_PEER_TIMEOUT (R72). Three seconds without an authenticated Tolku packet from a peer elapse. -/
  | cascadePeerTimeout (peer : Fin 1024) (el : Nat)
  /-- LEG_CREATE (R48). Create a leg with its lookup key, port, queues and SRTCP slots. -/
  | legCreate (c : Cmd)
  /-- LEG_MODIFY (R75). Change a leg's remote address, queues and SRTCP slots atomically between packets. -/
  | legModify (c : Cmd)
  /-- LEG_DESTROY (R58). Destroy a leg with its streams and subscriptions. -/
  | legDestroy (c : Cmd)
  /-- LEG_QUERY (R75). Write a leg's context and counters to host memory. -/
  | legQuery (c : Cmd)
  /-- STREAM_CREATE (R51). Create a stream on a leg with its codec, layer source, destination and keys. -/
  | streamCreate (c : Cmd)
  /-- STREAM_DESTROY (R58). Destroy a stream, moving its subscriptions to SRC_GONE. -/
  | streamDestroy (c : Cmd)
  /-- STREAM_SUBSCRIBE (R58). Create a subscription and its output context, entering JOIN_WAIT or PAUSED. -/
  | streamSubscribe (c : Cmd)
  /-- STREAM_MODIFY (R58). Change a subscription's layer caps, pause and relay. -/
  | streamModify (c : Cmd)
  /-- STREAM_UNSUBSCRIBE (R59). End a subscription, returning its output context to IDLE. -/
  | streamUnsubscribe (c : Cmd)
  /-- STREAM_QUERY (R74). Write a stream or output context to host memory. -/
  | streamQuery (c : Cmd)
  /-- CASCADE_PEER_ADD (R70). Bind a cascade leg to a peer dev_id and create the peer's control stream. -/
  | cascadePeerAdd (c : Cmd)
  /-- CASCADE_PEER_REMOVE (R75). Unbind a cascade peer, keeping its leg. -/
  | cascadePeerRemove (c : Cmd)
  /-- CASCADE_SET_DEVID (R75). Set this device's cascade dev_id on channel 0. -/
  | cascadeSetDevid (c : Cmd)
  /-- QOS_POLICER_SET (R83). Set a leg's policer mode, rates, sizes and actions, resetting buckets to RESET_TO. -/
  | qosPolicerSet (c : Cmd)
  /-- QOS_DSCP_MAP_SET (R80). Set one of the tenant's DSCP pre-colour maps. -/
  | qosDscpMapSet (c : Cmd)
  /-- QOS_QUEUE_CFG (R84). Configure or claim a flow queue's port, class, leg and limits. -/
  | qosQueueCfg (c : Cmd)
  /-- QOS_SHAPER_SET (R91). Set a flow shaper's rate, burst, bounds and adaptivity. -/
  | qosShaperSet (c : Cmd)
  /-- QOS_CLASS_SET (R108). Set a port class shaper on channel 0. -/
  | qosClassSet (c : Cmd)
  /-- QOS_PORT_SET (R108). Set a port's audio class, overhead and the audio descriptor reserve on channel 0. -/
  | qosPortSet (c : Cmd)
  /-- QOS_GATE_SET (R96). Load or replace a port's pending gate-control list on channel 0. -/
  | qosGateSet (c : Cmd)
  /-- QOS_TENANT_SET (R92). Set a tenant's minimum and maximum buckets and descriptor minimum on a port. -/
  | qosTenantSet (c : Cmd)
  /-- QOS_EST_CFG (R100). Set a leg's send-time window and estimator settings. -/
  | qosEstCfg (c : Cmd)
  /-- QOS_SAMPLER_SET (R105). Set or stop a Loupe queue sampler. -/
  | qosSamplerSet (c : Cmd)
  /-- QOS_QUEUE_RELEASE (R84). Release an empty flow queue. -/
  | qosQueueRelease (c : Cmd)
  /-- QOS_QUERY (R109). Write a leg's or queue's state and counters to host memory. -/
  | qosQuery (c : Cmd)
  /-- MIX_FRAME_BOUNDARY (R112). A mix-frame boundary passes, incrementing the frame counter and posting frame ticks. -/
  | mixFrameBoundary (el : Nat)
  /-- SAFE_LOAD_ARM (R134). Firmware sets ARM in MIXF_SL_ARM, arming a safe-load or being refused with LATE. -/
  | safeLoadArm (slice : Fin 16) (v : Word)
  /-- SAFE_LOAD_SWAP (R134). At the armed frame and sample the slice replaces every tagged parameter entry at once. -/
  | safeLoadSwap (slice : Fin 16)
  /-- SOURCE_DEADLINE (R119). The source deadline passes: missing frames become ABSENT, meters are written and change-boundary work is done. -/
  | sourceDeadline (frames : List SrcFrame) (el : Nat)
  /-- MEMBER_RAMP_END (R126). A leaving member's membership ramp ends and it stops contributing. -/
  | memberRampEnd (source : Nat)
  /-- CLASS_OUTPUT_WRITE (R139). The home slice writes class outputs to the encode tiles and posts frame-ready items. -/
  | classOutputWrite (slice : Fin 16) (el : Nat)
  /-- OUT_DEADLINE_EXPIRY (R141). The output deadline passes with a class output unwritten, counting OUT_LATE. -/
  | outDeadlineExpiry (slice : Fin 16) (el : Nat)
  /-- CONF_CREATE (R143). Create a conference with its home tile, K and talker settings. -/
  | confCreate (c : Cmd)
  /-- CONF_MODIFY (R143). Change a conference's mutable settings. -/
  | confModify (c : Cmd)
  /-- CONF_DESTROY (R143). Destroy a conference's classes, sources and taps, or refuse while legs remain. -/
  | confDestroy (c : Cmd)
  /-- CONF_PIN (R127). Pin or unpin a source within the conference's K. -/
  | confPin (c : Cmd)
  /-- CONF_QUERY (R145). Write a conference's members, levels and counters to host memory. -/
  | confQuery (c : Cmd)
  /-- MIX_SOURCE_ADD (R115). Add a decoded or injected source to a conference on a decoding tile. -/
  | mixSourceAdd (c : Cmd)
  /-- MIX_SOURCE_MODIFY (R138). Change a source's route entry at its APPLY time. -/
  | mixSourceModify (c : Cmd)
  /-- MIX_SOURCE_REMOVE (R126). Ramp a source out and remove it. -/
  | mixSourceRemove (c : Cmd)
  /-- MIX_CLASS_CREATE (R129). Create a named mix class with its codec, ptime, gain and output stream. -/
  | mixClassCreate (c : Cmd)
  /-- MIX_CLASS_MODIFY (R138). Change a class's gain and chain at its APPLY time. -/
  | mixClassModify (c : Cmd)
  /-- MIX_CLASS_DESTROY (R128). Destroy a class, moving its legs' output contexts to SRC_GONE. -/
  | mixClassDestroy (c : Cmd)
  /-- MIX_LEG_JOIN (R133). Join a leg to a class through an output context, or move it to another class. -/
  | mixLegJoin (c : Cmd)
  /-- MIX_LEG_LEAVE (R128). Remove a leg's class output context. -/
  | mixLegLeave (c : Cmd)
  /-- MIX_BATCH (R138). Apply a list of source and class modifications by safe-load or direct writes. -/
  | mixBatch (c : Cmd)
  /-- MIX_TAP_SET (R142). Set or turn off a recording tap. -/
  | mixTapSet (c : Cmd)
  /-- MIX_QUERY (R145). Write a source's or class's state and counters to host memory. -/
  | mixQuery (c : Cmd)
  /-- REQ_APPEND (R161). A kernel's write of REQ_W7 appends a staged request item or reports TOO_LONG. -/
  | reqAppend (pe : Fin 8) (core : Fin 512) (words : List Word)
  /-- REQ_COMMIT (R161). A kernel commits staged items as one decode request, which is appended, kept for lack of room, or rejected. -/
  | reqCommit (pe : Fin 8) (core : Fin 512)
  /-- REQ_DISCARD (R161). A kernel discards its staged request items. -/
  | reqDiscard (pe : Fin 8) (core : Fin 512)
  /-- DECODE_START (R163). The decode pipe takes a request and allocates its output buffer, waiting if the region is empty. -/
  | decodeStart (pe : Fin 8) (facts : PicFacts) (el : Nat)
  /-- ALLOC_WAIT_TIMEOUT (R163). No buffer frees within ALLOC_WAIT_US and the request completes NO_BUFFER. -/
  | allocWaitTimeout (pe : Fin 8) (el : Nat)
  /-- DECODE_COMPLETE (R162). A decoded unit completes: marks are set, the picture may be published and a completion item is posted. -/
  | decodeComplete (pe : Fin 8) (facts : PicFacts) (el : Nat)
  /-- REFRESH_TIMER_EXPIRY (R168). A concealed context's refresh timer expires and REFRESH_REQ is raised again. -/
  | refreshTimerExpiry (ctx : Nat) (el : Nat)
  /-- POOL_SET (R154). A POOL_OP SET sets a mark or increments a counted mark, or is refused. -/
  | poolSet (core : Fin 4) (v : Word)
  /-- POOL_CLEAR (R154). A POOL_OP CLEAR clears a mark or decrements a count, possibly freeing the buffer. -/
  | poolClear (core : Fin 4) (v : Word)
  /-- POOL_QUERY (R154). A POOL_OP QUERY returns a buffer's marks and counts. -/
  | poolQuery (core : Fin 4) (v : Word)
  /-- SLOT_QUERY (R154). A POOL_OP SLOT_QUERY returns a decode context's display-slot fbh. -/
  | slotQuery (core : Fin 4) (v : Word)
  /-- DEC_CREATE (R173). Create a decode context on an engine within its pixel budget. -/
  | decCreate (c : Cmd)
  /-- DEC_MODIFY (R159). Change a context's operating point and settings. -/
  | decModify (c : Cmd)
  /-- DEC_DESTROY (R153). Destroy a decode context, clearing its marks and emptying its slot. -/
  | decDestroy (c : Cmd)
  /-- DEC_QUERY (R174). Write a context's state, slot and counters to host memory. -/
  | decQuery (c : Cmd)
  /-- DEC_SNAPSHOT (R174). Start copying a context's display picture to host memory under a HOST mark. -/
  | decSnapshot (c : Cmd)
  /-- SNAPSHOT_COPY_DONE (R174). A snapshot copy ends and its HOST mark is released. -/
  | snapshotCopyDone (tenant : Fin 4) (ok : Bool) (el : Nat)
  /-- LAYOUT_TICK (R212). A layout's picture tick arrives and composition starts, or the tick is counted late. -/
  | layoutTick (layout : Fin 1024) (el : Nat)
  /-- COMPOSE_COMPLETE (R227). A composed picture is published, posted to encoders and its marks settled. -/
  | composeComplete (pe : Fin 8) (reads : Reads)
  /-- LAYOUT_CREATE (R211). Create a layout from a contact sheet and start its picture clock. -/
  | layoutCreate (c : Cmd)
  /-- LAYOUT_SET (R222). Replace a layout's sheet at a picture boundary. -/
  | layoutSet (c : Cmd)
  /-- LAYOUT_CELL_SET (R223). Change one cell of a layout at a picture boundary. -/
  | layoutCellSet (c : Cmd)
  /-- LAYOUT_DESTROY (R230). Stop a layout after its picture in progress and release its marks. -/
  | layoutDestroy (c : Cmd)
  /-- LAYOUT_IMAGE_LOAD (R230). Load a still image into the pool. -/
  | layoutImageLoad (c : Cmd)
  /-- LAYOUT_IMAGE_FREE (R230). Release an image not named by any layout. -/
  | layoutImageFree (c : Cmd)
  /-- LAYOUT_QUERY (R231). Write a layout's sheet, state and counters to host memory. -/
  | layoutQuery (c : Cmd)
  /-- ENC_INPUT_ACCEPT (R181). The encode pipe accepts an input item, marks its buffers ANALYSIS, or drops pictures. -/
  | encInputAccept (pe : Fin 8) (el : Nat)
  /-- ANALYSIS_START (R182). The analysis unit takes a group's pending picture and starts any due wave. -/
  | analysisStart (pe : Fin 8) (el : Nat)
  /-- ANALYSIS_COMPLETE (R186). The analysis of a picture completes with its decisions and row estimates. -/
  | analysisComplete (pe : Fin 8) (unread : Bool) (el : Nat)
  /-- CODER_START (R197). A residual coder takes a rendition-picture, computes its budget and allocates its reconstruction. -/
  | coderStart (pe : Fin 8) (coder : Fin 4) (header : Option EncHdr) (el : Nat)
  /-- HEADER_WAIT_TIMEOUT (R190). A rendition-picture's header is not ready within 1 ms and it completes NO_HEADER. -/
  | headerWaitTimeout (pe : Fin 8) (coder : Fin 4) (el : Nat)
  /-- RECON_ALLOC_TIMEOUT (R204). No reconstruction buffer frees within 2 ms and the picture completes NO_BUFFER. -/
  | reconAllocTimeout (pe : Fin 8) (coder : Fin 4) (el : Nat)
  /-- CODER_ROW_COMMIT (R198). A superblock row is coded and committed to the output FIFO, or recoded as floor-skip. -/
  | coderRowCommit (pe : Fin 8) (coder : Fin 4) (bytes : Nat) (unread : Bool) (el : Nat)
  /-- PICTURE_CODED (R203). A rendition-picture completes, its trailer and completion item are posted and ENC_REF updated. -/
  | pictureCoded (pe : Fin 8) (coder : Fin 4) (el : Nat)
  /-- STARVED_RAISE (R201). Encode HBM requests are held back beyond STARVE_US and the group becomes STARVED. -/
  | starvedRaise (group : Nat) (el : Nat)
  /-- ENC_GROUP_CREATE (R179). Create an analysis group on an engine. -/
  | encGroupCreate (c : Cmd)
  /-- ENC_GROUP_MODIFY (R195). Change a group's rate and wave settings from the next picture. -/
  | encGroupModify (c : Cmd)
  /-- ENC_GROUP_DESTROY (R196). Remove every rendition and then the group. -/
  | encGroupDestroy (c : Cmd)
  /-- ENC_REND_ADD (R178). Add a rendition to a group on a coder. -/
  | encRendAdd (c : Cmd)
  /-- ENC_REND_MODIFY (R196). Change a rendition's settings, pause or resume. -/
  | encRendModify (c : Cmd)
  /-- ENC_REND_REMOVE (R196). Remove a rendition; its stream's subscriptions go to SRC_GONE. -/
  | encRendRemove (c : Cmd)
  /-- ENC_REFRESH (R195). Request an early refresh wave. -/
  | encRefresh (c : Cmd)
  /-- ENC_QUERY (R208). Write a group's or rendition's state and counters to host memory. -/
  | encQuery (c : Cmd)
  /-- WORK_ITEM_START (R259). A core starts an item from a filled prefetch slot with its entry state, zeroing LDM on a tenant change. -/
  | workItemStart (core : Fin 512) (start : Upsets)
  /-- ITEM_PLACE (R275). The dispatcher places a ready item in a prefetch slot of an eligible core. -/
  | itemPlace (reads : Reads)
  /-- AFF_WAIT_TIMEOUT (R275). The affinity wait expires and the item goes to another eligible core. -/
  | affWaitTimeout (qid : Nat) (el : Nat)
  /-- ITEM_WATCHDOG (R281). An item runs beyond ITEM_LIMIT_US and faults with WATCHDOG. -/
  | itemWatchdog (core : Fin 512) (el : Nat)
  /-- KERNEL_FAULT_REPORT (R281). After its DMA tags finish, a faulted item completes without posts and the fault goes to firmware. -/
  | kernelFaultReport (core : Fin 512) (el : Nat)
  /-- KERNEL_POST (R278). A kernel's write of DISP_POST_W7 commits a post to a dispatch queue or is refused. -/
  | kernelPost (core : Fin 512) (words : List Word) (el : Nat)
  /-- DMA_COMPLETE (R251). A core DMA transfer completes or stops at a failing block. -/
  | dmaComplete (core : Fin 516) (tag : Fin 8) (failAt : Option Nat)
  /-- ADD (R242). Instruction add. -/
  | add (core : Fin 516) (d : BitVec 5) (x : BitVec 5) (y : BitVec 5)
  /-- SUB (R242). Instruction sub. -/
  | sub (core : Fin 516) (d : BitVec 5) (x : BitVec 5) (y : BitVec 5)
  /-- AND (R242). Instruction and. -/
  | and (core : Fin 516) (d : BitVec 5) (x : BitVec 5) (y : BitVec 5)
  /-- OR (R242). Instruction or. -/
  | or (core : Fin 516) (d : BitVec 5) (x : BitVec 5) (y : BitVec 5)
  /-- XOR (R242). Instruction xor. -/
  | xor (core : Fin 516) (d : BitVec 5) (x : BitVec 5) (y : BitVec 5)
  /-- SHL (R242). Instruction shl, shift left by sh. -/
  | shl (core : Fin 516) (d : BitVec 5) (x : BitVec 5) (sh : BitVec 5)
  /-- SHR (R242). Instruction shr, logical shift right by sh. -/
  | shr (core : Fin 516) (d : BitVec 5) (x : BitVec 5) (sh : BitVec 5)
  /-- SAR (R242). Instruction sar, arithmetic shift right by sh. -/
  | sar (core : Fin 516) (d : BitVec 5) (x : BitVec 5) (sh : BitVec 5)
  /-- SHLV (R242). Instruction shlv, shift left by register. -/
  | shlv (core : Fin 516) (d : BitVec 5) (x : BitVec 5) (y : BitVec 5)
  /-- SHRV (R242). Instruction shrv, logical shift right by register. -/
  | shrv (core : Fin 516) (d : BitVec 5) (x : BitVec 5) (y : BitVec 5)
  /-- SARV (R242). Instruction sarv, arithmetic shift right by register. -/
  | sarv (core : Fin 516) (d : BitVec 5) (x : BitVec 5) (y : BitVec 5)
  /-- CMPLT (R242). Instruction cmplt, signed compare. -/
  | cmplt (core : Fin 516) (d : BitVec 5) (x : BitVec 5) (y : BitVec 5)
  /-- CMPLTU (R242). Instruction cmpltu, unsigned compare. -/
  | cmpltu (core : Fin 516) (d : BitVec 5) (x : BitVec 5) (y : BitVec 5)
  /-- MIN (R242). Instruction min. -/
  | min (core : Fin 516) (d : BitVec 5) (x : BitVec 5) (y : BitVec 5)
  /-- MAX (R242). Instruction max. -/
  | max (core : Fin 516) (d : BitVec 5) (x : BitVec 5) (y : BitVec 5)
  /-- ABS (R242). Instruction abs. -/
  | abs (core : Fin 516) (d : BitVec 5) (x : BitVec 5)
  /-- MUL (R242). Instruction mul, low 32 bits of the product. -/
  | mul (core : Fin 516) (d : BitVec 5) (x : BitVec 5) (y : BitVec 5)
  /-- MULHI (R242). Instruction mulhi, signed high 32 bits of the product. -/
  | mulhi (core : Fin 516) (d : BitVec 5) (x : BitVec 5) (y : BitVec 5)
  /-- ADDK (R242). Instruction addk with sign-extended immediate. -/
  | addk (core : Fin 516) (d : BitVec 5) (x : BitVec 5) (imm : Half)
  /-- ORK (R242). Instruction ork with zero-extended immediate. -/
  | ork (core : Fin 516) (d : BitVec 5) (x : BitVec 5) (imm : Half)
  /-- ANDK (R242). Instruction andk with zero-extended immediate. -/
  | andk (core : Fin 516) (d : BitVec 5) (x : BitVec 5) (imm : Half)
  /-- BR_EQ (R242). Instruction br.eq. -/
  | brEq (core : Fin 516) (x : BitVec 5) (y : BitVec 5) (ofs : Half)
  /-- BR_NE (R242). Instruction br.ne. -/
  | brNe (core : Fin 516) (x : BitVec 5) (y : BitVec 5) (ofs : Half)
  /-- BR_LT (R242). Instruction br.lt, signed or unsigned. -/
  | brLt (core : Fin 516) (x : BitVec 5) (y : BitVec 5) (u : Bool) (ofs : Half)
  /-- BR_GE (R242). Instruction br.ge, signed or unsigned. -/
  | brGe (core : Fin 516) (x : BitVec 5) (y : BitVec 5) (u : Bool) (ofs : Half)
  /-- CMPLTK (R242). Instruction cmpltk, signed compare with immediate. -/
  | cmpltk (core : Fin 516) (d : BitVec 5) (x : BitVec 5) (imm : Half)
  /-- MOVH (R242). Instruction movh, immediate to the upper half. -/
  | movh (core : Fin 516) (d : BitVec 5) (imm : Half)
  /-- CALL (R242). Instruction call, linking in g30. -/
  | call (core : Fin 516) (ofs : BitVec 27)
  /-- DONE (R261). Instruction done ends the work item with g2's status once every DMA tag has completed. `tone` is the
  telephone event that the item handed to firmware (R118). -/
  | done (core : Fin 516) (tone : Option Tone)
  /-- MFS (R240). Instruction mfs reads a special register. -/
  | mfs (core : Fin 516) (d : BitVec 5) (n : BitVec 6)
  /-- MTS (R240). Instruction mts writes a special register. -/
  | mts (core : Fin 516) (n : BitVec 6) (x : BitVec 5)
  /-- LBRK (R257). Instruction lbrk ends a loop level at once. -/
  | lbrk (core : Fin 516) (k : BitVec 5)
  /-- DMAW (R251). Instruction dmaw waits for a DMA tag, raising DMA_FAULT on failure. -/
  | dmaw (core : Fin 516) (tag : BitVec 5)
  /-- DMAS (R251). Instruction dmas writes the in-flight tag bitmap. -/
  | dmas (core : Fin 516) (d : BitVec 5)
  /-- LOOP (R256). Instruction loop activates a zero-overhead loop level. -/
  | loop (core : Fin 516) (k : BitVec 2) (src : Bool) (count : BitVec 11) (x : BitVec 5) (stop : BitVec 12)
  /-- SETX (R248). Instruction setx. -/
  | setx (core : Fin 516) (n : BitVec 3) (imm : Half)
  /-- SETO (R248). Instruction seto. -/
  | seto (core : Fin 516) (n : BitVec 3) (imm : Half)
  /-- SETCB (R248). Instruction setcb. -/
  | setcb (core : Fin 516) (n : BitVec 3) (imm : Half)
  /-- SETCL (R248). Instruction setcl. -/
  | setcl (core : Fin 516) (n : BitVec 3) (imm : Half)
  /-- ADDX (R248). Instruction addx steps an address register. -/
  | addx (core : Fin 516) (n : BitVec 3) (imm : Half)
  /-- MOVX (R248). Instruction movx. -/
  | movx (core : Fin 516) (n : BitVec 3) (x : BitVec 5)
  /-- LDF (R250). Instruction ldf reads one word over the bridge fabric. -/
  | ldf (core : Fin 516) (d : BitVec 5) (x : BitVec 5)
  /-- STF (R250). Instruction stf writes one word over the bridge fabric. -/
  | stf (core : Fin 516) (y : BitVec 5) (x : BitVec 5)
  /-- DMAI (R251). Instruction dmai starts a DMA into LDM. -/
  | dmai (core : Fin 516) (d : BitVec 5) (x : BitVec 5) (y : BitVec 5) (sh : BitVec 5)
  /-- DMAO (R251). Instruction dmao starts a DMA out of LDM. -/
  | dmao (core : Fin 516) (d : BitVec 5) (x : BitVec 5) (y : BitVec 5) (sh : BitVec 5)
  /-- JMPR (R242). Instruction jmpr jumps to a register address. -/
  | jmpr (core : Fin 516) (x : BitVec 5)
  /-- LD_H (R246). Instruction ld.h, signed halfword load. -/
  | ldH (core : Fin 516) (r : BitVec 5) (n : BitVec 3) (pm : BitVec 2) (disp : Half)
  /-- LD_HU (R246). Instruction ld.hu, unsigned halfword load. -/
  | ldHu (core : Fin 516) (r : BitVec 5) (n : BitVec 3) (pm : BitVec 2) (disp : Half)
  /-- LD_W (R246). Instruction ld.w, word load. -/
  | ldW (core : Fin 516) (r : BitVec 5) (n : BitVec 3) (pm : BitVec 2) (disp : Half)
  /-- LD_D (R246). Instruction ld.d, register-pair load. -/
  | ldD (core : Fin 516) (r : BitVec 5) (n : BitVec 3) (pm : BitVec 2) (disp : Half)
  /-- ST_H (R246). Instruction st.h, halfword store. -/
  | stH (core : Fin 516) (r : BitVec 5) (n : BitVec 3) (pm : BitVec 2) (disp : Half)
  /-- ST_W (R246). Instruction st.w, word store. -/
  | stW (core : Fin 516) (r : BitVec 5) (n : BitVec 3) (pm : BitVec 2) (disp : Half)
  /-- ST_D (R246). Instruction st.d, register-pair store. -/
  | stD (core : Fin 516) (r : BitVec 5) (n : BitVec 3) (pm : BitVec 2) (disp : Half)
  /-- VCLR (R253). Instruction vclr. -/
  | vclr (core : Fin 516) (acc : BitVec 2)
  /-- VMPY (R253). Instruction vmpy in VR or VM form. -/
  | vmpy (core : Fin 516) (acc : BitVec 2) (s : VSrc2)
  /-- VMAC (R253). Instruction vmac in VR or VM form. -/
  | vmac (core : Fin 516) (acc : BitVec 2) (s : VSrc2)
  /-- VMSU (R253). Instruction vmsu in VR or VM form. -/
  | vmsu (core : Fin 516) (acc : BitVec 2) (s : VSrc2)
  /-- VLD (R253). Instruction vld in VR or VM form. -/
  | vld (core : Fin 516) (acc : BitVec 2) (s : VSrc1) (sh : BitVec 5)
  /-- VST (R253). Instruction vst in VR or VM form. -/
  | vst (core : Fin 516) (acc : BitVec 2) (s : VSrc1) (sh : BitVec 5)
  /-- VRED (R253). Instruction vred. -/
  | vred (core : Fin 516) (acc : BitVec 2) (d : BitVec 5) (sh : BitVec 5)
  /-- VEXT (R253). Instruction vext. -/
  | vext (core : Fin 516) (acc : BitVec 2) (d : BitVec 5) (ln : BitVec 2) (sh : BitVec 5)
  /-- VADD (R253). Instruction vadd. -/
  | vadd (core : Fin 516) (d : BitVec 5) (s : BitVec 5) (t : BitVec 5)
  /-- VSUB (R253). Instruction vsub. -/
  | vsub (core : Fin 516) (d : BitVec 5) (s : BitVec 5) (t : BitVec 5)
  /-- VACSX (R255). Instruction vacsx, add-compare-select maximum. -/
  | vacsx (core : Fin 516) (d : BitVec 5) (s : BitVec 5) (t : BitVec 5) (b : BitVec 5)
  /-- VACSN (R255). Instruction vacsn, add-compare-select minimum. -/
  | vacsn (core : Fin 516) (d : BitVec 5) (s : BitVec 5) (t : BitVec 5) (b : BitVec 5)
  /-- MFP (R442). Control-core instruction mfp reads a privileged register. -/
  | mfp (core : Fin 516) (d : BitVec 5) (n : Nat)
  /-- MTP (R442). Control-core instruction mtp writes a privileged register. -/
  | mtp (core : Fin 516) (n : Nat) (x : BitVec 5)
  /-- WFI (R442). Control-core instruction wfi waits for an enabled interrupt. -/
  | wfi (core : Fin 516)
  /-- IRET (R442). Control-core instruction iret resumes at epc. -/
  | iret (core : Fin 516)
  /-- FENCEF (R442). Control-core instruction fencef waits for earlier writes to complete. -/
  | fencef (core : Fin 516)
  /-- ROMCALL (R457). Control-core instruction romcall 0 enters the ROM swap service for live replacement. -/
  | romcall (core : Fin 516) (n : Nat)
  /-- KERNEL_KEY_SET (R286). Set a tenant kernel key slot. -/
  | kernelKeySet (c : Cmd)
  /-- KERNEL_LOAD (R286). Verify a signed kernel image and place it. -/
  | kernelLoad (c : Cmd)
  /-- KERNEL_UNLOAD (R290). Unload a kernel no queue or chain names. -/
  | kernelUnload (c : Cmd)
  /-- KERNEL_QUEUE_CFG (R287). Configure or claim a dispatch queue and bind its kernel. -/
  | kernelQueueCfg (c : Cmd)
  /-- KERNEL_QUEUE_RELEASE (R269). Flush and release a dispatch queue. -/
  | kernelQueueRelease (c : Cmd)
  /-- KERNEL_CHAIN_SET (R288). Define a processing chain. -/
  | kernelChainSet (c : Cmd)
  /-- KERNEL_QUERY (R290). Write a queue's or kernel's state and counters to host memory. -/
  | kernelQuery (c : Cmd)
  /-- KERNEL_RESUME (R282). Lift a kernel's suspension. -/
  | kernelResume (c : Cmd)
  /-- KERNEL_TENANT_SET (R272). Set a tenant's item minimum on channel 0. -/
  | kernelTenantSet (c : Cmd)
  /-- KEYWIN_LOCK_ACQUIRE (R303). An acquiring read of KEYWIN_LOCK takes the lock or reports the holder. -/
  | keywinLockAcquire (owner : Nat) (el : Nat)
  /-- KEYWIN_RELEASE (R303). The holder frees the key-window lock. -/
  | keywinRelease (owner : Nat) (v : Word)
  /-- KEYWIN_LOCK_TIMEOUT (R304). The lock is held 100 µs and the window releases it, zeroing KEYWIN_DATA. -/
  | keywinLockTimeout (el : Nat)
  /-- KEYWIN_LOAD (R305). A KEYWIN_CMD LOAD writes the inactive half with a new generation, immediate or at an index. -/
  | keywinLoad (owner : Nat) (v : Word) (el : Nat)
  /-- KEYWIN_ERASE (R311). A KEYWIN_CMD ERASE zeroes both halves and the index state of a slot. -/
  | keywinErase (owner : Nat) (v : Word) (el : Nat)
  /-- KEY_LOAD (R305). Derive session keys and load them into a slot. -/
  | keyLoad (c : Cmd)
  /-- KEY_LOAD_DTLS (R318). Load a slot from a leg's DTLS-SRTP exporter keys. -/
  | keyLoadDtls (c : Cmd)
  /-- KEY_ERASE (R311). Erase a key slot. -/
  | keyErase (c : Cmd)
  /-- KEY_RELEASE (R296). Erase a key slot and give up its ownership. -/
  | keyRelease (c : Cmd)
  /-- KEY_QUERY (R295). Write a slot's state, indices and counters to host memory. -/
  | keyQuery (c : Cmd)
  /-- TAMPER_ARM (R314). Firmware arms tamper sensors 3–5, running Bleach if a sensor is already in alarm. -/
  | tamperArm (v : Word) (active : BitVec 6)
  /-- TAMPER_ALARM (R315). An armed sensor alarms and Bleach stops the lanes and zeroes every key. -/
  | tamperAlarm (sensor : Fin 6)
  /-- CRYPT_BLEACH (R314). Firmware triggers Bleach by writing CRYPT_CTRL.BLEACH. -/
  | cryptBleach
  /-- BLEACH_COMPLETE (R315). Bleach finishes, lanes restart with every slot EMPTY and firmware is notified. -/
  | bleachComplete
  /-- BLEACH_POLL (R316). Every 1 ms after Bleach firmware reads ACTIVE and clears BLEACHED when no armed sensor is in alarm. -/
  | bleachPoll (active : BitVec 6)
  /-- BLEACHED_CLEAR (R316). A W1C of CRYPT_STAT.BLEACHED is accepted only without an active armed alarm. -/
  | bleachedClear (active : BitVec 6)
  /-- HBMC_ENABLE (R348). Firmware enables an HBM controller, which trains or resumes from self-refresh. -/
  | hbmcEnable (n : Fin 2) (v : Word)
  /-- HBM_TRAINING_COMPLETE (R325). HBM training ends and the controller becomes ACTIVE or FAILED. -/
  | hbmTrainingComplete (n : Fin 2) (ok : Bool)
  /-- HBM_REQUEST (R331). A master's request reaches an HBM port, possibly raising PANIC, waiting on a posted write or starting a self-refresh exit. -/
  | hbmRequest (n : Fin 2) (port : Fin 16) (write : Bool) (addr : Nat) (tenant : Option (Fin 4)) (data : List Byte) (el : Nat)
  /-- POSTED_WRITE_DRAIN (R333). A posted write drains to its pseudo-channel queue and becomes complete. -/
  | postedWriteDrain (n : Fin 2)
  /-- HBM_UNIT_ISSUE (R330). A pseudo-channel scheduler issues a unit as activate plus access with auto-precharge. -/
  | hbmUnitIssue (n : Fin 2) (pc : Fin 64)
  /-- HBM_READ_COMPLETE (R340). A read's data returns and the outer decode delivers it clean, corrected or as a bus error. -/
  | hbmReadComplete (n : Fin 2) (ecc : EccFact)
  /-- REFRESH_DUE (R336). A pseudo-channel's refresh interval expires; the refresh is issued or postponed. -/
  | refreshDue (n : Fin 2) (pc : Fin 64)
  /-- HBM_TEMP_READ (R335). Every 1 ms the controller reads stack temperature and sets hot, cool or critical. -/
  | hbmTempRead (n : Fin 2) (temp : Option Byte)
  /-- SCRUB_READ (R342). The scrubber's interval expires and it reads, and if needed writes back, the next unit. -/
  | scrubRead (n : Fin 2) (ecc : EccFact)
  /-- SR_IDLE_TIMEOUT (R344). The controller idles for SR_IDLE_US with everything asleep and starts self-refresh entry. -/
  | srIdleTimeout (n : Fin 2)
  /-- SR_ENTRY_COMPLETE (R344). Self-refresh entry completes and the controller clock is gated. -/
  | srEntryComplete (n : Fin 2)
  /-- SR_EXIT_COMPLETE (R345). Self-refresh exit completes and the controller becomes ACTIVE. -/
  | srExitComplete (n : Fin 2)
  /-- WIN_FENCE (R347). Firmware sets HBMC_WIN_FENCE to wait for accesses checked under old windows. -/
  | winFence
  /-- WIN_FENCE_CLEAR (R347). Every access checked before the fence completes and FENCE clears. -/
  | winFenceClear
  /-- MBX_POST (R357). A POST write of MBX_DB posts the message and interrupts the receiver, or collides, or wakes. -/
  | mbxPost (a : Agent) (ch : Fin 64)
  /-- MBX_WAKE (R358). A WAKE write of MBX_DB wakes the receiver's domain. -/
  | mbxWake (a : Agent) (ch : Fin 64)
  /-- MBX_MSG_WRITE (R361). A sender writes a message word, colliding when FULL is 1. -/
  | mbxMsgWrite (a : Agent) (ch : Fin 64) (w : Fin 16) (v : Word)
  /-- MBX_ACK_WRITE (R359). The receiver writes MBX_ACK, clearing FULL, setting DONE and interrupting the sender. -/
  | mbxAckWrite (a : Agent) (ch : Fin 64) (v : Word)
  /-- MBX_WORD15_READ (R360). On channels 0–3 the receiver's read of word 15 clears FULL and sets DONE. -/
  | mbxWord15Read (a : Agent) (ch : Fin 64)
  /-- COMMAND_STALE (R367). A command waits more than 100 ms to be taken and is answered BUSY. -/
  | commandStale (c : Cmd)
  /-- NOTIFICATION_POST (R369). Firmware posts a waiting notification once its channel is acknowledged or its event ring has space. -/
  | notificationPost (dest : NoteDest)
  /-- MCTP_ENDPOINT_REASSIGN (R363). The board management controller's MCTP endpoint is reassigned, incrementing channel 0's epoch. -/
  | mctpEndpointReassign
  /-- SIDEBAND_MCTP_MESSAGE (R438). An MCTP message arrives on the sideband for MCTP control, PLDM or channel 0/1. -/
  | sidebandMctpMessage (typ : Byte) (body : List Byte)
  /-- SYS_NOP (R373). Answer OK with no effect. -/
  | sysNop (c : Cmd)
  /-- SYS_HELLO (R370). Negotiate the Vusta version. -/
  | sysHello (c : Cmd)
  /-- SYS_CAPS (R374). Write the capability record to host memory. -/
  | sysCaps (c : Cmd)
  /-- SYS_INFO (R511). Write the information record to host memory. -/
  | sysInfo (c : Cmd)
  /-- SYS_SHUTDOWN (R375). Start an orderly shut-down, optionally with the Test strip and power-off. -/
  | sysShutdown (c : Cmd)
  /-- SYS_NOTIFY_CFG (R369). Route a family's notifications to a channel or event ring. -/
  | sysNotifyCfg (c : Cmd)
  /-- TELEM_METER_SET (R377). Stream listed meters to a Loupe ring. -/
  | telemMeterSet (c : Cmd)
  /-- TELEM_METER_STOP (R378). Stop a meter stream. -/
  | telemMeterStop (c : Cmd)
  /-- TELEM_METER_READ (R377). Write the current listed meter entries to host memory. -/
  | telemMeterRead (c : Cmd)
  /-- TELEM_COUNTERS (R379). Write a counter snapshot of one block on channel 0. -/
  | telemCounters (c : Cmd)
  /-- METER_SAMPLE (R377). A meter stream's period ends and it writes an entry per listed meter. -/
  | meterSample (stream : Fin 256) (cons : Nat) (el : Nat)
  /-- PCIE_LINK_CHANGE (R386). A host port's link trains, retrains or goes down, reporting speed and width. -/
  | pcieLinkChange (port : Fin 4) (up : Bool) (speed : BitVec 3) (width : BitVec 2) (reversed : Bool)
  /-- PCIE_CONFIG_WRITE (R388). A host writes a function's configuration space, such as NumVFs or Bus Master Enable. -/
  | pcieConfigWrite (fn : Fin 256) (w : CfgWrite)
  /-- FUNCTION_LEVEL_RESET (R408). A function reset stops DMA, resets rings and marks the function's objects dying. -/
  | functionLevelReset (fn : Fin 256)
  /-- VF_ENABLE_CLEAR (R408). A PF clears VF Enable, resetting every VF of the tenant. -/
  | vfEnableClear (tenant : Fin 4)
  /-- HOT_RESET (R408). A hot reset or loss of link resets every function of the port. -/
  | hotReset (port : Fin 4)
  /-- PERST_ASSERT (R408). PERST_N goes low and resets every function of the port. -/
  | perstAssert (port : Fin 4)
  /-- OBJECT_DESTRUCTION_END (R409). A dying object's destruction ends and its identifiers are freed. -/
  | objectDestructionEnd (obj : ObjId)
  /-- FLR_READY (R408). Function cleanup ends by 100 ms, the HP_FLR bit clears and the function accepts requests. -/
  | flrReady (fn : Fin 256)
  /-- UNCLAIMED_REQUEST (R512). A memory request to a non-existent or resetting function completes as Unsupported Request or is discarded. -/
  | unclaimedRequest (fn : Fin 256) (write : Bool)
  /-- RING_ENABLE (R398). A write of RING_CTRL.ENABLE = 1 enables the ring or is refused with ERR. -/
  | ringEnable (r : Fin 4096) (v : Word)
  /-- RING_DISABLE (R398). A write of ENABLE = 0 flushes the ring or is refused with PAIRED. -/
  | ringDisable (r : Fin 4096) (v : Word)
  /-- RING_DMA_FAIL (R404). A ring DMA fails, disabling the ring, raising vector 15 and reporting AER. -/
  | ringDmaFail (r : Fin 4096) (moved : Nat)
  /-- RING_INT_MOD_EXPIRY (R403). A ring's moderation period ends and one vector is raised for its events. -/
  | ringIntModExpiry (r : Fin 4096) (el : Nat)
  /-- PD_REQ_WRITE (R415). Firmware writes a domain's or cluster's REQ, starting sleep or wake or being refused. -/
  | pdReqWrite (d : Fin 99) (v : Word)
  /-- SLEEP_ENTRY_COMPLETE (R418). A domain's sleep entry completes and it reaches CLK_STOPPED or OFF. -/
  | sleepEntryComplete (d : Fin 99)
  /-- WAKE_COMPLETE (R419). A domain's wake sequence completes and it becomes ON. -/
  | wakeComplete (d : Fin 99)
  /-- POWER_GOOD_TIMEOUT (R415). Power-good is not reached within 200 µs and the domain goes FAILED. -/
  | powerGoodTimeout (d : Fin 99)
  /-- DOMAIN_RESET (R422). A DOM_RESET write resets one tile, cluster or engine. -/
  | domainReset (d : Fin 99)
  /-- WARM_RESET (R423). A warm reset resets every domain but Safelight and reboots. -/
  | warmReset (wdog : Bool)
  /-- WDOG_ENABLE (R424). Firmware starts the control watchdog until power-on reset. -/
  | wdogEnable (v : Word) (el : Nat)
  /-- WDOG_KICK (R424). Firmware kicks the watchdog, restarting its timeout. -/
  | wdogKick (v : Word) (el : Nat)
  /-- WATCHDOG_EXPIRY (R424). The watchdog times out and triggers a warm reset with cause WATCHDOG. -/
  | watchdogExpiry (el : Nat)
  /-- POWER_ON_RESET (R491). PORST_N is held low and the whole device is reset. -/
  | powerOnReset
  /-- BROWN_OUT (R491). A Safelight supply stays below its threshold and causes power-on reset. -/
  | brownOut
  /-- PORST_RELEASE (R448). PORST_N rises, straps are sampled and the cold boot runs. -/
  | porstRelease (straps : BitVec 4) (sysref : Bool) (testEn : Bool) (board : Option Board)
  /-- XTAL_FAIL (R414). SYSREF fails and Safelight moves its clocks to the RC oscillator. -/
  | xtalFail
  /-- XTAL_RETURN (R414). After RETURN is set and XTAL_GOOD holds 10 ms, clocks switch back to SYSREF. -/
  | xtalReturn
  /-- TIME_STEP_COMMIT (R429). A write of TIME_STEP_HI commits a step offset. -/
  | timeStepCommit (lo : Word) (hi : Word)
  /-- TIME_STEP_APPLY (R429). At the next tick Safelight adds the step to device time or sets STEP_BAD. -/
  | timeStepApply
  /-- PPS_IN_EDGE (R430). A PPS_IN rising edge is captured or ignored. -/
  | ppsInEdge (el : Nat)
  /-- PPS_OUT_PULSE (R430). Device time reaches the PPS offset and PPS_OUT rises, falling after WIDTH_US. -/
  | ppsOutPulse (rise : Bool) (el : Nat)
  /-- SERVO_HOLDOVER (R431). No servo sample arrives for 3 s and the servo enters HOLDOVER. -/
  | servoHoldover (el : Nat)
  /-- SAFELIGHT_TIMER_EXPIRY (R433). A periodic timer expires and posts a TIMER item to its queue. -/
  | safelightTimerExpiry (timer : Fin 256) (el : Nat)
  /-- THERMAL_SAMPLE (R437). Every millisecond Safelight reads Tj and sets or clears WARN. -/
  | thermalSample (tj : Byte) (hbmCrit : Bool)
  /-- THERMAL_TRIP (R437). Tj holds at TRIP_C for 1 ms and every fast domain powers off. -/
  | thermalTrip (tj : Byte)
  /-- FAN_WRITE_TIMEOUT (R436). No SAFE_FAN write for 5 s forces every fan to 100 %. -/
  | fanWriteTimeout (el : Nat)
  /-- TIME_GET (R431). Return device time and servo state. -/
  | timeGet (c : Cmd)
  /-- TIME_SOURCE_SET (R431). Set the servo mode and step threshold on channel 0. -/
  | timeSourceSet (c : Cmd)
  /-- TIME_TOD (R431). Give the TAI second of the next PPS edge. -/
  | timeTod (c : Cmd)
  /-- TIME_OFFSET (R431). Give an offset sample to the servo. -/
  | timeOffset (c : Cmd)
  /-- TIME_PPS_OUT_SET (R430). Set PPS_OUT enable, width and offset. -/
  | timePpsOutSet (c : Cmd)
  /-- TIME_TIMER_SET (R433). Set or stop a periodic timer. -/
  | timeTimerSet (c : Cmd)
  /-- TIME_QUERY (R431). Write servo state, rate and recent offsets to host memory. -/
  | timeQuery (c : Cmd)
  /-- JRNL_PROGRAM (R462). A JRNL_CMD PROGRAM starts a page program after the hold-up check, or is refused. -/
  | jrnlProgram (v : Word) (sense : Nat)
  /-- JRNL_ERASE (R462). A JRNL_CMD ERASE starts a sector erase after the hold-up check, or is refused. -/
  | jrnlErase (v : Word) (sense : Nat)
  /-- JRNL_FUSE (R452). A JRNL_CMD FUSE burns one anti-rollback step after the hold-up check, or is refused. -/
  | jrnlFuse (v : Word) (sense : Nat)
  /-- COMMIT_COMPLETE (R462). A flash program, erase or fuse burn finishes and reports DONE or FLASH_ERR. -/
  | commitComplete (ok : Bool)
  /-- PFAIL_ASSERT (R463). PFAIL_N low for 1 µs sets PFAIL and blocks new commits. -/
  | pfailAssert
  /-- PFAIL_RELEASE (R463). PFAIL_N stays high for 10 ms and commits are allowed again. -/
  | pfailRelease
  /-- TRUST_SIGN (R453). Firmware sets TRUST_SIGN.GO to sign a body, or is refused when the root is locked. -/
  | trustSign (v : Word)
  /-- SIGN_COMPLETE (R453). The trust block finishes both signatures and reports DONE. -/
  | signComplete
  /-- JRNL_ATTEST (R455). Write a signed attestation report to host memory. -/
  | jrnlAttest (c : Cmd)
  /-- JRNL_IDENTITY (R453). Write the identity public keys and certificates to host memory. -/
  | jrnlIdentity (c : Cmd)
  /-- JRNL_READ (R460). Write journal records to host memory. -/
  | jrnlRead (c : Cmd)
  /-- JRNL_SNAPSHOT (R461). Commit a SNAPSHOT record of the tenant. -/
  | jrnlSnapshot (c : Cmd)
  /-- JRNL_RESTORE (R464). Recreate the tenant's objects from its newest snapshot. -/
  | jrnlRestore (c : Cmd)
  /-- JRNL_STATUS (R462). Return journal and hold-up status. -/
  | jrnlStatus (c : Cmd)
  /-- JRNL_FW_STAGE (R456). Write 48 image bytes into the staging slot, verifying on FINAL. -/
  | jrnlFwStage (c : Cmd)
  /-- JRNL_FW_ACTIVATE (R457). Activate the staged slot at next boot or by live replacement. -/
  | jrnlFwActivate (c : Cmd)
  /-- JRNL_FW_CONFIRM (R459). Make the TRIAL slot ACTIVE. -/
  | jrnlFwConfirm (c : Cmd)
  /-- JRNL_ROLLBACK_SET (R452). Raise the OTP anti-rollback counter. -/
  | jrnlRollbackSet (c : Cmd)
  /-- JRNL_KEY_REVOKE (R466). Revoke an OTP key entry. -/
  | jrnlKeyRevoke (c : Cmd)
  /-- JRNL_TENANT_PIN (R466). Pin or unpin a tenant's kernel key block. -/
  | jrnlTenantPin (c : Cmd)
  /-- TSTRIP_GO (R471). A GO write at a test position starts the test of one unit. -/
  | tstripGo (pos : Fin 16) (v : Word)
  /-- TSTRIP_ABORT (R483). An ABORT write stops a unit's test within 50 µs and resets its domain. -/
  | tstripAbort (pos : Fin 16)
  /-- UNIT_TEST_DONE (R471). A unit's test ends and its signature and march results give its verdict. -/
  | unitTestDone (pos : Fin 16) (sig : DWord) (memFail : Bool)
  /-- TEST_SCHEDULE_EXPIRY (R474). The scheduled-run period expires and a SCHEDULED run starts. -/
  | testScheduleExpiry (el : Nat)
  /-- TEST_RESULT_RETRY (R479). Every 10 ms a refused TEST_RESULT commit is retried, abandoned after 1 s. -/
  | testResultRetry (el : Nat)
  /-- TEST_RUN (R474). Start a scheduled run now on channel 0. -/
  | testRun (c : Cmd)
  /-- TEST_SCHEDULE (R474). Set or stop the scheduled-run period. -/
  | testSchedule (c : Cmd)
  /-- TEST_RESULT (R478). Write retention words 0–11 and the signatures to host memory. -/
  | testResult (c : Cmd)
  /-- TEST_FENCE (R481). Fence a unit on channel 0. -/
  | testFence (c : Cmd)
  /-- TEST_UNFENCE (R481). Lift a unit's fence unless its verdict is failed. -/
  | testUnfence (c : Cmd)
  /-- TEST_POLICY (R482). Set the run-time fencing limits. -/
  | testPolicy (c : Cmd)
  /-- SYSREF_SWITCH (R414). After power-on reset, once the clock monitor has seen SYSREF within ±2 % of the RC frequency for 1 ms, Safelight moves SAFE_SLOW and the PLL references from the RC oscillator to SYSREF and sets ON_XTAL. -/
  | sysrefSwitch
  /-- KEYWIN_COMMIT_DONE (R305). A committed key-window LOAD or ERASE finishes within 200 ns, zeroes KEYWIN_DATA and posts DONE, HALF_BUSY or BAD_PARAM in KEYWIN_RESULT. -/
  | keywinCommitDone
  deriving DecidableEq, Repr

end Sys2Proof
end

