-- ==== Sys2Proof/Decode.lean ====
section
/-! DEFINITION. The command that a word of the opcode table spells, and the instruction that a word of a core's image
spells (R241, R242). -/

namespace Sys2Proof

/-- The opcode table gives bits to no row, so no word spells a command. -/
def decodeTableWord (_nbits _w : Nat) : Option Instr := none

/-! ### The words of a core's image (R241, R242) -/

/-- What a core makes of an instruction word. -/
inductive CoreWord where
  /-- An instruction. -/
  | run (i : Instr)
  /-- An unlisted group, fn or sub value, or a reserved field that is not zero. -/
  | illegal
  /-- Groups 0x1C to 0x1F on a media core. -/
  | privileged
  deriving DecidableEq, Repr

/-- `n` bits of a word from bit `lo` up. -/
def wordField (w : Word) (lo n : Nat) : BitVec n := w.extractLsb' lo n

/-- An instruction whose reserved fields must be zero. -/
def CoreWord.when (reserved : Nat) (i : Instr) : CoreWord := if reserved = 0 then .run i else .illegal

/-- Format T, group 0x00: register arithmetic. -/
def decodeAlu (c : Fin 516) (d a b sh : BitVec 5) (fn : Nat) : CoreWord :=
  match fn with
  | 0x00 => .when sh.toNat (.add c d a b)
  | 0x01 => .when sh.toNat (.sub c d a b)
  | 0x02 => .when sh.toNat (.and c d a b)
  | 0x03 => .when sh.toNat (.or c d a b)
  | 0x04 => .when sh.toNat (.xor c d a b)
  | 0x08 => .when b.toNat (.shl c d a sh)
  | 0x09 => .when b.toNat (.shr c d a sh)
  | 0x0A => .when b.toNat (.sar c d a sh)
  | 0x0C => .when sh.toNat (.shlv c d a b)
  | 0x0D => .when sh.toNat (.shrv c d a b)
  | 0x0E => .when sh.toNat (.sarv c d a b)
  | 0x10 => .when sh.toNat (.cmplt c d a b)
  | 0x11 => .when sh.toNat (.cmpltu c d a b)
  | 0x12 => .when sh.toNat (.min c d a b)
  | 0x13 => .when sh.toNat (.max c d a b)
  | 0x14 => .when (b.toNat + sh.toNat) (.abs c d a)
  | 0x18 => .when sh.toNat (.mul c d a b)
  | 0x19 => .when sh.toNat (.mulhi c d a b)
  | _ => .illegal

/-- Format T, group 0x0B; `mfs` and `mts` carry their number in [16:11] (R241). The register of `mts` is the a field. -/
def decodeCtl (c : Fin 516) (w : Word) (d a b sh : BitVec 5) (fn : Nat) : CoreWord :=
  let n := wordField w 11 6
  let low := (wordField w 7 4).toNat
  match fn with
  | 0x00 => .when (d.toNat + a.toNat + b.toNat + sh.toNat) (.done c none)
  | 0x01 => .when (a.toNat + low) (.mfs c d n)
  | 0x02 => .when (d.toNat + low) (.mts c n a)
  | 0x03 => .when (d.toNat + a.toNat + b.toNat) (.lbrk c sh)
  | 0x04 => .when (d.toNat + a.toNat + b.toNat) (.dmaw c sh)
  | 0x05 => .when (a.toNat + b.toNat + sh.toNat) (.dmas c d)
  | _ => .illegal

/-- Format T, group 0x0E: far access and DMA. -/
def decodeFar (c : Fin 516) (d a b sh : BitVec 5) (fn : Nat) : CoreWord :=
  match fn with
  | 0x00 => .when (b.toNat + sh.toNat) (.ldf c d a)
  | 0x01 => .when (d.toNat + sh.toNat) (.stf c b a)
  | 0x02 => .run (.dmai c d a b sh)
  | 0x03 => .run (.dmao c d a b sh)
  | _ => .illegal

/-- Format T, group 0x1C of a control core (R442): n in the sh field. -/
def decodePriv (c : Fin 516) (d a b sh : BitVec 5) (fn : Nat) : CoreWord :=
  match fn with
  | 0x00 => .when (a.toNat + b.toNat) (.mfp c d sh.toNat)
  | 0x01 => .when (d.toNat + b.toNat) (.mtp c sh.toNat a)
  | 0x02 => .when (d.toNat + a.toNat + b.toNat + sh.toNat) (.wfi c)
  | 0x03 => .when (d.toNat + a.toNat + b.toNat + sh.toNat) (.iret c)
  | 0x04 => .when (d.toNat + a.toNat + b.toNat + sh.toNat) (.fencef c)
  | 0x05 => .when (d.toNat + a.toNat + b.toNat) (.romcall c sh.toNat)
  | _ => .illegal

/-- Format P, group 0x0C. -/
def decodeLoop (c : Fin 516) (w : Word) : CoreWord :=
  let res := (wordField w 12 1).toNat
  if wordField w 24 1 = 0 then .when res (.loop c (wordField w 25 2) false (wordField w 13 11) 0 (wordField w 0 12))
  else .when (res + (wordField w 18 6).toNat) (.loop c (wordField w 25 2) true 0 (wordField w 13 5) (wordField w 0 12))

/-- Format X, group 0x0D: g is reserved for sub 0 to 4, imm16 for sub 5. -/
def decodeAddr (c : Fin 516) (w : Word) : CoreWord :=
  let x := wordField w 21 3
  let g := wordField w 16 5
  let imm := wordField w 0 16
  match (wordField w 24 3).toNat with
  | 0 => .when g.toNat (.setx c x imm)
  | 1 => .when g.toNat (.seto c x imm)
  | 2 => .when g.toNat (.setcb c x imm)
  | 3 => .when g.toNat (.setcl c x imm)
  | 4 => .when g.toNat (.addx c x imm)
  | 5 => .when imm.toNat (.movx c x g)
  | _ => .illegal

/-- Format V, VR form, group 0x18: the fields that an instruction does not use are reserved. -/
def decodeVr (c : Fin 516) (w : Word) : CoreWord :=
  let a := wordField w 25 2
  let gs := wordField w 16 5
  let gt := wordField w 11 5
  let gd := wordField w 6 5
  let gb := wordField w 1 5
  let z := (wordField w 0 1).toNat
  match (wordField w 21 4).toNat with
  | 0x0 => .when (gs.toNat + gt.toNat + gd.toNat + gb.toNat + z) (.vclr c a)
  | 0x1 => .when (gd.toNat + gb.toNat + z) (.vmpy c a (.vr gs gt))
  | 0x2 => .when (gd.toNat + gb.toNat + z) (.vmac c a (.vr gs gt))
  | 0x3 => .when (gd.toNat + gb.toNat + z) (.vmsu c a (.vr gs gt))
  | 0x4 => .when (gt.toNat + gd.toNat + z) (.vld c a (.vr gs) gb)
  | 0x5 => .when (gs.toNat + gt.toNat + z) (.vst c a (.vr gd) gb)
  | 0x6 => .when (gs.toNat + gt.toNat + z) (.vred c a gd gb)
  | 0x7 => .when (gs.toNat + (wordField w 13 3).toNat + z) (.vext c a gd (wordField w 11 2) gb)
  | 0x8 => .when (a.toNat + gb.toNat + z) (.vadd c gd gs gt)
  | 0x9 => .when (a.toNat + gb.toNat + z) (.vsub c gd gs gt)
  | 0xA => .when (a.toNat + z) (.vacsx c gd gs gt gb)
  | 0xB => .when (a.toNat + z) (.vacsn c gd gs gt gb)
  | _ => .illegal

/-- Format V, VM form, group 0x19. -/
def decodeVm (c : Fin 516) (w : Word) : CoreWord :=
  let a := wordField w 25 2
  let xA := wordField w 18 3
  let mA := wordField w 16 2
  let xB := wordField w 13 3
  let mB := wordField w 11 2
  let sh := wordField w 6 5
  let z := (wordField w 0 6).toNat
  match (wordField w 21 4).toNat with
  | 0x1 => .when (sh.toNat + z) (.vmpy c a (.vm xA mA xB mB))
  | 0x2 => .when (sh.toNat + z) (.vmac c a (.vm xA mA xB mB))
  | 0x3 => .when (sh.toNat + z) (.vmsu c a (.vm xA mA xB mB))
  | 0x4 => .when (xB.toNat + mB.toNat + z) (.vld c a (.vm xA mA) sh)
  | 0x5 => .when (xB.toNat + mB.toNat + z) (.vst c a (.vm xA mA) sh)
  | _ => .illegal

/-- What core `c` makes of a word (R241, R242): bits [31:27] are the group, which fixes the format of the others. `ctl`: the
core is a control core, whose group 0x1C R442 gives. -/
def decodeCore (ctl : Bool) (c : Fin 516) (w : Word) : CoreWord :=
  let group := (wordField w 27 5).toNat
  -- formats T, M and C
  let d := wordField w 22 5
  let a := wordField w 17 5
  let b := wordField w 12 5
  let sh := wordField w 7 5
  let fn := (wordField w 0 7).toNat
  let imm := wordField w 0 16
  let bit16 := (wordField w 16 1).toNat
  let u := bit16 == 1
  -- format L: a displacement is reserved unless pm is 0 (R246)
  let x := wordField w 19 3
  let pm := wordField w 17 2
  let resL := bit16 + if pm = 0 then 0 else imm.toNat
  match group with
  | 0x00 => decodeAlu c d a b sh fn
  | 0x01 => .when bit16 (.addk c d a imm)
  | 0x02 => .when bit16 (.ork c d a imm)
  | 0x03 => .when bit16 (.andk c d a imm)
  | 0x04 => .when bit16 (.brEq c d a imm)
  | 0x05 => .when bit16 (.brNe c d a imm)
  | 0x06 => .run (.brLt c d a u imm)
  | 0x07 => .run (.brGe c d a u imm)
  | 0x08 => .when bit16 (.cmpltk c d a imm)
  | 0x09 => .when (a.toNat + bit16) (.movh c d imm)
  | 0x0A => .run (.call c (wordField w 0 27))
  | 0x0B => decodeCtl c w d a b sh fn
  | 0x0C => decodeLoop c w
  | 0x0D => decodeAddr c w
  | 0x0E => decodeFar c d a b sh fn
  | 0x0F => if fn = 0 then .when (d.toNat + b.toNat + sh.toNat) (.jmpr c a) else .illegal
  | 0x10 => .when resL (.ldH c d x pm imm)
  | 0x11 => .when resL (.ldHu c d x pm imm)
  | 0x12 => .when resL (.ldW c d x pm imm)
  | 0x13 => .when resL (.ldD c d x pm imm)
  | 0x14 => .when resL (.stH c d x pm imm)
  | 0x15 => .when resL (.stW c d x pm imm)
  | 0x16 => .when resL (.stD c d x pm imm)
  | 0x18 => decodeVr c w
  | 0x19 => decodeVm c w
  | 0x1C => if ctl then decodePriv c d a b sh fn else .privileged
  | 0x1D | 0x1E | 0x1F => if ctl then .illegal else .privileged
  | _ => .illegal

end Sys2Proof
end

