-- ==== Sys2Proof/Config.lean ====
section
/-! DEFINITION. What the spec leaves to the part or leaves open: opaque values that no proof can see. -/

namespace Sys2Proof

/-- A fresh value that the spec does not state, numbered by the model's counter `State.freeCtr`. -/
opaque Config.freeWord : Nat → Word
/-- A fresh bit that the spec does not state. -/
opaque Config.freeBit : Nat → Bool
/-- Fresh bytes that the spec does not state: byte `i` of the data numbered by the model's counter. -/
opaque Config.freeByte : Nat → Nat → Byte
/-- Bytes of a grey start picture plus one floor-skip picture of a codec at a size (R207), which outside standards fix. -/
opaque Config.floorBytes : Nat → Nat → Nat → Nat
/-- The result of a transform that the spec takes from an outside standard (a cipher, a hash, a key derivation), as a
function of the transform's number and its input words. -/
opaque Config.transform : Nat → List Word → List Word
/-- The same over bytes (a packet cipher). -/
opaque Config.byteTransform : Nat → List Nat → List Byte → List Byte
/-- A sample of the 48-tap polyphase filter that resamples by a factor (R116): the factor, the phase, and the last 48 input
samples, newest last. The spec gives no coefficients. -/
opaque Config.resample : Nat → Nat → List Int → BitVec 16
/-- Is the inbound Opus of a stream super-wide-band or full-band (R140)? No command says. -/
opaque Config.opusWide : Nat → Bool
/-- A luma sample at a fractional position of the motion search (R185): the position's eighths across and down, and the 8 × 8
samples around it. The spec gives no interpolation filter. -/
opaque Config.fracSample : Nat → Nat → List Nat → Nat
/-- A row's estimate (R186), whose derivation the spec leaves to the coders: the rendition's ratio, the quantiser, and the costs of
the analysis blocks that the row covers. -/
opaque Config.rowEstimate : Nat → Nat → List Nat → Nat
/-- The rendition's ratio after a picture (R186): the ratio before, the estimates and the actual sizes of its rows. -/
opaque Config.ratioNext : Nat → List Nat → List Nat → Nat
/-- Bytes of a row coded as floor-skip (R199): the picture's number among the free data, and the row. -/
opaque Config.floorRow : Nat → Nat → Nat
/-- A tap of a bank's default Kaiser-windowed sinc (R220): bank, phase, tap. The spec gives no window parameter. -/
opaque Config.kaiser : Nat → Nat → Nat → BitVec 12
/-- Is the codec's vector prediction at a block of a picture zero, or has it a zero candidate (R188)? -/
opaque Config.zeroPred : Nat → Nat → Nat → Bool
/-- The golden signature of a kind of test unit, which OTP holds for the part's stepping (R470). -/
opaque Config.golden : Nat → DWord

end Sys2Proof
end

