-- ==== Sys2Proof/Machine/Bits.lean ====
section
/-! DEFINITION. Bit fields, signed readings and byte order, said once. -/

namespace Sys2Proof.Machine

/-- Bits [hi:lo] of a natural number. -/
def bits (n hi lo : Nat) : Nat := (n >>> lo) % 2 ^ (hi + 1 - lo)

/-- Field [hi:lo] of a word. -/
def fld (w : Word) (hi lo : Nat) : Nat := bits w.toNat hi lo

/-- Bit `i` of a word. -/
def bit (w : Word) (i : Nat) : Bool := w.toNat.testBit i

/-- A word with ones in [hi:lo]. -/
def maskW (hi lo : Nat) : Word := BitVec.ofNat 32 ((2 ^ (hi + 1 - lo) - 1) * 2 ^ lo)

/-- A word with field [hi:lo] replaced. -/
def putF (w : Word) (hi lo v : Nat) : Word :=
  (w &&& ~~~ maskW hi lo) ||| BitVec.ofNat 32 (v % 2 ^ (hi + 1 - lo) * 2 ^ lo)

/-- A word with bit `i` replaced. -/
def putB (w : Word) (i : Nat) (b : Bool) : Word := putF w i i (if b then 1 else 0)

/-- A Boolean as a number. -/
def b2n (b : Bool) : Nat := if b then 1 else 0

/-- The two's-complement reading of the low `n` bits. -/
def sx (v n : Nat) : Int := if v % 2 ^ n < 2 ^ (n - 1) then (v % 2 ^ n : Nat) else ((v % 2 ^ n : Nat) : Int) - (2 ^ n : Nat)

/-- An integer reduced modulo `2 ^ n` to a natural number. -/
def wrapN (v : Int) (n : Nat) : Nat := (v % ((2 ^ n : Nat) : Int)).toNat

/-- Clamp to the signed range of `n` bits. -/
def satI (n : Nat) (v : Int) : Int :=
  let h : Int := ((2 ^ (n - 1) : Nat) : Int)
  if v < -h then -h else if h ≤ v then h - 1 else v

/-- Distance from `b` up to `a` modulo `2 ^ n` (R9's difference). -/
def dist (n a b : Nat) : Nat := (a + 2 ^ n - b % 2 ^ n) % 2 ^ n

/-- R9: `a` is newer than `b` in an `n`-bit circular comparison: the difference is between 1 and half the range. -/
def newer (n a b : Nat) : Bool := dist n a b != 0 && dist n a b < 2 ^ (n - 1)

/-- Little-endian number of a byte list (R6). -/
def leNat : List Byte → Nat
  | [] => 0
  | b :: r => b.toNat + 256 * leNat r

/-- Big-endian number of a byte list (network order, R68). -/
def beNat (l : List Byte) : Nat := l.foldl (fun n b => n * 256 + b.toNat) 0

/-- The `k` little-endian bytes of a number. -/
def toLe : Nat → Nat → List Byte
  | 0, _ => []
  | k + 1, n => BitVec.ofNat 8 n :: toLe k (n / 256)

/-- The four bytes of each word, in order. -/
def wordsToBytes (ws : List Word) : List Byte := ws.flatMap fun w => toLe 4 w.toNat

/-- The words of a byte list, a short tail completed with zeros. -/
def bytesToWords : Nat → List Byte → List Word
  | 0, _ => []
  | _, [] => []
  | n + 1, l => BitVec.ofNat 32 (leNat (l.take 4)) :: bytesToWords n (l.drop 4)

/-- Element `i` of a list, or a default past its end. -/
def nth {α : Type} (l : List α) (d : α) (i : Nat) : α := (l[i]?).getD d

/-- The list with element `i` replaced. -/
def setNth {α : Type} (l : List α) (i : Nat) (v : α) : List α := l.set i v

/-- Sum of a list of naturals. -/
def sumN (l : List Nat) : Nat := l.foldl (· + ·) 0

/-- Ceiling division. -/
def cdiv (a b : Nat) : Nat := (a + b - 1) / b

/-- `true` when the first condition listed that holds, if any, carries status 0: the status of the first check that
fails, 0 when all pass (R509). -/
def firstFail : List (Bool × Nat) → Nat
  | [] => 0
  | (b, c) :: r => if b then c else firstFail r

/-! ### Real functions -/

/-- n / d to the nearest integer, halves away from zero. -/
def nearDiv (n : Int) (d : Nat) : Int :=
  let m : Int := ((2 * n.natAbs + d) / (2 * d) : Nat)
  if n < 0 then -m else m

/-- π scaled by 2^128. -/
abbrev piFix : Nat := 1069028584064966747859680373161870783301

/-- The sine series of `x` (scaled by 2^128): the sum of `n` more terms, `t` the term reached, `j` its number. -/
def sinTerms : Nat → Nat → Nat → Nat → Int
  | 0, _, _, _ => 0
  | n + 1, x, t, j => (t : Int) - sinTerms n x (t * x / 2 ^ 128 * x / 2 ^ 128 / ((2 * j + 2) * (2 * j + 3))) (j + 1)

/-- sin(πr / n) for r up to n, scaled by 2^128. -/
def sinQ (r n : Nat) : Nat :=
  let x := piFix * min r (n - r) / n
  (sinTerms 24 x x 0).toNat

end Sys2Proof.Machine
end

