-- ==== Sys2Proof/Machine/Regs.lean ====
section
/-! DEFINITION. The register map of the manual (R26 and the register tables of every chapter): each register's address,
its instances, who else may read it and its fields with access codes (R10) and reset values (R15). -/

namespace Sys2Proof.Machine

/-- Every register of the manual's tables but the FIFO instances (R35) and the request ports (R161), which are
structured state. -/
inductive RegName where
  | SAFE_DEVID
  | SAFE_CLK
  | SAFE_STRAP
  | SAFE_PWRGD
  | SAFE_FAN
  | SAFE_THERM
  | SAFE_RET
  | MBX_MSG
  | MBX_RESP
  | MBX_ACK
  | MBX_STAT
  | MBX_DB
  | HP_CTRL
  | HP_LINK_STAT
  | HP_FLR_LO
  | HP_FLR_HI
  | QMGR_RING_SEL
  | RING_CTRL
  | RING_INFO
  | RING_WB_LO
  | RING_WB_HI
  | STRATA_CTRL
  | STRATA_DEVID
  | STRATA_TGT_QID
  | STRATA_OCTX_BASE
  | STRATA_SPILL_BASE
  | STRATA_SPILL_CFG
  | STRATA_AUDIO_RSV
  | STRATA_BUF_STAT
  | STRATA_CNT_LO
  | STRATA_CNT_HI
  | ETH_PCFG
  | ETH_PSTAT
  | SIEVE_CTRL
  | EGS_TGT_QID
  | EGS_STR_BASE
  | EGS_PORT_CFG
  | EGS_GATE_STAT
  | EGS_CNT_LO
  | EGS_CNT_HI
  | CRYPT_CTRL
  | CRYPT_STAT
  | CRYPT_SLOTCNT_BASE
  | CRYPT_TAMPER_EN
  | CRYPT_TAMPER_STAT
  | CRYPT_SLOT_SEL
  | CRYPT_SLOT_INFO
  | CRYPT_CNT_LO
  | CRYPT_CNT_HI
  | KEYWIN_LOCK
  | KEYWIN_LOCK_STAT
  | KEYWIN_RELEASE
  | KEYWIN_CMD
  | KEYWIN_SWITCH_LO
  | KEYWIN_SWITCH_HI
  | KEYWIN_INIT_ROC
  | KEYWIN_RESULT
  | KEYWIN_DATA
  | DISP_CTRL
  | DISP_STORE_BASE
  | DISP_POOL
  | DISP_STAT
  | DISP_AFF
  | DISP_FENCE_LO
  | DISP_FENCE_HI
  | DISP_WAKE_THRESH
  | DISP_CNT_LO
  | DISP_CNT_HI
  | DISP_POST_W
  | DISP_POST_RES
  | DISP_KINFO
  | DISP_RODATA_LO
  | DISP_RODATA_HI
  | CORE_STAT
  | CORE_FAULT
  | CORE_FAULT_PC
  | CORE_FAULT_ADDR
  | CORE_CYC_LO
  | CORE_CYC_HI
  | CORE_ECC
  | MIXF_CTRL
  | MIXF_FRAME_LO
  | MIXF_FRAME_HI
  | MIXF_MTR_BASE
  | MIXF_SCHED
  | MIXF_SL_STAT
  | MIXF_SL_ARM
  | MIXF_SL_AT_LO
  | MIXF_SL_AT_HI
  | MIXF_CNT_LO
  | MIXF_CNT_HI
  | PICT_DEC_CTRL
  | PICT_DEC_STAT
  | PICT_DEC_CNT_LO
  | PICT_DEC_CNT_HI
  | POOL_CTRL
  | POOL_TBL_BASE
  | POOL_OP
  | POOL_OP_RES
  | POOL_RGN_BASE
  | POOL_RGN_CFG
  | POOL_RGN_FIRST
  | POOL_RGN_FREE
  | PICT_ENC_CTRL
  | PICT_ENC_STAT
  | PICT_ENC_CTX_BASE
  | PICT_ENC_CNT_LO
  | PICT_ENC_CNT_HI
  | PICT_COMP_CTRL
  | PICT_COMP_STAT
  | PICT_COMP_MAP_BASE
  | PICT_COMP_CNT_LO
  | PICT_COMP_CNT_HI
  | PICT_COMP_COEF
  | HBMC_CTRL
  | HBMC_STAT
  | HBMC_THERM
  | HBMC_TREFI
  | HBMC_PORT_CFG
  | HBMC_PORT_STAT
  | HBMC_SCRUB
  | HBMC_SCRUB_POS
  | HBMC_SCRUB_PASS
  | HBMC_UE_ADDR_LO
  | HBMC_UE_ADDR_HI
  | HBMC_UE_INFO
  | HBMC_CNT_LO
  | HBMC_CNT_HI
  | HBMC_WIN_BASE
  | HBMC_WIN_SIZE
  | HBMC_WIN_CTL
  | HBMC_WIN_FENCE
  | TIME_NOW_LO
  | TIME_NOW_HI
  | TIME_ELAPSED_LO
  | TIME_ELAPSED_HI
  | TIME_RATE
  | TIME_STEP_LO
  | TIME_STEP_HI
  | TIME_STAT
  | TIME_PPS_IN_LO
  | TIME_PPS_IN_HI
  | TIME_PPS_OUT
  | TIME_PPS_OFS
  | TRUST_STAT
  | TRUST_SIGN
  | JRNL_HUP_CFG
  | JRNL_HUP_LOAD
  | JRNL_HUP_TIME
  | JRNL_HUP_RSV
  | JRNL_HUP_AVAIL
  | JRNL_HUP_NEED
  | JRNL_STAT
  | JRNL_CMD
  | JRNL_RESULT
  | JRNL_BUF
  | TSTRIP_CTRL
  | TSTRIP_STAT
  | TSTRIP_SIG_LO
  | TSTRIP_SIG_HI
  | TSTRIP_GOLD_LO
  | TSTRIP_GOLD_HI
  | TSTRIP_CNT
  | CLKPWR_PD_CTRL
  | CLKPWR_PD_STAT
  | CLKPWR_CL_CTRL
  | CLKPWR_CL_STAT
  | CLKPWR_RESET
  | CLKPWR_RST_CAUSE
  | CLKPWR_WDOG
  deriving DecidableEq, Repr

/-- The register's number in the map. -/
def RegName.code (n : RegName) : Nat := n.ctorIdx

/-- The access codes of R10. -/
inductive Acc where
  | ro | rw | wo | w1c | w1s | rc | rsv
  deriving DecidableEq, Repr

/-- One field: bits [hi:lo], access code, reset value. -/
structure Fld where
  hi : Nat
  lo : Nat
  acc : Acc
  rst : Nat
  deriving DecidableEq, Repr

/-- Who may read a register besides firmware (R26, R27). -/
inductive Vis where
  /-- Firmware only. -/
  | fw
  /-- Every kernel. -/
  | kernel
  /-- Kernels on the register's own tile. -/
  | tile
  /-- The kernel running on the core whose post port it is. -/
  | port
  deriving DecidableEq, Repr

/-- The fields of each register, most significant first. -/
def RegName.flds : RegName → List Fld
  /- PART [31:16], GRADE [15:12], STEP_LETTER [11:8], STEP_DIGIT [7:4] -/
  | .SAFE_DEVID => [⟨31, 16, .ro, 0x7260⟩, ⟨15, 12, .ro, 0⟩, ⟨11, 8, .ro, 0⟩, ⟨7, 4, .ro, 1⟩, ⟨3, 0, .rsv, 0⟩]
  /- ON_XTAL [31:31], XTAL_GOOD [30:30], XTAL_FAIL [29:29], RETURN [28:28], RC_TRIM [15:0] -/
  | .SAFE_CLK => [⟨31, 31, .ro, 0⟩, ⟨30, 30, .ro, 0⟩, ⟨29, 29, .w1c, 0⟩, ⟨28, 28, .w1s, 0⟩, ⟨27, 16, .rsv, 0⟩, ⟨15, 0, .ro, 0⟩]
  /- CLK_OSC [3:3], SB_I3C [2:2], SB_ADDR [1:0] -/
  | .SAFE_STRAP => [⟨31, 4, .rsv, 0⟩, ⟨3, 3, .ro, 0⟩, ⟨2, 2, .ro, 0⟩, ⟨1, 0, .ro, 0⟩]
  /- OUT [3:0] -/
  | .SAFE_PWRGD => [⟨31, 4, .rsv, 0⟩, ⟨3, 0, .rw, 0⟩]
  /- DUTY [31:24], FORCED [23:23], RPM [15:0] -/
  | .SAFE_FAN => [⟨31, 24, .rw, 0xff⟩, ⟨23, 23, .ro, 1⟩, ⟨22, 16, .rsv, 0⟩, ⟨15, 0, .ro, 0⟩]
  /- TJ [31:24], WARN [23:23], TRIPPED [22:22], WARN_C [15:8], TRIP_C [7:0] -/
  | .SAFE_THERM => [⟨31, 24, .ro, 0⟩, ⟨23, 23, .ro, 0⟩, ⟨22, 22, .ro, 0⟩, ⟨21, 16, .rsv, 0⟩, ⟨15, 8, .ro, 0x5a⟩, ⟨7, 0, .ro, 0x69⟩]
  /- VALUE [31:0] -/
  | .SAFE_RET => [⟨31, 0, .rw, 0⟩]
  /- WORD [31:0] -/
  | .MBX_MSG => [⟨31, 0, .rw, 0⟩]
  /- WORD [31:0] -/
  | .MBX_RESP => [⟨31, 0, .rw, 0⟩]
  /- CODE [31:16], SEQ [7:0] -/
  | .MBX_ACK => [⟨31, 16, .rw, 0⟩, ⟨15, 8, .rsv, 0⟩, ⟨7, 0, .rw, 0⟩]
  /- FULL [31:31], DONE [30:30], RX_ON [29:29], COLLIDE [28:28], LOST_ON_RESET [27:27], RX_COLLIDE [26:26], MSG_EPOCH [23:16], TX_EPOCH [15:8] -/
  | .MBX_STAT => [⟨31, 31, .ro, 0⟩, ⟨30, 30, .ro, 1⟩, ⟨29, 29, .ro, 0⟩, ⟨28, 28, .w1c, 0⟩, ⟨27, 27, .w1c, 0⟩, ⟨26, 26, .ro, 0⟩, ⟨25, 24, .rsv, 0⟩, ⟨23, 16, .ro, 0⟩, ⟨15, 8, .ro, 0⟩, ⟨7, 0, .rsv, 0⟩]
  /- WAKE [1:1], POST [0:0] -/
  | .MBX_DB => [⟨31, 2, .rsv, 0⟩, ⟨1, 1, .wo, 0⟩, ⟨0, 0, .wo, 0⟩]
  /- ENABLE [31:31], MAX_SPEED [30:28], MAX_WIDTH [27:26] -/
  | .HP_CTRL => [⟨31, 31, .rw, 0⟩, ⟨30, 28, .rw, 5⟩, ⟨27, 26, .rw, 3⟩, ⟨25, 0, .rsv, 0⟩]
  /- LINK_UP [31:31], SPEED [30:28], WIDTH [27:26], DEGRADED [25:25], REVERSED [24:24], LINK_CHG [23:23], RETRAINS [15:8] -/
  | .HP_LINK_STAT => [⟨31, 31, .ro, 0⟩, ⟨30, 28, .ro, 0⟩, ⟨27, 26, .ro, 0⟩, ⟨25, 25, .ro, 0⟩, ⟨24, 24, .ro, 0⟩, ⟨23, 23, .w1c, 0⟩, ⟨22, 16, .rsv, 0⟩, ⟨15, 8, .ro, 0⟩, ⟨7, 0, .rsv, 0⟩]
  /- IN_RESET [31:0] -/
  | .HP_FLR_LO => [⟨31, 0, .ro, 0⟩]
  /- IN_RESET [31:0] -/
  | .HP_FLR_HI => [⟨31, 0, .ro, 0⟩]
  /- RING [11:0] -/
  | .QMGR_RING_SEL => [⟨31, 12, .rsv, 0⟩, ⟨11, 0, .rw, 0⟩]
  /- ENABLE [31:31], TYPE [30:28], ERR [27:24], INT_EN [23:23], PAIR [19:16], INT_MOD_US [15:0] -/
  | .RING_CTRL => [⟨31, 31, .rw, 0⟩, ⟨30, 28, .rw, 0⟩, ⟨27, 24, .ro, 0⟩, ⟨23, 23, .rw, 0⟩, ⟨22, 20, .rsv, 0⟩, ⟨19, 16, .rw, 0⟩, ⟨15, 0, .rw, 0⟩]
  /- QID [31:16], FN [15:8] -/
  | .RING_INFO => [⟨31, 16, .ro, 0⟩, ⟨15, 8, .ro, 0⟩, ⟨7, 0, .rsv, 0⟩]
  /- ADDR_LO [31:3] -/
  | .RING_WB_LO => [⟨31, 3, .rw, 0⟩, ⟨2, 0, .rsv, 0⟩]
  /- ADDR_HI [31:0] -/
  | .RING_WB_HI => [⟨31, 0, .rw, 0⟩]
  /- ENABLE [31:31], TOLKU_EXT_ID [23:16], TOLKU_UDP [15:0] -/
  | .STRATA_CTRL => [⟨31, 31, .rw, 0⟩, ⟨30, 24, .rsv, 0⟩, ⟨23, 16, .rw, 0⟩, ⟨15, 0, .rw, 0⟩]
  /- VALID [31:31], DEV_ID [17:0] -/
  | .STRATA_DEVID => [⟨31, 31, .rw, 0⟩, ⟨30, 18, .rsv, 0⟩, ⟨17, 0, .rw, 0⟩]
  /- QID [15:0] -/
  | .STRATA_TGT_QID => [⟨31, 16, .rsv, 0⟩, ⟨15, 0, .rw, 0xc000⟩]
  /- ADDR [18:0] -/
  | .STRATA_OCTX_BASE => [⟨31, 19, .rsv, 0⟩, ⟨18, 0, .rw, 0⟩]
  /- ADDR [18:0] -/
  | .STRATA_SPILL_BASE => [⟨31, 19, .rsv, 0⟩, ⟨18, 0, .rw, 0⟩]
  /- SIZE [31:24], SPILL_WM [18:0] -/
  | .STRATA_SPILL_CFG => [⟨31, 24, .rw, 0⟩, ⟨23, 19, .rsv, 0⟩, ⟨18, 0, .rw, 0x4000⟩]
  /- CELLS [18:0] -/
  | .STRATA_AUDIO_RSV => [⟨31, 19, .rsv, 0⟩, ⟨18, 0, .rw, 0x8000⟩]
  /- SPILLING [31:31], SPILL_FULL [30:30], FREE [18:0] -/
  | .STRATA_BUF_STAT => [⟨31, 31, .ro, 0⟩, ⟨30, 30, .ro, 0⟩, ⟨29, 19, .rsv, 0⟩, ⟨18, 0, .ro, 0x40000⟩]
  /- COUNT [31:0] -/
  | .STRATA_CNT_LO => [⟨31, 0, .ro, 0⟩]
  /- COUNT [31:0] -/
  | .STRATA_CNT_HI => [⟨31, 0, .ro, 0⟩]
  /- ENABLE [31:31], FIXED [30:30], WIDTH [29:28], MAX_RATE [27:26], FEC_ALLOW [25:22], FIXED_RATE [21:20], FIXED_FEC [19:18] -/
  | .ETH_PCFG => [⟨31, 31, .rw, 0⟩, ⟨30, 30, .rw, 0⟩, ⟨29, 28, .rw, 0⟩, ⟨27, 26, .rw, 3⟩, ⟨25, 22, .rw, 0xf⟩, ⟨21, 20, .rw, 3⟩, ⟨19, 18, .rw, 3⟩, ⟨17, 0, .rsv, 0⟩]
  /- LINK [31:31], AN_DONE [30:30], WIDTH_ACT [29:28], RATE_ACT [27:26], FEC_ACT [25:24], RESULT [23:20], LINK_CHG [19:19] -/
  | .ETH_PSTAT => [⟨31, 31, .ro, 0⟩, ⟨30, 30, .ro, 0⟩, ⟨29, 28, .ro, 0⟩, ⟨27, 26, .ro, 0⟩, ⟨25, 24, .ro, 0⟩, ⟨23, 20, .ro, 0⟩, ⟨19, 19, .w1c, 0⟩, ⟨18, 0, .rsv, 0⟩]
  /- ENABLE [31:31] -/
  | .SIEVE_CTRL => [⟨31, 31, .rw, 0⟩, ⟨30, 0, .rsv, 0⟩]
  /- QID [15:0] -/
  | .EGS_TGT_QID => [⟨31, 16, .rsv, 0⟩, ⟨15, 0, .rw, 0xc001⟩]
  /- ADDR [19:0] -/
  | .EGS_STR_BASE => [⟨31, 20, .rsv, 0⟩, ⟨19, 0, .rw, 0⟩]
  /- AUDIO_TC [30:28], OVERHEAD [22:16], GUARD_NS [15:0] -/
  | .EGS_PORT_CFG => [⟨31, 31, .rsv, 0⟩, ⟨30, 28, .rw, 7⟩, ⟨27, 23, .rsv, 0⟩, ⟨22, 16, .rw, 0x14⟩, ⟨15, 0, .rw, 0⟩]
  /- PENDING [31:31], ACTIVE [30:30], LISTED [29:29], GATES [23:16], ENTRY [8:0] -/
  | .EGS_GATE_STAT => [⟨31, 31, .ro, 0⟩, ⟨30, 30, .ro, 0⟩, ⟨29, 29, .ro, 0⟩, ⟨28, 24, .rsv, 0⟩, ⟨23, 16, .ro, 0xff⟩, ⟨15, 9, .rsv, 0⟩, ⟨8, 0, .ro, 0⟩]
  /- COUNT [31:0] -/
  | .EGS_CNT_LO => [⟨31, 0, .ro, 0⟩]
  /- COUNT [31:0] -/
  | .EGS_CNT_HI => [⟨31, 0, .ro, 0⟩]
  /- ENABLE [31:31], BLEACH [30:30] -/
  | .CRYPT_CTRL => [⟨31, 31, .rw, 0⟩, ⟨30, 30, .w1s, 0⟩, ⟨29, 0, .rsv, 0⟩]
  /- BLEACHED [31:31], ENTROPY_FAIL [15:0] -/
  | .CRYPT_STAT => [⟨31, 31, .w1c, 0⟩, ⟨30, 16, .rsv, 0⟩, ⟨15, 0, .ro, 0⟩]
  /- ADDR [18:0] -/
  | .CRYPT_SLOTCNT_BASE => [⟨31, 19, .rsv, 0⟩, ⟨18, 0, .rw, 0⟩]
  /- ARM [5:3], ALWAYS [2:0] -/
  | .CRYPT_TAMPER_EN => [⟨31, 6, .rsv, 0⟩, ⟨5, 3, .w1s, 0⟩, ⟨2, 0, .ro, 7⟩]
  /- ACTIVE [15:10], FW [6:6], LATCHED [5:0] -/
  | .CRYPT_TAMPER_STAT => [⟨31, 16, .rsv, 0⟩, ⟨15, 10, .ro, 0⟩, ⟨9, 7, .rsv, 0⟩, ⟨6, 6, .ro, 0⟩, ⟨5, 0, .ro, 0⟩]
  /- SLOT [16:0] -/
  | .CRYPT_SLOT_SEL => [⟨31, 17, .rsv, 0⟩, ⟨16, 0, .rw, 0⟩]
  /- STATE [31:29], DIR [28:28], SRTCP [27:27], SUITE [26:24], SCA [23:23], ACT_HALF [22:22], GEN [21:18], TENANT [17:16] -/
  | .CRYPT_SLOT_INFO => [⟨31, 29, .ro, 0⟩, ⟨28, 28, .ro, 0⟩, ⟨27, 27, .ro, 0⟩, ⟨26, 24, .ro, 0⟩, ⟨23, 23, .ro, 0⟩, ⟨22, 22, .ro, 0⟩, ⟨21, 18, .ro, 0⟩, ⟨17, 16, .ro, 0⟩, ⟨15, 0, .rsv, 0⟩]
  /- COUNT [31:0] -/
  | .CRYPT_CNT_LO => [⟨31, 0, .ro, 0⟩]
  /- COUNT [31:0] -/
  | .CRYPT_CNT_HI => [⟨31, 0, .ro, 0⟩]
  /- STATE [31:30], TIMEOUT [29:29], OWNER [3:0] -/
  | .KEYWIN_LOCK => [⟨31, 30, .ro, 0⟩, ⟨29, 29, .w1c, 0⟩, ⟨28, 4, .rsv, 0⟩, ⟨3, 0, .ro, 0⟩]
  /- STATE [31:30], TIMEOUT [29:29], OWNER [3:0] -/
  | .KEYWIN_LOCK_STAT => [⟨31, 30, .ro, 0⟩, ⟨29, 29, .w1c, 0⟩, ⟨28, 4, .rsv, 0⟩, ⟨3, 0, .ro, 0⟩]
  /- RELEASE [0:0] -/
  | .KEYWIN_RELEASE => [⟨31, 1, .rsv, 0⟩, ⟨0, 0, .wo, 0⟩]
  /- OP [31:30], SUITE [29:27], DIR [26:26], SRTCP [25:25], SWITCH_AT [24:24], SCA [23:23], TENANT [18:17], SLOT [16:0] -/
  | .KEYWIN_CMD => [⟨31, 30, .wo, 0⟩, ⟨29, 27, .wo, 0⟩, ⟨26, 26, .wo, 0⟩, ⟨25, 25, .wo, 0⟩, ⟨24, 24, .wo, 0⟩, ⟨23, 23, .wo, 0⟩, ⟨22, 19, .rsv, 0⟩, ⟨18, 17, .wo, 0⟩, ⟨16, 0, .wo, 0⟩]
  /- VALUE [31:0] -/
  | .KEYWIN_SWITCH_LO => [⟨31, 0, .wo, 0⟩]
  /- VALUE [31:0] -/
  | .KEYWIN_SWITCH_HI => [⟨31, 0, .wo, 0⟩]
  /- VALUE [31:0] -/
  | .KEYWIN_INIT_ROC => [⟨31, 0, .wo, 0⟩]
  /- RESULT [31:29], GEN [20:17], SLOT [16:0] -/
  | .KEYWIN_RESULT => [⟨31, 29, .ro, 0⟩, ⟨28, 21, .rsv, 0⟩, ⟨20, 17, .ro, 0⟩, ⟨16, 0, .ro, 0⟩]
  /- KEY [31:0] -/
  | .KEYWIN_DATA => [⟨31, 0, .wo, 0⟩]
  /- ENABLE [31:31] -/
  | .DISP_CTRL => [⟨31, 31, .rw, 0⟩, ⟨30, 0, .rsv, 0⟩]
  /- ADDR [14:0] -/
  | .DISP_STORE_BASE => [⟨31, 15, .rsv, 0⟩, ⟨14, 0, .rw, 0⟩]
  /- VALUE [20:0] -/
  | .DISP_POOL => [⟨31, 21, .rsv, 0⟩, ⟨20, 0, .rw, 0x20000⟩]
  /- VALUE [20:0] -/
  | .DISP_STAT => [⟨31, 21, .rsv, 0⟩, ⟨20, 0, .ro, 0x100000⟩]
  /- AFF_WAIT_NS [15:0] -/
  | .DISP_AFF => [⟨31, 16, .rsv, 0⟩, ⟨15, 0, .rw, 0x1f4⟩]
  /- FENCE [31:0] -/
  | .DISP_FENCE_LO => [⟨31, 0, .rw, 0⟩]
  /- FENCE [31:0] -/
  | .DISP_FENCE_HI => [⟨31, 0, .rw, 0⟩]
  /- THRESH [15:0] -/
  | .DISP_WAKE_THRESH => [⟨31, 16, .rsv, 0⟩, ⟨15, 0, .rw, 0x40⟩]
  /- COUNT [31:0] -/
  | .DISP_CNT_LO => [⟨31, 0, .ro, 0⟩]
  /- COUNT [31:0] -/
  | .DISP_CNT_HI => [⟨31, 0, .ro, 0⟩]
  /- ITEM_WORD [31:0] -/
  | .DISP_POST_W => [⟨31, 0, .wo, 0⟩]
  /- POSTS [12:8], RESULT [2:0] -/
  | .DISP_POST_RES => [⟨31, 13, .rsv, 0⟩, ⟨12, 8, .ro, 0⟩, ⟨7, 3, .rsv, 0⟩, ⟨2, 0, .ro, 0⟩]
  /- TENANT [31:30], KERN_ID [25:16], VERSION [15:0] -/
  | .DISP_KINFO => [⟨31, 30, .ro, 0⟩, ⟨29, 26, .rsv, 0⟩, ⟨25, 16, .ro, 0⟩, ⟨15, 0, .ro, 0⟩]
  /- ADDR [31:0] -/
  | .DISP_RODATA_LO => [⟨31, 0, .ro, 0⟩]
  /- ADDR [31:0] -/
  | .DISP_RODATA_HI => [⟨31, 0, .ro, 0⟩]
  /- RUNNING [31:31], WARM [30:30], TENANT [29:28], CORE [8:0] -/
  | .CORE_STAT => [⟨31, 31, .ro, 0⟩, ⟨30, 30, .ro, 0⟩, ⟨29, 28, .ro, 0⟩, ⟨27, 9, .rsv, 0⟩, ⟨8, 0, .ro, 0⟩]
  /- CAUSE [7:4], OVERRUN [1:1], VALID [0:0] -/
  | .CORE_FAULT => [⟨31, 8, .rsv, 0⟩, ⟨7, 4, .ro, 0⟩, ⟨3, 2, .rsv, 0⟩, ⟨1, 1, .w1c, 0⟩, ⟨0, 0, .w1c, 0⟩]
  /- VALUE [31:0] -/
  | .CORE_FAULT_PC => [⟨31, 0, .ro, 0⟩]
  /- VALUE [31:0] -/
  | .CORE_FAULT_ADDR => [⟨31, 0, .ro, 0⟩]
  /- COUNT [31:0] -/
  | .CORE_CYC_LO => [⟨31, 0, .ro, 0⟩]
  /- COUNT [31:0] -/
  | .CORE_CYC_HI => [⟨31, 0, .ro, 0⟩]
  /- CORRECTED [31:16], IC_REFETCH [15:0] -/
  | .CORE_ECC => [⟨31, 16, .ro, 0⟩, ⟨15, 0, .ro, 0⟩]
  /- ENABLE [31:31], SLICE_EN [15:0] -/
  | .MIXF_CTRL => [⟨31, 31, .rw, 0⟩, ⟨30, 16, .rsv, 0⟩, ⟨15, 0, .rw, 0⟩]
  /- FRAME [31:0] -/
  | .MIXF_FRAME_LO => [⟨31, 0, .rw, 0⟩]
  /- FRAME [31:0] -/
  | .MIXF_FRAME_HI => [⟨31, 0, .rw, 0⟩]
  /- ADDR [19:0] -/
  | .MIXF_MTR_BASE => [⟨31, 20, .rsv, 0⟩, ⟨19, 0, .rw, 0⟩]
  /- SRC_DEADLINE_US [31:16], OUT_DEADLINE_US [15:0] -/
  | .MIXF_SCHED => [⟨31, 16, .rw, 0xfa0⟩, ⟨15, 0, .rw, 0x1388⟩]
  /- RUNNING [31:31], ROUTES_USED [11:0] -/
  | .MIXF_SL_STAT => [⟨31, 31, .ro, 0⟩, ⟨30, 12, .rsv, 0⟩, ⟨11, 0, .ro, 0⟩]
  /- ARM [31:31], LATE [30:30], COUNT [19:9], AT_SAMPLE [8:0] -/
  | .MIXF_SL_ARM => [⟨31, 31, .w1s, 0⟩, ⟨30, 30, .w1c, 0⟩, ⟨29, 20, .rsv, 0⟩, ⟨19, 9, .rw, 0⟩, ⟨8, 0, .rw, 0⟩]
  /- AT_FRAME [31:0] -/
  | .MIXF_SL_AT_LO => [⟨31, 0, .rw, 0⟩]
  /- AT_FRAME [31:0] -/
  | .MIXF_SL_AT_HI => [⟨31, 0, .rw, 0⟩]
  /- COUNT [31:0] -/
  | .MIXF_CNT_LO => [⟨31, 0, .ro, 0⟩]
  /- COUNT [31:0] -/
  | .MIXF_CNT_HI => [⟨31, 0, .ro, 0⟩]
  /- ENABLE [31:31], ALLOC_WAIT_US [15:0] -/
  | .PICT_DEC_CTRL => [⟨31, 31, .rw, 0⟩, ⟨30, 16, .rsv, 0⟩, ⟨15, 0, .rw, 0x7d0⟩]
  /- BUSY [31:31], LOAD_MPX [27:16], CTXS [9:0] -/
  | .PICT_DEC_STAT => [⟨31, 31, .ro, 0⟩, ⟨30, 28, .rsv, 0⟩, ⟨27, 16, .ro, 0⟩, ⟨15, 10, .rsv, 0⟩, ⟨9, 0, .ro, 0⟩]
  /- COUNT [31:0] -/
  | .PICT_DEC_CNT_LO => [⟨31, 0, .ro, 0⟩]
  /- COUNT [31:0] -/
  | .PICT_DEC_CNT_HI => [⟨31, 0, .ro, 0⟩]
  /- ENABLE [31:31] -/
  | .POOL_CTRL => [⟨31, 31, .rw, 0⟩, ⟨30, 0, .rsv, 0⟩]
  /- ADDR [14:0] -/
  | .POOL_TBL_BASE => [⟨31, 15, .rsv, 0⟩, ⟨14, 0, .rw, 0⟩]
  /- OP [31:29], MARK [28:26], GEN [23:20], FBH [19:0] -/
  | .POOL_OP => [⟨31, 29, .wo, 0⟩, ⟨28, 26, .wo, 0⟩, ⟨25, 24, .rsv, 0⟩, ⟨23, 20, .wo, 0⟩, ⟨19, 0, .wo, 0⟩]
  /- RESULT [31:29], GEN [23:20], VALUE [19:0] -/
  | .POOL_OP_RES => [⟨31, 29, .ro, 0⟩, ⟨28, 24, .rsv, 0⟩, ⟨23, 20, .ro, 0⟩, ⟨19, 0, .ro, 0⟩]
  /- ADDR [18:0] -/
  | .POOL_RGN_BASE => [⟨31, 19, .rsv, 0⟩, ⟨18, 0, .rw, 0⟩]
  /- UNITS [31:22], COUNT [19:0] -/
  | .POOL_RGN_CFG => [⟨31, 22, .rw, 0⟩, ⟨21, 20, .rsv, 0⟩, ⟨19, 0, .rw, 0⟩]
  /- VALUE [19:0] -/
  | .POOL_RGN_FIRST => [⟨31, 20, .rsv, 0⟩, ⟨19, 0, .rw, 0⟩]
  /- VALUE [19:0] -/
  | .POOL_RGN_FREE => [⟨31, 20, .rsv, 0⟩, ⟨19, 0, .ro, 0⟩]
  /- ENABLE [31:31], STARVE_US [15:0] -/
  | .PICT_ENC_CTRL => [⟨31, 31, .rw, 0⟩, ⟨30, 16, .rsv, 0⟩, ⟨15, 0, .rw, 0x1f4⟩]
  /- AN_BUSY [31:31], CODER_BUSY [30:27], STARVED [26:26], AN_LOAD_MPX [23:12], OUT_LOAD_MPX [11:0] -/
  | .PICT_ENC_STAT => [⟨31, 31, .ro, 0⟩, ⟨30, 27, .ro, 0⟩, ⟨26, 26, .ro, 0⟩, ⟨25, 24, .rsv, 0⟩, ⟨23, 12, .ro, 0⟩, ⟨11, 0, .ro, 0⟩]
  /- ADDR [19:0] -/
  | .PICT_ENC_CTX_BASE => [⟨31, 20, .rsv, 0⟩, ⟨19, 0, .rw, 0⟩]
  /- COUNT [31:0] -/
  | .PICT_ENC_CNT_LO => [⟨31, 0, .ro, 0⟩]
  /- COUNT [31:0] -/
  | .PICT_ENC_CNT_HI => [⟨31, 0, .ro, 0⟩]
  /- ENABLE [31:31] -/
  | .PICT_COMP_CTRL => [⟨31, 31, .rw, 0⟩, ⟨30, 0, .rsv, 0⟩]
  /- BUSY [31:31], LOAD_MPX [23:12], LAYOUTS [7:0] -/
  | .PICT_COMP_STAT => [⟨31, 31, .ro, 0⟩, ⟨30, 24, .rsv, 0⟩, ⟨23, 12, .ro, 0⟩, ⟨11, 8, .rsv, 0⟩, ⟨7, 0, .ro, 0⟩]
  /- ADDR [16:0] -/
  | .PICT_COMP_MAP_BASE => [⟨31, 17, .rsv, 0⟩, ⟨16, 0, .rw, 0⟩]
  /- COUNT [31:0] -/
  | .PICT_COMP_CNT_LO => [⟨31, 0, .ro, 0⟩]
  /- COUNT [31:0] -/
  | .PICT_COMP_CNT_HI => [⟨31, 0, .ro, 0⟩]
  /- COEF (odd tap) [27:16], COEF (even tap) [11:0] -/
  | .PICT_COMP_COEF => [⟨31, 28, .rsv, 0⟩, ⟨27, 16, .rw, 0⟩, ⟨15, 12, .rsv, 0⟩, ⟨11, 0, .rw, 0⟩]
  /- ENABLE [31:31], SR_EN [30:30], KEEP [29:29], SR_IDLE_US [15:0] -/
  | .HBMC_CTRL => [⟨31, 31, .rw, 0⟩, ⟨30, 30, .rw, 0⟩, ⟨29, 29, .rw, 0⟩, ⟨28, 16, .rsv, 0⟩, ⟨15, 0, .rw, 0x64⟩]
  /- STATE [31:29], HOT [28:28], TEMP_CRIT [27:27], TEMP_FAIL [26:26], PANIC [25:25], OWED [15:8], TEMP [7:0] -/
  | .HBMC_STAT => [⟨31, 29, .ro, 0⟩, ⟨28, 28, .ro, 0⟩, ⟨27, 27, .w1c, 0⟩, ⟨26, 26, .w1c, 0⟩, ⟨25, 25, .ro, 0⟩, ⟨24, 16, .rsv, 0⟩, ⟨15, 8, .ro, 0⟩, ⟨7, 0, .ro, 0⟩]
  /- HOT_C [31:24], COOL_C [23:16], CRIT_C [15:8], POSTPONE_MAX [7:4] -/
  | .HBMC_THERM => [⟨31, 24, .rw, 0x55⟩, ⟨23, 16, .rw, 0x50⟩, ⟨15, 8, .rw, 0x69⟩, ⟨7, 4, .rw, 8⟩, ⟨3, 0, .rsv, 0⟩]
  /- TREFI [11:0] -/
  | .HBMC_TREFI => [⟨31, 12, .rsv, 0⟩, ⟨11, 0, .rw, 0x186⟩]
  /- RT [31:31], RANK [30:28], PANIC_ON [27:22], PANIC_OFF [21:16], RSV_GBPS [9:0] -/
  | .HBMC_PORT_CFG => [⟨31, 31, .rw, 0⟩, ⟨30, 28, .rw, 0⟩, ⟨27, 22, .rw, 0x30⟩, ⟨21, 16, .rw, 0x10⟩, ⟨15, 10, .rsv, 0⟩, ⟨9, 0, .rw, 0⟩]
  /- PANIC [31:31], LEVEL [6:0] -/
  | .HBMC_PORT_STAT => [⟨31, 31, .ro, 0⟩, ⟨30, 7, .rsv, 0⟩, ⟨6, 0, .ro, 0⟩]
  /- ENABLE [31:31], INTERVAL_NS [17:0] -/
  | .HBMC_SCRUB => [⟨31, 31, .rw, 0⟩, ⟨30, 18, .rsv, 0⟩, ⟨17, 0, .rw, 0x34630⟩]
  /- UNIT [28:0] -/
  | .HBMC_SCRUB_POS => [⟨31, 29, .rsv, 0⟩, ⟨28, 0, .ro, 0⟩]
  /- PASSES [31:0] -/
  | .HBMC_SCRUB_PASS => [⟨31, 0, .ro, 0⟩]
  /- ADDR_LO [31:6] -/
  | .HBMC_UE_ADDR_LO => [⟨31, 6, .ro, 0⟩, ⟨5, 0, .rsv, 0⟩]
  /- ADDR_HI [7:0] -/
  | .HBMC_UE_ADDR_HI => [⟨31, 8, .rsv, 0⟩, ⟨7, 0, .ro, 0⟩]
  /- VALID [31:31], OVERFLOW [30:30], SCRUB [29:29], RMW [28:28], PORT [27:24] -/
  | .HBMC_UE_INFO => [⟨31, 31, .w1c, 0⟩, ⟨30, 30, .w1c, 0⟩, ⟨29, 29, .ro, 0⟩, ⟨28, 28, .ro, 0⟩, ⟨27, 24, .ro, 0⟩, ⟨23, 0, .rsv, 0⟩]
  /- COUNT [31:0] -/
  | .HBMC_CNT_LO => [⟨31, 0, .ro, 0⟩]
  /- COUNT [31:0] -/
  | .HBMC_CNT_HI => [⟨31, 0, .ro, 0⟩]
  /- ADDR [23:0] -/
  | .HBMC_WIN_BASE => [⟨31, 24, .rsv, 0⟩, ⟨23, 0, .rw, 0⟩]
  /- UNITS [19:0] -/
  | .HBMC_WIN_SIZE => [⟨31, 20, .rsv, 0⟩, ⟨19, 0, .rw, 0⟩]
  /- EN [31:31], RD [30:30], WR [29:29] -/
  | .HBMC_WIN_CTL => [⟨31, 31, .rw, 0⟩, ⟨30, 30, .rw, 0⟩, ⟨29, 29, .rw, 0⟩, ⟨28, 0, .rsv, 0⟩]
  /- FENCE [0:0] -/
  | .HBMC_WIN_FENCE => [⟨31, 1, .rsv, 0⟩, ⟨0, 0, .w1s, 0⟩]
  /- COUNT [31:0] -/
  | .TIME_NOW_LO => [⟨31, 0, .ro, 0⟩]
  /- COUNT [31:0] -/
  | .TIME_NOW_HI => [⟨31, 0, .ro, 0⟩]
  /- COUNT [31:0] -/
  | .TIME_ELAPSED_LO => [⟨31, 0, .ro, 0⟩]
  /- COUNT [31:0] -/
  | .TIME_ELAPSED_HI => [⟨31, 0, .ro, 0⟩]
  /- RATE [31:0] -/
  | .TIME_RATE => [⟨31, 0, .rw, 0⟩]
  /- OFFSET [31:0] -/
  | .TIME_STEP_LO => [⟨31, 0, .wo, 0⟩]
  /- OFFSET [31:0] -/
  | .TIME_STEP_HI => [⟨31, 0, .wo, 0⟩]
  /- VALID [31:31], TU_RUN [30:30], STEP_PEND [29:29], STEP_BAD [28:28], PPS_SEEN [27:27], PPS_IGNORED [15:0] -/
  | .TIME_STAT => [⟨31, 31, .rw, 0⟩, ⟨30, 30, .ro, 0⟩, ⟨29, 29, .ro, 0⟩, ⟨28, 28, .w1c, 0⟩, ⟨27, 27, .w1c, 0⟩, ⟨26, 16, .rsv, 0⟩, ⟨15, 0, .ro, 0⟩]
  /- COUNT [31:0] -/
  | .TIME_PPS_IN_LO => [⟨31, 0, .ro, 0⟩]
  /- COUNT [31:0] -/
  | .TIME_PPS_IN_HI => [⟨31, 0, .ro, 0⟩]
  /- ENABLE [31:31], WIDTH_US [19:0] -/
  | .TIME_PPS_OUT => [⟨31, 31, .rw, 0⟩, ⟨30, 20, .rsv, 0⟩, ⟨19, 0, .rw, 0x186a0⟩]
  /- OFFSET_NS [31:0] -/
  | .TIME_PPS_OFS => [⟨31, 0, .rw, 0⟩]
  /- BLEACH [31:31], ROOT_LOCKED [30:30], HALTED [29:29], SLOT [28:28], KEY_IDX [27:24], SVN [23:16], OTP_CTR [15:8], BOOT [7:0] -/
  | .TRUST_STAT => [⟨31, 31, .ro, 0⟩, ⟨30, 30, .ro, 0⟩, ⟨29, 29, .ro, 0⟩, ⟨28, 28, .ro, 0⟩, ⟨27, 24, .ro, 0⟩, ⟨23, 16, .ro, 0⟩, ⟨15, 8, .ro, 0⟩, ⟨7, 0, .ro, 0⟩]
  /- STATE [31:30], GO [29:29], ADDR [25:0] -/
  | .TRUST_SIGN => [⟨31, 30, .ro, 0⟩, ⟨29, 29, .w1s, 0⟩, ⟨28, 26, .rsv, 0⟩, ⟨25, 0, .rw, 0⟩]
  /- DIV [31:20], CAP_UF [19:0] -/
  | .JRNL_HUP_CFG => [⟨31, 20, .rw, 0⟩, ⟨19, 0, .rw, 0⟩]
  /- P_HOLD_MW [19:0] -/
  | .JRNL_HUP_LOAD => [⟨31, 20, .rsv, 0⟩, ⟨19, 0, .rw, 0xfffff⟩]
  /- T_ERASE_US [31:12], T_PROG_US [11:0] -/
  | .JRNL_HUP_TIME => [⟨31, 12, .rw, 0xfffff⟩, ⟨11, 0, .rw, 0xfff⟩]
  /- UJ [31:0] -/
  | .JRNL_HUP_RSV => [⟨31, 0, .rw, 0xffffffff⟩]
  /- UJ [31:0] -/
  | .JRNL_HUP_AVAIL => [⟨31, 0, .ro, 0⟩]
  /- UJ [31:0] -/
  | .JRNL_HUP_NEED => [⟨31, 0, .ro, 0⟩]
  /- PFAIL [31:31], PFAIL_SEEN [30:30], V_MV [15:0] -/
  | .JRNL_STAT => [⟨31, 31, .ro, 0⟩, ⟨30, 30, .w1c, 0⟩, ⟨29, 16, .rsv, 0⟩, ⟨15, 0, .ro, 0⟩]
  /- OP [31:30], ADDR [27:0] -/
  | .JRNL_CMD => [⟨31, 30, .wo, 0⟩, ⟨29, 28, .rsv, 0⟩, ⟨27, 0, .wo, 0⟩]
  /- RESULT [31:29] -/
  | .JRNL_RESULT => [⟨31, 29, .ro, 0⟩, ⟨28, 0, .rsv, 0⟩]
  /- DATA [31:0] -/
  | .JRNL_BUF => [⟨31, 0, .rw, 0⟩]
  /- GO [31:31], ABORT [30:30], UNIT [6:0] -/
  | .TSTRIP_CTRL => [⟨31, 31, .w1s, 0⟩, ⟨30, 30, .w1s, 0⟩, ⟨29, 7, .rsv, 0⟩, ⟨6, 0, .rw, 0⟩]
  /- STATE [31:30], MEM_FAIL [29:29], SIG_FAIL [28:28] -/
  | .TSTRIP_STAT => [⟨31, 30, .ro, 0⟩, ⟨29, 29, .ro, 0⟩, ⟨28, 28, .ro, 0⟩, ⟨27, 0, .rsv, 0⟩]
  /- VALUE [31:0] -/
  | .TSTRIP_SIG_LO => [⟨31, 0, .ro, 0⟩]
  /- VALUE [31:0] -/
  | .TSTRIP_SIG_HI => [⟨31, 0, .ro, 0⟩]
  /- VALUE [31:0] -/
  | .TSTRIP_GOLD_LO => [⟨31, 0, .ro, 0⟩]
  /- VALUE [31:0] -/
  | .TSTRIP_GOLD_HI => [⟨31, 0, .ro, 0⟩]
  /- COUNT [31:0] -/
  | .TSTRIP_CNT => [⟨31, 0, .ro, 0⟩]
  /- REQ [31:30], DEMAND [29:29], HOLD_OFF [28:28], DOM_RESET [27:27] -/
  | .CLKPWR_PD_CTRL => [⟨31, 30, .rw, 0⟩, ⟨29, 29, .rw, 0⟩, ⟨28, 28, .rw, 0⟩, ⟨27, 27, .w1s, 0⟩, ⟨26, 0, .rsv, 0⟩]
  /- STATE [31:29], PLL_LOCK [28:28], REFUSED [27:27], WAKES [15:0] -/
  | .CLKPWR_PD_STAT => [⟨31, 29, .ro, 0⟩, ⟨28, 28, .ro, 0⟩, ⟨27, 27, .w1c, 0⟩, ⟨26, 16, .rsv, 0⟩, ⟨15, 0, .ro, 0⟩]
  /- REQ [31:30], DEMAND [29:29], HOLD_OFF [28:28], DOM_RESET [27:27] -/
  | .CLKPWR_CL_CTRL => [⟨31, 30, .rw, 0⟩, ⟨29, 29, .rw, 0⟩, ⟨28, 28, .rw, 0⟩, ⟨27, 27, .w1s, 0⟩, ⟨26, 0, .rsv, 0⟩]
  /- STATE [31:29], PLL_LOCK [28:28], REFUSED [27:27], WAKES [15:0] -/
  | .CLKPWR_CL_STAT => [⟨31, 29, .ro, 0⟩, ⟨28, 28, .ro, 0⟩, ⟨27, 27, .w1c, 0⟩, ⟨26, 16, .rsv, 0⟩, ⟨15, 0, .ro, 0⟩]
  /- WARM [31:31] -/
  | .CLKPWR_RESET => [⟨31, 31, .w1s, 0⟩, ⟨30, 0, .rsv, 0⟩]
  /- LAST [31:28], WARM_COUNT [15:0] -/
  | .CLKPWR_RST_CAUSE => [⟨31, 28, .ro, 0⟩, ⟨27, 16, .rsv, 0⟩, ⟨15, 0, .ro, 0⟩]
  /- EN [31:31], KICK [30:30], TIMEOUT_MS [15:0] -/
  | .CLKPWR_WDOG => [⟨31, 31, .w1s, 0⟩, ⟨30, 30, .wo, 0⟩, ⟨29, 16, .rsv, 0⟩, ⟨15, 0, .rw, 0x3e8⟩]

/-- The address of instance 0 in the bridge address space (R26); the ring-window registers are reached through
windows (R396) and have none. -/
def RegName.base : RegName → Option Nat
  | .SAFE_DEVID => some 0x2000000000
  | .SAFE_CLK => some 0x2000000004
  | .SAFE_STRAP => some 0x2000000008
  | .SAFE_PWRGD => some 0x2000000010
  | .SAFE_FAN => some 0x2000000020
  | .SAFE_THERM => some 0x2000000030
  | .SAFE_RET => some 0x2000000100
  | .MBX_MSG => some 0x2000010000
  | .MBX_RESP => some 0x2000010040
  | .MBX_ACK => some 0x2000010050
  | .MBX_STAT => some 0x2000010080
  | .MBX_DB => some 0x2000018000
  | .HP_CTRL => some 0x2000020000
  | .HP_LINK_STAT => some 0x2000020004
  | .HP_FLR_LO => some 0x2000020010
  | .HP_FLR_HI => some 0x2000020014
  | .QMGR_RING_SEL => some 0x2000100100
  | .RING_CTRL => none
  | .RING_INFO => none
  | .RING_WB_LO => none
  | .RING_WB_HI => none
  | .STRATA_CTRL => some 0x2000110000
  | .STRATA_DEVID => some 0x2000110004
  | .STRATA_TGT_QID => some 0x2000110008
  | .STRATA_OCTX_BASE => some 0x200011000c
  | .STRATA_SPILL_BASE => some 0x2000110010
  | .STRATA_SPILL_CFG => some 0x2000110014
  | .STRATA_AUDIO_RSV => some 0x2000110018
  | .STRATA_BUF_STAT => some 0x200011001c
  | .STRATA_CNT_LO => some 0x2000110100
  | .STRATA_CNT_HI => some 0x2000110104
  | .ETH_PCFG => some 0x2000120000
  | .ETH_PSTAT => some 0x2000120004
  | .SIEVE_CTRL => some 0x20001a0000
  | .EGS_TGT_QID => some 0x20001b0004
  | .EGS_STR_BASE => some 0x20001b0008
  | .EGS_PORT_CFG => some 0x20001b1000
  | .EGS_GATE_STAT => some 0x20001b1004
  | .EGS_CNT_LO => some 0x20001b1080
  | .EGS_CNT_HI => some 0x20001b1084
  | .CRYPT_CTRL => some 0x2000200000
  | .CRYPT_STAT => some 0x2000200004
  | .CRYPT_SLOTCNT_BASE => some 0x2000200008
  | .CRYPT_TAMPER_EN => some 0x2000200010
  | .CRYPT_TAMPER_STAT => some 0x2000200014
  | .CRYPT_SLOT_SEL => some 0x2000200100
  | .CRYPT_SLOT_INFO => some 0x2000200104
  | .CRYPT_CNT_LO => some 0x2000200200
  | .CRYPT_CNT_HI => some 0x2000200204
  | .KEYWIN_LOCK => some 0x2000210000
  | .KEYWIN_LOCK_STAT => some 0x2000210004
  | .KEYWIN_RELEASE => some 0x2000210008
  | .KEYWIN_CMD => some 0x2000210010
  | .KEYWIN_SWITCH_LO => some 0x2000210014
  | .KEYWIN_SWITCH_HI => some 0x2000210018
  | .KEYWIN_INIT_ROC => some 0x200021001c
  | .KEYWIN_RESULT => some 0x2000210020
  | .KEYWIN_DATA => some 0x2000210100
  | .DISP_CTRL => some 0x2000300000
  | .DISP_STORE_BASE => some 0x2000300004
  | .DISP_POOL => some 0x2000300008
  | .DISP_STAT => some 0x200030000c
  | .DISP_AFF => some 0x2000300010
  | .DISP_FENCE_LO => some 0x2000300014
  | .DISP_FENCE_HI => some 0x2000300018
  | .DISP_WAKE_THRESH => some 0x2000300100
  | .DISP_CNT_LO => some 0x2000300200
  | .DISP_CNT_HI => some 0x2000300204
  | .DISP_POST_W => some 0x2000308000
  | .DISP_POST_RES => some 0x2000308020
  | .DISP_KINFO => some 0x2000308024
  | .DISP_RODATA_LO => some 0x2000308028
  | .DISP_RODATA_HI => some 0x200030802c
  | .CORE_STAT => some 0x2001010000
  | .CORE_FAULT => some 0x2001010004
  | .CORE_FAULT_PC => some 0x2001010008
  | .CORE_FAULT_ADDR => some 0x200101000c
  | .CORE_CYC_LO => some 0x2001010010
  | .CORE_CYC_HI => some 0x2001010014
  | .CORE_ECC => some 0x2001010018
  | .MIXF_CTRL => some 0x2002000000
  | .MIXF_FRAME_LO => some 0x2002000004
  | .MIXF_FRAME_HI => some 0x2002000008
  | .MIXF_MTR_BASE => some 0x200200000c
  | .MIXF_SCHED => some 0x2002000010
  | .MIXF_SL_STAT => some 0x2002001000
  | .MIXF_SL_ARM => some 0x2002001004
  | .MIXF_SL_AT_LO => some 0x2002001008
  | .MIXF_SL_AT_HI => some 0x200200100c
  | .MIXF_CNT_LO => some 0x2002002000
  | .MIXF_CNT_HI => some 0x2002002004
  | .PICT_DEC_CTRL => some 0x2003000000
  | .PICT_DEC_STAT => some 0x2003000004
  | .PICT_DEC_CNT_LO => some 0x2003000200
  | .PICT_DEC_CNT_HI => some 0x2003000204
  | .POOL_CTRL => some 0x20030f0000
  | .POOL_TBL_BASE => some 0x20030f0004
  | .POOL_OP => some 0x20030f0010
  | .POOL_OP_RES => some 0x20030f0014
  | .POOL_RGN_BASE => some 0x20030f0100
  | .POOL_RGN_CFG => some 0x20030f0104
  | .POOL_RGN_FIRST => some 0x20030f0108
  | .POOL_RGN_FREE => some 0x20030f010c
  | .PICT_ENC_CTRL => some 0x2003001000
  | .PICT_ENC_STAT => some 0x2003001004
  | .PICT_ENC_CTX_BASE => some 0x2003001008
  | .PICT_ENC_CNT_LO => some 0x2003001200
  | .PICT_ENC_CNT_HI => some 0x2003001204
  | .PICT_COMP_CTRL => some 0x2003002000
  | .PICT_COMP_STAT => some 0x2003002004
  | .PICT_COMP_MAP_BASE => some 0x2003002008
  | .PICT_COMP_CNT_LO => some 0x2003002200
  | .PICT_COMP_CNT_HI => some 0x2003002204
  | .PICT_COMP_COEF => some 0x2003004000
  | .HBMC_CTRL => some 0x2004000000
  | .HBMC_STAT => some 0x2004000004
  | .HBMC_THERM => some 0x2004000008
  | .HBMC_TREFI => some 0x200400000c
  | .HBMC_PORT_CFG => some 0x2004000100
  | .HBMC_PORT_STAT => some 0x2004000104
  | .HBMC_SCRUB => some 0x2004000200
  | .HBMC_SCRUB_POS => some 0x2004000204
  | .HBMC_SCRUB_PASS => some 0x2004000208
  | .HBMC_UE_ADDR_LO => some 0x2004000300
  | .HBMC_UE_ADDR_HI => some 0x2004000304
  | .HBMC_UE_INFO => some 0x2004000308
  | .HBMC_CNT_LO => some 0x2004000400
  | .HBMC_CNT_HI => some 0x2004000404
  | .HBMC_WIN_BASE => some 0x2004080000
  | .HBMC_WIN_SIZE => some 0x2004080004
  | .HBMC_WIN_CTL => some 0x2004080008
  | .HBMC_WIN_FENCE => some 0x2004081000
  | .TIME_NOW_LO => some 0x2005000000
  | .TIME_NOW_HI => some 0x2005000004
  | .TIME_ELAPSED_LO => some 0x2005000008
  | .TIME_ELAPSED_HI => some 0x200500000c
  | .TIME_RATE => some 0x2005000010
  | .TIME_STEP_LO => some 0x2005000014
  | .TIME_STEP_HI => some 0x2005000018
  | .TIME_STAT => some 0x200500001c
  | .TIME_PPS_IN_LO => some 0x2005000020
  | .TIME_PPS_IN_HI => some 0x2005000024
  | .TIME_PPS_OUT => some 0x2005000028
  | .TIME_PPS_OFS => some 0x200500002c
  | .TRUST_STAT => some 0x2006000000
  | .TRUST_SIGN => some 0x2006000010
  | .JRNL_HUP_CFG => some 0x2008000000
  | .JRNL_HUP_LOAD => some 0x2008000004
  | .JRNL_HUP_TIME => some 0x2008000008
  | .JRNL_HUP_RSV => some 0x200800000c
  | .JRNL_HUP_AVAIL => some 0x2008000010
  | .JRNL_HUP_NEED => some 0x2008000014
  | .JRNL_STAT => some 0x2008000018
  | .JRNL_CMD => some 0x2008000020
  | .JRNL_RESULT => some 0x2008000024
  | .JRNL_BUF => some 0x2008000100
  | .TSTRIP_CTRL => some 0x2007000000
  | .TSTRIP_STAT => some 0x2007000004
  | .TSTRIP_SIG_LO => some 0x2007000008
  | .TSTRIP_SIG_HI => some 0x200700000c
  | .TSTRIP_GOLD_LO => some 0x2007000010
  | .TSTRIP_GOLD_HI => some 0x2007000014
  | .TSTRIP_CNT => some 0x2007000800
  | .CLKPWR_PD_CTRL => some 0x2009000000
  | .CLKPWR_PD_STAT => some 0x2009000004
  | .CLKPWR_CL_CTRL => some 0x2009000200
  | .CLKPWR_CL_STAT => some 0x2009000204
  | .CLKPWR_RESET => some 0x2009000400
  | .CLKPWR_RST_CAUSE => some 0x2009000404
  | .CLKPWR_WDOG => some 0x2009000408

/-- The strides and counts of the instances, outermost first. -/
def RegName.dims : RegName → List (Nat × Nat)
  | .SAFE_DEVID => []
  | .SAFE_CLK => []
  | .SAFE_STRAP => []
  | .SAFE_PWRGD => []
  | .SAFE_FAN => [(0x4, 4)]
  | .SAFE_THERM => []
  | .SAFE_RET => [(0x4, 64)]
  | .MBX_MSG => [(0x200, 64), (0x4, 16)]
  | .MBX_RESP => [(0x200, 64), (0x4, 4)]
  | .MBX_ACK => [(0x200, 64)]
  | .MBX_STAT => [(0x200, 64)]
  | .MBX_DB => [(0x4, 64)]
  | .HP_CTRL => [(0x10000, 4)]
  | .HP_LINK_STAT => [(0x10000, 4)]
  | .HP_FLR_LO => [(0x10000, 4)]
  | .HP_FLR_HI => [(0x10000, 4)]
  | .QMGR_RING_SEL => [(0x4, 4)]
  | .RING_CTRL => [(0x1, 4096)]
  | .RING_INFO => [(0x1, 4096)]
  | .RING_WB_LO => [(0x1, 4096)]
  | .RING_WB_HI => [(0x1, 4096)]
  | .STRATA_CTRL => []
  | .STRATA_DEVID => []
  | .STRATA_TGT_QID => []
  | .STRATA_OCTX_BASE => []
  | .STRATA_SPILL_BASE => []
  | .STRATA_SPILL_CFG => []
  | .STRATA_AUDIO_RSV => []
  | .STRATA_BUF_STAT => []
  | .STRATA_CNT_LO => [(0x8, 16)]
  | .STRATA_CNT_HI => [(0x8, 16)]
  | .ETH_PCFG => [(0x10000, 8)]
  | .ETH_PSTAT => [(0x10000, 8)]
  | .SIEVE_CTRL => []
  | .EGS_TGT_QID => []
  | .EGS_STR_BASE => []
  | .EGS_PORT_CFG => [(0x100, 8)]
  | .EGS_GATE_STAT => [(0x100, 8)]
  | .EGS_CNT_LO => [(0x100, 8), (0x8, 8)]
  | .EGS_CNT_HI => [(0x100, 8), (0x8, 8)]
  | .CRYPT_CTRL => []
  | .CRYPT_STAT => []
  | .CRYPT_SLOTCNT_BASE => []
  | .CRYPT_TAMPER_EN => []
  | .CRYPT_TAMPER_STAT => []
  | .CRYPT_SLOT_SEL => [(0x10, 4)]
  | .CRYPT_SLOT_INFO => [(0x10, 4)]
  | .CRYPT_CNT_LO => [(0x8, 8)]
  | .CRYPT_CNT_HI => [(0x8, 8)]
  | .KEYWIN_LOCK => []
  | .KEYWIN_LOCK_STAT => []
  | .KEYWIN_RELEASE => []
  | .KEYWIN_CMD => []
  | .KEYWIN_SWITCH_LO => []
  | .KEYWIN_SWITCH_HI => []
  | .KEYWIN_INIT_ROC => []
  | .KEYWIN_RESULT => []
  | .KEYWIN_DATA => [(0x4, 16)]
  | .DISP_CTRL => []
  | .DISP_STORE_BASE => []
  | .DISP_POOL => []
  | .DISP_STAT => []
  | .DISP_AFF => []
  | .DISP_FENCE_LO => []
  | .DISP_FENCE_HI => []
  | .DISP_WAKE_THRESH => [(0x4, 16)]
  | .DISP_CNT_LO => [(0x8, 10)]
  | .DISP_CNT_HI => [(0x8, 10)]
  | .DISP_POST_W => [(0x40, 512), (0x4, 8)]
  | .DISP_POST_RES => [(0x40, 512)]
  | .DISP_KINFO => [(0x40, 512)]
  | .DISP_RODATA_LO => [(0x40, 512)]
  | .DISP_RODATA_HI => [(0x40, 512)]
  | .CORE_STAT => [(0x100000, 16), (0x40, 32)]
  | .CORE_FAULT => [(0x100000, 16), (0x40, 32)]
  | .CORE_FAULT_PC => [(0x100000, 16), (0x40, 32)]
  | .CORE_FAULT_ADDR => [(0x100000, 16), (0x40, 32)]
  | .CORE_CYC_LO => [(0x100000, 16), (0x40, 32)]
  | .CORE_CYC_HI => [(0x100000, 16), (0x40, 32)]
  | .CORE_ECC => [(0x100000, 16), (0x40, 32)]
  | .MIXF_CTRL => []
  | .MIXF_FRAME_LO => []
  | .MIXF_FRAME_HI => []
  | .MIXF_MTR_BASE => []
  | .MIXF_SCHED => []
  | .MIXF_SL_STAT => [(0x40, 16)]
  | .MIXF_SL_ARM => [(0x40, 16)]
  | .MIXF_SL_AT_LO => [(0x40, 16)]
  | .MIXF_SL_AT_HI => [(0x40, 16)]
  | .MIXF_CNT_LO => [(0x80, 16), (0x8, 8)]
  | .MIXF_CNT_HI => [(0x80, 16), (0x8, 8)]
  | .PICT_DEC_CTRL => [(0x100000, 8)]
  | .PICT_DEC_STAT => [(0x100000, 8)]
  | .PICT_DEC_CNT_LO => [(0x100000, 8), (0x8, 8)]
  | .PICT_DEC_CNT_HI => [(0x100000, 8), (0x8, 8)]
  | .POOL_CTRL => []
  | .POOL_TBL_BASE => []
  | .POOL_OP => []
  | .POOL_OP_RES => []
  | .POOL_RGN_BASE => [(0x10, 16)]
  | .POOL_RGN_CFG => [(0x10, 16)]
  | .POOL_RGN_FIRST => [(0x10, 16)]
  | .POOL_RGN_FREE => [(0x10, 16)]
  | .PICT_ENC_CTRL => [(0x100000, 8)]
  | .PICT_ENC_STAT => [(0x100000, 8)]
  | .PICT_ENC_CTX_BASE => [(0x100000, 8)]
  | .PICT_ENC_CNT_LO => [(0x100000, 8), (0x8, 12)]
  | .PICT_ENC_CNT_HI => [(0x100000, 8), (0x8, 12)]
  | .PICT_COMP_CTRL => [(0x100000, 8)]
  | .PICT_COMP_STAT => [(0x100000, 8)]
  | .PICT_COMP_MAP_BASE => [(0x100000, 8)]
  | .PICT_COMP_CNT_LO => [(0x100000, 8), (0x8, 8)]
  | .PICT_COMP_CNT_HI => [(0x100000, 8), (0x8, 8)]
  | .PICT_COMP_COEF => [(0x100000, 8), (0x800, 8), (0x20, 64), (0x4, 6)]
  | .HBMC_CTRL => [(0x100000, 2)]
  | .HBMC_STAT => [(0x100000, 2)]
  | .HBMC_THERM => [(0x100000, 2)]
  | .HBMC_TREFI => [(0x100000, 2)]
  | .HBMC_PORT_CFG => [(0x100000, 2), (0x10, 16)]
  | .HBMC_PORT_STAT => [(0x100000, 2), (0x10, 16)]
  | .HBMC_SCRUB => [(0x100000, 2)]
  | .HBMC_SCRUB_POS => [(0x100000, 2)]
  | .HBMC_SCRUB_PASS => [(0x100000, 2)]
  | .HBMC_UE_ADDR_LO => [(0x100000, 2)]
  | .HBMC_UE_ADDR_HI => [(0x100000, 2)]
  | .HBMC_UE_INFO => [(0x100000, 2)]
  | .HBMC_CNT_LO => [(0x100000, 2), (0x8, 16)]
  | .HBMC_CNT_HI => [(0x100000, 2), (0x8, 16)]
  | .HBMC_WIN_BASE => [(0x10, 128)]
  | .HBMC_WIN_SIZE => [(0x10, 128)]
  | .HBMC_WIN_CTL => [(0x10, 128)]
  | .HBMC_WIN_FENCE => []
  | .TIME_NOW_LO => []
  | .TIME_NOW_HI => []
  | .TIME_ELAPSED_LO => []
  | .TIME_ELAPSED_HI => []
  | .TIME_RATE => []
  | .TIME_STEP_LO => []
  | .TIME_STEP_HI => []
  | .TIME_STAT => []
  | .TIME_PPS_IN_LO => []
  | .TIME_PPS_IN_HI => []
  | .TIME_PPS_OUT => []
  | .TIME_PPS_OFS => []
  | .TRUST_STAT => []
  | .TRUST_SIGN => []
  | .JRNL_HUP_CFG => []
  | .JRNL_HUP_LOAD => []
  | .JRNL_HUP_TIME => []
  | .JRNL_HUP_RSV => []
  | .JRNL_HUP_AVAIL => []
  | .JRNL_HUP_NEED => []
  | .JRNL_STAT => []
  | .JRNL_CMD => []
  | .JRNL_RESULT => []
  | .JRNL_BUF => [(0x4, 64)]
  | .TSTRIP_CTRL => [(0x40, 16)]
  | .TSTRIP_STAT => [(0x40, 16)]
  | .TSTRIP_SIG_LO => [(0x40, 16)]
  | .TSTRIP_SIG_HI => [(0x40, 16)]
  | .TSTRIP_GOLD_LO => [(0x40, 16)]
  | .TSTRIP_GOLD_HI => [(0x40, 16)]
  | .TSTRIP_CNT => [(0x4, 4)]
  | .CLKPWR_PD_CTRL => [(0x8, 35)]
  | .CLKPWR_PD_STAT => [(0x8, 35)]
  | .CLKPWR_CL_CTRL => [(0x8, 64)]
  | .CLKPWR_CL_STAT => [(0x8, 64)]
  | .CLKPWR_RESET => []
  | .CLKPWR_RST_CAUSE => []
  | .CLKPWR_WDOG => []

/-- Who may read the register besides firmware. -/
def RegName.vis : RegName → Vis
  | .STRATA_BUF_STAT => .kernel
  | .STRATA_CNT_LO => .kernel
  | .STRATA_CNT_HI => .kernel
  | .EGS_STR_BASE => .kernel
  | .EGS_CNT_LO => .kernel
  | .EGS_CNT_HI => .kernel
  | .DISP_POST_W => .port
  | .DISP_POST_RES => .port
  | .DISP_KINFO => .port
  | .DISP_RODATA_LO => .port
  | .DISP_RODATA_HI => .port
  | .CORE_STAT => .tile
  | .CORE_FAULT => .tile
  | .CORE_FAULT_PC => .tile
  | .CORE_FAULT_ADDR => .tile
  | .CORE_CYC_LO => .tile
  | .CORE_CYC_HI => .tile
  | .CORE_ECC => .tile
  | .MIXF_MTR_BASE => .kernel
  | .TIME_NOW_LO => .kernel
  | .TIME_NOW_HI => .kernel
  | .TIME_ELAPSED_LO => .kernel
  | .TIME_ELAPSED_HI => .kernel
  | _ => .fw

/-- Every register of the map. -/
def RegName.all : List RegName := [.SAFE_DEVID,
  .SAFE_CLK,
  .SAFE_STRAP,
  .SAFE_PWRGD,
  .SAFE_FAN,
  .SAFE_THERM,
  .SAFE_RET,
  .MBX_MSG,
  .MBX_RESP,
  .MBX_ACK,
  .MBX_STAT,
  .MBX_DB,
  .HP_CTRL,
  .HP_LINK_STAT,
  .HP_FLR_LO,
  .HP_FLR_HI,
  .QMGR_RING_SEL,
  .RING_CTRL,
  .RING_INFO,
  .RING_WB_LO,
  .RING_WB_HI,
  .STRATA_CTRL,
  .STRATA_DEVID,
  .STRATA_TGT_QID,
  .STRATA_OCTX_BASE,
  .STRATA_SPILL_BASE,
  .STRATA_SPILL_CFG,
  .STRATA_AUDIO_RSV,
  .STRATA_BUF_STAT,
  .STRATA_CNT_LO,
  .STRATA_CNT_HI,
  .ETH_PCFG,
  .ETH_PSTAT,
  .SIEVE_CTRL,
  .EGS_TGT_QID,
  .EGS_STR_BASE,
  .EGS_PORT_CFG,
  .EGS_GATE_STAT,
  .EGS_CNT_LO,
  .EGS_CNT_HI,
  .CRYPT_CTRL,
  .CRYPT_STAT,
  .CRYPT_SLOTCNT_BASE,
  .CRYPT_TAMPER_EN,
  .CRYPT_TAMPER_STAT,
  .CRYPT_SLOT_SEL,
  .CRYPT_SLOT_INFO,
  .CRYPT_CNT_LO,
  .CRYPT_CNT_HI,
  .KEYWIN_LOCK,
  .KEYWIN_LOCK_STAT,
  .KEYWIN_RELEASE,
  .KEYWIN_CMD,
  .KEYWIN_SWITCH_LO,
  .KEYWIN_SWITCH_HI,
  .KEYWIN_INIT_ROC,
  .KEYWIN_RESULT,
  .KEYWIN_DATA,
  .DISP_CTRL,
  .DISP_STORE_BASE,
  .DISP_POOL,
  .DISP_STAT,
  .DISP_AFF,
  .DISP_FENCE_LO,
  .DISP_FENCE_HI,
  .DISP_WAKE_THRESH,
  .DISP_CNT_LO,
  .DISP_CNT_HI,
  .DISP_POST_W,
  .DISP_POST_RES,
  .DISP_KINFO,
  .DISP_RODATA_LO,
  .DISP_RODATA_HI,
  .CORE_STAT,
  .CORE_FAULT,
  .CORE_FAULT_PC,
  .CORE_FAULT_ADDR,
  .CORE_CYC_LO,
  .CORE_CYC_HI,
  .CORE_ECC,
  .MIXF_CTRL,
  .MIXF_FRAME_LO,
  .MIXF_FRAME_HI,
  .MIXF_MTR_BASE,
  .MIXF_SCHED,
  .MIXF_SL_STAT,
  .MIXF_SL_ARM,
  .MIXF_SL_AT_LO,
  .MIXF_SL_AT_HI,
  .MIXF_CNT_LO,
  .MIXF_CNT_HI,
  .PICT_DEC_CTRL,
  .PICT_DEC_STAT,
  .PICT_DEC_CNT_LO,
  .PICT_DEC_CNT_HI,
  .POOL_CTRL,
  .POOL_TBL_BASE,
  .POOL_OP,
  .POOL_OP_RES,
  .POOL_RGN_BASE,
  .POOL_RGN_CFG,
  .POOL_RGN_FIRST,
  .POOL_RGN_FREE,
  .PICT_ENC_CTRL,
  .PICT_ENC_STAT,
  .PICT_ENC_CTX_BASE,
  .PICT_ENC_CNT_LO,
  .PICT_ENC_CNT_HI,
  .PICT_COMP_CTRL,
  .PICT_COMP_STAT,
  .PICT_COMP_MAP_BASE,
  .PICT_COMP_CNT_LO,
  .PICT_COMP_CNT_HI,
  .PICT_COMP_COEF,
  .HBMC_CTRL,
  .HBMC_STAT,
  .HBMC_THERM,
  .HBMC_TREFI,
  .HBMC_PORT_CFG,
  .HBMC_PORT_STAT,
  .HBMC_SCRUB,
  .HBMC_SCRUB_POS,
  .HBMC_SCRUB_PASS,
  .HBMC_UE_ADDR_LO,
  .HBMC_UE_ADDR_HI,
  .HBMC_UE_INFO,
  .HBMC_CNT_LO,
  .HBMC_CNT_HI,
  .HBMC_WIN_BASE,
  .HBMC_WIN_SIZE,
  .HBMC_WIN_CTL,
  .HBMC_WIN_FENCE,
  .TIME_NOW_LO,
  .TIME_NOW_HI,
  .TIME_ELAPSED_LO,
  .TIME_ELAPSED_HI,
  .TIME_RATE,
  .TIME_STEP_LO,
  .TIME_STEP_HI,
  .TIME_STAT,
  .TIME_PPS_IN_LO,
  .TIME_PPS_IN_HI,
  .TIME_PPS_OUT,
  .TIME_PPS_OFS,
  .TRUST_STAT,
  .TRUST_SIGN,
  .JRNL_HUP_CFG,
  .JRNL_HUP_LOAD,
  .JRNL_HUP_TIME,
  .JRNL_HUP_RSV,
  .JRNL_HUP_AVAIL,
  .JRNL_HUP_NEED,
  .JRNL_STAT,
  .JRNL_CMD,
  .JRNL_RESULT,
  .JRNL_BUF,
  .TSTRIP_CTRL,
  .TSTRIP_STAT,
  .TSTRIP_SIG_LO,
  .TSTRIP_SIG_HI,
  .TSTRIP_GOLD_LO,
  .TSTRIP_GOLD_HI,
  .TSTRIP_CNT,
  .CLKPWR_PD_CTRL,
  .CLKPWR_PD_STAT,
  .CLKPWR_CL_CTRL,
  .CLKPWR_CL_STAT,
  .CLKPWR_RESET,
  .CLKPWR_RST_CAUSE,
  .CLKPWR_WDOG]

end Sys2Proof.Machine
end

