-- ==== Sys2Proof/Machine/Table.lean ====
section
/-! DEFINITION. Sparse tables: key and value pairs, keys strictly rising, read and written through one set of
operations. -/

namespace Sys2Proof.Machine

/-- A sparse table from natural-number keys: the pairs present, keys strictly rising. -/
abbrev Tbl (α : Type) := List (Nat × α)

/-- The value at a key, if the table lists it. -/
def Tbl.find {α : Type} : Tbl α → Nat → Option α
  | [], _ => none
  | (k, v) :: r, q => if k = q then some v else Tbl.find r q

/-- The value at a key, or the value an unlisted key stands for. -/
def Tbl.get {α : Type} (t : Tbl α) (d : α) (q : Nat) : α := (Tbl.find t q).getD d

/-- Does the table list the key? -/
def Tbl.has {α : Type} (t : Tbl α) (q : Nat) : Bool := (Tbl.find t q).isSome

/-- The table with a value at a key, keys kept rising. -/
def Tbl.set {α : Type} : Tbl α → Nat → α → Tbl α
  | [], q, v => [(q, v)]
  | (k, w) :: r, q, v =>
    if q < k then (q, v) :: (k, w) :: r
    else if k = q then (q, v) :: r
    else (k, w) :: Tbl.set r q v

/-- The table without a key. -/
def Tbl.del {α : Type} : Tbl α → Nat → Tbl α
  | [], _ => []
  | (k, w) :: r, q => if k = q then Tbl.del r q else (k, w) :: Tbl.del r q

/-- The table with the value at a key changed by a function; an unlisted key stays unlisted. -/
def Tbl.upd {α : Type} (t : Tbl α) (q : Nat) (f : α → α) : Tbl α :=
  match Tbl.find t q with
  | some v => Tbl.set t q (f v)
  | none => t

/-- The table with the value at a key, or the default there, changed by a function. -/
def Tbl.updD {α : Type} (t : Tbl α) (d : α) (q : Nat) (f : α → α) : Tbl α := Tbl.set t q (f (Tbl.get t d q))

/-- The keys listed, in order. -/
def Tbl.keys {α : Type} (t : Tbl α) : List Nat := t.map (·.1)

/-- The keys whose entries meet a condition, in order. -/
def Tbl.keysWhere {α : Type} (t : Tbl α) (p : Nat → α → Bool) : List Nat := (t.filter fun kv => p kv.1 kv.2).map (·.1)

/-- The values changed one by one. -/
def Tbl.mapv {α : Type} (t : Tbl α) (f : Nat → α → α) : Tbl α := t.map fun kv => (kv.1, f kv.1 kv.2)

/-- The entries that meet a condition. -/
def Tbl.keep {α : Type} (t : Tbl α) (p : Nat → α → Bool) : Tbl α := t.filter fun kv => p kv.1 kv.2

/-- Are the keys strictly rising? -/
def Tbl.wf {α : Type} : Tbl α → Bool
  | [] => true
  | [_] => true
  | (a, _) :: (b, w) :: r => decide (a < b) && Tbl.wf ((b, w) :: r)

end Sys2Proof.Machine
end

