-- ==== Sys2Proof/Machine/TypesBase.lean ====
section
/-! DEFINITION. The state types of chapters 1, 12 and 13: FIFO instances, mailboxes, functions, rings, notifications,
meter streams, and the model's own log of what leaves the device. -/

namespace Sys2Proof.Machine

/-- An instance of the FIFO primitive (R35 to R41). -/
structure Fifo where
  /-- Storage address. -/
  base : Nat := 0
  /-- `ITEM_SIZE` code. -/
  itemSize : Nat := 3
  /-- `LOG2_DEPTH`. -/
  log2 : Nat := 4
  /-- `CT_THRESH`. -/
  ct : Nat := 0
  pidx : Nat := 0
  cidx : Nat := 0
  /-- Producer indices at which the closed packets that are pending end, oldest first. -/
  ends : List Nat := []
  /-- `PKT_OPEN`. -/
  pktOpen : Bool := false
  overflow : Bool := false
  underrun : Bool := false
  /-- An open packet is being discarded until it closes (R39). -/
  discard : Bool := false
  /-- Word position of `FIFO_DATA` in the head item. -/
  wpos : Nat := 0
  /-- The last word popped. -/
  last : Word := 0
  /-- The items between `CIDX` and `PIDX`, oldest first. -/
  items : List (List Word) := []
  deriving DecidableEq, Repr

/-- The answer to the last register or FIFO access (R22, R26, R27, R358, R512). -/
inductive Bus where
  | none
  | ok (v : Word)
  | busError
  | completerAbort
  | unsupported
  deriving DecidableEq, Repr

/-- Where a frame or message goes that firmware handles (R47, R70). -/
inductive FwKind where
  | arp | icmp | stun | dtls | tolku | sideband | mctpControl | pldm
  deriving DecidableEq, Repr

/-- What leaves the device, in the model's own log. -/
inductive Out where
  /-- A frame sent on an Ethernet port: its UDP payload. -/
  | frame (port : Nat) (bytes : List Byte)
  /-- A message handed to a firmware queue. -/
  | firmware (k : FwKind) (src : Nat) (bytes : List Byte)
  /-- A DMA write to host memory under function `fn` (R394). -/
  | dma (fn addr : Nat) (words : List Word)
  /-- The same in bytes, for a record that is no whole number of words. -/
  | dmaBytes (fn addr : Nat) (bytes : List Byte)
  /-- An MSI-X message: vector of a function (R392). -/
  | msix (fn vec : Nat)
  /-- An interrupt of a control core for a command channel (R357). -/
  | ctrlInt (ch : Nat)
  /-- A message that Safelight posts to firmware on channel 2. -/
  | chan2 (what : Nat) (arg : Nat)
  /-- An answer to a channel 0 or 1 command, in the sideband's reply (R360). -/
  | sideReply (ch : Nat) (words : List Word)
  /-- A non-fatal AER report for one function (R404). -/
  | aer (fn : Nat)
  /-- The level of a management output (power good, fans, PPS). -/
  | pin (which value : Nat)
  /-- The answer to an access that has waited for a sleeping stack (R22). -/
  | served (who : Agent) (addr : Nat) (b : Bus)
  /-- A packet that was dropped for the reason numbered (R33). -/
  | event (code arg : Nat)
  deriving DecidableEq, Repr

/-- The function that owns an object, and whether the object is dying (R371, R408). -/
structure Own where
  fn : Nat := 0
  dying : Bool := false
  deriving DecidableEq, Repr

/-- The tenant of a function (R17). -/
def Own.tenant (o : Own) : Nat := o.fn / 64

/-- A notification in firmware's store (R353, R369). -/
structure Note where
  op : Nat
  handle : Nat
  words : List Nat
  deriving DecidableEq, Repr

/-- The notifications of one channel or event ring (R353, R369). -/
structure NoteQ where
  /-- Waiting, oldest first; at most 256. -/
  wait : List Note := []
  /-- Dropped since the last SYS_NOTIFY_LOST, by family byte. -/
  dropped : Tbl Nat := []
  /-- `SEQ` of the next notification. -/
  seq : Nat := 0
  deriving DecidableEq, Repr

/-- The route of one family's notifications (R369). -/
inductive Route where
  | local (l : Nat)
  | ring (r : Nat)
  deriving DecidableEq, Repr

/-- A PCIe function (R363, R369, R370, R388, R405, R408). -/
structure Fn where
  /-- The negotiated version's number, or 0 when none. -/
  ver : Nat := 0
  /-- The function epoch. -/
  epoch : Nat := 0
  /-- Bus Master Enable. -/
  bme : Bool := false
  /-- Routes set by SYS_NOTIFY_CFG, by family byte. -/
  routes : Tbl Route := []
  deriving DecidableEq, Repr

/-- The SR-IOV state of a port's PF (R388). -/
structure SrIov where
  numVfs : Nat := 0
  enable : Bool := false
  deriving DecidableEq, Repr

/-- What a ring keeps beside its registers (R400, R403). -/
structure RingX where
  /-- Elapsed time of the last event or vector. -/
  lastInt : Nat := 0
  /-- No event has come since the ring's reset. -/
  quiet : Bool := true
  /-- An event waits for the moderation period's end. -/
  intDue : Bool := false
  deriving DecidableEq, Repr

/-- A Loupe ring's header and place (R104). -/
structure Loupe where
  hbm : Bool := false
  addr : Nat := 0
  log2 : Nat := 6
  pidx : Nat := 0
  wrap : Nat := 0
  lastTime : Nat := 0
  lost : Nat := 0
  deriving DecidableEq, Repr

/-- A meter stream (R377, R378). -/
structure Meter where
  own : Own := {}
  ring : Loupe := {}
  period : Nat := 1
  list : List Nat := []
  /-- The mix frame last sampled, plus one. -/
  seen : Nat := 0
  /-- Entries lost since the last TELEM_LOST. -/
  lostNew : Nat := 0
  /-- Elapsed time of that notification, plus one. -/
  lostAt : Nat := 0
  deriving DecidableEq, Repr

/-- The mailbox and Vusta state beside the MBX registers (chapter 12). -/
structure Vusta where
  /-- The commands posted and not yet answered, by path, in the order posted. -/
  posted : List Path := []
  /-- SYS_SHUTDOWN has stopped the admission of tenants' commands (R375). -/
  shutdown : Bool := false
  fns : Tbl Fn := []
  sriov : Tbl SrIov := []
  rings : Tbl RingX := []
  notes : Tbl NoteQ := []
  meters : Tbl Meter := []
  /-- The firmware version word: [31:24] major, [23:16] minor, [15:0] build (R511). -/
  fwVer : Word := 0x01000000
  /-- Functions whose cleanup runs, with the elapsed time at which their reset began. -/
  cleaning : Tbl Nat := []
  deriving DecidableEq, Repr

end Sys2Proof.Machine
end

