-- ==== Sys2Proof/Machine/TypesCore.lean ====
section
/-! DEFINITION. The state types of chapters 8 and 9: the media and control cores, the dispatcher and the kernels. -/

namespace Sys2Proof.Machine

/-- One of a core's eight DMA tags (R251, R252). -/
structure Tag where
  inFlight : Bool := false
  /-- Out of the LDM (`dmao`). -/
  out : Bool := false
  bridge : Nat := 0
  ldm : Nat := 0
  len : Nat := 0
  /-- The failing bridge address of a finished transfer whose DMA_FAULT has not been raised. -/
  fail : Option Nat := none
  deriving DecidableEq, Repr

/-- A work item: eight words (R266). -/
structure Item where
  words : List Word := []
  /-- The payload reference that the item holds (R269). -/
  payload : Option Nat := none
  /-- 0 audio reserve, 1 tenant's reservation, 2 shared (R272). -/
  pool : Nat := 2
  /-- The tenant of the kernel that posted the item; 4 = another producer. -/
  src : Nat := 4
  deriving DecidableEq, Repr

/-- A media or control core (R234, R239, R240, R442). -/
structure Core where
  g : Tbl Word := []
  /-- Accumulator lanes, 4 × accumulator + lane. -/
  acc : Tbl (BitVec 40) := []
  x : Tbl Half := []
  o : Tbl Half := []
  cb : Tbl Half := []
  cl : Tbl Half := []
  lc : Tbl Half := []
  ls : Tbl Word := []
  le : Tbl Word := []
  /-- Active loop levels. -/
  act : Tbl Bool := []
  sv : Word := 0
  st : Word := 0
  /-- Image byte address of the next instruction. -/
  pc : Word := 0
  /-- LDM of a media core, or a control core's view of none. -/
  ldm : List Host.Cell := []
  /-- 8-byte LDM units that hold a bit error: false single, true double (R237). -/
  ldmErr : Tbl Bool := []
  /-- 64-byte lines of the image: with a parity error in the instruction cache, and unreadable in memory (R258). -/
  icErr : List Nat := []
  imgErr : List Nat := []
  /-- Uncorrectable 64-byte units of HBM that the item meets, by address / 64 (R341). -/
  memErr : List Nat := []
  tags : Tbl Tag := []
  /-- The item in progress: slot, queue, kernel, tenant. -/
  running : Bool := false
  slot : Nat := 0
  qid : Nat := 0
  kern : Nat := 0
  tenant : Nat := 0
  /-- Elapsed time at the item's start. -/
  since : Nat := 0
  /-- Posts accepted for the running item. -/
  posts : Nat := 0
  /-- A fault has stopped the item and awaits its report: the cause. -/
  faulted : Option Nat := none
  /-- The image that runs, by the number of its load; 0 for Damilo's (R259). -/
  load : Nat := 0
  /-- The image that the previous item ran: its kernel and the number of its load (R259). -/
  prev : Option (Nat × Nat) := none
  /-- The tenant of the previous item (R260). -/
  prevT : Option Nat := none
  /-- The previous item ended without a fault. -/
  warm : Bool := false
  /-- Prefetch slots: the item placed in each. -/
  slots : Tbl Item := []
  /-- The filled slots, in the order in which they were filled. -/
  order : List Nat := []
  /-- The high half of cyc latched for `mfs` 0x05. -/
  cycHi : Word := 0
  /-- Control cores: the privileged registers win, epc, ie, ip, vbase, and the interrupt-enable state. -/
  win : Word := 0
  epc : Word := 0
  ie : Word := 0
  ip : Word := 0
  vbase : Word := 0
  intOn : Bool := false
  /-- `wfi` holds the core. -/
  waiting : Bool := false
  /-- The core has entered the ROM service SWAP. -/
  inRom : Bool := false
  /-- `CORE_ECC.CORRECTED` as firmware last counted it (R482). -/
  ceSeen : Nat := 0
  deriving DecidableEq, Repr

/-- A completion of an ordered queue that waits for its ticket (R271). -/
structure Staged where
  ticket : Nat
  done : Bool := false
  posts : List (Nat × Item) := []
  deriving DecidableEq, Repr

/-- A configured dispatch queue (R270 to R275). -/
structure DispQ where
  own : Own := {}
  typ : Nat := 0
  rank : Nat := 6
  kern : Nat := 0
  mask : BitVec 64 := 0
  limit : Nat := 1
  itemLimit : Nat := 1000
  ordWin : Nat := 4096
  items : List Item := []
  /-- Space reserved for staged posts (R271). -/
  resv : Nat := 0
  /-- Next ticket and oldest unreleased ticket. -/
  nextT : Nat := 0
  oldT : Nat := 0
  staged : List Staged := []
  wakeOut : Bool := false
  ptr : Nat := 0
  /-- Items completed, errors, drops, for KERNEL_QUERY. -/
  done : Nat := 0
  errors : Nat := 0
  drops : Nat := 0
  deriving DecidableEq, Repr

/-- A loaded kernel (R285, R286). -/
structure Kernel where
  own : Own := {}
  /-- Loaded by firmware at start, Damilo's. -/
  damilo : Bool := false
  version : Nat := 0
  audio : Bool := false
  cost : Nat := 0
  /-- Code bytes and read-only data bytes. -/
  code : Nat := 0
  roBytes : Nat := 0
  name : List Word := []
  /-- The whole image as loaded, without its signatures. -/
  image : List Word := []
  /-- Bridge address of the read-only data. -/
  ro : Nat := 0
  keySlot : Nat := 0
  /-- The number of the load that placed this image (R259). -/
  load : Nat := 0
  suspended : Bool := false
  /-- Elapsed times of the faults of the last second. -/
  faults : List Nat := []
  deriving DecidableEq, Repr

/-- A processing chain (R288). -/
structure Chain where
  own : Own := {}
  kerns : List Nat := []
  qid : Nat := 0
  deriving DecidableEq, Repr

/-- The dispatcher (chapter 9). -/
structure Disp where
  qs : Tbl DispQ := []
  kernels : Tbl Kernel := []
  /-- Images loaded so far. -/
  loads : Nat := 0
  /-- Kernel key slots, 4 × tenant + slot: the 1,984-byte key block. -/
  keys : Tbl (List Word) := []
  chains : Tbl Chain := []
  itemMin : Tbl Nat := []
  /-- Store use (R272): 0 audio reserve, 1 + t tenant t's reservation, 5 shared, 6 + t held by tenant t in all. -/
  used : Tbl Nat := []
  /-- The estimate queue of firmware, a shared input (R279). -/
  estQid : Nat := 0xC002
  /-- The queue of the class encodes, Damilo's, of rank 2 (R139, R141). -/
  encQid : Nat := 0xC003
  /-- Affinity entries that are valid: the core. -/
  aff : Tbl Nat := []
  /-- Pointers of R29 over qid, by rank. -/
  ptrs : Tbl Nat := []
  /-- Clusters that take no more items before they sleep (R284). -/
  draining : Tbl Bool := []
  /-- `FAULT_LIMIT` of R282. -/
  faultLimit : Nat := 16
  deriving DecidableEq, Repr

end Sys2Proof.Machine
end

