-- ==== Sys2Proof/Machine/TypesMix.lean ====
section
/-! DEFINITION. The state types of chapter 4: conferences, sources, classes, slices, taps. -/

namespace Sys2Proof.Machine

/-- A gain or membership ramp (R122): from `g0` to `g1` over `n` samples; sample k of the current frame is the ramp's
sample k - start + 1. -/
structure Ramp where
  g0 : Int := 0
  g1 : Int := 0
  n : Nat := 12
  lin : Bool := false
  start : Int := -48000
  deriving DecidableEq, Repr

/-- What an entry was for the samples of the current frame before `upTo` (R134). -/
structure EntryVer where
  upTo : Nat := 480
  words : List Word := []
  ramp : Ramp := {}
  fades : List (Word × Ramp) := []
  deriving DecidableEq, Repr

/-- A parameter entry of a slice (R133, R134, R136): its words, its gain's ramp, and the sources that a safe-load is
ramping out. -/
structure Entry where
  words : List Word := []
  ramp : Ramp := {}
  /-- Word 0 of the entry that ramps out, with its ramp to zero. -/
  fades : List (Word × Ramp) := []
  /-- What stood for the first samples of the current frame, oldest first (R134). -/
  pre : List EntryVer := []
  /-- The sample of the current frame at which a safe-load replaced it (R135). -/
  swapAt : Option Nat := none
  deriving DecidableEq, Repr

/-- A contributor of a conference's sum (R125, R126). -/
structure Member where
  src : Nat
  /-- The membership factor M, UQ1.15. -/
  m : Ramp := {}
  leaving : Bool := false
  deriving DecidableEq, Repr

/-- A meter's peak hold (R124) and its last levels. -/
structure MeterSt where
  hold : Int := -32768
  timer : Nat := 0
  peakDb : Int := -32768
  rmsDb : Int := -32768
  /-- The mean squares of the last six frames, newest first, CONCEALED and ABSENT as zero. -/
  ms : List Nat := []
  deriving DecidableEq, Repr

/-- A conference (CONF_CREATE). -/
structure Conf where
  own : Own := {}
  /-- It has no owner (R410). -/
  orphan : Bool := false
  /-- CONF_CLOSING has been posted. -/
  closing : Bool := false
  home : Nat := 0
  notify : Bool := false
  k : Nat := 1
  change : Nat := 1
  vad : Int := -12800
  hyst : Int := 1536
  hang : Nat := 50
  ramp : Nat := 240
  linger : Nat := 200
  mergeMax : Nat := 1000
  quiet : Int := -11520
  msClass : Nat := 0
  msStream : Nat := 0
  decay : Int := 0
  holdFrames : Nat := 0
  members : List Member := []
  /-- The pointer of R29 over src_id. -/
  ptr : Nat := 0
  meter : MeterSt := {}
  deriving DecidableEq, Repr

/-- A source (MIX_SOURCE_ADD). -/
structure Source where
  own : Own := {}
  kind : Nat := 0
  conf : Nat := 0
  /-- The stream (KIND 0) or the media ring's qid (KIND 1). -/
  from' : Nat := 0
  contrib : Bool := false
  jbMin : Nat := 20
  jbMax : Nat := 200
  /-- The jitter buffer's delay now, in ms (R116). -/
  jbDelay : Nat := 20
  /-- The last 48 samples at the codec's rate, newest last (R116). -/
  hist : List Int := []
  /-- Consecutive missing frames (R117). -/
  conc : Nat := 0
  /-- Its decode has just moved to another tile: the next frame is ABSENT (R146). -/
  skip : Bool := false
  /-- The decoding tile and the route entry on it (R115). -/
  tile : Nat := 0
  route : Nat := 0
  pinned : Bool := false
  /-- Mcycles/s charged for its decode (R140). -/
  cost : Nat := 0
  /-- MIX_SOURCE_REMOVE waits for the ramp's end. -/
  removed : Bool := false
  /-- The samples that the frame contributes. -/
  cur : List Int := []
  /-- The frame as delivered, and whether it was DECODED or FEC. -/
  raw : List Int := []
  good : Bool := false
  /-- The last frame that was not ABSENT. -/
  prev : List Int := []
  /-- Consecutive ABSENT frames. -/
  absent : Nat := 0
  /-- The fade-in after an absence (R119). -/
  fade : Ramp := { g0 := 32768, g1 := 32768 }
  /-- The last active frame's number, plus one. -/
  lastAct : Nat := 0
  meter : MeterSt := {}
  deriving DecidableEq, Repr

/-- A mix class, named or derived (R128 to R132). -/
structure MixClass where
  own : Own := {}
  conf : Nat := 0
  /-- The class entry on the home slice, 1,280 to 2,303. -/
  entry : Nat := 1280
  encTile : Nat := 0
  codec : Nat := 0
  /-- Mix frames in a packet. -/
  ptime : Nat := 2
  bw : Nat := 0
  fec : Bool := false
  dtx : Bool := false
  cplx : Nat := 0
  bitrate : Nat := 0
  chain : Nat := 0
  /-- A change of chain that waits: the chain, and the frame from which it applies. -/
  chainAt : Option (Nat × Nat) := none
  outStream : Nat := 0
  forkFrom : Option Nat := none
  /-- A derived class: its named class and the source removed. -/
  self : Option (Nat × Nat) := none
  /-- The first frame that a packet covers (R129). -/
  first : Nat := 0
  /-- The class has encoded a packet. -/
  encoded : Bool := false
  /-- The class whose encoder and chain state its first packet starts from (R131, R133). -/
  copyOf : Option Nat := none
  /-- The frame at which its source left: it lingers (R132). -/
  linger : Option Nat := none
  meter : MeterSt := {}
  deriving DecidableEq, Repr

/-- A leg's membership of a class (R130, R133), by sub_id. -/
structure Join where
  /-- The named class. -/
  cls : Nat
  self : Option Nat := none
  /-- The class it receives. -/
  cur : Nat := 0
  /-- A move that waits for a change boundary at or after the frame. -/
  move : Option (Nat × Option Nat × Nat) := none
  deriving DecidableEq, Repr

/-- A recording tap (R142). -/
structure Tap where
  own : Own := {}
  /-- 0 source, 1 conference output, 2 class output. -/
  kind : Nat := 0
  ident : Nat := 0
  ring : Nat := 0
  lost : Nat := 0
  deriving DecidableEq, Repr

/-- The mix fabric beside its registers. -/
structure Mix where
  confs : Tbl Conf := []
  sources : Tbl Source := []
  classes : Tbl MixClass := []
  joins : Tbl Join := []
  taps : Tbl Tap := []
  /-- Parameter entries: 2,304 × slice + index. -/
  params : Tbl Entry := []
  /-- Shadow images and tags: 1,024 × slice + position. -/
  shadow : Tbl (List Word) := []
  tags : Tbl Nat := []
  /-- Elapsed time of the next boundary and of the current one. -/
  nextAt : Nat := 0
  boundAt : Nat := 0
  /-- The source deadline of the current frame has passed. -/
  srcDone : Bool := false
  /-- The sample of the current frame that each slice has reached (R134, R135). -/
  reached : Tbl Nat := []
  /-- Slices that have written the current frame's outputs, and those counted late. -/
  written : Tbl Bool := []
  late : Tbl Bool := []
  deriving DecidableEq, Repr

end Sys2Proof.Machine
end

