-- ==== Sys2Proof/Machine/TypesKeys.lean ====
section
/-! DEFINITION. The state types of chapter 10: key slots, captures and the key window. -/

namespace Sys2Proof.Machine

/-- What a packet captured of its key slot when it was classified (R297). -/
structure Cap where
  slot : Nat := 0
  /-- The number of erases of the slot at the capture; a later erase drops the packet (R311). -/
  ep : Nat := 0
  gen : Nat := 0
  /-- The halves whose counts hold the packet. -/
  halves : List Nat := []
  deriving DecidableEq, Repr

/-- One of a slot's two halves (R295, R299). -/
structure KeyHalf where
  live : Bool := false
  gen : Nat := 0
  keys : List Word := []
  /-- Packets that hold the half. -/
  count : Nat := 0
  /-- High-water index of each encrypt track, plus one; 0 = none. -/
  h : Tbl Nat := []
  /-- Used map of each encrypt track: bit k for index H - k. -/
  used : Tbl (BitVec 64) := []
  deriving DecidableEq, Repr

/-- An index track (R298, R302). -/
structure Track where
  initRoc : Nat := 0
  /-- Reference index, when the track is in use. -/
  ref : Option Nat := none
  /-- Replay window: bit k for index ref - k. -/
  win : BitVec 128 := 0
  near : Bool := false
  deriving DecidableEq, Repr

/-- The states of `CRYPT_SLOT_INFO.STATE`. -/
inductive SlotSt where
  | empty | active | pending | draining | exhausted
  deriving DecidableEq, Repr

/-- The code of `CRYPT_SLOT_INFO.STATE`. -/
def SlotSt.code : SlotSt → Nat
  | .empty => 0 | .active => 1 | .pending => 2 | .draining => 3 | .exhausted => 4

/-- A key slot (R295). -/
structure KeySlot where
  /-- The owner; none when no tenant owns the slot. -/
  own : Option Own := none
  enc : Bool := false
  srtcp : Bool := false
  suite : Nat := 0
  sca : Bool := false
  st : SlotSt := .empty
  /-- The active half. -/
  act : Nat := 0
  h0 : KeyHalf := {}
  h1 : KeyHalf := {}
  lastGen : Nat := 0
  /-- Switch index of a pending half, or of a switch at index whose old half drains (R309, R310). -/
  sw : Option Nat := none
  t0 : Track := {}
  t1 : Track := {}
  /-- Next SRTCP index that an encrypt lane assigns (R301). -/
  nextRtcp : Nat := 0
  /-- Erases so far. -/
  ep : Nat := 0
  /-- INDEX_REFUSED, AUTH_FAIL, REPLAY, KEY_ERASED (`CRYPT_SLOTCNT_BASE`), saturating. -/
  refused : Nat := 0
  authFail : Nat := 0
  replay : Nat := 0
  erased : Nat := 0
  /-- Elapsed time of the last KEY_INDEX_REFUSED, plus one, and the refusals since then. -/
  refAt : Nat := 0
  refNew : Nat := 0
  deriving DecidableEq, Repr

/-- The key store, the window and Bleach (chapter 10). -/
structure Keys where
  slots : Tbl KeySlot := []
  /-- Elapsed time at which the lock was taken. -/
  since : Nat := 0
  /-- A committed command that has not finished: the word of `KEYWIN_CMD`. -/
  pend : Option Word := none
  /-- Bleach runs: the lanes stand still. -/
  bleaching : Bool := false
  deriving DecidableEq, Repr

end Sys2Proof.Machine
end

