-- ==== Sys2Proof/Machine/TypesNet.lean ====
section
/-! DEFINITION. The state types of chapters 2 and 3: legs, streams, subscriptions, payloads, policers, flow queues,
shapers, gates, send-time windows and samplers. -/

namespace Sys2Proof.Machine

/-- A leg context (R48, LEG_CREATE). -/
structure Leg where
  own : Own := {}
  conf : Nat := 0
  port : Nat := 0
  v6 : Bool := false
  mux : Bool := true
  srtp : Bool := false
  cascade : Bool := false
  /-- VLAN identifier, when tagged. -/
  vlan : Option Nat := none
  localIp : Nat := 0
  remoteIp : Nat := 0
  localUdp : Nat := 0
  remoteUdp : Nat := 0
  localRtcp : Nat := 0
  remoteRtcp : Nat := 0
  /-- `TWSEQ_ID`; 0 = none. -/
  twId : Nat := 0
  egressQ : Nat := 0
  /-- `RTCP_DQ`: the dispatch queue's qid less 49,152. -/
  rtcpDq : Nat := 0
  srtcpEnc : Nat := 0
  srtcpDec : Nat := 0
  /-- Next transport-wide sequence number (R66). -/
  twNext : Nat := 0
  /-- Elapsed time of the last STREAM_UNKNOWN_SSRC, plus one (R48). -/
  ssrcAt : Nat := 0
  /-- Packets dropped yellow and red (R81). -/
  yDrops : Nat := 0
  rDrops : Nat := 0
  deriving DecidableEq, Repr

/-- A layer hold of a stream (R57): the layer, and the RTP timestamp of the concealed picture. -/
structure Hold where
  layer : Nat
  ts : Nat
  deriving DecidableEq, Repr

/-- A stream context (R48, STREAM_CREATE). -/
structure Stream where
  own : Own := {}
  leg : Nat := 0
  /-- The stream is sent by this device (a mix class or a rendition). -/
  device : Bool := false
  ssrc : Nat := 0
  rtxSsrc : Option Nat := none
  kind : Nat := 0
  dest : Nat := 0
  layerSrc : Nat := 0
  codec : Nat := 0
  pt : Nat := 0
  rtxPt : Nat := 0
  ddId : Nat := 0
  fmId : Nat := 0
  decSlot : Nat := 0
  simGroup : Nat := 65535
  simIndex : Nat := 0
  dispQ : Nat := 0
  clock : Nat := 0
  /-- The newest template structure: (within the limits of R53, highest temporal layer of each spatial layer). -/
  dd : Option (Bool × List Nat) := none
  noInfoPosted : Bool := false
  /-- The packets since the newest one's half of the sequence space: RTP timestamp, sequence number and layer, newest first
  (R53). -/
  seen : List (Nat × Nat × Nat × Nat) := []
  /-- The holds that no recovery point for every receiver has ended (R57). -/
  holds : List Hold := []
  deriving DecidableEq, Repr

/-- The states of an output context (R58), with their codes. -/
inductive SubSt where
  | idle | joinWait | fwd | upWait | concHold | paused | srcGone
  deriving DecidableEq, Repr

/-- The code of R58. -/
def SubSt.code : SubSt → Nat
  | .idle => 0 | .joinWait => 1 | .fwd => 2 | .upWait => 3 | .concHold => 4 | .paused => 5 | .srcGone => 6

/-- An output context (R58, R62, R63, R74, STREAM_SUBSCRIBE, MIX_LEG_JOIN). -/
structure Sub where
  own : Own := {}
  st : SubSt := .joinWait
  src : Nat := 0
  /-- The payload type of a class output (MIX_LEG_JOIN). -/
  pt : Option Nat := none
  /-- A class output's change of source: the new stream, and the packet time (ns) from which it applies (R131). -/
  next : Option (Nat × Nat) := none
  rxLeg : Nat := 0
  curS : Nat := 0
  curT : Nat := 0
  tgtS : Nat := 3
  tgtT : Nat := 7
  maxS : Nat := 3
  maxT : Nat := 7
  pause : Bool := false
  relay : Bool := false
  rtxSsrc : Option Nat := none
  encSlot : Nat := 0
  outQ : Nat := 0
  outSsrc : Nat := 0
  tsOff : Nat := 0
  lastOut : Nat := 0
  lastIn : Nat := 0
  /-- Something has been forwarded, so that last_in is set. -/
  started : Bool := false
  /-- The stream being forwarded. -/
  member : Nat := 0
  /-- Ingress time (ns) and output timestamp of the newest forwarded packet in input order (R61). -/
  tLast : Nat := 0
  lastOutTs : Nat := 0
  dropped : Nat := 0
  rtxSeq : Nat := 0
  ahead : BitVec 64 := 0
  reserved : BitVec 64 := 0
  used : BitVec 64 := 0
  window : Tbl Nat := []
  /-- KEY_WANTED has been posted in this wait (R55). -/
  keyPosted : Bool := false
  /-- The frames started for the receiver: stream, RTP timestamp, the spatial layers as a bit map. -/
  frame : Option (Nat × Nat × Nat) := none
  /-- The stream and RTP timestamp of the temporal unit last decided. -/
  tu : Option (Nat × Nat) := none
  /-- The member that a simulcast change down waits for (R55). -/
  downTo : Option Nat := none
  /-- The holds of a stream that a recovery point for this receiver has ended (R52, R57). -/
  ended : List (Nat × Hold) := []
  deriving DecidableEq, Repr

/-- A cascade peer (R70, R72). -/
structure Peer where
  own : Own := {}
  dev : Nat := 0
  leg : Nat := 0
  ctrlStream : Nat := 0
  ctrlSsrc : Nat := 0
  txSsrc : Nat := 0
  encSlot : Nat := 0
  /-- RTP sequence number of firmware's next packet to the peer. -/
  txSeq : Nat := 0
  lastHeard : Nat := 0
  lostPosted : Bool := false
  deriving DecidableEq, Repr

/-- A received packet on its way from the parser to Strata (R47, R302, R52). -/
structure Pkt where
  leg : Nat := 0
  stream : Nat := 0
  rtcp : Bool := false
  tolku : Bool := false
  /-- Header and payload after UDP. -/
  bytes : List Byte := []
  /-- Frame length L (R78). -/
  len : Nat := 0
  de : Bool := false
  /-- Ingress timestamp: elapsed time (R427). -/
  tIn : Nat := 0
  /-- The packet is an RTX packet of the stream (R65). -/
  rtx : Bool := false
  cap : Option Cap := none
  deriving DecidableEq, Repr

/-- A packet of a source as Strata decides it (R52): its layer and flags, from the packet or from the descriptor of a
device-originated one. -/
structure SrcPkt where
  stream : Nat := 0
  /-- The payload, held once for Strata. -/
  payload : Nat := 0
  seq : Nat := 0
  ts : Nat := 0
  marker : Bool := false
  pt : Nat := 0
  s : Nat := 0
  t : Nat := 0
  sof : Bool := true
  eof : Bool := true
  /-- The packet opens a recovery point, whatever the receiver. -/
  rp : Bool := false
  wd : Bool := false
  conc : Bool := false
  /-- The layer is known (R53). -/
  info : Bool := true
  /-- The decode targets for which the frame's indication is Switch. -/
  switch : List (Nat × Nat) := []
  /-- Highest temporal layer that the template structure gives spatial layer s. -/
  top : Nat := 7
  /-- Frame marking B. -/
  b : Bool := false
  /-- Padding or probe traffic (R99). -/
  probe : Bool := false
  /-- RTX: the packet stands for this original sequence number (R65). -/
  osn : Option Nat := none
  /-- `HOPS` of a packet that arrived by Tolku. -/
  hops : Option Nat := none
  /-- RTP padding bit, CSRCs and the header extension, profile and body, which pass unchanged (R66). -/
  pad : Bool := false
  csrc : List Byte := []
  ext : Option (Nat × List Byte) := none
  len : Nat := 0
  de : Bool := false
  tIn : Nat := 0
  deriving DecidableEq, Repr

/-- A payload held once (R19, R67). -/
structure Payload where
  refs : Nat := 0
  cells : Nat := 0
  /-- The payload lies in the HBM spill region. -/
  spill : Bool := false
  audio : Bool := false
  /-- The contiguous bridge address at which the payload is presented (R268). -/
  addr : Nat := 0
  bytes : List Byte := []
  deriving DecidableEq, Repr

/-- A descriptor of the queue manager (R84, R85) or of an outbound packet on the encrypt path (R20). -/
structure Desc where
  payload : Nat := 0
  tenant : Nat := 0
  leg : Nat := 0
  /-- The output context, when there is one. -/
  sub : Option Nat := none
  encSlot : Nat := 0
  rtcp : Bool := false
  ssrc : Nat := 0
  seq : Nat := 0
  ts : Nat := 0
  marker : Bool := false
  pt : Nat := 0
  /-- RTP padding bit, CSRCs and header extension, with the Tolku element that Strata fills in (R71). -/
  pad : Bool := false
  csrc : List Byte := []
  ext : Option (Nat × List Byte) := none
  /-- Frame length L (R78). -/
  len : Nat := 0
  /-- Counted length at admission. -/
  counted : Nat := 0
  de : Bool := false
  enq : Nat := 0
  probe : Bool := false
  rtx : Bool := false
  s : Nat := 0
  t : Nat := 0
  /-- 0 audio reserve, 1 tenant's reservation, 2 shared remainder (R85). -/
  pool : Nat := 2
  /-- Transport-wide sequence number given at release (R66). -/
  tw : Option Nat := none
  /-- The flow queue and the port. -/
  qid : Nat := 0
  port : Nat := 0
  /-- Traffic class at the release. -/
  cls : Nat := 0
  cap : Option Cap := none
  /-- Original sequence number of an RTX packet. -/
  osn : Option Nat := none
  deriving DecidableEq, Repr

/-- A token bucket (R82, R90): rate in kb/s, size in bytes, level in 1/8,000,000 byte, elapsed time of its last
refill in ns. -/
structure Bucket where
  rate : Nat := 0
  size : Nat := 0
  lvl : Nat := 0
  last : Nat := 0
  deriving DecidableEq, Repr

/-- A leg's policer (R79 to R83). -/
structure Policer where
  mode : Nat := 0
  aware : Bool := false
  yAct : Nat := 0
  rAct : Nat := 0
  exempt : Bool := false
  map : Nat := 0
  c : Bucket := {}
  e : Bucket := {}
  deriving DecidableEq, Repr

/-- A flow shaper (R91, R102). -/
structure Shaper where
  b : Bucket := {}
  adaptive : Bool := false
  minRate : Nat := 0
  maxRate : Nat := 0
  deriving DecidableEq, Repr

/-- A configured flow queue (R84 to R86). -/
structure FlowQ where
  own : Own := {}
  port : Nat := 0
  cls : Nat := 0
  leg : Nat := 65535
  limBytes : Nat := 0
  limPkts : Nat := 0
  deLimit : Nat := 0
  sh : Shaper := {}
  descs : List Desc := []
  /-- Frames and counted bytes sent, descriptors dropped. -/
  sent : Nat := 0
  sentBytes : Nat := 0
  drops : Nat := 0
  deriving DecidableEq, Repr

/-- One entry of a gate-control list (R95). -/
structure GateEntry where
  gates : Nat
  interval : Nat
  deriving DecidableEq, Repr

/-- A gate-control list. -/
structure GateList where
  entries : List GateEntry := []
  cycle : Nat := 0
  /-- Change time, device ns; used while pending. -/
  change : Nat := 0
  deriving DecidableEq, Repr

/-- The minimum and maximum buckets of a tenant on a port (R88, R92 to R94). -/
structure TenantPort where
  /-- The configured minimum rate; the bucket holds the effective one (R94). -/
  cfgMin : Nat := 0
  mn : Bucket := {}
  mx : Bucket := {}
  /-- Elapsed time of the last QOS_MIN_MISSED, plus one. -/
  missedAt : Nat := 0
  /-- MIN_MISSED has been counted since the bucket was last below its size. -/
  missed : Bool := false
  deriving DecidableEq, Repr

/-- What an Ethernet port keeps beside its registers (R44, R87 to R98). -/
structure Port where
  trainFails : Nat := 0
  classSh : Tbl Bucket := []
  tenants : Tbl TenantPort := []
  scaled : Bool := false
  active : Option GateList := none
  pend : Option GateList := none
  /-- Which of the two lists is active. -/
  side : Nat := 0
  entry : Nat := 0
  /-- Device time at which the current entry began. -/
  entryAt : Nat := 0
  /-- After a warm reset the active list waits for `entryAt`, its next cycle boundary (R110). -/
  waitStart : Bool := false
  /-- Units of refill lost behind closed gates beyond the whole bytes that `GATE_LOST_BYTES` counts (R98). -/
  lostRem : Nat := 0
  /-- Selector pointers by 8 × step + class (R88). -/
  ptrs : Tbl Nat := []
  deriving DecidableEq, Repr

/-- The share of a video output (R101): the one in force, and of a higher one since when it stands and the least of it since
then. -/
structure EstShare where
  cur : Nat := 0
  up : Option (Nat × Nat) := none
  deriving DecidableEq, Repr

/-- A leg's send-time window and estimator settings (R99 to R103). -/
structure Est where
  own : Own := {}
  enable : Bool := false
  log2 : Nat := 3
  base : Nat := 0
  capWin : Nat := 2
  picMult : Nat := 1
  mediaPct : Nat := 100
  pacePct : Nat := 100
  minK : Nat := 0
  maxK : Nat := 0
  startK : Nat := 0
  upHold : Nat := 0
  /-- The latest estimate B. -/
  b : Nat := 0
  /-- Elapsed time of the last QOS_EST_UPDATE, plus one. -/
  updAt : Nat := 0
  /-- The share of each of the leg's video outputs, by output context, kb/s (R101). -/
  shares : Tbl EstShare := []
  deriving DecidableEq, Repr

/-- A queue sampler (R105). -/
structure Sampler where
  own : Own := {}
  qid : Nat := 0
  period : Nat := 0
  /-- Elapsed time at which the current period ends. -/
  nextAt : Nat := 0
  ring : Loupe := {}
  /-- During the period: longest sojourn in µs, frames sent, descriptors dropped. -/
  sojourn : Nat := 0
  sent : Nat := 0
  drops : Nat := 0
  deriving DecidableEq, Repr

/-- The packet plane (chapters 2 and 3). -/
structure Net where
  legs : Tbl Leg := []
  streams : Tbl Stream := []
  subs : Tbl Sub := []
  peers : Tbl Peer := []
  ports : Tbl Port := []
  /-- Packets waiting for a decrypt lane, by lane. -/
  dec : Tbl (List Pkt) := []
  /-- Packets waiting for Strata. -/
  strata : List SrcPkt := []
  /-- Released packets waiting for an encrypt lane, by lane. -/
  enc : Tbl (List Desc) := []
  payloads : Tbl Payload := []
  nextPayload : Nat := 0
  freeCells : Nat := 262144
  spillUsed : Nat := 0
  policers : Tbl Policer := []
  /-- DSCP maps: 4 × tenant + local, then DSCP, as 64 × map + DSCP (R80). -/
  dscp : Tbl Nat := []
  flowqs : Tbl FlowQ := []
  audioDescRsv : Nat := 65536
  /-- `DESC_MIN` of each tenant. -/
  descMin : Tbl Nat := []
  /-- Descriptors drawn (R85): 0 audio reserve, 1 shared remainder, 2 + t tenant t's in all. -/
  descUsed : Tbl Nat := []
  /-- Device-originated streams for which a wait asks firmware for an early refresh wave (R55). -/
  waveReq : List Nat := []
  est : Tbl Est := []
  samplers : Tbl Sampler := []
  deriving DecidableEq, Repr

end Sys2Proof.Machine
end

