-- ==== Sys2Proof/Machine/TypesTime.lean ====
section
/-! DEFINITION. The state types of chapter 14: device time, the clock servo, the timers, power and management. -/

namespace Sys2Proof.Machine

/-- The servo's modes (R431). -/
inductive ServoMode where
  | free | pps | offset
  deriving DecidableEq, Repr

/-- The servo's lock states, with the codes of TIME_GET. -/
inductive Lock where
  | freeRun | locking | locked | holdover
  deriving DecidableEq, Repr

/-- The code of a lock state (TIME_GET). -/
def Lock.code : Lock → Nat
  | .freeRun => 0 | .locking => 1 | .locked => 2 | .holdover => 3

/-- A periodic timer (R433). -/
structure Timer where
  own : Own := {}
  qid : Nat := 0
  /-- Period in ns. -/
  period : Nat := 0
  /-- Elapsed time of the next expiry. -/
  next : Nat := 0
  /-- The item of an expiry that woke the fabric and has not been posted. -/
  due : Bool := false
  deriving DecidableEq, Repr

/-- Device time and the servo (R425 to R433). -/
structure Time where
  /-- The 96-bit accumulator of device time, in 2^-32 ns. -/
  acc : Nat := 0
  /-- The same for elapsed time. -/
  eacc : Nat := 0
  /-- The offset committed and not yet applied. -/
  step : Option Int := none
  /-- That step is the servo's, which sets `VALID` after it (R431). -/
  stepServo : Bool := false
  mode : ServoMode := .free
  lock : Lock := .freeRun
  /-- Consecutive samples within ±100 ns. -/
  good : Nat := 0
  thresh : Nat := 1000000
  /-- Elapsed time of the last sample. -/
  lastSample : Nat := 0
  /-- The last offsets, newest first, at most 64. -/
  offsets : List Int := []
  /-- TAI second of the next PPS_IN edge. -/
  tod : Option Nat := none
  /-- Elapsed time of the last accepted PPS_IN edge, plus one. -/
  ppsAt : Nat := 0
  /-- PPS_OUT is high. -/
  ppsOut : Bool := false
  /-- Elapsed time at which PPS_OUT rose. -/
  ppsRise : Nat := 0
  timers : Tbl Timer := []
  deriving DecidableEq, Repr

/-- A domain or cluster (R415) beside its registers; index d for domains 0 to 34, 35 + c for cluster c. -/
structure Dom where
  /-- Elapsed time at which the entry in progress began (R418). -/
  entryAt : Nat := 0
  /-- A wake waits for the entry to finish (R420). -/
  wakeWait : Bool := false
  /-- Where the entry in progress ends: 1 CLK_STOPPED, 2 OFF. -/
  target : Nat := 1
  deriving DecidableEq, Repr

/-- A cycle counter: cycles counted while the clock ran, and the tick since which it runs (R263). -/
structure Cyc where
  acc : Nat := 0
  since : Option Nat := none
  deriving DecidableEq, Repr

/-- Power, watchdog and management state of Safelight. -/
structure Power where
  doms : Tbl Dom := []
  /-- SAFE_SLOW ticks since power-on reset. -/
  ticks : Nat := 0
  /-- Cycle counters: cluster c at c, the control cluster at 64. -/
  cyc : Tbl Cyc := []
  /-- Domains whose wake waits for one of the four places of R420, in order. -/
  wakeQ : List Nat := []
  /-- PORST_N is low: the whole device is held in reset. -/
  porst : Bool := true
  /-- Elapsed time of the watchdog's last kick. -/
  kickAt : Nat := 0
  /-- Elapsed time of the last SAFE_FAN write, and whether its absence forces the fans. -/
  fanAt : Nat := 0
  fanStale : Bool := true
  /-- The power-off of SYS_SHUTDOWN is due when its steps end. -/
  powerOff : Bool := false
  deriving DecidableEq, Repr

end Sys2Proof.Machine
end

