-- ==== Sys2Proof/Machine/TypesVideo.lean ====
section
/-! DEFINITION. The state types of chapters 5 to 7: the reference pool, decode contexts, encode groups and renditions, layouts. -/

namespace Sys2Proof.Machine

/-- A pool entry (R153): the marks but the counted ones, their counts, the generation, and what words 1 to 5 hold. -/
structure PoolEnt where
  /-- `MARKS`; bits 2 and 6 follow the counts. -/
  marks : BitVec 8 := 0
  comp : Nat := 0
  host : Nat := 0
  gen : Nat := 0
  busy : Bool := false
  width : Nat := 0
  height : Nat := 0
  p010 : Bool := false
  s : Nat := 0
  t : Nat := 0
  concealed : Bool := false
  recovering : Bool := false
  grey : Bool := false
  grain : Bool := false
  region : Nat := 0
  /-- The writing decode context. -/
  ctx : Option Nat := none
  ts : Nat := 0
  time : Nat := 0
  deriving DecidableEq, Repr

/-- A region's free list (R152): the buffers never used from `fresh` on, then those freed, oldest first. -/
structure Region where
  fresh : Nat := 0
  freed : List Nat := []
  deriving DecidableEq, Repr

/-- A buffer that a block holds, with its generation. -/
structure Buf where
  fbh : Nat := 0xFFFFF
  gen : Nat := 0
  deriving DecidableEq, Repr

/-- The display slot of a context or canvas (R156, R157): the buffer and the picture's flags. -/
structure Slot where
  buf : Option Buf := none
  concealed : Bool := false
  recovering : Bool := false
  grey : Bool := false
  width : Nat := 0
  height : Nat := 0
  ts : Nat := 0
  deriving DecidableEq, Repr

/-- The reference pool (R151 to R157). -/
structure Pool where
  ents : Tbl PoolEnt := []
  regions : Tbl Region := []
  /-- `MARK_UNDERFLOW` (R154). -/
  underflow : Nat := 0
  /-- `POOL_OP_RES` of each control core. -/
  res : Tbl Word := []
  deriving DecidableEq, Repr

/-- A decoded picture as its context keeps it. -/
structure Pic where
  buf : Buf := {}
  s : Nat := 0
  ts : Nat := 0
  /-- Order of decoding in the context. -/
  seq : Nat := 0
  conc : Bool := false
  /-- Decoded after an unanswered loss (R165). -/
  broken : Bool := false
  width : Nat := 0
  height : Nat := 0
  deriving DecidableEq, Repr

/-- The states of a decode context (R169), with their codes; a context that is IDLE has no record. -/
inductive DecSt where
  | waitRp | recovering | clean | concealed
  deriving DecidableEq, Repr

/-- The code of R169. -/
def DecSt.code : DecSt → Nat
  | .waitRp => 1 | .recovering => 2 | .clean => 3 | .concealed => 4

/-- A decode context (R158, DEC_CREATE). -/
structure DecCtx where
  own : Own := {}
  stream : Nat := 0
  codec : Nat := 6
  maxW : Nat := 16
  maxH : Nat := 16
  fps : Nat := 1
  outS : Nat := 0
  outT : Nat := 0
  /-- The operating point that waits (R159). -/
  want : Option (Nat × Nat) := none
  p010 : Bool := false
  concNotify : Bool := false
  lower : Nat := 0
  region : Nat := 0
  gapMs : Nat := 300
  pe : Nat := 0
  w0 : Nat := 0
  h0 : Nat := 0
  st : DecSt := .waitRp
  /-- Reference slots. -/
  slots : Tbl Pic := []
  /-- `HOLD` pictures by layer. -/
  hold : Tbl Pic := []
  /-- Pictures with `LAYER`. -/
  layers : List Pic := []
  disp : Slot := {}
  /-- Unanswered losses: by layer, the order of the last picture before the loss. -/
  lost : Tbl Nat := []
  seq : Nat := 0
  /-- Order of the recovery point that RECOVERING started from. -/
  rpSeq : Nat := 0
  /-- The `frame_num` or POC at which the recovery point SEI's count is complete (R170). -/
  recEnd : Option Int := none
  /-- The context joined at a CRA. -/
  cra : Bool := false
  /-- Concealed layers (R169). -/
  conc : List Nat := []
  /-- The last picture of each layer was concealed. -/
  prevConc : Tbl Bool := []
  /-- The layer of the report in force (R168). -/
  reported : Option Nat := none
  /-- Elapsed time at which the refresh timer started. -/
  timer : Option Nat := none
  errSent : Bool := false
  /-- RTP timestamp of the temporal unit in progress, and elapsed times of the units of the last second. -/
  tu : Option Nat := none
  tuTimes : List Nat := []
  /-- Elapsed time of the last DEC_CONCEALED, plus one. -/
  noteAt : Nat := 0
  /-- PICTURES, CONCEALED, SUBSTITUTIONS, BITSTREAM_ERRORS, NO_BUFFER, REQ_REJECT, SKIPPED, OUT_OF_LIMITS. -/
  cnt : Tbl Nat := []
  deriving DecidableEq, Repr

/-- A request in an engine's request FIFO (R160). -/
structure DecReq where
  dec : Nat := 0
  /-- Items that it occupies, and its words. -/
  items : Nat := 1
  head : List Word := []
  /-- The pipe has taken it. -/
  taken : Bool := false
  deriving DecidableEq, Repr

/-- What the pipe has decided of the unit that it decodes (R165, R167). -/
structure DecPlan where
  conc : Bool := false
  /-- What stands in for each missing reference: a `HOLD` picture, or mid-grey. -/
  subs : List (Option Buf) := []
  facts : PicFacts := {}
  deriving DecidableEq, Repr

/-- The request that a decode pipe works on: it waits in the request FIFO for a buffer, or is decoded into one (R163). -/
structure DecJob where
  dec : Nat := 0
  head : List Word := []
  plan : DecPlan := {}
  region : Nat := 0
  /-- Elapsed time at which the wait began. -/
  since : Nat := 0
  buf : Option Buf := none
  /-- The `GREY` buffer that stands in for missing references (R165). -/
  grey : Option Buf := none
  deriving DecidableEq, Repr

/-- A request port's staging area (R161). -/
structure ReqPort where
  /-- `REQ_W0` to `REQ_W6` as written. -/
  w : Tbl Word := []
  staged : List (List Word) := []
  res : Nat := 0
  deriving DecidableEq, Repr

/-- A decode pipe. -/
structure DecEng where
  reqs : List DecReq := []
  job : Option DecJob := none
  /-- The pointer of R29 over dec_id. -/
  ptr : Nat := 0
  /-- Elapsed time and luma samples of the pictures of the last 100 ms. -/
  load : List (Nat × Nat) := []
  /-- Request ports by core. -/
  ports : Tbl ReqPort := []
  deriving DecidableEq, Repr

/-- A host snapshot in progress (R174). -/
structure Snapshot where
  own : Own := {}
  dec : Nat := 0
  buf : Buf := {}
  addr : Nat := 0
  deriving DecidableEq, Repr

/-! ### Encoding (chapter 6) -/

/-- The caps of a rendition (R103, R197): picture cap and window cap in bytes, and the window's pictures. -/
structure Caps where
  pic : Nat := 0
  win : Nat := 0
  pics : Nat := 2
  deriving DecidableEq, Repr

/-- A motion vector in eighths of a luma sample (R184). -/
structure Mv where
  dx : Int := 0
  dy : Int := 0
  deriving DecidableEq, Repr

/-- The decision of an 8 × 8 analysis block (R184 to R186): its vector, whether it is intra, and its costs. -/
structure BlkDec where
  mv : Mv := {}
  intra : Bool := false
  /-- J of the vector, and the SATD of the best intra prediction. -/
  cost : Nat := 0
  icost : Nat := 0
  deriving DecidableEq, Repr

/-- The zero-motion forms (R188). -/
inductive ZeroForm where
  | pSkip | pL0 | skipMerge | amvpZero | globalMv
  deriving DecidableEq, Repr

/-- How a block of a rendition is coded (R187, R188, R191, R199). -/
inductive BlkForm where
  /-- Zero motion and no residual. -/
  | zero (f : ZeroForm)
  /-- DC intra with no residual. -/
  | dcIntra
  /-- Intra, reading no sample at or beyond a boundary where there is one. -/
  | intra (below : Option Nat)
  /-- Inter, with a vector in the codec's units. -/
  | inter (mv : Mv)
  deriving DecidableEq, Repr

/-- A partition of a rendition's picture (R187). -/
structure Part where
  x : Nat := 0
  y : Nat := 0
  w : Nat := 8
  h : Nat := 8
  form : BlkForm := .dcIntra
  deriving DecidableEq, Repr

/-- The structure of a codec's bitstream (R177). -/
structure BitStruct where
  codec : Nat := 4
  /-- Highest level, times ten, and bit depth; the chroma format is 4:2:0. -/
  level : Nat := 52
  depth : Nat := 8
  /-- The coding unit: macroblock, CTB or superblock. -/
  unit : Nat := 16
  slices : Nat := 1
  tiles : Nat := 1
  wavefront : Bool := false
  cabac : Bool := false
  t8x8 : Bool := false
  sao : Bool := false
  orderHint : Bool := false
  frameIds : Bool := false
  deriving DecidableEq, Repr

/-- What is written above a picture's data and in its packets' descriptors (R189, R191 to R193). -/
inductive HdrElem where
  /-- VPS, SPS and PPS, or the sequence header. -/
  | params (b : BitStruct)
  /-- IDR, IDR_N_LP, or a shown key frame. -/
  | key
  /-- The slice or frame header: its quantiser, and whether vectors of other pictures predict (0 in a wave). -/
  | picture (q : Nat) (temporalMv : Bool)
  /-- `primary_ref_frame` names this input picture. -/
  | primary (seq : Nat)
  /-- Recovery point SEI: the count, `exact_match_flag`, `broken_link_flag`. -/
  | recovery (count : Nat) (exact broken : Bool)
  /-- Switch frame: `refresh_frame_flags`, error resilient, with no primary reference frame. -/
  | switch (refresh : Nat)
  /-- Metadata OBU: type and bytes. -/
  | metadata (type : Nat) (bytes : List Nat)
  /-- Descriptor and Tolku `RP` and `WD`; the aggregation header's `N`; DD decode-target indications Switch. -/
  | rp | wd | aggN | ddSwitch
  deriving DecidableEq, Repr

/-- A rendition's part of a picture that analysis has finished: the picture, its caps at the start, and for each
superblock row the estimates e and m and the floor bound F. -/
structure RendPic where
  seq : Nat := 0
  caps : Option Caps := none
  rows : List (Nat × Nat × Nat) := []
  /-- It lies in a wave as planned at its analysis; it is the first of a wave of so many pictures (R195). -/
  wave : Bool := false
  first : Option Nat := none
  /-- The rendition's count of restarts at its analysis. -/
  epoch : Nat := 0
  deriving DecidableEq, Repr

/-- The states of a rendition (R196), with their codes; a rendition that is IDLE has no record. -/
inductive RendSt where
  | start | wave | steady | paused
  deriving DecidableEq, Repr

/-- The code of R196. -/
def RendSt.code : RendSt → Nat
  | .start => 1 | .wave => 2 | .steady => 3 | .paused => 4

/-- A rendition (R178, ENC_REND_ADD). -/
structure Rend where
  own : Own := {}
  group : Nat := 0
  coder : Nat := 0
  scale : Nat := 0
  profile : Nat := 0
  p010 : Bool := false
  qTarget : Nat := 0
  qMax : Nat := 0
  fixed : Bool := false
  fixedCaps : Caps := {}
  maxKbps : Nat := 0
  /-- The estimator's caps (R103), when one has come. -/
  est : Option Caps := none
  outStream : Nat := 0
  region : Nat := 0
  st : RendSt := .start
  /-- Wave pictures coded, and the wave's length (R191). -/
  k : Nat := 0
  n : Nat := 0
  /-- T0 pictures of the wave that analysis has still to start; none before a grey start is planned (R195). -/
  left : Option Nat := none
  /-- The length of that wave. -/
  planN : Nat := 0
  /-- A wave that starts when the one in progress is done. -/
  startDue : Option Nat := none
  /-- Restarts, pauses and resumes so far (R196). -/
  epoch : Nat := 0
  /-- Its scale, profile or depth changed while it was paused: it resumes with a grey start (R196). -/
  fresh : Bool := false
  /-- The ratio that calibrates the row estimates (R186). -/
  ratio : Nat := 0
  /-- Reconstructions with `ENC_REF`, by temporal layer, each with its input picture. -/
  refs : Tbl (Buf × Nat) := []
  queue : List RendPic := []
  /-- Bytes of the coded pictures, newest first, at most 63. -/
  window : List Nat := []
  stale : List Nat := []
  /-- Picture number (R202). -/
  count : Nat := 0
  /-- It goes after the picture in progress (R196). -/
  removed : Bool := false
  /-- Elapsed times of the last second's cap drops, and of the last ENC_CAP_DROP, plus one. -/
  drops : List Nat := []
  dropAt : Nat := 0
  /-- Counters for ENC_QUERY: pictures coded, bytes, cap drops, late drops. -/
  cnt : Tbl Nat := []
  deriving DecidableEq, Repr

/-- An accepted input picture of a group (R180, R181). -/
structure EncPic where
  ts : Nat := 0
  capture : Nat := 0
  /-- Canvas buffers by scale code. -/
  bufs : Tbl Buf := []
  /-- Damaged superblocks in raster order; none = all of them. -/
  damage : Option (List Nat) := none
  gm : Bool := false
  /-- The valid entries of the global-motion table by superblock (R180). -/
  gmv : Tbl Mv := []
  /-- Elapsed time at which its analysis started. -/
  since : Nat := 0
  /-- Its slot in the temporal pattern (R205). -/
  slot : Nat := 0
  /-- Analysis has started. -/
  begun : Bool := false
  /-- The renditions that have not finished with it, and their caps at its start. -/
  todo : List Nat := []
  caps : Tbl (Option Caps) := []
  /-- What its analysis start planned for each rendition (R195). -/
  plan : Tbl RendPic := []
  deriving DecidableEq, Repr

/-- An analysis group (R178, ENC_GROUP_CREATE). -/
structure Group where
  own : Own := {}
  codec : Nat := 4
  pe : Nat := 0
  temporal : Nat := 0
  layout : Nat := 0
  w : Nat := 128
  h : Nat := 128
  fps : Nat := 1
  rows : Bool := false
  waveN : Nat := 4
  earlyN : Nat := 4
  startN : Nat := 4
  period : Nat := 0
  staleRows : Nat := 2
  /-- Accepted pictures by arrival order, and the next number. -/
  pics : Tbl EncPic := []
  nextPic : Nat := 0
  /-- T0 pictures since the latest wave's start; none before the first. -/
  since : Option Nat := none
  /-- An early wave is requested (R195). -/
  asked : Bool := false
  /-- The pictures that are analysis references of later pictures, by temporal layer. -/
  anRefs : Tbl Nat := []
  /-- The decisions of analysed pictures by block (R184), for those that later pictures or the coders read, and the last two
  pictures analysed, newest first. -/
  decs : Tbl (Tbl BlkDec) := []
  last : List Nat := []
  /-- Damage of composed pictures by arrival order, back to the oldest reference. -/
  hist : Tbl (Option (List Nat)) := []
  /-- STARVED; requests were held back in the picture in progress; the raise of the target and its peak (R201). -/
  starved : Bool := false
  hit : Bool := false
  raise : Nat := 0
  peak : Nat := 0
  /-- Elapsed time of the last ENC_STARVED, plus one. -/
  starvedAt : Nat := 0
  /-- It goes when its renditions have (R196). -/
  removed : Bool := false
  deriving DecidableEq, Repr

/-- The rendition-picture that a residual coder works on. -/
structure CoderJob where
  rend : Nat := 0
  pic : RendPic := {}
  /-- Elapsed time at which the wait for a header or buffer began. -/
  since : Nat := 0
  /-- Header bytes, once ready. -/
  header : Option Nat := none
  /-- The reconstruction, once allocated: the coder codes rows. -/
  buf : Option Buf := none
  grey : Bool := false
  /-- Wave picture number (0 = none) and length. -/
  k : Nat := 0
  n : Nat := 0
  budget : Option Nat := none
  used : Nat := 0
  row : Nat := 0
  floorMode : Bool := false
  skipping : Bool := false
  floorRows : Nat := 0
  skipped : List Nat := []
  /-- Stale rows that this picture refreshes (R200). -/
  refresh : List Nat := []
  /-- q of the rows coded. -/
  qs : List Nat := []
  /-- Items in the output packet so far, and bytes that do not fill an item yet. -/
  items : Nat := 0
  tail : List Byte := []
  /-- What the header says (R189, R193). -/
  elems : List HdrElem := []
  /-- The effective target, and whether the group was STARVED during the picture (R201). -/
  target : Nat := 0
  starved : Bool := false
  /-- Elapsed time since which the full output FIFO stalls it (R202). -/
  stall : Option Nat := none
  /-- The intra region along the wave's direction; inter blocks below it read only below its start (R192, R194). -/
  lo : Nat := 0
  hi : Nat := 0
  /-- The picture that it references. -/
  ref : Option Nat := none
  /-- Bytes of the rows, and how each row's blocks are coded (R187). -/
  sizes : List Nat := []
  parts : Tbl (List Part) := []
  deriving DecidableEq, Repr

/-- What an encode pipe still has to post to a FIFO that is full (R37). -/
inductive EncPost where
  /-- A packet's end in the output FIFO of a coder. -/
  | out (coder : Nat) (items : List (List Word))
  /-- A completion. -/
  | done (item : List Word)
  deriving DecidableEq, Repr

/-- An encode pipe: the analysis unit and four residual coders. -/
structure EncEng where
  /-- Posts that wait for room, oldest first. -/
  owed : List EncPost := []
  /-- The group and picture being analysed. -/
  an : Option (Nat × Nat) := none
  /-- Pointers of R29: the analysis unit's over group_id, the coders' over rend_id by 2 × coder + class. -/
  ptr : Nat := 0
  ptrs : Tbl Nat := []
  coders : Tbl CoderJob := []
  /-- Elapsed times and samples of the last 100 ms, analysed and coded. -/
  anLoad : List (Nat × Nat) := []
  outLoad : List (Nat × Nat) := []
  deriving DecidableEq, Repr

/-! ### Composition (chapter 7) -/

/-- A Contact sheet (R213, R214): the header's 16 words and each cell's 8 words. -/
structure Sheet where
  hdr : List Word := []
  cells : List (List Word) := []
  deriving DecidableEq, Repr

/-- What a cell shows in a picture. -/
structure Shown where
  /-- The picture; none = a fill. -/
  buf : Option Buf := none
  /-- Size and format of the source. -/
  w : Nat := 0
  h : Nat := 0
  p010 : Bool := false
  deriving DecidableEq, Repr

/-- The picture that a layout's unit composes. -/
structure CompJob where
  n : Nat := 0
  /-- Elapsed time of its start. -/
  since : Nat := 0
  /-- Canvas buffers by scale code. -/
  bufs : Tbl Buf := []
  shown : List Shown := []
  /-- Sources whose `COMP` is released when the next picture completes. -/
  srcs : List Buf := []
  concealed : Bool := false
  damageValid : Bool := false
  gmValid : Bool := false
  capture : Nat := 0
  /-- Once the picture is published: the groups to whose FIFOs it has still to be posted (R37, R227). -/
  posts : Option (List Nat) := none
  deriving DecidableEq, Repr

/-- A layout (R211, LAYOUT_CREATE). -/
structure Layout where
  own : Own := {}
  pe : Nat := 0
  /-- Engine-local index. -/
  idx : Nat := 0
  ts0 : Nat := 0
  t0 : Nat := 0
  /-- Number of the next picture. -/
  next : Nat := 0
  sheet : Sheet := {}
  /-- The pending change set: its picture and sheet (R223). -/
  pend : Option (Nat × Sheet) := none
  job : Option CompJob := none
  /-- The sheet of the last picture composed, and what its cells showed. -/
  lastSheet : Option Sheet := none
  shown : List Shown := []
  /-- The buffer of its background image. -/
  bg : Option Buf := none
  /-- Held pictures by cell (R215). -/
  held : Tbl Shown := []
  /-- Canvases and sources of the last picture, which `COMP` holds. -/
  canvas : List Buf := []
  srcs : List Buf := []
  disp : Slot := {}
  /-- Cells whose decode context was destroyed (R216). -/
  gone : List Nat := []
  /-- Elapsed times of the last second's late ticks, and of the last LAYOUT_LATE, plus one. -/
  late : List Nat := []
  lateAt : Nat := 0
  removed : Bool := false
  /-- Counters for LAYOUT_QUERY: PICTURES, LATE_TICKS, NO_BUFFER, SOURCE_EMPTY, HELD_CELLS, RATIO_FAULTS, DAMAGED_SB,
  UNDAMAGED_SB. -/
  cnt : Tbl Nat := []
  deriving DecidableEq, Repr

/-- A still image (LAYOUT_IMAGE_LOAD). -/
structure Image where
  own : Own := {}
  buf : Buf := {}
  w : Nat := 16
  h : Nat := 16
  p010 : Bool := false
  deriving DecidableEq, Repr

/-- The picture engines and the pool (chapters 5 to 7). -/
structure Video where
  pool : Pool := {}
  decs : Tbl DecCtx := []
  eng : Tbl DecEng := []
  /-- Snapshots in progress, oldest first. -/
  snaps : List Snapshot := []
  groups : Tbl Group := []
  rends : Tbl Rend := []
  enc : Tbl EncEng := []
  layouts : Tbl Layout := []
  images : Tbl Image := []
  /-- Pointers of R29 over the engine-local indices of layouts due together, by engine (R212). -/
  compPtr : Tbl Nat := []
  /-- Canvas samples composed in the last 100 ms, by engine: elapsed time and samples. -/
  compLoad : Tbl (List (Nat × Nat)) := []
  deriving DecidableEq, Repr

end Sys2Proof.Machine
end

