-- ==== Sys2Proof/Machine/TypesMem.lean ====
section
/-! DEFINITION. The state types of chapters 11, 15 and 16: the memory controllers, trust, the journal flash, and the Test
strip. -/

namespace Sys2Proof.Machine

/-! ### Memory controllers (chapter 11) -/

/-- A request for one unit, in a port's queue, a posted-write buffer or a pseudo-channel's queue (R323, R331). -/
structure UnitReq where
  /-- Order of arrival at the controller. -/
  seq : Nat := 0
  port : Nat := 0
  write : Bool := false
  /-- Bridge address of the first byte accessed. -/
  addr : Nat := 0
  data : List Byte := []
  /-- It was checked against a tenant's windows (R346). -/
  checked : Bool := false
  /-- Elapsed time of its arrival at the port. -/
  at' : Nat := 0
  /-- The bytes that a partial write replaced (R340). -/
  old : List Byte := []
  /-- A write to the unit entered the queue after this read (R340). -/
  passed : Bool := false
  deriving DecidableEq, Repr

/-- A port of a controller (R327 to R331). -/
structure HbmPort where
  reads : List UnitReq := []
  posted : List UnitReq := []
  /-- Reservation bucket (R329): level in bytes, as 1 GB/s × 1 ns is one byte, and elapsed time of its last refill. -/
  lvl : Nat := 0
  last : Nat := 0
  deriving DecidableEq, Repr

/-- A pseudo-channel (R330, R332, R336). -/
structure HbmPc where
  /-- The requests of the queue in order of arrival. -/
  queue : List UnitReq := []
  inorder : Bool := false
  owed : Nat := 0
  /-- Pointers of R29 over the ports, by class. -/
  ptrs : Tbl Nat := []
  deriving DecidableEq, Repr

/-- A raw access that waits (R22): its master, its address and the word of a write. -/
structure Held where
  who : Agent
  addr : Nat
  data : Option Word := none
  deriving DecidableEq, Repr

/-- A controller beside its registers. -/
structure Hbm where
  ports : Tbl HbmPort := []
  pcs : Tbl HbmPc := []
  /-- Pointers of R29 over the ports of the front end, by class. -/
  ptrs : Tbl Nat := []
  /-- Units issued whose reads have not returned, oldest first. -/
  flying : List UnitReq := []
  seq : Nat := 0
  /-- Elapsed time at which self-refresh entry began. -/
  srAt : Nat := 0
  /-- A request waits for the end of the entry. -/
  srWait : Bool := false
  /-- Raw accesses that wait for the end of self-refresh, oldest first (R22). -/
  held : List Held := []
  /-- For controller 0: the accesses that a window fence waits for are those of both controllers that came before. -/
  fence : Nat × Nat := (0, 0)
  deriving DecidableEq, Repr

/-! ### Trust and the journal (chapter 15) -/

/-- The states of a firmware slot (R444), with their codes. -/
inductive SlotFw where
  | empty | staging | staged | trial | active | bad
  deriving DecidableEq, Repr

/-- The code of R444. -/
def SlotFw.code : SlotFw → Nat
  | .empty => 0 | .staging => 1 | .staged => 2 | .trial => 3 | .active => 4 | .bad => 5

/-- The state of a code; reserved codes read as BAD (R444). -/
def SlotFw.ofCode : Nat → SlotFw
  | 0 => .empty | 1 => .staging | 2 => .staged | 3 => .trial | 4 => .active | _ => .bad

/-- A journal record (R460). -/
structure JRec where
  seq : Nat := 0
  typ : Nat := 2
  /-- Tenant of the record; 4 stands for none in the model, the header's field then holds 0. -/
  tenant : Nat := 4
  time : Nat := 0
  payload : List Byte := []
  /-- Flash address of its first page. -/
  addr : Nat := 0
  deriving DecidableEq, Repr

/-- A tenant's object configuration (R460 type SNAPSHOT), without key material. -/
structure Snap where
  net : Net := {}
  mix : Mix := {}
  disp : Disp := {}
  video : Video := {}
  timers : Tbl Timer := []
  meters : Tbl Meter := []
  /-- The route and class entries' words, by source and by class. -/
  routes : Tbl (List Word) := []
  entries : Tbl (List Word) := []
  /-- The key slots that the tenant owns. -/
  slots : List Nat := []
  deriving DecidableEq, Repr

/-- A commit in progress (R462): the operation, its address, and the page to program. -/
structure Commit where
  op : Nat := 0
  addr : Nat := 0
  page : List Byte := []
  deriving DecidableEq, Repr

/-- The trust block, OTP, the flash and the journal. -/
structure Trust where
  /-- The flash: bytes that are not erased (0xFF). -/
  flash : List (Nat × Byte) := []
  /-- The facts of the images in slots 0 (A) and 1 (B). -/
  imgs : Tbl ImgFact := []
  /-- Voltage at HUP_SNS, mV. -/
  sense : Nat := 0
  job : Option Commit := none
  /-- Conversions still to come and commits before PFAIL_N falls, of the command being executed. -/
  senses : List Nat := []
  cut : Option Nat := none
  /-- AUDIT payloads that wait for their commit, oldest first. -/
  audits : List (List Byte) := []
  /-- OTP: the steps of the anti-rollback counter reached, and revoked key entries. -/
  otp : BitVec 64 := 0
  revoked : BitVec 4 := 0
  /-- Kernel key pins, 4 × tenant + slot: the SHA-384 digest. -/
  pins : Tbl (List Word) := []
  /-- Sealed records, newest first. -/
  recs : List JRec := []
  /-- The newest snapshot of each tenant. -/
  snaps : Tbl Snap := []
  /-- Flash address of the next unwritten page, and of the oldest live sector. -/
  next : Nat := 0x4100000
  oldest : Nat := 0x4100000
  /-- Sequence of the next record. -/
  seq : Nat := 1
  /-- Commits refused since the last start. -/
  refused : Nat := 0
  /-- `STATE_FMT` of the running firmware. -/
  fmt : Nat := 0
  /-- The slot of the running image. -/
  runSlot : Nat := 0
  deriving DecidableEq, Repr

/-! ### The Test strip (chapter 16) -/

/-- A run in progress (R474). -/
structure TestRun where
  /-- 0 SHUTDOWN, 1 SCHEDULED, 2 BOOT. -/
  kind : Nat := 1
  /-- Units of the run not yet started. -/
  left : List Nat := []
  yields : Nat := 0
  began : Nat := 0
  peak : Nat := 0
  deriving DecidableEq, Repr

/-- The Test strip beside its registers. -/
structure Tst where
  run : Option TestRun := none
  /-- The unit under test at each position. -/
  pos : Tbl Nat := []
  /-- Failed units, units tested since the last start, and fenced units. -/
  failed : List Nat := []
  tested : List Nat := []
  fenced : List Nat := []
  sigs : Tbl DWord := []
  seq : Nat := 0
  /-- Scheduled period in hours (0 = none) and elapsed time of the next run. -/
  period : Nat := 0
  nextAt : Nat := 0
  ueLimit : Nat := 2
  ceLimit : Nat := 4096
  /-- Elapsed times of the LDM_ECC faults of the last hour, by unit. -/
  ue : Tbl (List Nat) := []
  /-- Corrections seen in the last hour, by unit: elapsed time and count. -/
  ce : Tbl (List (Nat × Nat)) := []
  /-- A TEST_RESULT commit that was refused: elapsed time of the first attempt, and the payload. -/
  retry : Option (Nat × List Byte) := none
  deriving DecidableEq, Repr

end Sys2Proof.Machine
end

