-- ==== Sys2Proof/Machine/State.lean ====
section
/-! DEFINITION. The state of the PB7260, plain data, and the state after reset. -/

namespace Sys2Proof.Machine

/-- Why the machine stops with a fault. No command of the manual stops the device: every error it describes is an
answer, a counter or a register, so no meaning raises a fault. -/
inductive Fault where
  /-- Raised by nobody; the type needs no more. Safe. -/
  | none
  deriving DecidableEq, Repr

/-- Why a step refuses. -/
inductive Refusal where
  /-- An arm of `exec` that has no meaning yet; safe, the step stops. -/
  | notModelled (mnemonic : String)
  deriving DecidableEq, Repr

/-- The state of the device: every register, FIFO, buffer, counter, mode and pin of the manual, and the queue of the
commands that wait. -/
structure State where
  /-- The commands that wait, first in, first out. -/
  pending : List Instr
  /-- The registers of the map that hold plain words, by `RegName.code × 2^20 + instance`. -/
  regs : Tbl Word
  /-- The 64-bit counters, keyed as their LO register. -/
  cnts : Tbl DWord
  /-- The FIFO instances (R35). -/
  fifos : Tbl Fifo
  /-- The answer to the last register or FIFO access. -/
  bus : Bus
  /-- The bridge address space: HBM, tile SRAM, packet SRAM (R26). -/
  mem : List Host.Cell
  /-- The control cluster's private SRAM. -/
  csram : List Host.Cell
  /-- The model's own log of what leaves the device, newest first. -/
  out : List Out
  /-- The model's own counter of free values taken. -/
  freeCtr : Nat
  time : Time
  power : Power
  vusta : Vusta
  net : Net
  cores : Tbl Core
  disp : Disp
  keys : Keys
  mix : Mix
  video : Video
  hbm : Tbl Hbm
  trust : Trust
  tst : Tst
  deriving DecidableEq, Repr

/-- The machine right after power-on reset, as the spec says; the values that the spec does not give are named in the
assumption log. -/
def State.reset : State where
  pending := []
  regs := []
  cnts := []
  fifos := []
  bus := .none
  mem := []
  csram := []
  out := []
  freeCtr := 0
  time := {}
  power := {}
  vusta := {}
  net := {}
  cores := []
  disp := {}
  keys := {}
  mix := {}
  video := {}
  hbm := []
  trust := {}
  tst := {}

end Sys2Proof.Machine
end

