-- ==== Sys2Proof/Machine/Ops.lean ====
section
/-! DEFINITION. The named operations over registers, counters, memory, time, power, host memory and notifications. -/

namespace Sys2Proof.Machine

/-! ### Status codes (R372) -/

abbrev OK : Nat := 0
abbrev BUSY : Nat := 1
abbrev NO_RESOURCE : Nat := 2
abbrev BAD_PARAM : Nat := 3
abbrev NOT_OWNER : Nat := 4
abbrev BAD_STATE : Nat := 5
abbrev UNSUPPORTED : Nat := 6
abbrev NO_HOLDUP : Nat := 7
abbrev KEY_ERASED : Nat := 8
abbrev AUTH_FAIL : Nat := 9
abbrev VERSION : Nat := 10
abbrev RECEIVER_RESET : Nat := 0xFFFE

/-! ### Registers -/

/-- The key of instance `i` of a register. -/
def regKey (n : RegName) (i : Nat) : Nat := n.code * 2 ^ 20 + i

/-- The reset value that the field table gives (R15). -/
def fldsRst (l : List Fld) : Word := l.foldl (fun w f => putF w f.hi f.lo f.rst) 0

/-- Ports 0 to 15 of R327: real-time bit and rank at reset. -/
def portCfgRst (p : Nat) : Word :=
  let (rt, rank) := if p ≤ 3 then (0, 3) else if p ≤ 11 then (0, 4) else if p = 12 then (0, 3) else if p ≤ 14 then (1, 2) else (0, 2)
  putF (putF (fldsRst (RegName.flds .HBMC_PORT_CFG)) 31 31 rt) 30 28 rank

/-- The golden kind of a test unit (R470). -/
def unitKind (u : Nat) : Nat := if u < 64 then 0 else if u < 80 then 1 else if u < 88 then 2 else if u = 88 then 3 else 4
/-- A half of the golden value that OTP holds for a unit's kind (R15, R470). -/
def goldenHalf (u : Nat) (hi : Bool) : Word := BitVec.ofNat 32 ((Config.golden (unitKind u)).toNat / (if hi then 2 ^ 32 else 1))

/-- 1,024 times the Lanczos kernel of `a` lobes at k / 64 (R220), to the nearest integer. -/
def lanczos (a k : Nat) : Int :=
  if k = 0 then 1024
  else if 64 * a ≤ k then 0
  else
    let v : Int := (1024 * 4096 * a * sinQ (k % 64) 64 * sinQ k (64 * a) : Nat)
    nearDiv (if k / 64 % 2 = 0 then v else -v) (piFix * piFix * k * k)

/-- The centre tap of a phase: the nearest to the sample's place. -/
def centreTap (luma : Bool) (phase : Nat) : Nat := (if luma then 3 else 1) + (if phase ≤ 32 then 0 else 1)

/-- A tap of a bank's default contents before the centre tap absorbs the residue (R220): luma taps lie at offsets -3 to 4, chroma taps
at -1 to 2. -/
def rawCoef (luma : Bool) (bank phase tap : Nat) : Int :=
  let first := if luma then 3 else 1
  match bank with
  | 0 => lanczos (if luma then 4 else 2) (64 * (tap : Int) - 64 * first - phase).natAbs
  | 7 => if tap = first then 16 * (64 - phase : Nat) else if tap = first + 1 then (16 * phase : Nat) else 0
  | _ => (Config.kaiser bank phase (if luma then tap else 8 + tap)).toInt

/-- A default coefficient (R220): taps 0 to 7 luma, 8 to 11 chroma. -/
def defaultCoef (bank phase tap : Nat) : Int :=
  let luma := decide (tap < 8)
  let t := if luma then tap else tap - 8
  let c := centreTap luma phase
  if t = c then
    1024 - (((List.range (if luma then 8 else 4)).filter (· != c)).map (rawCoef luma bank phase)).foldl (· + ·) 0
  else rawCoef luma bank phase t

/-- A word of the coefficient memory as firmware loads it at the engine's start. -/
def coefRst (i : Nat) : Word :=
  let c (tap : Nat) : Nat := wrapN (defaultCoef (i / 384 % 8) (i / 6 % 64) tap) 12
  putF (putF 0 27 16 (c (2 * (i % 6) + 1))) 11 0 (c (2 * (i % 6)))

/-- The value of instance `i` of a register after power-on reset; of the coefficient memory, after the load that follows (R220). -/
def RegName.rst (n : RegName) (i : Nat) : Word :=
  let w := fldsRst n.flds
  match n with
  | .RING_INFO => putF (putF 0 31 16 (61440 + i)) 15 8 (i / 1024 * 64 + i % 1024 / 16)
  | .CORE_STAT => putF w 8 0 i
  | .CLKPWR_PD_CTRL => putF w 31 30 (if i ≤ 1 ∨ 28 ≤ i then 0 else 2)
  | .CLKPWR_CL_CTRL => putF w 31 30 2
  | .CLKPWR_PD_STAT => putF w 31 29 (if i ≤ 1 ∨ i = 34 then 2 else 0)
  | .HBMC_PORT_CFG => portCfgRst (i % 16)
  -- fused values: `UNIT` is 0 at reset
  | .TSTRIP_GOLD_LO => goldenHalf 0 false
  | .TSTRIP_GOLD_HI => goldenHalf 0 true
  | .PICT_COMP_COEF => coefRst i
  | _ => w

/-- The stored word of a register. -/
def State.reg (s : State) (n : RegName) (i : Nat := 0) : Word := Tbl.get s.regs (n.rst i) (regKey n i)

/-- A field of a register. -/
def State.rf (s : State) (n : RegName) (i hi lo : Nat) : Nat := fld (s.reg n i) hi lo

/-- One bit of a register. -/
def State.rb (s : State) (n : RegName) (i b : Nat) : Bool := bit (s.reg n i) b

/-- Replace a register's word. -/
def State.setReg (s : State) (n : RegName) (i : Nat) (v : Word) : State :=
  { s with regs := Tbl.set s.regs (regKey n i) v }

/-- Replace a field of a register. -/
def State.setRf (s : State) (n : RegName) (i hi lo v : Nat) : State := s.setReg n i (putF (s.reg n i) hi lo v)

/-- Replace one bit of a register. -/
def State.setRb (s : State) (n : RegName) (i b : Nat) (v : Bool) : State := s.setReg n i (putB (s.reg n i) b v)

/-- A 64-bit counter (R73), keyed as its LO register. -/
def State.cnt (s : State) (n : RegName) (i : Nat) : DWord := Tbl.get s.cnts 0 (regKey n i)

/-- A counter advanced by `k`. -/
def State.bump (s : State) (n : RegName) (i : Nat) (k : Nat := 1) : State :=
  { s with cnts := Tbl.set s.cnts (regKey n i) (s.cnt n i + BitVec.ofNat 64 k) }

/-- A 16-bit field that counts and saturates at 65,535. -/
def State.satRf (s : State) (n : RegName) (i hi lo : Nat) : State :=
  if s.rf n i hi lo = 2 ^ (hi + 1 - lo) - 1 then s else s.setRf n i hi lo (s.rf n i hi lo + 1)

/-- The register with one instance back at its reset value. -/
def State.rstReg (s : State) (n : RegName) (i : Nat) : State := { s with regs := Tbl.del s.regs (regKey n i) }

/-- Every instance of the registers and counters that meet a condition back at its reset value. -/
def State.rstRegs (s : State) (p : RegName → Nat → Bool) : State :=
  let q : Nat → Bool := fun k => match RegName.all[k / 2 ^ 20]? with
    | some n => p n (k % 2 ^ 20)
    | none => false
  { s with regs := Tbl.keep s.regs (fun k _ => !q k), cnts := Tbl.keep s.cnts (fun k _ => !q k) }

/-- The word that a write leaves, field by field, by the access codes of R10. -/
def applyWrite (l : List Fld) (old new : Word) : Word :=
  l.foldl (fun w f => match f.acc with
    | .rw | .wo => putF w f.hi f.lo (fld new f.hi f.lo)
    | .w1c => w &&& ~~~ (new &&& maskW f.hi f.lo)
    | .w1s => w ||| (new &&& maskW f.hi f.lo)
    | .ro | .rc | .rsv => w) old

/-- The word that a read returns: WO and RSV fields read zero (R10). -/
def readMask (l : List Fld) (w : Word) : Word :=
  l.foldl (fun w f => match f.acc with
    | .wo | .rsv => w &&& ~~~ maskW f.hi f.lo
    | _ => w) w

/-! ### Arbitration (R29, R30) -/

/-- Rotating priority among `n` requesters indexed from 0 (R29): the first requesting index at or after the pointer `p`, in
rotating order. -/
def rotate (n p : Nat) (ok : Nat → Bool) : Option Nat := ((List.range n).map fun i => (p + i) % n).find? ok

/-- The pointer after a grant to requester `w` of `n` (R29). -/
def rotated (n w : Nat) : Nat := (w + 1) % n

/-- Rotating priority among the requesters of a list, in rising order (R29): the first at or after the pointer, else the
first. -/
def rotateIn (p : Nat) (l : List Nat) : Option Nat :=
  match l.find? fun i => decide (p ≤ i) with
  | some w => some w
  | none => l.head?

/-- `x` put before the first that it does not follow. -/
def insertBy (le : Nat → Nat → Bool) (x : Nat) : List Nat → List Nat
  | [] => [x]
  | y :: l => if le x y then x :: y :: l else y :: insertBy le x l
/-- A list in the order `le`. -/
def sortBy (le : Nat → Nat → Bool) (l : List Nat) : List Nat := l.foldr (insertBy le) []

/-- An arbiter whose requesters stand in classes, 0 the highest (R30): the highest class that has a requester, then R29 among
the requesters of that class only, with the class's own pointer. `l` lists the requesters, rising, with their classes; the
answer is the class and the winner. -/
def arbitrate (ptr : Nat → Nat) (l : List (Nat × Nat)) : Option (Nat × Nat) :=
  match (l.map (·.2)).min? with
  | none => none
  | some k => (rotateIn (ptr k) ((l.filter fun x => x.2 == k).map (·.1))).map fun w => (k, w)

/-! ### Memory (R26) -/

/-- The byte at an address; an unlisted address reads zero. -/
def Mem.get : List Host.Cell → Nat → Byte
  | [], _ => 0
  | (k, v) :: r, a => if k = a then v else Mem.get r a

/-- The memory with one byte written, in canonical form: a zero byte is not listed. -/
def Mem.put (m : List Host.Cell) (a : Nat) (b : Byte) : List Host.Cell :=
  if b = 0 then Tbl.del m a else Tbl.set m a b

/-- The memory's canonical form: addresses strictly rising, no byte listed that reads as an unlisted one. -/
def Mem.wf (m : List Host.Cell) : Bool := Tbl.wf m && m.all fun c => c.2 != 0

/-- `n` bytes from an address. -/
def Mem.read (m : List Host.Cell) (a : Nat) : Nat → List Byte
  | 0 => []
  | n + 1 => Mem.get m a :: Mem.read m (a + 1) n

/-- A list of bytes written at an address, lowest first. -/
def Mem.write (m : List Host.Cell) (a : Nat) : List Byte → List Host.Cell
  | [] => m
  | b :: r => Mem.write (Mem.put m a b) (a + 1) r

/-- The little-endian word at an address. -/
def Mem.word (m : List Host.Cell) (a : Nat) : Word := BitVec.ofNat 32 (leNat (Mem.read m a 4))

/-- A memory without the bytes of a range. -/
def Mem.clear (m : List Host.Cell) (lo n : Nat) : List Host.Cell := Tbl.keep m fun k _ => decide (k < lo ∨ lo + n ≤ k)

/-- HBM addresses (R26). -/
def inHbm (a : Nat) : Bool := decide (a < 0xC00000000)
/-- Tile SRAM addresses. -/
def inTile (a : Nat) : Bool := decide (0x1000000000 ≤ a ∧ a < 0x1008000000)
/-- Packet SRAM addresses. -/
def inPkt (a : Nat) : Bool := decide (0x1008000000 ≤ a ∧ a < 0x100C000000)
/-- Is the address in a memory region of R26? -/
def inMem (a : Nat) : Bool := inHbm a || inTile a || inPkt a

/-- Bytes written to the bridge address space. -/
def State.memWrite (s : State) (a : Nat) (l : List Byte) : State := { s with mem := Mem.write s.mem a l }

/-- Words written to the bridge address space. -/
def State.memWords (s : State) (a : Nat) (l : List Nat) : State :=
  s.memWrite a (l.flatMap fun w => toLe 4 w)

/-! ### Tenant windows (R346) -/

/-- Does window `w` allow an access of `n` bytes? -/
def State.windowHas (s : State) (w : Nat) (write : Bool) (a n : Nat) : Bool :=
  let base := s.rf .HBMC_WIN_BASE w 23 0 * 65536
  s.rb .HBMC_WIN_CTL w 31 && s.rb .HBMC_WIN_CTL w (if write then 29 else 30) && decide (base ≤ a)
    && decide (a + n ≤ base + s.rf .HBMC_WIN_SIZE w 19 0 * 65536)

/-- May a kernel of a tenant make the access: does every unit lie in one of the tenant's windows? -/
def State.windowOk (s : State) (t : Nat) (write : Bool) (a n : Nat) : Bool :=
  inHbm a && inHbm (a + n - 1) && (List.range 32).any fun i => s.windowHas (32 * t + i) write (a / 64 * 64) (cdiv (a + n) 64 * 64 - a / 64 * 64)

/-! ### Time (R426, R427) -/

/-- Device time in ns. -/
def State.dev (s : State) : Nat := s.time.acc / 2 ^ 32 % 2 ^ 64
/-- Elapsed time in ns. -/
def State.ela (s : State) : Nat := s.time.eacc / 2 ^ 32 % 2 ^ 64

/-- What one SAFE_SLOW tick adds to both accumulators (R426). -/
def tickInc (s : State) : Nat := (40 * 2 ^ 32 + sx (s.reg .TIME_RATE).toNat 32).toNat

/-- `n` SAFE_SLOW ticks pass. -/
def State.advance (s : State) (n : Nat) : State :=
  { s with
    time := { s.time with acc := (s.time.acc + n * tickInc s) % 2 ^ 96, eacc := (s.time.eacc + n * tickInc s) % 2 ^ 96 }
    power := { s.power with ticks := s.power.ticks + n } }

/-! ### Power (R23, R415) -/

/-- The state code of domain `d`, or of cluster `d - 35`. -/
def State.pdState (s : State) (d : Nat) : Nat :=
  if d < 35 then s.rf .CLKPWR_PD_STAT d 31 29 else s.rf .CLKPWR_CL_STAT (d - 35) 31 29

/-- Is the domain (or cluster, from 35) ON? -/
def State.pdOn (s : State) (d : Nat) : Bool := s.pdState d == 2

/-- Is cluster `c` ON? -/
def State.clOn (s : State) (c : Nat) : Bool := s.pdOn (35 + c)

/-- The control and status registers of a domain, or of a cluster from 35, and the instance. -/
def pdCtrl (d : Nat) : RegName × Nat := if d < 35 then (.CLKPWR_PD_CTRL, d) else (.CLKPWR_CL_CTRL, d - 35)
def pdStat (d : Nat) : RegName × Nat := if d < 35 then (.CLKPWR_PD_STAT, d) else (.CLKPWR_CL_STAT, d - 35)

/-- Set a domain's state code. -/
def State.setPd (s : State) (d st : Nat) : State := s.setRf (pdStat d).1 (pdStat d).2 31 29 st

/-- Change a domain's record. -/
def State.updDom (s : State) (d : Nat) (f : Dom → Dom) : State :=
  { s with power := { s.power with doms := Tbl.updD s.power.doms {} d f } }

/-- Domains and clusters that are powering up (R420). -/
def State.powering (s : State) : Nat := ((List.range 99).filter fun d => s.pdState d == 1).length

/-- A domain that is OFF starts its wake, or waits for one of the four places of R420; after a thermal trip nothing wakes
(R437). -/
def State.startUp (s : State) (d : Nat) (rank2 : Bool := false) : State :=
  if s.rb .SAFE_THERM 0 22 then s
  else if s.powering < 4 then s.setPd d 1
  else if s.power.wakeQ.contains d then s
  else { s with power := { s.power with wakeQ := if rank2 then d :: s.power.wakeQ else s.power.wakeQ ++ [d] } }

/-- A wake of a domain, whatever its source (R415, R420): from OFF it powers up, from CLK_STOPPED it becomes ON when its
wake completes, before step 3 of an entry it is ON again, later it waits for the entry's end. A cluster that drains takes items
again. -/
def State.wake (s : State) (d : Nat) (rank2 : Bool := false) : State :=
  match s.pdState d with
  | 0 => s.startUp d rank2
  | 2 => if 35 ≤ d then { s with disp := { s.disp with draining := Tbl.del s.disp.draining (d - 35) } } else s
  | 3 => if (Tbl.get s.power.doms {} d).entryAt + 1000 ≤ s.ela then s.updDom d fun x => { x with wakeWait := true } else s.setPd d 2
  | 4 => s.updDom d fun x => { x with wakeWait := true }
  | 5 => s.updDom d fun x => { x with wakeWait := true }
  | _ => s

/-- Does a demand reach a domain (R417)? A cluster whose tile is held stays down too. -/
def State.demandable (s : State) (d : Nat) : Bool :=
  s.rb (pdCtrl d).1 (pdCtrl d).2 29 && !s.rb (pdCtrl d).1 (pdCtrl d).2 28
    && !(decide (35 ≤ d) && s.rb .CLKPWR_PD_CTRL (2 + (d - 35) / 4) 28)

/-- A domain wakes; a cluster wakes its tile first (R415). -/
def State.wakeUp (s : State) (d : Nat) (rank2 : Bool := false) : State :=
  if 35 ≤ d then (s.wake (2 + (d - 35) / 4) rank2).wake d rank2 else s.wake d rank2

/-- Hardware sets `REQ` to ON where a demand reaches the domain (R417). -/
def State.reqOn (s : State) (d : Nat) : State := if s.demandable d then s.setRf (pdCtrl d).1 (pdCtrl d).2 31 30 0 else s

/-- A demand from a waking agent (R417): with `DEMAND` = 1 and `HOLD_OFF` = 0 the domain wakes and its `REQ` becomes ON; the
`REQ` of a cluster's tile only where the tile takes demands too (R13). -/
def State.demand (s : State) (d : Nat) (rank2 : Bool := false) : State :=
  if s.demandable d then ((if 35 ≤ d then s.reqOn (2 + (d - 35) / 4) else s).reqOn d).wakeUp d rank2 else s

/-! ### Cores -/

/-- A core; 0 to 511 are the media cores, 512 to 515 the control cores. -/
def State.core (s : State) (c : Nat) : Core := Tbl.get s.cores {} c
def State.setCore (s : State) (c : Nat) (k : Core) : State := { s with cores := Tbl.set s.cores c k }

/-! ### Faults (R258) -/

abbrev F_ILLEGAL : Nat := 1
abbrev F_PRIVILEGED : Nat := 2
abbrev F_ALIGN : Nat := 3
abbrev F_STACK : Nat := 4
abbrev F_BUS_ERROR : Nat := 5
abbrev F_DMA_FAULT : Nat := 6
abbrev F_LDM_ECC : Nat := 7
abbrev F_LOOP_NEST : Nat := 8
abbrev F_FETCH : Nat := 9
abbrev F_WATCHDOG : Nat := 10

/-- A fault stops the work item: the first unacknowledged one is recorded, a further one sets OVERRUN (R258). -/
def State.coreFault (s : State) (c cause addr : Nat) : State :=
  let k := s.core c
  let s := s.setCore c { k with faulted := some cause }
  if 512 ≤ c then s
  else if s.rb .CORE_FAULT c 0 then s.setRb .CORE_FAULT c 1 true
  else
    let s := s.setReg .CORE_FAULT c (putB (putF (s.reg .CORE_FAULT c) 7 4 cause) 0 true)
    (s.setReg .CORE_FAULT_PC c k.pc).setReg .CORE_FAULT_ADDR c (BitVec.ofNat 32 addr)

/-- The work item of a kernel whose access was answered with a bus error faults (R27): the core that runs it stops, with the
access's address. -/
def State.kernelErr (s : State) (a : Agent) (addr : Nat) : State :=
  match a with
  | .kernel c =>
    if s.bus = .busError ∧ (s.core c.val).running = true ∧ (s.core c.val).faulted = none then s.coreFault c.val F_BUS_ERROR addr else s
  | _ => s

/-! ### The log and host memory (R394, R405) -/

/-- Record what leaves the device. -/
def State.emit (s : State) (o : Out) : State := { s with out := o :: s.out }

/-- The record of a function. -/
def State.fn (s : State) (f : Nat) : Fn := Tbl.get s.vusta.fns {} f

/-- Change a function's record. -/
def State.updFn (s : State) (f : Nat) (g : Fn → Fn) : State :=
  { s with vusta := { s.vusta with fns := Tbl.updD s.vusta.fns {} f g } }

/-- Is the function in reset or cleanup (`HP_FLR`, R408)? -/
def State.inFlr (s : State) (f : Nat) : Bool :=
  if f % 64 < 32 then s.rb .HP_FLR_LO (f / 64) (f % 64) else s.rb .HP_FLR_HI (f / 64) (f % 64 - 32)

/-- Does the function exist (R388)? -/
def State.fnExists (s : State) (f : Nat) : Bool :=
  f % 64 = 0 || ((Tbl.get s.vusta.sriov {} (f / 64)).enable && decide (f % 64 ≤ (Tbl.get s.vusta.sriov {} (f / 64)).numVfs))

/-- The device writes host memory for a function; nothing is issued while Bus Master Enable is 0 or the function is in
reset (R405, R408). -/
def State.dma (s : State) (f a : Nat) (l : List Nat) : State :=
  if f < 256 ∧ ((s.fn f).bme = false ∨ s.inFlr f = true) then s
  else s.emit (.dma f a (l.map (BitVec.ofNat 32)))

/-- Bytes written to host memory for a function (R394, R405). -/
def State.dmaBytes (s : State) (f a : Nat) (l : List Byte) : State :=
  if f < 256 ∧ ((s.fn f).bme = false ∨ s.inFlr f = true) then s else s.emit (.dmaBytes f a l)

/-- An MSI-X vector of a function (R392). -/
def State.msix (s : State) (f v : Nat) : State :=
  if (s.fn f).bme = false ∨ s.inFlr f = true then s else s.emit (.msix f v)

/-! ### Notifications (R353, R369) -/

/-- The store of a mailbox channel, of a ring, or of a function without a route. -/
def noteKeyMbx (c : Nat) : Nat := c
def noteKeyRing (r : Nat) : Nat := 64 + r
def noteKeyFn (f : Nat) : Nat := 8192 + f

/-- The lowest ring of a function that is enabled as an event ring (R369). -/
def State.defaultRing (s : State) (f : Nat) : Option Nat :=
  ((List.range 16).map fun r => f / 64 * 1024 + f % 64 * 16 + r).find?
    fun r => s.rb .RING_CTRL r 31 && s.rf .RING_CTRL r 30 28 == 2

/-- The store to which a family's notifications for a function go. -/
def State.noteKey (s : State) (f fam : Nat) : Nat :=
  match Tbl.find (s.fn f).routes fam with
  | some (.local l) => noteKeyMbx (4 + 15 * (f / 64) + l)
  | some (.ring r) => noteKeyRing r
  | none =>
    if f % 64 = 0 then noteKeyMbx (4 + 15 * (f / 64) + 12)
    else match s.defaultRing f with
      | some r => noteKeyRing r
      | none => noteKeyFn f

/-- Add a notification to a store: at most 256 wait, the newest is dropped and counted by family. -/
def NoteQ.add (q : NoteQ) (n : Note) : NoteQ :=
  if q.wait.length < 256 then { q with wait := q.wait ++ [n] }
  else { q with dropped := Tbl.updD q.dropped 0 (n.op / 256) (· + 1) }

/-- Firmware posts a notification to a function: opcode, handle, words from 2 on. A function in reset gets none (R411). -/
def State.notify (s : State) (f op handle : Nat) (words : List Nat := []) : State :=
  if s.inFlr f then s
  else { s with vusta := { s.vusta with notes := Tbl.updD s.vusta.notes {} (s.noteKey f (op / 256)) (NoteQ.add · ⟨op, handle, words⟩) } }

/-- A notification to the PF of every tenant. -/
def State.notifyAll (s : State) (op handle : Nat) (words : List Nat := []) : State :=
  (List.range 4).foldl (fun s t => s.notify (64 * t) op handle words) s

/-! ### Free values -/

/-- Take a value that the spec leaves open: nothing constrains it. -/
def State.freeWord (s : State) : Word × State := (Config.freeWord s.freeCtr, { s with freeCtr := s.freeCtr + 1 })
/-- Take a bit that the spec leaves open. -/
def State.freeBit (s : State) : Bool × State := (Config.freeBit s.freeCtr, { s with freeCtr := s.freeCtr + 1 })

/-- Bytes that the spec leaves open (a picture's samples) written to memory. -/
def State.memFill (s : State) (a n : Nat) : State :=
  { s.memWrite a ((List.range n).map (Config.freeByte s.freeCtr)) with freeCtr := s.freeCtr + 1 }

end Sys2Proof.Machine
end

