-- ==== Sys2Proof/Machine/Fifo.lean ====
section
/-! DEFINITION. The FIFO primitive (R35 to R41, R510) and the host rings built on it (R396 to R406). -/

namespace Sys2Proof.Machine

/-! ### One instance -/

/-- Bytes of an item (`ITEM_SIZE`, R35). -/
def Fifo.bytes (f : Fifo) : Nat := 4 * 2 ^ f.itemSize
/-- Depth in items. -/
def Fifo.depth (f : Fifo) : Nat := 2 ^ f.log2
/-- `LEVEL`. -/
def Fifo.level (f : Fifo) : Nat := dist 16 f.pidx f.cidx
/-- Misconfigured (R510). -/
def Fifo.misconf (f : Fifo) : Bool := decide (4 < f.itemSize) || decide (f.log2 < 4)
/-- Items of the head packet that are in the FIFO. -/
def Fifo.head (f : Fifo) : Nat := match f.ends with
  | e :: _ => dist 16 e f.cidx
  | [] => f.level

/-- `READY` (R36). -/
def Fifo.ready (ev : Bool) (f : Fifo) : Bool :=
  if ev then f.level != 0
  else !f.ends.isEmpty || (f.ct != 0 && decide (min f.ct f.depth ≤ f.head) && f.head != 0)
    || (f.pktOpen && f.level == f.depth)

/-- Move the consumer index on by `d` items: the items and the packet ends passed leave, the word position returns to
0. -/
def Fifo.consume (f : Fifo) (d : Nat) : Fifo :=
  { f with
    cidx := (f.cidx + d) % 65536
    items := f.items.drop d
    ends := f.ends.filter fun e => decide (d < dist 16 e f.cidx)
    wpos := 0 }

/-- Publish items, and close the packet with `eop`; items of a packet that is being discarded leave at once (R39). -/
def Fifo.publish (ev : Bool) (f : Fifo) (its : List (List Word)) (eop : Bool) : Fifo :=
  let p := (f.pidx + its.length) % 65536
  if f.discard then
    { f with pidx := p, cidx := p, items := [], discard := !eop, pktOpen := !eop }
  else if ev then { f with pidx := p, items := f.items ++ its }
  else
    let g := { f with pidx := p, items := f.items ++ its }
    let has := f.pktOpen || !its.isEmpty
    if eop then { g with pktOpen := false, ends := if has && g.level != 0 then f.ends ++ [p] else f.ends }
    else { g with pktOpen := has }

/-- May a producer move the index on by `d`, closing a packet or not (R37, R510)? -/
def Fifo.accepts (ev : Bool) (f : Fifo) (d : Nat) (eop : Bool) : Bool :=
  !f.misconf && decide (d ≤ f.depth - f.level) && (ev || !eop || f.ends.length != 255)

/-- A software producer's write of `FIFO_PIDX` (R37). The items are what the producer has put into storage. -/
def Fifo.pidxWrite (ev : Bool) (f : Fifo) (new : Nat) (eop : Bool) (its : List (List Word)) : Fifo :=
  let d := dist 16 new f.pidx
  if f.accepts ev d eop then f.publish ev ((List.range d).map fun i => nth its [] i) eop
  else { f with overflow := true }

/-- A consumer's write of `FIFO_CIDX` (R38). -/
def Fifo.cidxWrite (f : Fifo) (new : Nat) : Fifo :=
  let d := dist 16 new f.cidx
  if d ≤ f.level then f.consume d else { f with underrun := true }

/-- A consumer's read of `FIFO_DATA` (R35, R38, R510): the word and the FIFO after it. -/
def Fifo.dataRead (f : Fifo) : Word × Fifo :=
  if f.misconf || (f.level == 0 && f.wpos == 0) then (f.last, { f with underrun := true })
  else
    let w := nth (f.items.headD []) 0 f.wpos
    let g := { f with last := w }
    (w, if f.wpos + 1 = f.bytes / 4 then g.consume 1 else { g with wpos := f.wpos + 1 })

/-- `FLUSH` (R39, R510). -/
def Fifo.flush (f : Fifo) : Fifo :=
  if f.misconf then f
  else { f with cidx := f.pidx, items := [], ends := [], wpos := 0, discard := f.discard || f.pktOpen }

/-- `DROP_REST` (R39, R510). -/
def Fifo.dropRest (ev : Bool) (f : Fifo) : Fifo :=
  if f.misconf then f
  else if f.level = 0 && !f.pktOpen then { f with wpos := 0 }
  else if ev then f.consume 1
  else match f.ends with
    | e :: _ => f.consume (dist 16 e f.cidx)
    | [] => { f with cidx := f.pidx, items := [], wpos := 0, discard := true }

/-- `FIFO_STAT` as it reads. -/
def Fifo.stat (ev : Bool) (f : Fifo) : Word :=
  let w := putF (putF 0 31 16 f.level) 15 8 (if ev then min f.level 255 else f.ends.length)
  let w := putB (putB (putB w 5 (f.ready ev)) 4 f.pktOpen) 3 f.overflow
  putB (putB (putB w 2 f.underrun) 1 (f.level == f.depth)) 0 (f.level == 0)

/-! ### The instances of the device -/

/-- The number under which the state keeps an instance. -/
def fifoKey : FifoId → Nat
  | .decReq p => p.val
  | .decDone p => 8 + p.val
  | .encIn p => 16 + p.val
  | .encDone p => 24 + p.val
  | .encOut p c => 64 + 4 * p.val + c.val
  | .ring r => 4096 + r.val

/-- The instance at reset. The engines' instances have the item sizes and depths their chapters fix. -/
def fifoRst : FifoId → Fifo
  | .decReq _ => { itemSize := 3 }
  | .decDone _ => { itemSize := 3 }
  | .encIn _ => { itemSize := 4, log2 := 9 }
  | .encDone _ => { itemSize := 3 }
  | .encOut _ _ => { itemSize := 4 }
  | .ring _ => {}

/-- An instance. -/
def State.fifo (s : State) (f : FifoId) : Fifo := Tbl.get s.fifos (fifoRst f) (fifoKey f)
/-- Replace an instance. -/
def State.setFifo (s : State) (f : FifoId) (v : Fifo) : State := { s with fifos := Tbl.set s.fifos (fifoKey f) v }
/-- An instance back at reset, its contents discarded (R41). -/
def State.rstFifo (s : State) (f : FifoId) : State := { s with fifos := Tbl.del s.fifos (fifoKey f) }

/-! ### Host rings -/

/-- The function that owns ring `r` (R396). -/
def ringFn (r : Nat) : Nat := r / 1024 * 64 + r % 1024 / 16
/-- The type of a ring (`RING_CTRL.TYPE`). -/
def State.ringType (s : State) (r : Nat) : Nat := s.rf .RING_CTRL r 30 28
/-- `RING_CTRL.ENABLE`. -/
def State.ringOn (s : State) (r : Nat) : Bool := s.rb .RING_CTRL r 31
/-- Does every item of the instance close its own packet (R397)? -/
def State.fifoEv (s : State) : FifoId → Bool
  | .ring r => decide (s.ringType r.val ≤ 2)
  | _ => false
/-- Does the host produce the ring's items (R396)? -/
def State.hostProduces (s : State) (r : Nat) : Bool := s.ringType r == 0 || s.ringType r == 4

/-- Ring `r` as a FIFO. -/
def ringId (r : Nat) : FifoId := .ring (Fin.ofNat 4096 r)

/-- The index write-back of a ring (R402): `CIDX` and `PIDX`, then `FIFO_STAT`. -/
def State.writeBack (s : State) (r : Nat) : State :=
  let a := (s.reg .RING_WB_LO r).toNat + 2 ^ 32 * (s.reg .RING_WB_HI r).toNat
  if a = 0 then s
  else
    let f := s.fifo (ringId r)
    s.dma (ringFn r) a [f.cidx * 65536 + f.pidx, (f.stat (s.fifoEv (ringId r))).toNat]

/-- What a ring keeps beside its registers. -/
def State.ringX (s : State) (r : Nat) : RingX := Tbl.get s.vusta.rings {} r
def State.setRingX (s : State) (r : Nat) (x : RingX) : State :=
  { s with vusta := { s.vusta with rings := Tbl.set s.vusta.rings r x } }

/-- An event of a ring (R403): the vector at once after a quiet period, else once at the period's end. -/
def State.ringEvent (s : State) (r : Nat) : State :=
  if s.rb .RING_CTRL r 23 = false then s
  else
    let x := s.ringX r
    let m := s.rf .RING_CTRL r 15 0 * 1000
    if x.quiet || decide (x.lastInt + m ≤ s.ela) then
      (s.setRingX r { x with quiet := false, lastInt := s.ela, intDue := false }).msix (ringFn r) (16 + r % 16)
    else s.setRingX r { x with intDue := true }

/-- Bus Master Enable of the ring's function is 1, and the ring is enabled (R405). -/
def State.ringLive (s : State) (r : Nat) : Bool := s.ringOn r && (s.fn (ringFn r)).bme && !s.inFlr (ringFn r)

/-- The device publishes one item on a ring it produces: the item to host memory, the index, the write-back, the event
(R401 to R403). -/
def State.ringPublish (s : State) (r : Nat) (item : List Nat) (eop : Bool := true) : State :=
  let f := s.fifo (ringId r)
  let ws := item.map (BitVec.ofNat 32)
  let s := s.dma (ringFn r) (f.base + f.pidx % f.depth * f.bytes) item
  let s := s.setFifo (ringId r) (f.publish (s.fifoEv (ringId r)) [ws] eop)
  (s.writeBack r).ringEvent r

/-- Free items of a ring. -/
def State.ringFree (s : State) (r : Nat) : Nat :=
  let f := s.fifo (ringId r)
  if f.misconf then 0 else f.depth - f.level

/-- The device consumes `n` items of a ring it consumes. -/
def State.ringConsume (s : State) (r n : Nat) : State :=
  let f := s.fifo (ringId r)
  let s := (s.setFifo (ringId r) (f.consume n)).writeBack r
  if s.ringType r = 4 then s.ringEvent r else s

/-! ### Who may do what (R35, R206, R393, R396) -/

/-- The bridge address of a register of an instance (R161, R172, R206); a host ring is seen through control core 0's window
(R396). -/
def fifoAddr (f : FifoId) (off : Nat) : Nat :=
  let pict (p : Fin 8) (o : Nat) : Nat := 0x2003000000 + p.val * 0x100000 + o + off
  match f with
  | .decReq p => pict p 0x100
  | .decDone p => pict p 0x120
  | .encIn p => pict p 0x1100
  | .encOut p c => pict p (0x1120 + 0x20 * c.val)
  | .encDone p => pict p 0x11A0
  | .ring _ => 0x2000101000 + off

/-- Does a tenant own a rendition on coder `c` of engine `pe` (R206)? -/
def State.encTenant (s : State) (pe c t : Nat) : Bool :=
  s.video.rends.any fun kv => kv.2.coder == c && kv.2.own.tenant == t && (Tbl.get s.video.groups {} kv.2.group).pe == pe

/-- The answer to an access that the agent may not make: a bus error for a kernel (R27); any other agent reads zero and
its write is ignored. -/
def deniedBus : Agent → Bus
  | .kernel _ => .busError
  | _ => .ok 0

/-- An access to an instance that the agent may not make: the answer, and a kernel's fault (R27). -/
def State.denied (s : State) (a : Agent) (f : FifoId) (off : Nat) : State :=
  State.kernelErr { s with bus := deniedBus a } a (fifoAddr f off)

/-- The function of a kernel's core is none; a host function may touch its own rings only; firmware on core `c` reaches
the ring that its `QMGR_RING_SEL` names. -/
def State.reaches (s : State) (a : Agent) : FifoId → Bool
  | .ring r => match a with
    | .host fn => decide (ringFn r.val = fn.val) && s.fnExists fn.val && !s.inFlr fn.val
    | .fw c => s.rf .QMGR_RING_SEL c.val 11 0 == r.val
    | _ => false
  | .encOut p c => match a with
    | .fw _ => true
    | .kernel k => let x := Tbl.get s.cores {} k.val; x.running && s.encTenant p.val c.val x.tenant
    | _ => false
  | _ => match a with
    | .fw _ => true
    | _ => false

/-- May the agent write the instance's producer index? -/
def State.produces (s : State) (a : Agent) (f : FifoId) : Bool :=
  s.reaches a f && match f with
    | .ring r => (match a with | .fw _ => true | _ => s.hostProduces r.val)
    | _ => false

/-- May the agent act as the instance's consumer? -/
def State.consumes (s : State) (a : Agent) (f : FifoId) : Bool :=
  s.reaches a f && match f with
    | .ring r => (match a with | .fw _ => true | _ => !s.hostProduces r.val)
    | .encOut _ _ => (match a with | .kernel _ => true | _ => false)
    | .decDone _ => true
    | .encDone _ => true
    | _ => false

/-- Commands on a ring are posted as its items are published (R366, R400). -/
def State.postRing (s : State) (r : Fin 4096) (n : Nat) : State :=
  if s.ringType r.val = 0 then
    { s with vusta := { s.vusta with posted := s.vusta.posted ++ List.replicate n (.ring r) } }
  else s

/-- The first `n` commands posted on a path leave the list. -/
def dropPosted (p : Path) : Nat → List Path → List Path
  | 0, l => l
  | n + 1, l => dropPosted p n (l.erase p)

/-- FIFO_PIDX_WRITE (R37, R397, R399). -/
def execFifoPidxWrite (a : Agent) (f : FifoId) (v : Word) (items : List (List Word)) (s : State) :
    Host.Outcome State Fault Refusal :=
  if s.produces a f then
    let ev := s.fifoEv f
    let old := s.fifo f
    let new := old.pidxWrite ev (fld v 15 0) (bit v 31 && !ev) items
    let s1 := s.setFifo f new
    match f with
    | .ring r =>
      let n := dist 16 new.pidx old.pidx
      let s2 := if n = 0 then s1 else s1.writeBack r.val
      let s3 := if s.ringOn r.val then s2.postRing r n else s2
      match a with
      | .host _ => .next (if s.ringType r.val = 0 then { s3 with bus := .ok 0 }.demand 1 else { s3 with bus := .ok 0 })
      | _ => .next { s3 with bus := .ok 0 }
    | _ => .next { s1 with bus := .ok 0 }
  else .next (s.denied a f 0x0C)

/-- FIFO_CIDX_WRITE (R38). -/
def execFifoCidxWrite (a : Agent) (f : FifoId) (v : Word) (s : State) : Host.Outcome State Fault Refusal :=
  if s.consumes a f then
    let old := s.fifo f
    let new := old.cidxWrite (fld v 15 0)
    let s1 := s.setFifo f new
    let s2 := match f with
      | .ring r =>
        let n := dist 16 new.cidx old.cidx
        let s3 := { s1 with vusta := { s1.vusta with posted := if s.ringType r.val = 0 then dropPosted (.ring r) n s1.vusta.posted else s1.vusta.posted } }
        if n = 0 then s3 else s3.writeBack r.val
      | _ => s1
    .next { s2 with bus := .ok 0 }
  else .next (s.denied a f 0x10)

/-- FIFO_DATA_READ (R35, R38): host rings read zero (R396); an agent other than the consumer reads zero and changes
nothing. -/
def execFifoDataRead (a : Agent) (f : FifoId) (s : State) : Host.Outcome State Fault Refusal :=
  match f with
  | .ring _ => .next { s with bus := .ok 0 }
  | _ =>
    if s.consumes a f then
      let (w, g) := (s.fifo f).dataRead
      .next { s.setFifo f g with bus := .ok w }
    else .next (s.denied a f 0x1C)

/-- FLUSH (R39): a FIFO_CMD write; on a host ring it acts only when the host is the consumer (R396). -/
def execFifoFlush (a : Agent) (f : FifoId) (s : State) : Host.Outcome State Fault Refusal :=
  if s.consumes a f then
    let s1 := s.setFifo f (s.fifo f).flush
    .next { (match f with | .ring r => s1.writeBack r.val | _ => s1) with bus := .ok 0 }
  else .next (s.denied a f 0x18)

/-- DROP_REST (R39). -/
def execDropRest (a : Agent) (f : FifoId) (s : State) : Host.Outcome State Fault Refusal :=
  if s.consumes a f then
    let s1 := s.setFifo f ((s.fifo f).dropRest (s.fifoEv f))
    .next { (match f with | .ring r => s1.writeBack r.val | _ => s1) with bus := .ok 0 }
  else .next (s.denied a f 0x18)

/-- FIFO_HW_PUBLISH (R37, R510): a hardware producer publishes items once space is free, and stalls until then. -/
def execFifoHwPublish (f : FifoId) (items : List (List Word)) (eop : Bool) (s : State) :
    Host.Outcome State Fault Refusal :=
  let g := s.fifo f
  let ev := s.fifoEv f
  if g.accepts ev items.length eop then
    match f with
    | .ring r =>
      if s.ringLive r.val && !s.hostProduces r.val then
        let s1 := (s.setFifo f (g.publish ev items eop)).dma (ringFn r.val) (g.base + g.pidx % g.depth * g.bytes)
          ((items.flatMap id).map BitVec.toNat)
        .next ((s1.writeBack r.val).ringEvent r.val)
      else .next s
    | _ => .next (s.setFifo f (g.publish ev items eop))
  else .next s

/-! ### Ring enable, disable and errors (R398 to R405) -/

/-- The item size code that a ring type needs (R396), or none for a reserved type. -/
def ringSize : Nat → Option Nat
  | 0 => some 4 | 1 => some 3 | 2 => some 4 | 3 => some 3 | 4 => some 3 | _ => none

/-- The `ERR` code that refuses an enable of ring `r` under the control word `w`; 0 when none (R398). -/
def State.enableErr (s : State) (r : Nat) (w : Word) : Nat :=
  let f := s.fifo (ringId r)
  let ty := fld w 30 28
  let p := r / 16 * 16 + fld w 19 16
  if ringSize ty != some f.itemSize || decide (f.log2 < 4) then 1
  else if ty == 0 && !(s.ringOn p && s.ringType p == 1) then 2
  else if (s.fn (ringFn r)).bme == false then 5
  else 0

/-- RING_ENABLE (R398): a write of RING_CTRL with ENABLE = 1. -/
def execRingEnable (r : Fin 4096) (v : Word) (s : State) : Host.Outcome State Fault Refusal :=
  let old := s.reg .RING_CTRL r.val
  if s.ringOn r.val then
    -- already enabled: TYPE does not change, the other RW fields do
    let w := putF (applyWrite (RegName.flds .RING_CTRL) old (putB v 31 true)) 30 28 (fld old 30 28)
    .next { s.setReg .RING_CTRL r.val w with bus := .ok 0 }
  else
    let w := applyWrite (RegName.flds .RING_CTRL) old v
    let e := s.enableErr r.val w
    let w' := putF (putB w 31 (e == 0)) 27 24 e
    .next { s.setReg .RING_CTRL r.val w' with bus := .ok 0 }

/-- Does an enabled command ring of the same function name completion ring `r` (R398)? -/
def State.isPaired (s : State) (r : Nat) : Bool :=
  s.ringType r == 1 && (List.range 16).any fun k =>
    let q := r / 16 * 16 + k
    s.ringOn q && s.ringType q == 0 && s.rf .RING_CTRL q 19 16 == r % 16

/-- RING_DISABLE (R398): a write of RING_CTRL with ENABLE = 0. -/
def execRingDisable (r : Fin 4096) (v : Word) (s : State) : Host.Outcome State Fault Refusal :=
  let old := s.reg .RING_CTRL r.val
  if s.ringOn r.val then
    if s.isPaired r.val then .next { s.setReg .RING_CTRL r.val (putF old 27 24 4) with bus := .ok 0 }
    else
      let w := putF (applyWrite (RegName.flds .RING_CTRL) old (putB v 31 false)) 30 28 (fld old 30 28)
      let s1 := (s.setReg .RING_CTRL r.val w).setFifo (.ring r) (s.fifo (.ring r)).flush
      let s2 := { s1 with vusta := { s1.vusta with posted := s1.vusta.posted.filter fun p => p != Path.ring r } }
      .next { s2.writeBack r.val with bus := .ok 0 }
  else
    .next { s.setReg .RING_CTRL r.val (applyWrite (RegName.flds .RING_CTRL) old (putB v 31 false)) with bus := .ok 0 }

/-- RING_DMA_FAIL (R404): the ring stops, vector 15 and AER; the items that the DMA moved are discarded. -/
def execRingDmaFail (r : Fin 4096) (moved : Nat) (s : State) : Host.Outcome State Fault Refusal :=
  let f := s.fifo (.ring r)
  let n := if s.hostProduces r.val then min moved f.level else 0
  let s1 := s.setFifo (.ring r) (if n = 0 then f else f.consume n)
  let s2 := { s1 with vusta := { s1.vusta with posted := dropPosted (.ring r) (if s.ringType r.val = 0 then n else 0) s1.vusta.posted } }
  let s3 := (s2.setRb .RING_CTRL r.val 31 false).setRf .RING_CTRL r.val 27 24 3
  .next ((s3.msix (ringFn r.val) 15).emit (.aer (ringFn r.val)))

/-- RING_INT_MOD_EXPIRY (R403): the moderation period ends and the events within it raise one vector. -/
def execRingIntModExpiry (r : Fin 4096) (el : Nat) (s : State) : Host.Outcome State Fault Refusal :=
  let s := s.advance el
  let x := s.ringX r.val
  if x.intDue then
    .next ((s.setRingX r.val { x with intDue := false, lastInt := s.ela }).msix (ringFn r.val) (16 + r.val % 16))
  else .next s

end Sys2Proof.Machine
end

