-- ==== Sys2Proof/Machine/Vusta.lean ====
section
/-! DEFINITION. Vusta messages, mailbox channels and the one path on which every command is taken, checked in the order
of R509 and answered (chapter 12). -/

namespace Sys2Proof.Machine

/-- Tenant and local number of a tenant's channel (R354). -/
def chTenant (ch : Nat) : Nat := (ch - 4) / 15
def chLocal (ch : Nat) : Nat := (ch - 4) % 15

/-- The function that sends on a path; channels 0 to 3 belong to none. -/
def pathFn : Path → Option Nat
  | .mbx ch => if ch.val < 4 then none else some (64 * chTenant ch.val)
  | .ring r => some (ringFn r.val)

end Sys2Proof.Machine

namespace Sys2Proof

open Sys2Proof.Machine


/-! ### Reading a message -/

/-- Payload word `i`, 2 to 15, as a number. -/
def Cmd.w (c : Cmd) (i : Nat) : Nat := (nth c.pay 0 (i - 2)).toNat
/-- Field [hi:lo] of payload word `i`. -/
def Cmd.f (c : Cmd) (i hi lo : Nat) : Nat := bits (c.w i) hi lo
/-- Bit `b` of payload word `i`. -/
def Cmd.b (c : Cmd) (i b : Nat) : Bool := (c.w i).testBit b
/-- The handle. -/
def Cmd.h (c : Cmd) : Nat := c.handle.toNat
/-- The 64-bit value in words `i` and `i + 1`, low word first. -/
def Cmd.q (c : Cmd) (i : Nat) : Nat := c.w i + 2 ^ 32 * c.w (i + 1)
/-- `FENCE`, `DRY_RUN` and `EVENT` (R352). -/
def Cmd.fence (c : Cmd) : Bool := c.flags.toNat.testBit 2
def Cmd.dry (c : Cmd) : Bool := c.flags.toNat.testBit 1
def Cmd.event (c : Cmd) : Bool := c.flags.toNat.testBit 0

/-- The issuing function of a command. -/
def Cmd.fn (c : Cmd) : Option Nat := pathFn c.via
/-- The issuing function, 256 standing for none. -/
def Cmd.fnN (c : Cmd) : Nat := c.fn.getD 256
/-- The issuing tenant (4 when none). -/
def Cmd.tenant (c : Cmd) : Nat := c.fnN / 64
/-- Is the issuer a VF? -/
def Cmd.isVf (c : Cmd) : Bool := c.fn.isSome && c.fnN % 64 != 0

end Sys2Proof

namespace Sys2Proof.Machine

/-! ### Channels (R354) -/

/-- Command channels to firmware: 0, 1 and locals 0 to 11 of each tenant. -/
def isCmdCh (ch : Nat) : Bool := decide (ch ≤ 1) || (decide (4 ≤ ch) && decide (chLocal ch < 12))
/-- Notification channels: locals 12 to 14 of each tenant. -/
def isNoteCh (ch : Nat) : Bool := decide (4 ≤ ch) && decide (12 ≤ chLocal ch)

/-- Is the agent the channel's sender? -/
def isSender (a : Agent) (ch : Nat) : Bool :=
  match a with
  | .smc => decide (ch ≤ 2)
  | .fw _ => ch == 3 || isNoteCh ch
  | .host f => isCmdCh ch && decide (4 ≤ ch) && f.val == 64 * chTenant ch
  | .kernel _ => false

/-- Is the agent the channel's receiver? -/
def isReceiver (a : Agent) (ch : Nat) : Bool :=
  match a with
  | .smc => ch == 3
  | .fw _ => isCmdCh ch || ch == 2
  | .host f => isNoteCh ch && f.val == 64 * chTenant ch
  | .kernel _ => false

/-- Does the agent see the channel's registers at all (R356, R382)? -/
def sees (s : State) (a : Agent) (ch : Nat) : Bool :=
  (isSender a ch || isReceiver a ch) && match a with
    | .host f => s.fnExists f.val && !s.inFlr f.val
    | _ => true

/-- Bits of `MBX_STAT`. -/
def State.full (s : State) (ch : Nat) : Bool := s.rb .MBX_STAT ch 31
def State.rxOn (s : State) (ch : Nat) : Bool := s.rb .MBX_STAT ch 29
def State.txEpoch (s : State) (ch : Nat) : Nat := s.rf .MBX_STAT ch 15 8
def State.msgEpoch (s : State) (ch : Nat) : Nat := s.rf .MBX_STAT ch 23 16

/-- The error response of R358: a completer abort to a host, a bus error on the die. -/
def errResp : Agent → Bus
  | .host _ => .completerAbort
  | _ => .busError

/-- `FULL` clears and `DONE` is set. -/
def State.freeChan (s : State) (ch : Nat) : State := (s.setRb .MBX_STAT ch 31 false).setRb .MBX_STAT ch 30 true

/-- A control core is interrupted for a channel; which bits of `ip` the line sets is internal to firmware (R442), so they
are free values. -/
def State.ctrlIrq (s : State) (ch : Nat) : State :=
  (List.range 4).foldl (fun (s : State) c =>
    let (w, s) := s.freeWord
    { s with cores := Tbl.updD s.cores {} (512 + c) fun k => { k with ip := k.ip ||| w } }) (s.emit (.ctrlInt ch))

/-- The receiver of a channel is interrupted (R357). -/
def State.intReceiver (s : State) (ch : Nat) : State :=
  if isNoteCh ch then s.msix (64 * chTenant ch) (chLocal ch) else s.ctrlIrq ch

/-- A post while `RX_ON` is 1 (R357). -/
def State.doPost (s : State) (ch : Fin 64) : State :=
  if s.full ch.val then s.setRb .MBX_STAT ch.val 28 true
  else
    let w := s.reg .MBX_STAT ch.val
    let w := putB (putB (putB w 31 true) 30 false) 26 false
    let s := s.setReg .MBX_STAT ch.val (putF w 23 16 (fld w 15 8))
    let s := if isCmdCh ch.val then { s with vusta := { s.vusta with posted := s.vusta.posted ++ [Path.mbx ch] } } else s
    s.intReceiver ch.val

/-- The receiver's domain is asked to wake (R358); a notification channel's receiver is a host port, which a doorbell
does not wake sooner. -/
def State.wakeReceiver (s : State) (ch : Nat) : State :=
  if s.rxOn ch || isNoteCh ch || ch == 3 then s else s.demand 1

/-- MBX_POST (R357, R358). -/
def execMbxPost (a : Agent) (ch : Fin 64) (s : State) : Host.Outcome State Fault Refusal :=
  if isSender a ch.val && sees s a ch.val then
    if s.rxOn ch.val then .next { s.doPost ch with bus := .ok 0 }
    else .next { s.wakeReceiver ch.val with bus := .ok 0 }
  else .next { s with bus := .ok 0 }

/-- MBX_WAKE (R358). -/
def execMbxWake (a : Agent) (ch : Fin 64) (s : State) : Host.Outcome State Fault Refusal :=
  if isSender a ch.val && sees s a ch.val then .next { s.wakeReceiver ch.val with bus := .ok 0 }
  else .next { s with bus := .ok 0 }

/-- MBX_MSG_WRITE (R356, R358, R361). -/
def execMbxMsgWrite (a : Agent) (ch : Fin 64) (w : Fin 16) (v : Word) (s : State) : Host.Outcome State Fault Refusal :=
  if !sees s a ch.val then .next { s with bus := .ok 0 }
  else if !s.rxOn ch.val then .next { s with bus := errResp a }
  else if isSender a ch.val then
    let s1 := s.setReg .MBX_MSG (ch.val * 16 + w.val) v
    let s2 := if s.full ch.val then (s1.setRb .MBX_STAT ch.val 28 true).setRb .MBX_STAT ch.val 26 true else s1
    .next { s2 with bus := .ok 0 }
  else .next { s with bus := .ok 0 }

/-- Interrupt of the sender when its message is answered (R359). -/
def State.intSender (s : State) (ch : Nat) : State :=
  if isNoteCh ch then s.ctrlIrq ch else s.msix (64 * chTenant ch) (chLocal ch)

/-- MBX_ACK_WRITE (R359): the receiver answers on a tenant channel; channels 0 to 3 have no acknowledge register
(R360). -/
def execMbxAckWrite (a : Agent) (ch : Fin 64) (v : Word) (s : State) : Host.Outcome State Fault Refusal :=
  if ch.val < 4 || !sees s a ch.val then .next { s with bus := .ok 0 }
  else if !s.rxOn ch.val then .next { s with bus := errResp a }
  else if isReceiver a ch.val then
    let s1 := s.setReg .MBX_ACK ch.val (applyWrite (RegName.flds .MBX_ACK) (s.reg .MBX_ACK ch.val) v)
    let s2 := { s1 with vusta := { s1.vusta with posted := s1.vusta.posted.erase (Path.mbx ch) } }
    .next { (s2.freeChan ch.val).intSender ch.val with bus := .ok 0 }
  else .next { s with bus := .ok 0 }

/-- MBX_WORD15_READ (R360): on channels 0 to 3 the receiver's read of word 15 frees the channel. -/
def execMbxWord15Read (a : Agent) (ch : Fin 64) (s : State) : Host.Outcome State Fault Refusal :=
  if !sees s a ch.val then .next { s with bus := .ok 0 }
  else if !s.rxOn ch.val then .next { s with bus := errResp a }
  else
    let v := s.reg .MBX_MSG (ch.val * 16 + 15)
    if isReceiver a ch.val && decide (ch.val < 4) then .next { s.freeChan ch.val with bus := .ok v }
    else .next { s with bus := .ok v }

/-! ### Taking and answering a command -/

/-- Where a command is accepted (R354). -/
inductive ChanRule where
  /-- Every command channel and ring. -/
  | any
  /-- Channel 0 alone. -/
  | ch0
  /-- Channel 1 alone. -/
  | ch1
  /-- The channels and rings of every function. -/
  | fn
  /-- The PF's channels and rings alone. -/
  | pf
  deriving DecidableEq, Repr

/-- A command of the manual: opcode, the Vusta minor version that first has it (R370), where it is accepted, whether it
names a host address that firmware reaches by DMA (R405), and the bits that its table defines of each payload word it
lists in part; the other bits of such a word are reserved (R509). -/
structure CmdSpec where
  op : Nat
  minor : Nat := 0
  chan : ChanRule := .fn
  dma : Bool := false
  used : List (Nat × Nat) := []
  deriving DecidableEq, Repr

/-- Is the command accepted on its path? -/
def ChanRule.admits (r : ChanRule) (c : Cmd) : Bool :=
  match r with
  | .any => true
  | .ch0 => c.via == .mbx 0
  | .ch1 => c.via == .mbx 1
  | .fn => c.fn.isSome
  | .pf => c.fn.isSome && !c.isVf

/-- The paired completion ring of a command ring (R396). -/
def State.pairOf (s : State) (r : Nat) : Nat := r / 16 * 16 + s.rf .RING_CTRL r 19 16

/-- May firmware take this command now? It must be posted, and the control domain's clock runs (R21); a mailbox's message is still in the channel; a ring's
completion ring has room, and the ring is live (R400, R405); with `FENCE`, nothing earlier of the same function waits
(R352). -/
def State.takeable (s : State) (c : Cmd) : Bool :=
  s.vusta.posted.contains c.via && s.pdOn 1
  && (match c.via with
      | .mbx ch => isCmdCh ch.val && (decide (ch.val < 4) || s.full ch.val)
      | .ring r => s.ringLive r.val && s.ringType r.val == 0 && decide (0 < s.ringFree (s.pairOf r.val)))
  && (!c.fence || (s.vusta.posted.takeWhile (· != c.via)).all fun p => pathFn p != c.fn)

/-- Vusta versions of firmware 1.x (R370). -/
abbrev verLo : Nat := 0x0100
abbrev verHi : Nat := 0x0104

/-- Is a reserved bit of a payload word set (step 8 of R509)? -/
def CmdSpec.rsvSet (k : CmdSpec) (c : Cmd) : Bool := k.used.any fun u => c.w u.1 &&& (0xFFFFFFFF - u.2) != 0

/-- Steps 1 to 7 of R509, and of step 8 the reserved fields; while the ROM is halted only staging and activation are served (R449). -/
def generic (k : CmdSpec) (c : Cmd) (s : State) : Nat :=
  let mb : Option Nat := match c.via with | .mbx ch => some ch.val | .ring _ => none
  let exempt := k.op == 0 || k.op == 1 || k.op == 2
  let ver := match c.fn with | some f => (s.fn f).ver | none => verHi
  firstFail [
    ((match mb with | some ch => s.msgEpoch ch != s.txEpoch ch | none => false), BAD_STATE),
    ((match mb with | some ch => s.rb .MBX_STAT ch 26 | none => false), BUSY),
    (c.late, BUSY),
    (s.vusta.shutdown && c.fn.isSome, BUSY),
    (s.rb .TRUST_STAT 0 29 && k.op != 0x0D10 && k.op != 0x0D11, BUSY),
    (decide (8 ≤ c.flags.toNat), BAD_PARAM),
    (!exempt && ver == 0, VERSION),
    (!exempt && decide (ver < verLo + k.minor), UNSUPPORTED),
    (!k.chan.admits c, NOT_OWNER),
    (k.rsvSet c, BAD_PARAM)]

/-- The posted command leaves the list. -/
def State.unpost (s : State) (p : Path) : State :=
  { s with vusta := { s.vusta with posted := s.vusta.posted.erase p } }

/-- The answer to a command (R359, R360, R366, R368), and its copy as SYS_ANSWER (R352). -/
def State.answer (s : State) (k : CmdSpec) (c : Cmd) (code : Nat) (res : List Nat) : State :=
  let r4 := (List.range 4).map fun i => nth res 0 i
  let s := s.unpost c.via
  let s := match c.via with
    | .mbx ch =>
      if ch.val < 4 then
        (s.freeChan ch.val).emit (.sideReply ch.val (([code * 65536 + c.seq.toNat, c.h] ++ r4).map (BitVec.ofNat 32)))
      else
        let s := (List.range 4).foldl (fun s i => s.setReg .MBX_RESP (ch.val * 4 + i) (BitVec.ofNat 32 (nth res 0 i))) s
        let s := s.setReg .MBX_ACK ch.val (putF (putF 0 31 16 code) 7 0 c.seq.toNat)
        (s.freeChan ch.val).intSender ch.val
    | .ring r =>
      let ep := (s.fn (ringFn r.val)).epoch
      let s := s.ringConsume r.val 1
      s.ringPublish (s.pairOf r.val) ([code * 65536 + c.seq.toNat, c.h] ++ r4 ++ [k.op * 65536 + ep * 256, 0])
  match c.event, c.fn with
  | true, some f => s.notify f 0x0080 c.h ([code * 65536 + c.seq.toNat, k.op] ++ r4)
  | _, _ => s

/-- What a command's execution gives: the state, a status, the result words. -/
structure Reply where
  st : State
  code : Nat := 0
  res : List Nat := []
  /-- The state stands although the status is not OK: a part of the work is done and stays done (R452, R463). -/
  keep : Bool := false

/-- The status with which the command is answered if it is refused, 0 if it is executed (R509, R404, R405). -/
def statusOf (k : CmdSpec) (check : Cmd → State → Nat) (c : Cmd) (s : State) : Nat :=
  let g := generic k c s
  if g ≠ 0 then g
  else
    let h := check c s
    if h ≠ 0 then h
    else if k.dma && (match c.fn with | some f => !(s.fn f).bme | none => false) then BAD_STATE
    else if k.dma && !c.dmaOk then BAD_PARAM
    else 0

/-- A command is taken, checked, executed and answered; a command that cannot be taken yet stays posted and nothing
changes (R366, R400). -/
def runCmd (k : CmdSpec) (check : Cmd → State → Nat) (apply : Cmd → State → Reply) (c : Cmd) (s0 : State) : State :=
  let s := s0.advance c.el
  if s.takeable c then
    let code := statusOf k check c s
    if code ≠ 0 then
      s.answer k c code (if k.dma && !c.dmaOk && generic k c s == 0 && check c s == 0 && code == BAD_PARAM then [1] else [])
    else
      let r := apply c s
      if c.dry then s.answer k c r.code []
      else if r.code ≠ 0 then (if r.keep then r.st else s).answer k c r.code r.res
      else r.st.answer k c 0 r.res
  else s

/-- The right of the issuer over an object (R371): another tenant's, or for a VF another function's, is NOT_OWNER, a
dying one BAD_STATE. -/
def ownFail (c : Cmd) (o : Own) : Nat :=
  if c.fn.isSome && (o.fn / 64 != c.tenant || (c.isVf && o.fn != c.fnN)) then NOT_OWNER
  else if o.dying then BAD_STATE
  else 0

/-- Steps 9 to 11 of R509 for a target in a table. -/
def target {α : Type} (c : Cmd) (t : Tbl α) (own : α → Own) (i : Nat) : Nat :=
  match Tbl.find t i with
  | none => BAD_STATE
  | some o => ownFail c (own o)

/-- The first status that is not 0. -/
def firstCode : List Nat → Nat
  | [] => 0
  | x :: r => if x ≠ 0 then x else firstCode r

/-- A condition that must not hold, as a status. -/
def rejectIf (b : Bool) (code : Nat) : Nat := if b then code else 0

/-- The creating function of a new object: its issuer; one made during the issuer's reset is born dying (R411). -/
def newOwn (c : Cmd) (s : State) : Own := { fn := c.fnN, dying := s.inFlr c.fnN }

/-- COMMAND_STALE (R367): after 100 ms a command is answered BUSY without being executed, a stale epoch or a collision
first (R509). -/
def execCommandStale (c : Cmd) (s0 : State) : Host.Outcome State Fault Refusal :=
  let s := s0.advance c.el
  let k : CmdSpec := { op := 0, chan := .any }
  if s.takeable c then .next (s.answer k c (generic k { c with late := true } s) []) else .next s

/-! ### Notifications (R353, R369) -/

/-- A notification as 16 message words. -/
def noteWords (n : Note) (seq : Nat) : List Nat :=
  [n.op * 65536 + seq % 256, n.handle] ++ (List.range 14).map fun i => nth n.words 0 i

/-- The store's key of a destination. -/
def destKey : NoteDest → Nat
  | .mbx ch => noteKeyMbx ch.val
  | .ring r => noteKeyRing r.val

/-- The notification taken from a store, and the store after it: when space frees, one SYS_NOTIFY_LOST for a family
whose notifications were dropped joins the wait. -/
def NoteQ.take (q : NoteQ) : NoteQ :=
  let q := { q with wait := q.wait.drop 1, seq := (q.seq + 1) % 256 }
  match q.dropped with
  | (fam, n) :: r => { q with wait := q.wait ++ [⟨0x0081, fam, [n]⟩], dropped := r }
  | [] => q

/-- NOTIFICATION_POST (R369): one at a time on a channel, once the last was acknowledged; on an event ring while it has
room. -/
def execNotificationPost (dest : NoteDest) (s : State) : Host.Outcome State Fault Refusal :=
  let key := destKey dest
  let q := Tbl.get s.vusta.notes {} key
  match q.wait with
  | [] => .next s
  | n :: _ =>
    let s1 := { s with vusta := { s.vusta with notes := Tbl.set s.vusta.notes key q.take } }
    match dest with
    | .mbx ch =>
      if isNoteCh ch.val && s.rxOn ch.val && !s.full ch.val then
        let ws := noteWords n q.seq
        let s2 := (List.range 16).foldl (fun s i => s.setReg .MBX_MSG (ch.val * 16 + i) (BitVec.ofNat 32 (nth ws 0 i))) s1
        .next (s2.doPost ch)
      else .next s
    | .ring r =>
      if s.ringLive r.val && s.ringType r.val == 2 && decide (0 < s.ringFree r.val) then
        .next (s1.ringPublish r.val (noteWords n q.seq))
      else .next s

/-- MCTP_ENDPOINT_REASSIGN (R363): channel 0's sender epoch increments. -/
def execMctpEndpointReassign (s : State) : Host.Outcome State Fault Refusal :=
  .next (s.setRf .MBX_STAT 0 15 8 (s.txEpoch 0 + 1))

/-- SIDEBAND_MCTP_MESSAGE (R354, R438): MCTP control and PLDM are answered by the management controller; a vendor
message becomes the message of channel 0 or 1. -/
def execSidebandMctpMessage (typ : Byte) (body : List Byte) (s : State) : Host.Outcome State Fault Refusal :=
  if typ = 0x00 then .next (s.emit (.firmware .mctpControl 0 body))
  else if typ = 0x01 then .next (s.emit (.firmware .pldm 0 body))
  else if typ = 0x7F then
    match body with
    | sel :: msg =>
      if 2 ≤ sel.toNat then .next s
      else
        let ch : Fin 64 := if sel = 0 then 0 else 1
        if s.rb .MBX_STAT ch.val 30 = false then .next s
        else if !s.rxOn ch.val then .next (s.wakeReceiver ch.val)
        else
          let ws := bytesToWords 16 msg
          let s1 := (List.range 16).foldl (fun s i => s.setReg .MBX_MSG (ch.val * 16 + i) (nth ws 0 i)) s
          .next (s1.doPost ch)
    | [] => .next s
  else .next s

end Sys2Proof.Machine
end

