-- ==== Sys2Proof/Machine/CoreOps.lean ====
section
/-! DEFINITION. What every core instruction shares (chapter 8): registers, local data memory, address stepping, loop
ends, faults and the frame of one instruction. -/

namespace Sys2Proof.Machine

/-! ### Registers (R239, R240) -/

/-- A general register; g0 reads zero (R239). -/
def Core.gr (k : Core) (r : BitVec 5) : Word := if r = 0 then 0 else Tbl.get k.g 0 r.toNat
/-- Write a general register; a write of g0 is discarded. -/
def Core.setg (k : Core) (r : BitVec 5) (v : Word) : Core := if r = 0 then k else { k with g := Tbl.set k.g r.toNat v }

/-- An odd register number names no pair (R239). -/
def oddPair (r : BitVec 5) : Bool := r.toNat % 2 == 1
/-- Lane `i` of a register pair (R239). -/
def Core.lane (k : Core) (p : BitVec 5) (i : Nat) : Half :=
  let w := if i < 2 then k.gr p else k.gr (p + 1)
  BitVec.ofNat 16 (fld w (16 * (i % 2) + 15) (16 * (i % 2)))
/-- Write four lanes to a register pair. -/
def Core.setLanes (k : Core) (p : BitVec 5) (l : Nat → Half) : Core :=
  (k.setg p (BitVec.ofNat 32 ((l 0).toNat + 65536 * (l 1).toNat))).setg (p + 1) (BitVec.ofNat 32 ((l 2).toNat + 65536 * (l 3).toNat))

/-- Accumulator lane `i` of a0 to a3. -/
def Core.accL (k : Core) (a i : Nat) : Int := (Tbl.get k.acc 0 (4 * a + i)).toInt
/-- Write the four lanes of an accumulator; each is wrapped to 40 bits. -/
def Core.setAcc (k : Core) (a : Nat) (f : Nat → Int) : Core :=
  { k with acc := (List.range 4).foldl (fun t i => Tbl.set t (4 * a + i) (BitVec.ofInt 40 (f i))) k.acc }

def Core.xr (k : Core) (n : Nat) : Half := Tbl.get k.x 0 n
def Core.setx (k : Core) (n : Nat) (v : Half) : Core := { k with x := Tbl.set k.x n v }
/-- Set status flags (R240). -/
def Core.flag (k : Core) (i : Nat) (b : Bool) : Core := if b then { k with st := putB k.st i true } else k

/-- step(xn, m) (R247). -/
def Core.step (k : Core) (n : Nat) (m : Int) : Half :=
  let x : Int := (k.xr n).toNat
  let cl : Int := (Tbl.get k.cl 0 n).toNat
  let cb : Int := (Tbl.get k.cb 0 n).toNat
  if cl = 0 then BitVec.ofInt 16 (x + m)
  else
    let y := x + m
    let y := if cb + cl ≤ y then y - cl else y
    let y := if y < cb then y + cl else y
    BitVec.ofInt 16 y

/-- The address of an L- or VM-format access and the address register after it (R246). -/
def Core.addr (k : Core) (n pm : Nat) (disp : Int) (size : Int) : Nat × Core :=
  match pm with
  | 0 => ((BitVec.ofInt 16 ((k.xr n).toNat + disp)).toNat, k)
  | 1 => ((k.xr n).toNat, k.setx n (k.step n (Tbl.get k.o 0 n).toInt))
  | 2 => ((k.xr n).toNat, k.setx n (k.step n size))
  | _ => ((k.xr n).toNat, k.setx n (k.step n (-size)))

/-! ### Local data memory (R235 to R237, R442) -/

/-- Is this a control core? -/
def isCtl (c : Nat) : Bool := decide (512 ≤ c)

/-- One byte that an L- or VM-format load reads: a media core's LDM with its prefetch slots, or a control core's window of
the control SRAM. -/
def State.ldByte (s : State) (c : Nat) (k : Core) (a : Nat) : Byte :=
  let a := a % 65536
  if isCtl c then Mem.get s.csram (k.win.toNat * 65536 + a)
  else if 0xFF40 ≤ a then 0
  else if 0xFF00 ≤ a then
    let it := Tbl.get k.slots {} ((a - 0xFF00) / 32)
    BitVec.ofNat 8 ((nth it.words 0 (a % 32 / 4)).toNat >>> (8 * (a % 4)))
  else Mem.get k.ldm a

/-- `n` bytes read, lowest first, as a number. -/
def State.ldN (s : State) (c : Nat) (k : Core) (a n : Nat) : Nat := leNat ((List.range n).map fun i => s.ldByte c k (a + i))

/-- Bytes stored by an L- or VM-format store; a store to a prefetch slot or above has no effect. -/
def State.stN (s : State) (c : Nat) (k : Core) (a n v : Nat) : State × Core :=
  let l := (toLe n v).zip ((List.range n).map fun i => (a + i) % 65536)
  if isCtl c then
    ({ s with csram := l.foldl (fun m p => Mem.put m (k.win.toNat * 65536 + p.2) p.1) s.csram }, k)
  else
    (s, { k with ldm := l.foldl (fun m p => if 0xFF00 ≤ p.2 then m else Mem.put m p.2 p.1) k.ldm
                 ldmErr := if n = 8 && a % 8 = 0 then Tbl.del k.ldmErr (a / 8)
                   else l.foldl (fun t p => if Tbl.find t (p.2 / 8) = some false then Tbl.del t (p.2 / 8) else t) k.ldmErr })

/-- The 8-byte units of an access. -/
def units (a n : Nat) : List Nat := if a / 8 = (a + n - 1) / 8 then [a / 8] else [a / 8, (a + n - 1) / 8]

/-- The fault of an access before it happens: ALIGN (R236), then STACK for x7 (R249), then LDM_ECC for a read (R237). -/
def State.ldmFault (_s : State) (c : Nat) (k : Core) (n a align size : Nat) (rd : Bool) : Nat :=
  if a % align ≠ 0 then F_ALIGN
  else if n = 7 ∧ (a < 0xE000 ∨ 0xFF00 ≤ a) then F_STACK
  else if rd && !isCtl c && (units a size).any fun u => Tbl.find k.ldmErr u == some true then F_LDM_ECC
  else 0

/-- A read corrects and counts single-bit errors (R237). -/
def State.scrubLdm (s : State) (c : Nat) (k : Core) (a size : Nat) : State × Core :=
  if isCtl c then (s, k)
  else (units a size).foldl (fun (p : State × Core) u =>
    if Tbl.find p.2.ldmErr u = some false then (p.1.satRf .CORE_ECC c 31 16, { p.2 with ldmErr := Tbl.del p.2.ldmErr u }) else p) (s, k)

/-! ### One instruction -/

/-- What an instruction does to its core. -/
inductive Eff where
  /-- Complete without a taken branch. -/
  | seq (k : Core)
  /-- Continue at an address. -/
  | jump (k : Core) (pc : Word)
  /-- Fault with a cause and a data address; nothing else happens (R245). -/
  | fault (cause addr : Nat)
  /-- Wait: the instruction has no effect yet. -/
  | stay

/-- The innermost active level that ends at `a` and is not in `seen`: the one whose body starts last. -/
def Core.loopAt (k : Core) (a : Word) (seen : List Nat) : Option Nat :=
  ([0, 1, 2].filter fun l => Tbl.get k.act false l && Tbl.get k.le 0 l == a && !seen.contains l).foldl
    (fun (b : Option Nat) l => match b with
      | none => some l
      | some m => if (Tbl.get k.ls 0 m).toNat < (Tbl.get k.ls 0 l).toNat then some l else some m) none

/-- After an instruction at `a` completes without a taken branch (R257). -/
def Core.loopEnd (a : Word) : Nat → List Nat → Core → Core
  | 0, _, k => { k with pc := a + 4 }
  | n + 1, seen, k =>
    match k.loopAt a seen with
    | none => { k with pc := a + 4 }
    | some l =>
      let c := Tbl.get k.lc 0 l
      let c' := if c = 0 then 0 else c - 1
      let k' := { k with lc := Tbl.set k.lc l c' }
      if c' ≠ 0 then { k' with pc := Tbl.get k.ls 0 l }
      else Core.loopEnd a n (l :: seen) { k' with act := Tbl.set k'.act l false }

/-- Does the core run instructions now? A media core runs while an item is in progress, its cluster is ON and no fault has
stopped it; a control core while its domain is ON, no fault or ROM service holds it and, after `wfi`, an enabled
interrupt is pending. -/
def State.coreRuns (s : State) (c : Nat) : Bool :=
  let k := s.core c
  if isCtl c then k.faulted.isNone && !k.inRom && s.pdOn 1 && (!k.waiting || k.ip &&& k.ie != 0)
  else k.running && k.faulted.isNone && s.clOn (c / 8)

/-- A kernel; 0 to 255 are Damilo's and are there from the start. -/
def State.kernel (s : State) (k : Nat) : Option Kernel :=
  match Tbl.find s.disp.kernels k with
  | some x => some x
  | none => if k < 256 then some { own := { fn := 256 }, damilo := true, audio := true, code := 2 ^ 20 } else none

/-- The result type of every meaning. -/
abbrev Res := Host.Outcome State Fault Refusal

/-- The 64-byte line of the image that the core's pc stands in. -/
def Core.line (k : Core) : Nat := k.pc.toNat / 64

/-- Does the fetch at the core's pc fail (R258 FETCH): outside the running kernel's code, or a line of the image that cannot
be read? -/
def State.fetchFails (s : State) (c : Nat) : Bool :=
  let k := s.core c
  !isCtl c && (decide (((s.kernel k.kern).getD {}).code < k.pc.toNat + 4) || k.pc.toNat % 4 != 0 || k.imgErr.contains k.line)

/-- A fetch from a cache line with a parity error fetches the line again and counts it (R258). -/
def State.refetch (s : State) (c : Nat) : State :=
  let k := s.core c
  if !isCtl c && k.icErr.contains k.line then
    (s.setCore c { k with icErr := k.icErr.filter (· != k.line) }).satRf .CORE_ECC c 15 0
  else s

/-- The word at the core's pc, where the model holds the image: a tenant's kernel, whose code follows the 64-byte header
(R285). -/
def State.wordAt (s : State) (c : Nat) : Option Word :=
  let k := s.core c
  if isCtl c then none else ((s.kernel k.kern).getD {}).image[16 + k.pc.toNat / 4]?

/-- An instruction with what firmware is handed at its end left out: what the word at the pc spells. -/
def plain : Instr → Instr
  | .done c _ => .done c none
  | i => i

/-- Core `c` issues instruction `i`, whose effect is `f`. Where the core runs and the word at its pc is known (R241, R242), an
unlisted word is ILLEGAL, a privileged one PRIVILEGED, and an instruction that the word does not spell is no event of the
core. -/
def State.issue (s : State) (c : Fin 516) (i : Instr) (f : State → Res) : Res :=
  if !s.coreRuns c.val || s.fetchFails c.val then f s
  else
    let t := s.refetch c.val
    match s.wordAt c.val with
    | none => f t
    | some w => match decodeCore (isCtl c.val) c w with
      | .run j => if plain i = j then f t else .next s
      | .illegal => .next (t.coreFault c.val F_ILLEGAL 0)
      | .privileged => .next (t.coreFault c.val F_PRIVILEGED 0)

/-- One instruction on a core: nothing happens while the core does not run; a fault leaves only its record. -/
def State.runCore (s : State) (c : Nat) (f : State → Core → State × Eff) : State :=
  if !s.coreRuns c then s
  else if s.fetchFails c then s.coreFault c F_FETCH (s.core c).pc.toNat
  else
    let k := { s.core c with waiting := false }
    match f s k with
    | (s', .seq k') => s'.setCore c (Core.loopEnd k.pc 3 [] k')
    | (s', .jump k' t) => s'.setCore c { k' with pc := t }
    | (_, .fault cause addr) => s.coreFault c cause addr
    | (s', .stay) => s'

/-- An instruction that touches only its core. -/
def State.runK (s : State) (c : Nat) (f : Core → Eff) : State := s.runCore c fun s k => (s, f k)

/-- An instruction that writes one general register and goes on. -/
def State.alu (s : State) (c : Nat) (d : BitVec 5) (f : Core → Word) : State := s.runK c fun k => .seq (k.setg d (f k))

/-- The cycle counter of a core (R263, R264): cycles counted while its cluster's clock ran, 80 a SAFE_SLOW tick on a media
core (2.0 GHz), 72 on a control core (1.8 GHz). -/
def State.cyc (s : State) (c : Nat) : Nat :=
  let q := Tbl.get s.power.cyc {} (if isCtl c then 64 else c / 8)
  (q.acc + match q.since with
    | some t => (if isCtl c then 72 else 80) * (s.power.ticks - t)
    | none => 0) % 2 ^ 64

end Sys2Proof.Machine
end

