-- ==== Sys2Proof/Machine/CoreAlu.lean ====
section
/-! DEFINITION. The arithmetic, branch and control instructions of the cores (R242, R256, R257). -/

namespace Sys2Proof.Machine

/-- Arithmetic shift right. -/
def sarW (w : Word) (n : Nat) : Word := w.sshiftRight n

/-- add (R242). -/
def execAdd (c : Fin 516) (d x y : BitVec 5) (s : State) : Res :=
  s.issue c (.add c d x y) fun s => .next (s.alu c.val d fun k => k.gr x + k.gr y)
/-- sub (R242). -/
def execSub (c : Fin 516) (d x y : BitVec 5) (s : State) : Res :=
  s.issue c (.sub c d x y) fun s => .next (s.alu c.val d fun k => k.gr x - k.gr y)
/-- and (R242). -/
def execAnd (c : Fin 516) (d x y : BitVec 5) (s : State) : Res :=
  s.issue c (.and c d x y) fun s => .next (s.alu c.val d fun k => k.gr x &&& k.gr y)
/-- or (R242). -/
def execOr (c : Fin 516) (d x y : BitVec 5) (s : State) : Res :=
  s.issue c (.or c d x y) fun s => .next (s.alu c.val d fun k => k.gr x ||| k.gr y)
/-- xor (R242). -/
def execXor (c : Fin 516) (d x y : BitVec 5) (s : State) : Res :=
  s.issue c (.xor c d x y) fun s => .next (s.alu c.val d fun k => k.gr x ^^^ k.gr y)
/-- shl by sh (R242). -/
def execShl (c : Fin 516) (d x sh : BitVec 5) (s : State) : Res :=
  s.issue c (.shl c d x sh) fun s => .next (s.alu c.val d fun k => k.gr x <<< sh.toNat)
/-- shr by sh, logical (R242). -/
def execShr (c : Fin 516) (d x sh : BitVec 5) (s : State) : Res :=
  s.issue c (.shr c d x sh) fun s => .next (s.alu c.val d fun k => k.gr x >>> sh.toNat)
/-- sar by sh, arithmetic (R242). -/
def execSar (c : Fin 516) (d x sh : BitVec 5) (s : State) : Res :=
  s.issue c (.sar c d x sh) fun s => .next (s.alu c.val d fun k => sarW (k.gr x) sh.toNat)
/-- shlv: the count is b[4:0] (R242). -/
def execShlv (c : Fin 516) (d x y : BitVec 5) (s : State) : Res :=
  s.issue c (.shlv c d x y) fun s => .next (s.alu c.val d fun k => k.gr x <<< fld (k.gr y) 4 0)
/-- shrv (R242). -/
def execShrv (c : Fin 516) (d x y : BitVec 5) (s : State) : Res :=
  s.issue c (.shrv c d x y) fun s => .next (s.alu c.val d fun k => k.gr x >>> fld (k.gr y) 4 0)
/-- sarv (R242). -/
def execSarv (c : Fin 516) (d x y : BitVec 5) (s : State) : Res :=
  s.issue c (.sarv c d x y) fun s => .next (s.alu c.val d fun k => sarW (k.gr x) (fld (k.gr y) 4 0))

/-- A truth value in a register. -/
def wordOf (b : Bool) : Word := if b then 1 else 0

/-- cmplt, signed (R242). -/
def execCmplt (c : Fin 516) (d x y : BitVec 5) (s : State) : Res :=
  s.issue c (.cmplt c d x y) fun s => .next (s.alu c.val d fun k => wordOf ((k.gr x).slt (k.gr y)))
/-- cmpltu, unsigned (R242). -/
def execCmpltu (c : Fin 516) (d x y : BitVec 5) (s : State) : Res :=
  s.issue c (.cmpltu c d x y) fun s => .next (s.alu c.val d fun k => wordOf ((k.gr x).ult (k.gr y)))
/-- min (R242), of the signed values. -/
def execMin (c : Fin 516) (d x y : BitVec 5) (s : State) : Res :=
  s.issue c (.min c d x y) fun s => .next (s.alu c.val d fun k => if (k.gr x).slt (k.gr y) then k.gr x else k.gr y)
/-- max (R242), of the signed values. -/
def execMax (c : Fin 516) (d x y : BitVec 5) (s : State) : Res :=
  s.issue c (.max c d x y) fun s => .next (s.alu c.val d fun k => if (k.gr x).slt (k.gr y) then k.gr y else k.gr x)
/-- abs (R242), modulo 2^32. -/
def execAbs (c : Fin 516) (d x : BitVec 5) (s : State) : Res :=
  s.issue c (.abs c d x) fun s => .next (s.alu c.val d fun k => if (k.gr x).slt 0 then -(k.gr x) else k.gr x)
/-- mul, the low 32 bits (R242). -/
def execMul (c : Fin 516) (d x y : BitVec 5) (s : State) : Res :=
  s.issue c (.mul c d x y) fun s => .next (s.alu c.val d fun k => k.gr x * k.gr y)
/-- mulhi, the high 32 bits of the signed product (R242). -/
def execMulhi (c : Fin 516) (d x y : BitVec 5) (s : State) : Res :=
  s.issue c (.mulhi c d x y) fun s =>
    .next (s.alu c.val d fun k => BitVec.ofInt 32 ((k.gr x).toInt * (k.gr y).toInt / 4294967296))
/-- addk, imm16 sign-extended (R242). -/
def execAddk (c : Fin 516) (d x : BitVec 5) (imm : Half) (s : State) : Res :=
  s.issue c (.addk c d x imm) fun s => .next (s.alu c.val d fun k => k.gr x + imm.signExtend 32)
/-- ork, imm16 zero-extended (R242). -/
def execOrk (c : Fin 516) (d x : BitVec 5) (imm : Half) (s : State) : Res :=
  s.issue c (.ork c d x imm) fun s => .next (s.alu c.val d fun k => k.gr x ||| imm.zeroExtend 32)
/-- andk, imm16 zero-extended (R242). -/
def execAndk (c : Fin 516) (d x : BitVec 5) (imm : Half) (s : State) : Res :=
  s.issue c (.andk c d x imm) fun s => .next (s.alu c.val d fun k => k.gr x &&& imm.zeroExtend 32)
/-- cmpltk, signed against imm16 sign-extended (R242). -/
def execCmpltk (c : Fin 516) (d x : BitVec 5) (imm : Half) (s : State) : Res :=
  s.issue c (.cmpltk c d x imm) fun s => .next (s.alu c.val d fun k => wordOf ((k.gr x).slt (imm.signExtend 32)))
/-- movh: imm16 in the upper half, zero below (R242). -/
def execMovh (c : Fin 516) (d : BitVec 5) (imm : Half) (s : State) : Res :=
  s.issue c (.movh c d imm) fun s => .next (s.alu c.val d fun _ => imm.zeroExtend 32 <<< 16)

/-- A branch: the offset counts instructions from the branch (R241). -/
def branch (s : State) (c : Nat) (ofs : Half) (p : Core → Bool) : State :=
  s.runK c fun k => if p k then .jump k (k.pc + ofs.signExtend 32 * 4) else .seq k

/-- br.eq (R242). -/
def execBrEq (c : Fin 516) (x y : BitVec 5) (ofs : Half) (s : State) : Res :=
  s.issue c (.brEq c x y ofs) fun s => .next (branch s c.val ofs fun k => k.gr x == k.gr y)
/-- br.ne (R242). -/
def execBrNe (c : Fin 516) (x y : BitVec 5) (ofs : Half) (s : State) : Res :=
  s.issue c (.brNe c x y ofs) fun s => .next (branch s c.val ofs fun k => k.gr x != k.gr y)
/-- br.lt, signed when U is 0, unsigned when it is 1 (R242). -/
def execBrLt (c : Fin 516) (x y : BitVec 5) (u : Bool) (ofs : Half) (s : State) : Res :=
  s.issue c (.brLt c x y u ofs) fun s =>
    .next (branch s c.val ofs fun k => if u then (k.gr x).ult (k.gr y) else (k.gr x).slt (k.gr y))
/-- br.ge (R242). -/
def execBrGe (c : Fin 516) (x y : BitVec 5) (u : Bool) (ofs : Half) (s : State) : Res :=
  s.issue c (.brGe c x y u ofs) fun s =>
    .next (branch s c.val ofs fun k => if u then !(k.gr x).ult (k.gr y) else !(k.gr x).slt (k.gr y))
/-- call: the next instruction's address to g30, and jump (R242). -/
def execCall (c : Fin 516) (ofs : BitVec 27) (s : State) : Res :=
  s.issue c (.call c ofs) fun s => .next (s.runK c.val fun k => .jump (k.setg 30 (k.pc + 4)) (k.pc + ofs.signExtend 32 * 4))
/-- jmpr (R242). -/
def execJmpr (c : Fin 516) (x : BitVec 5) (s : State) : Res :=
  s.issue c (.jmpr c x) fun s => .next (s.runK c.val fun k => .jump k (k.gr x))

/-! ### Special registers (R240) -/

/-- The value that `mfs` reads, and the core after it (the read of 0x04 latches the high half of cyc). -/
def Core.mfs (k : Core) (c cyc n : Nat) : Word × Core :=
  let z (h : Half) : Word := h.zeroExtend 32
  if n = 0x00 then (k.st, k)
  else if n = 0x01 then (k.sv, k)
  else if n = 0x02 then (putF (putF 0 31 30 k.tenant) 8 0 c, k)
  else if n = 0x04 then (BitVec.ofNat 32 cyc, { k with cycHi := BitVec.ofNat 32 (cyc / 2 ^ 32) })
  else if n = 0x05 then (k.cycHi, k)
  else if 0x10 ≤ n ∧ n ≤ 0x17 then (z (k.xr (n - 0x10)), k)
  else if 0x18 ≤ n ∧ n ≤ 0x1F then ((Tbl.get k.o 0 (n - 0x18)).signExtend 32, k)
  else if 0x20 ≤ n ∧ n ≤ 0x27 then (z (Tbl.get k.cb 0 (n - 0x20)), k)
  else if 0x28 ≤ n ∧ n ≤ 0x2F then (z (Tbl.get k.cl 0 (n - 0x28)), k)
  else if 0x30 ≤ n ∧ n ≤ 0x32 then (z (Tbl.get k.lc 0 (n - 0x30)), k)
  else if 0x34 ≤ n ∧ n ≤ 0x36 then (Tbl.get k.ls 0 (n - 0x34), k)
  else if 0x38 ≤ n ∧ n ≤ 0x3A then (Tbl.get k.le 0 (n - 0x38), k)
  else (0, k)

/-- mfs (R240). -/
def execMfs (c : Fin 516) (d : BitVec 5) (n : BitVec 6) (s : State) : Res :=
  s.issue c (.mfs c d n) fun s =>
    .next (s.runCore c.val fun s k => let r := k.mfs c.val (s.cyc c.val) n.toNat; (s, .seq (r.2.setg d r.1)))

/-- What `mts` does: written, ignored, or ILLEGAL for an unlisted number (R240, R258). -/
def Core.mts (k : Core) (n : Nat) (v : Word) : Eff :=
  let h : Half := v.truncate 16
  if n = 0x00 then .seq { k with st := k.st &&& ~~~ (v &&& 7) }
  else if n = 0x01 then .seq { k with sv := v }
  else if n = 0x02 ∨ n = 0x04 ∨ n = 0x05 then .seq k
  else if 0x10 ≤ n ∧ n ≤ 0x17 then .seq (k.setx (n - 0x10) h)
  else if 0x18 ≤ n ∧ n ≤ 0x1F then .seq { k with o := Tbl.set k.o (n - 0x18) h }
  else if 0x20 ≤ n ∧ n ≤ 0x27 then .seq { k with cb := Tbl.set k.cb (n - 0x20) h }
  else if 0x28 ≤ n ∧ n ≤ 0x2F then .seq { k with cl := Tbl.set k.cl (n - 0x28) h }
  else if 0x30 ≤ n ∧ n ≤ 0x32 then .seq { k with lc := Tbl.set k.lc (n - 0x30) h }
  else if (0x34 ≤ n ∧ n ≤ 0x36) ∨ (0x38 ≤ n ∧ n ≤ 0x3A) then .seq k
  else .fault F_ILLEGAL 0

/-- mts (R240). -/
def execMts (c : Fin 516) (n : BitVec 6) (x : BitVec 5) (s : State) : Res :=
  s.issue c (.mts c n x) fun s => .next (s.runK c.val fun k => k.mts n.toNat (k.gr x))

/-! ### Loops (R256, R257) -/

/-- Does the body [a, b] lie wholly within every active level's body? -/
def Core.nests (k : Core) (a b : Word) : Bool :=
  [0, 1, 2].all fun j => !Tbl.get k.act false j
    || (decide ((Tbl.get k.ls 0 j).toNat ≤ a.toNat) && decide (b.toNat ≤ (Tbl.get k.le 0 j).toNat))

/-- loop (R256). -/
def execLoop (c : Fin 516) (l : BitVec 2) (src : Bool) (count : BitVec 11) (x : BitVec 5) (stop : BitVec 12) (s : State) : Res :=
  s.issue c (.loop c l src count x stop) fun s =>
    .next (s.runK c.val fun k =>
      let a := k.pc + 4
      let b := k.pc + stop.zeroExtend 32 * 4
      if l = 3 ∨ stop = 0 then .fault F_ILLEGAL 0
      else if Tbl.get k.act false l.toNat || !k.nests a b then .fault F_LOOP_NEST 0
      else
        let n : Half := if src then (k.gr x).truncate 16 else count.zeroExtend 16
        let k' := { k with lc := Tbl.set k.lc l.toNat n, ls := Tbl.set k.ls l.toNat a, le := Tbl.set k.le l.toNat b }
        if n = 0 then .jump k' (b + 4) else .jump { k' with act := Tbl.set k'.act l.toNat true } a)

/-- lbrk ends a level at once (R257). -/
def execLbrk (c : Fin 516) (l : BitVec 5) (s : State) : Res :=
  s.issue c (.lbrk c l) fun s =>
    .next (s.runK c.val fun k =>
      if 3 ≤ l.toNat then .fault F_ILLEGAL 0 else .seq { k with act := Tbl.set k.act l.toNat false })

/-! ### Address registers (R248) -/

/-- setx (R248). -/
def execSetx (c : Fin 516) (n : BitVec 3) (imm : Half) (s : State) : Res :=
  s.issue c (.setx c n imm) fun s => .next (s.runK c.val fun k => .seq (k.setx n.toNat imm))
/-- seto (R248). -/
def execSeto (c : Fin 516) (n : BitVec 3) (imm : Half) (s : State) : Res :=
  s.issue c (.seto c n imm) fun s => .next (s.runK c.val fun k => .seq { k with o := Tbl.set k.o n.toNat imm })
/-- setcb (R248). -/
def execSetcb (c : Fin 516) (n : BitVec 3) (imm : Half) (s : State) : Res :=
  s.issue c (.setcb c n imm) fun s => .next (s.runK c.val fun k => .seq { k with cb := Tbl.set k.cb n.toNat imm })
/-- setcl (R248). -/
def execSetcl (c : Fin 516) (n : BitVec 3) (imm : Half) (s : State) : Res :=
  s.issue c (.setcl c n imm) fun s => .next (s.runK c.val fun k => .seq { k with cl := Tbl.set k.cl n.toNat imm })
/-- addx (R248): one step by a signed immediate. -/
def execAddx (c : Fin 516) (n : BitVec 3) (imm : Half) (s : State) : Res :=
  s.issue c (.addx c n imm) fun s => .next (s.runK c.val fun k => .seq (k.setx n.toNat (k.step n.toNat imm.toInt)))
/-- movx (R248). -/
def execMovx (c : Fin 516) (n : BitVec 3) (x : BitVec 5) (s : State) : Res :=
  s.issue c (.movx c n x) fun s => .next (s.runK c.val fun k => .seq (k.setx n.toNat ((k.gr x).truncate 16)))

/-! ### Loads and stores of the LDM (R246, R249) -/

/-- One L-format load of `size` bytes into register `r`; `put` says what the bytes become. -/
def loadL (s : State) (c : Nat) (r : BitVec 5) (n : BitVec 3) (pm : BitVec 2) (disp : Half) (size : Nat)
    (put : Core → Nat → Core) : State :=
  s.runCore c fun s k =>
    if (size = 8 && oddPair r) || (pm != 0 && disp != 0) then (s, .fault F_ILLEGAL 0)
    else
      let (a, k1) := k.addr n.toNat pm.toNat disp.toInt size
      let e := s.ldmFault c k n.toNat a size size true
      if e ≠ 0 then (s, .fault e a)
      else
        let (s1, k2) := s.scrubLdm c k1 a size
        (s1, .seq (put k2 (s.ldN c k a size)))

/-- One L-format store of `size` bytes. -/
def storeL (s : State) (c : Nat) (r : BitVec 5) (n : BitVec 3) (pm : BitVec 2) (disp : Half) (size : Nat)
    (val : Core → Nat) : State :=
  s.runCore c fun s k =>
    if (size = 8 && oddPair r) || (pm != 0 && disp != 0) then (s, .fault F_ILLEGAL 0)
    else
      let (a, k1) := k.addr n.toNat pm.toNat disp.toInt size
      let e := s.ldmFault c k n.toNat a size size false
      if e ≠ 0 then (s, .fault e a)
      else
        let (s1, k2) := s.stN c k1 a size (val k)
        (s1, .seq k2)

/-- ld.h, sign-extended (R246). -/
def execLdH (c : Fin 516) (r : BitVec 5) (n : BitVec 3) (pm : BitVec 2) (disp : Half) (s : State) : Res :=
  s.issue c (.ldH c r n pm disp) fun s =>
    .next (loadL s c.val r n pm disp 2 fun k v => k.setg r ((BitVec.ofNat 16 v).signExtend 32))
/-- ld.hu, zero-extended (R246). -/
def execLdHu (c : Fin 516) (r : BitVec 5) (n : BitVec 3) (pm : BitVec 2) (disp : Half) (s : State) : Res :=
  s.issue c (.ldHu c r n pm disp) fun s => .next (loadL s c.val r n pm disp 2 fun k v => k.setg r (BitVec.ofNat 32 v))
/-- ld.w (R246). -/
def execLdW (c : Fin 516) (r : BitVec 5) (n : BitVec 3) (pm : BitVec 2) (disp : Half) (s : State) : Res :=
  s.issue c (.ldW c r n pm disp) fun s => .next (loadL s c.val r n pm disp 4 fun k v => k.setg r (BitVec.ofNat 32 v))
/-- ld.d, a register pair (R246). -/
def execLdD (c : Fin 516) (r : BitVec 5) (n : BitVec 3) (pm : BitVec 2) (disp : Half) (s : State) : Res :=
  s.issue c (.ldD c r n pm disp) fun s =>
    .next (loadL s c.val r n pm disp 8 fun k v => (k.setg r (BitVec.ofNat 32 v)).setg (r + 1) (BitVec.ofNat 32 (v / 2 ^ 32)))
/-- st.h (R246). -/
def execStH (c : Fin 516) (r : BitVec 5) (n : BitVec 3) (pm : BitVec 2) (disp : Half) (s : State) : Res :=
  s.issue c (.stH c r n pm disp) fun s => .next (storeL s c.val r n pm disp 2 fun k => (k.gr r).toNat % 65536)
/-- st.w (R246). -/
def execStW (c : Fin 516) (r : BitVec 5) (n : BitVec 3) (pm : BitVec 2) (disp : Half) (s : State) : Res :=
  s.issue c (.stW c r n pm disp) fun s => .next (storeL s c.val r n pm disp 4 fun k => (k.gr r).toNat)
/-- st.d (R246). -/
def execStD (c : Fin 516) (r : BitVec 5) (n : BitVec 3) (pm : BitVec 2) (disp : Half) (s : State) : Res :=
  s.issue c (.stD c r n pm disp) fun s =>
    .next (storeL s c.val r n pm disp 8 fun k => (k.gr r).toNat + 2 ^ 32 * (k.gr (r + 1)).toNat)

end Sys2Proof.Machine
end

