-- ==== Sys2Proof/Machine/CoreVec.lean ====
section
/-! DEFINITION. The vector multiply-accumulate and add-compare-select instructions (R253 to R255). -/

namespace Sys2Proof.Machine

/-- rnd(v, sh): halves round towards +∞ (R253). -/
def rndV (v : Int) (sh : Nat) : Int := if sh = 0 then v else (v + 2 ^ (sh - 1)) / 2 ^ sh

/-- Does a clamp to `n` bits change the value? -/
def clamps (n : Nat) (v : Int) : Bool := satI n v != v

/-- Does a value wrap past 40 bits? -/
def wraps40 (v : Int) : Bool := (BitVec.ofInt 40 v).toInt != v

/-- Four lanes read from the LDM at an address. -/
def State.lanesAt (s : State) (c : Nat) (k : Core) (a : Nat) (i : Nat) : Int :=
  (BitVec.ofNat 16 (s.ldN c k (a + 2 * i) 2)).toInt

/-- An LDM vector operand: its lanes, the core after post-modification, or the fault. -/
def State.vmRead (s : State) (c : Nat) (k : Core) (n pm : Nat) : Nat × Nat × Core :=
  let (a, k1) := k.addr n pm 0 8
  (s.ldmFault c k n a 2 8 true, a, k1)

/-- An instruction that sets an accumulator from two operand vectors (VR or VM form). -/
def vecMac (s : State) (c : Nat) (acc : Nat) (src : VSrc2) (f : Int → Int → Int → Int) (aov : Bool) : State :=
  s.runCore c fun s k =>
    let fin (s : State) (k : Core) (S T : Nat → Int) : State × Eff :=
      let v : Nat → Int := fun i => f (k.accL acc i) (S i) (T i)
      let k1 := k.setAcc acc v
      (s, .seq (if aov then k1.flag 2 ((List.range 4).any fun i => wraps40 (v i)) else k1))
    match src with
    | .vr gs gt =>
      if oddPair gs || oddPair gt then (s, .fault F_ILLEGAL 0)
      else fin s k (fun i => (k.lane gs i).toInt) (fun i => (k.lane gt i).toInt)
    | .vm xA pmA xB pmB =>
      let (e1, a1, k1) := s.vmRead c k xA.toNat pmA.toNat
      if e1 ≠ 0 then (s, .fault e1 a1)
      else
        let (e2, a2, k2) := s.vmRead c k1 xB.toNat pmB.toNat
        if e2 ≠ 0 then (s, .fault e2 a2)
        else
          let (s1, k3) := s.scrubLdm c k2 a1 8
          let (s2, k4) := s1.scrubLdm c k3 a2 8
          fin s2 k4 (s.lanesAt c k a1) (s.lanesAt c k a2)

/-- vclr (R253). -/
def execVclr (c : Fin 516) (acc : BitVec 2) (s : State) : Res :=
  s.issue c (.vclr c acc) fun s => .next (s.runK c.val fun k => .seq (k.setAcc acc.toNat fun _ => 0))
/-- vmpy (R253). -/
def execVmpy (c : Fin 516) (acc : BitVec 2) (src : VSrc2) (s : State) : Res :=
  s.issue c (.vmpy c acc src) fun s => .next (vecMac s c.val acc.toNat src (fun _ x y => x * y) false)
/-- vmac (R253, R254). -/
def execVmac (c : Fin 516) (acc : BitVec 2) (src : VSrc2) (s : State) : Res :=
  s.issue c (.vmac c acc src) fun s => .next (vecMac s c.val acc.toNat src (fun a x y => a + x * y) true)
/-- vmsu (R253, R254). -/
def execVmsu (c : Fin 516) (acc : BitVec 2) (src : VSrc2) (s : State) : Res :=
  s.issue c (.vmsu c acc src) fun s => .next (vecMac s c.val acc.toNat src (fun a x y => a - x * y) true)

/-- vld (R253): sh 24 to 31 is outside the listed range. -/
def execVld (c : Fin 516) (acc : BitVec 2) (src : VSrc1) (sh : BitVec 5) (s : State) : Res :=
  s.issue c (.vld c acc src sh) fun s =>
    .next (s.runCore c.val fun s k =>
      if 23 < sh.toNat then (s, .fault F_ILLEGAL 0)
      else match src with
      | .vr g =>
        if oddPair g then (s, .fault F_ILLEGAL 0)
        else (s, .seq (k.setAcc acc.toNat fun i => (k.lane g i).toInt * 2 ^ sh.toNat))
      | .vm x pm =>
        let (e, a, k1) := s.vmRead c.val k x.toNat pm.toNat
        if e ≠ 0 then (s, .fault e a)
        else
          let (s1, k2) := s.scrubLdm c.val k1 a 8
          (s1, .seq (k2.setAcc acc.toNat fun i => s.lanesAt c.val k a i * 2 ^ sh.toNat)))

/-- vst (R253): rounded and clamped lanes to a register pair or an LDM vector. -/
def execVst (c : Fin 516) (acc : BitVec 2) (dst : VSrc1) (sh : BitVec 5) (s : State) : Res :=
  s.issue c (.vst c acc dst sh) fun s =>
    .next (s.runCore c.val fun s k =>
      let r : Nat → Int := fun i => rndV (k.accL acc.toNat i) sh.toNat
      let v : Nat → Half := fun i => BitVec.ofInt 16 (satI 16 (r i))
      let cl := (List.range 4).any fun i => clamps 16 (r i)
      match dst with
      | .vr g => if oddPair g then (s, .fault F_ILLEGAL 0) else (s, .seq ((k.setLanes g v).flag 0 cl))
      | .vm x pm =>
        let (a, k1) := k.addr x.toNat pm.toNat 0 8
        let e := s.ldmFault c.val k x.toNat a 2 8 false
        if e ≠ 0 then (s, .fault e a)
        else
          let n := (v 0).toNat + 2 ^ 16 * (v 1).toNat + 2 ^ 32 * (v 2).toNat + 2 ^ 48 * (v 3).toNat
          let (s1, k2) := s.stN c.val k1 a 8 n
          (s1, .seq (k2.flag 0 cl)))

/-- vred (R253). -/
def execVred (c : Fin 516) (acc : BitVec 2) (d sh : BitVec 5) (s : State) : Res :=
  s.issue c (.vred c acc d sh) fun s =>
    .next (s.runK c.val fun k =>
      let t := rndV (k.accL acc.toNat 0 + k.accL acc.toNat 1 + k.accL acc.toNat 2 + k.accL acc.toNat 3) sh.toNat
      .seq ((k.setg d (BitVec.ofInt 32 (satI 32 t))).flag 0 (clamps 32 t)))
/-- vext (R253). -/
def execVext (c : Fin 516) (acc : BitVec 2) (d : BitVec 5) (ln : BitVec 2) (sh : BitVec 5) (s : State) : Res :=
  s.issue c (.vext c acc d ln sh) fun s =>
    .next (s.runK c.val fun k =>
      let t := rndV (k.accL acc.toNat ln.toNat) sh.toNat
      .seq ((k.setg d (BitVec.ofInt 32 (satI 32 t))).flag 0 (clamps 32 t)))

/-- Lane-wise saturating arithmetic on register pairs. -/
def vecAdd (s : State) (c : Nat) (d a b : BitVec 5) (f : Int → Int → Int) : State :=
  s.runK c fun k =>
    if oddPair d || oddPair a || oddPair b then .fault F_ILLEGAL 0
    else
      let r : Nat → Int := fun i => f (k.lane a i).toInt (k.lane b i).toInt
      .seq ((k.setLanes d fun i => BitVec.ofInt 16 (satI 16 (r i))).flag 1 ((List.range 4).any fun i => clamps 16 (r i)))

/-- vadd (R253). -/
def execVadd (c : Fin 516) (d a b : BitVec 5) (s : State) : Res :=
  s.issue c (.vadd c d a b) fun s => .next (vecAdd s c.val d a b (· + ·))
/-- vsub (R253). -/
def execVsub (c : Fin 516) (d a b : BitVec 5) (s : State) : Res :=
  s.issue c (.vsub c d a b) fun s => .next (vecAdd s c.val d a b (· - ·))

/-- Add-compare-select on four lanes (R255); `pick1 m0 m1` says that m1 is selected. -/
def vecAcs (s : State) (c : Nat) (d gs gt gb : BitVec 5) (pick1 : Int → Int → Bool) : State :=
  s.runK c fun k =>
    if oddPair d || oddPair gs || oddPair gt || oddPair gb then .fault F_ILLEGAL 0
    else
      let p0 : Nat → Int := fun i => (k.lane gs i).toInt + (k.lane gb i).toInt
      let p1 : Nat → Int := fun i => (k.lane gt i).toInt - (k.lane gb i).toInt
      let m0 : Nat → Int := fun i => satI 16 (p0 i)
      let m1 : Nat → Int := fun i => satI 16 (p1 i)
      let bitAt : Nat → Bool := fun i => pick1 (m0 i) (m1 i)
      let v : Nat → Half := fun i => BitVec.ofInt 16 (if bitAt i then m1 i else m0 i)
      let dec := b2n (bitAt 0) + 2 * b2n (bitAt 1) + 4 * b2n (bitAt 2) + 8 * b2n (bitAt 3)
      let sat := (List.range 4).any fun i => clamps 16 (p0 i) || clamps 16 (p1 i)
      .seq (({ k.setLanes d v with sv := (k.sv <<< 4) ||| BitVec.ofNat 32 dec }).flag 1 sat)

/-- vacsx selects the larger; equal values select m0 (R255). -/
def execVacsx (c : Fin 516) (d gs gt gb : BitVec 5) (s : State) : Res :=
  s.issue c (.vacsx c d gs gt gb) fun s => .next (vecAcs s c.val d gs gt gb fun m0 m1 => decide (m0 < m1))
/-- vacsn selects the smaller (R255). -/
def execVacsn (c : Fin 516) (d gs gt gb : BitVec 5) (s : State) : Res :=
  s.issue c (.vacsn c d gs gt gb) fun s => .next (vecAcs s c.val d gs gt gb fun m0 m1 => decide (m1 < m0))

end Sys2Proof.Machine
end

