-- ==== Sys2Proof/Machine/NetOps.lean ====
section
/-! DEFINITION. Payload storage (R19, R67), token buckets (R82, R90) and Loupe rings (R104). -/

namespace Sys2Proof.Machine

/-- Change the packet plane. -/
def State.updNet (s : State) (f : Net → Net) : State := { s with net := f s.net }

/-- A Strata counter (R73). -/
def State.cntStrata (s : State) (k : Nat) (n : Nat := 1) : State := s.bump .STRATA_CNT_LO k n
/-- A counter of an egress port (R107). -/
def State.cntEgs (s : State) (port k : Nat) (n : Nat := 1) : State := s.bump .EGS_CNT_LO (8 * port + k) n

abbrev C_FWD_PKTS : Nat := 0
abbrev C_DROP_LAYER : Nat := 1
abbrev C_DROP_LATE : Nat := 2
abbrev C_DROP_PORT_DOWN : Nat := 3
abbrev C_DROP_NO_BUFFER : Nat := 4
abbrev C_UNKNOWN_SSRC : Nat := 5
abbrev C_NO_LEG : Nat := 6
abbrev C_FRAG : Nat := 7
abbrev C_BAD_CSUM : Nat := 8
abbrev C_SWITCH_UP : Nat := 9
abbrev C_SWITCH_DOWN : Nat := 10
abbrev C_CONC_HOLDS : Nat := 11
abbrev C_TOLKU_DROP : Nat := 12
abbrev C_SPILLED : Nat := 13
abbrev C_TGT_REJECT : Nat := 14
abbrev C_KEY_WANTED : Nat := 15

/-! ### Payloads -/

/-- Cells of a payload of `n` bytes. -/
def cellsOf (n : Nat) : Nat := cdiv n 256

/-- Bytes of the spill region (`STRATA_SPILL_CFG.SIZE`). -/
def State.spillSize (s : State) : Nat := min (s.rf .STRATA_SPILL_CFG 0 31 24) 128 * 2 ^ 26

/-- `STRATA_BUF_STAT` follows the storage. -/
def State.bufStat (s : State) : State :=
  let rsv := s.rf .STRATA_AUDIO_RSV 0 18 0
  let wm := s.rf .STRATA_SPILL_CFG 0 18 0
  let w := putF 0 18 0 s.net.freeCells
  let w := putB w 31 (decide (s.net.freeCells - rsv < wm))
  s.setReg .STRATA_BUF_STAT 0 (putB w 30 (decide (s.spillSize ≤ s.net.spillUsed)))

/-- The lowest address from `a` on where `n` bytes meet none of the ranges (start, length), which rise. -/
def firstFit : Nat → Nat → List (Nat × Nat) → Nat
  | a, _, [] => a
  | a, n, (b, l) :: r => if a + n ≤ b then a else firstFit (max a (b + l)) n r

/-- The contiguous address at which a payload of `n` bytes is presented: the lowest that is free in packet SRAM, or in the
spill region. -/
def State.payloadAddr (s : State) (spill : Bool) (n : Nat) : Nat :=
  let base := if spill then s.rf .STRATA_SPILL_BASE 0 18 0 * 2 ^ 21 else 0x1008000000
  let used := s.net.payloads.foldl (fun t kv =>
    if kv.2.spill = spill then Tbl.set t kv.2.addr (cellsOf kv.2.bytes.length * 256) else t) []
  let a := firstFit base (cellsOf n * 256) used
  if !spill && decide (0x100C000000 < a + n) then base else a

/-- Does a payload of `n` bytes find a contiguous chain of cells in the spill region (R67)? -/
def State.spillFits (s : State) (n : Nat) : Bool :=
  decide (s.payloadAddr true n + 256 * cellsOf n ≤ s.rf .STRATA_SPILL_BASE 0 18 0 * 2 ^ 21 + s.spillSize) && s.spillSize != 0

/-- Where a payload goes (R67): `some false` packet SRAM, `some true` the spill region, `none` no room. -/
def State.placePayload (s : State) (audio : Bool) (n : Nat) : Option Bool :=
  let rsv := s.rf .STRATA_AUDIO_RSV 0 18 0
  let wm := s.rf .STRATA_SPILL_CFG 0 18 0
  let free := s.net.freeCells
  if audio then (if cellsOf n ≤ free then some false else none)
  else if wm ≤ free - rsv ∧ cellsOf n ≤ free - rsv then some false
  else if s.spillFits n then some true
  else none

/-- Store a payload with a number of references; the payload's number, or none when it is dropped (R67). -/
def State.allocPayload (s : State) (audio : Bool) (bytes : List Byte) (refs : Nat) : State × Option Nat :=
  match s.placePayload audio bytes.length with
  | none => (s.cntStrata C_DROP_NO_BUFFER, none)
  | some sp =>
    let id := s.net.nextPayload
    let addr := s.payloadAddr sp bytes.length
    let p : Payload := { refs, cells := if sp then 0 else cellsOf bytes.length, spill := sp, audio, addr, bytes }
    let s1 := (s.memWrite addr bytes).updNet fun n => { n with
      payloads := Tbl.set n.payloads id p, nextPayload := id + 1
      freeCells := n.freeCells - p.cells
      spillUsed := if sp then n.spillUsed + 256 * cellsOf bytes.length else n.spillUsed }
    ((if sp then s1.cntStrata C_SPILLED else s1).bufStat, some id)

/-- One more reference to a payload (R19). -/
def State.refPayload (s : State) (id : Nat) : State :=
  s.updNet fun n => { n with payloads := Tbl.upd n.payloads id fun p => { p with refs := p.refs + 1 } }

/-- One reference fewer; at none the storage returns to the free pool (R19). -/
def State.releasePayload (s : State) (id : Nat) : State :=
  match Tbl.find s.net.payloads id with
  | none => s
  | some p =>
    if 1 < p.refs then s.updNet fun n => { n with payloads := Tbl.set n.payloads id { p with refs := p.refs - 1 } }
    else (s.updNet fun n => { n with
      payloads := Tbl.del n.payloads id
      freeCells := n.freeCells + p.cells
      spillUsed := if p.spill then n.spillUsed - 256 * cellsOf p.bytes.length else n.spillUsed }).bufStat

/-- Release an optional reference. -/
def State.releaseOpt (s : State) (p : Option Nat) : State := match p with
  | some id => s.releasePayload id
  | none => s

/-- The bytes of a payload. -/
def State.payloadBytes (s : State) (id : Nat) : List Byte := (Tbl.get s.net.payloads {} id).bytes

/-! ### Token buckets -/

/-- Level units in a byte: 1 kb/s × 1 ns is 1/8,000,000 byte (R82). -/
abbrev unitsPerByte : Nat := 8000000

/-- The bucket refilled up to an elapsed time (R82, R90). -/
def Bucket.refill (b : Bucket) (t : Nat) : Bucket :=
  { b with lvl := min (b.size * unitsPerByte) (b.lvl + b.rate * (t - b.last)), last := t }

/-- Units of refill that a bucket loses beyond its size up to a time (R98). -/
def Bucket.lost (b : Bucket) (t : Nat) : Nat := b.lvl + b.rate * (t - b.last) - b.size * unitsPerByte

/-- Does the bucket hold `n` bytes? A rate of 0 means unshaped: it always counts as full. -/
def Bucket.holds (b : Bucket) (n : Nat) : Bool := b.rate == 0 || decide (n * unitsPerByte ≤ b.lvl)

/-- Deduct `n` bytes; the level floors at zero (R89). -/
def Bucket.take (b : Bucket) (n : Nat) : Bucket := if b.rate = 0 then b else { b with lvl := b.lvl - n * unitsPerByte }

/-- A bucket set to a rate and size with RESET_TO: 0 FULL, 1 ZERO (R91). -/
def Bucket.of (rate size : Nat) (zero : Bool) (t : Nat) : Bucket :=
  { rate, size, lvl := if zero then 0 else size * unitsPerByte, last := t }

/-! ### Loupe rings (R104) -/

/-- Loupe time of a device time: µs modulo 2^32. -/
def loupeTime (dev : Nat) : Nat := dev / 1000 % 2 ^ 32

/-- Words written to a Loupe ring's memory. -/
def State.loupePut (s : State) (fn : Nat) (r : Loupe) (a : Nat) (l : List Nat) : State := if r.hbm then s.memWords a l else s.dma fn a l

/-- The header of a ring that is set (R104): every word but the consumer index, which the consumer writes. DESIGN CHOICE: the
spec does not say when the header's words are first written. -/
def State.loupeInit (s : State) (fn : Nat) (r : Loupe) : State :=
  (s.loupePut fn r r.addr [r.pidx]).loupePut fn r (r.addr + 8) [r.wrap, r.lastTime, r.lost, 0, 0, 0]

/-- One entry written to a Loupe ring, or counted lost when the ring is full: the ring after it and whether the entry was
written. `cons` is the consumer index that the header holds. -/
def State.loupeWrite (s : State) (fn : Nat) (r : Loupe) (cons : Nat) (entry : List Nat) : State × Loupe × Bool :=
  let n := 2 ^ r.log2
  let c := if r.hbm then (Mem.word s.mem (r.addr + 4)).toNat else cons
  let put (s : State) (a : Nat) (l : List Nat) : State := s.loupePut fn r a l
  if n ≤ dist 32 r.pidx c then
    let r' := { r with lost := r.lost + 1 }
    (put s (r.addr + 16) [r'.lost], r', false)
  else
    let r' := { r with
      pidx := (r.pidx + 1) % 2 ^ 32
      wrap := s.dev / 1000 / 2 ^ 32
      lastTime := entry.headD 0 }
    let s1 := put s (r.addr + 32 + r.pidx % n * 16) entry
    let s2 := put s1 r.addr [r'.pidx]
    (put s2 (r.addr + 8) [r'.wrap, r'.lastTime, r'.lost, 0, 0, 0], r', true)

end Sys2Proof.Machine
end

