-- ==== Sys2Proof/Machine/Disp.lean ====
section
/-! DEFINITION. The dispatcher: posting, placing, starting and completing work items (chapter 9). -/

namespace Sys2Proof.Machine

def State.updDisp (s : State) (f : Disp → Disp) : State := { s with disp := f s.disp }
/-- A dispatcher counter (R289). -/
def State.cntDisp (s : State) (k : Nat) : State := s.bump .DISP_CNT_LO k

/-- Fields of an item (R266). -/
def Item.qid (i : Item) : Nat := fld (nth i.words 0 0) 15 0
def Item.event (i : Item) : Nat := fld (nth i.words 0 0) 31 24
def Item.retries (i : Item) : Nat := fld (nth i.words 0 0) 22 21
def Item.tenant (i : Item) : Nat := fld (nth i.words 0 0) 17 16
def Item.flow (i : Item) : Nat := (nth i.words 0 1).toNat
def Item.ticket (i : Item) : Nat := fld (nth i.words 0 2) 31 16
def Item.producer (i : Item) : Nat := fld (nth i.words 0 2) 15 0
/-- Word `n` of an item. -/
def Item.w (i : Item) (n : Nat) : Nat := (nth i.words 0 n).toNat

/-- An item from its parts: event, DE mark, queue, flow, words 4 to 7 and the payload it holds. -/
def mkItem (ev : Nat) (de : Bool) (qid flow : Nat) (w : List Nat) (p : Option Nat := none) : Item :=
  { words := [putF (putB (putF 0 31 24 ev) 23 de) 15 0 qid, BitVec.ofNat 32 flow, 0, 0]
      ++ (List.range 4).map fun i => BitVec.ofNat 32 (nth w 0 i)
    payload := p }

/-- The shared inputs: Strata's and the scheduler's target queues and firmware's estimate queue (R279). -/
def State.sharedQ (s : State) (q : Nat) : Bool :=
  q == s.rf .STRATA_TGT_QID 0 15 0 || q == s.rf .EGS_TGT_QID 0 15 0 || q == s.disp.estQid

/-- An audio item: a frame tick, a frame-ready item or a stage of a class's chain (R141). -/
def Item.audio (i : Item) : Bool := i.event == 0x10 || i.event == 0x11 || i.event == 0x17

/-- The rank at which a queue is served: while it holds an audio item no lower than rank 2, at which audio travels (R141).
DESIGN CHOICE (log entry): a queue that its owner gave another rank. -/
def DispQ.rankNow (d : DispQ) : Nat := if d.items.any Item.audio then min d.rank 2 else d.rank

/-- A dispatch queue, if it is configured; a shared input is always there. -/
def State.dispQ (s : State) (q : Nat) : Option DispQ :=
  match Tbl.find s.disp.qs q with
  | some d => some d
  | none =>
    if s.sharedQ q then some { own := { fn := 256 }, rank := 3, limit := 1048576 }
    else if q = s.disp.encQid then some { own := { fn := 256 }, rank := 2, limit := 1048576, mask := BitVec.allOnes 64 }
    else none

def State.setDispQ (s : State) (q : Nat) (d : DispQ) : State := s.updDisp fun x => { x with qs := Tbl.set x.qs q d }

/-! ### The item store (R272) -/

def State.stUsed (s : State) (k : Nat) : Nat := Tbl.get s.disp.used 0 k
def State.addUsed (s : State) (k : Nat) : State := s.updDisp fun d => { d with used := Tbl.updD d.used 0 k (· + 1) }
def State.subUsed (s : State) (k : Nat) : State := s.updDisp fun d => { d with used := Tbl.updD d.used 0 k (· - 1) }
def State.itemMin (s : State) (t : Nat) : Nat := Tbl.get s.disp.itemMin 0 t
/-- Items of the shared remainder. -/
def State.sharedItems (s : State) : Nat :=
  1048576 - s.rf .DISP_POOL 0 20 0 - (s.itemMin 0 + s.itemMin 1 + s.itemMin 2 + s.itemMin 3)

/-- `DISP_STAT` shows the free items. -/
def State.dispStat (s : State) : State :=
  s.setRf .DISP_STAT 0 20 0 (1048576 - (s.stUsed 0 + s.stUsed 1 + s.stUsed 2 + s.stUsed 3 + s.stUsed 4 + s.stUsed 5))

/-- The pool from which an item for a queue is drawn: 0 audio reserve, 1 the tenant's reservation, 2 shared; none when
refused (R272). -/
def State.itemPool (s : State) (d : DispQ) : Option Nat :=
  let t := d.own.fn / 64
  if d.limit ≤ d.items.length + d.resv then none
  else if d.rank = 2 ∧ s.stUsed 0 < s.rf .DISP_POOL 0 20 0 then some 0
  else if t < 4 ∧ s.stUsed (6 + t) < s.itemMin t then some 1
  else if s.stUsed 5 < s.sharedItems then some 2
  else none

/-- Account for an item drawn from or returned to a pool. -/
def State.drawItem (s : State) (t pool : Nat) : State :=
  ((s.addUsed (if pool = 0 then 0 else if pool = 1 then 1 + t else 5)).addUsed (6 + t)).dispStat
def State.returnItem (s : State) (t pool : Nat) : State :=
  ((s.subUsed (if pool = 0 then 0 else if pool = 1 then 1 + t else 5)).subUsed (6 + t)).dispStat

/-! ### Waking clusters (R283) -/

/-- Bit `c` of `DISP_FENCE`. -/
def State.fenced (s : State) (c : Nat) : Bool := if c < 32 then s.rb .DISP_FENCE_LO 0 c else s.rb .DISP_FENCE_HI 0 (c - 32)

/-- Slots of a core in use, the running item's included. -/
def Core.usedSlots (k : Core) : Nat := k.order.length + b2n k.running

/-- Is core `c` eligible for a queue's items (R274, R284)? -/
def State.eligible (s : State) (d : DispQ) (c : Nat) : Bool :=
  d.mask.toNat.testBit (c / 8) && s.clOn (c / 8) && !s.fenced (c / 8) && !Tbl.get s.disp.draining false (c / 8)
    && decide ((s.core c).usedSlots < 2)

/-- The cluster that a needed wake wakes: sleeping, unfenced, in the mask, and open to a demand; clock-stopped before
powered off, lowest first. -/
def State.wakeTarget (s : State) (d : DispQ) : Option Nat :=
  let ok (st : Nat) (c : Nat) : Bool := d.mask.toNat.testBit c && !s.fenced c && s.demandable (35 + c) && s.pdState (35 + c) == st
  match (List.range 64).find? (ok 4) with
  | some c => some c
  | none => (List.range 64).find? (ok 0)

/-- A queue that needs a wake wakes one cluster (R283). -/
def State.wakeCheck (s : State) (q : Nat) : State :=
  match s.dispQ q with
  | none => s
  | some d =>
    if d.items.isEmpty || d.wakeOut || (List.range 512).any (s.eligible d) then s
    else match s.wakeTarget d with
      | none => s
      | some c =>
        if d.rankNow == 2 || decide (s.rf .DISP_WAKE_THRESH (c / 4) 15 0 ≤ d.items.length) then
          ((s.setDispQ q { d with wakeOut := true }).demand (35 + c) (d.rankNow == 2)).cntDisp 7
        else s

/-- The dispatcher demands each sleeping engine that decodes a stream of the queue (R23). DESIGN CHOICE: the spec names the
dispatcher as the engines' waking agent and not the event. -/
def State.wakeEngines (s : State) (q : Nat) : State :=
  (List.range 8).foldl (fun s e =>
    if !s.pdOn (18 + e) && s.video.decs.any (fun kv => kv.2.pe == e && (Tbl.get s.net.streams {} kv.2.stream).dispQ == q)
    then s.demand (18 + e) else s) s

/-! ### Posting -/

/-- Enqueue an item that has been admitted: the header fields the dispatcher overwrites (R266), the ticket (R271). -/
def State.enqueue (s : State) (q producer : Nat) (it : Item) : State :=
  match s.dispQ q with
  | none => s
  | some d =>
    let tk := if d.typ = 2 then d.nextT else 0
    let w0 := putF (putF (putF (nth it.words 0 0) 22 21 0) 17 16 (d.own.fn / 64)) 15 0 q
    let w2 := putF (putF (nth it.words 0 2) 31 16 tk) 15 0 producer
    let it' := { it with words := [w0, nth it.words 0 1, w2, BitVec.ofNat 32 s.dev] ++ (List.range 4).map fun i => nth it.words 0 (4 + i) }
    let d' := { d with items := d.items ++ [it'], nextT := if d.typ = 2 then (d.nextT + 1) % 65536 else d.nextT }
    let s1 := (s.setDispQ q d').cntDisp 0
    ((if d.own.fn = 256 then s1.demand 1 else s1).wakeEngines q).wakeCheck q

/-- A hardware producer posts an item; when R272 refuses it, it is dropped, its payload released and DROP_FULL counted
(R273). -/
def State.postHw (s : State) (q producer : Nat) (it : Item) : State :=
  match s.dispQ q with
  | none => (s.releaseOpt it.payload).cntDisp 8
  | some d =>
    match s.itemPool (if it.audio then { d with rank := min d.rank 2 } else d) with
    | none => ((s.setDispQ q { d with drops := d.drops + 1 }).releaseOpt it.payload).cntDisp 8
    | some p => (s.drawItem (d.own.fn / 64) p).enqueue q producer { it with pool := p }

/-- Change the staged completions of an ordered queue. -/
def updStaged (l : List Staged) (tk : Nat) (f : Staged → Staged) : List Staged :=
  l.map fun x => if x.ticket = tk then f x else x

/-- The result code of a kernel's post (R278, R279): 0 OK, 1 FULL, 2 NOT_OWNER, 3 BAD_QID, 4 LIMIT. -/
def State.postResult (s : State) (c q : Nat) : Nat :=
  let k := s.core c
  if q < 49152 ∨ 61440 ≤ q then 3
  else match s.dispQ q with
    | none => 2
    | some d =>
      if d.own.fn / 64 ≠ k.tenant ∧ s.sharedQ q = false then 2
      else if 16 ≤ k.posts then 4
      else if (s.itemPool d).isNone then 1
      else 0

/-- A kernel commits a post (R271, R278, R279). -/
def State.kernelPost (s : State) (c : Nat) (words : List Word) : State :=
  let k := s.core c
  let it : Item := { words := (List.range 8).map fun i => nth words 0 i, src := k.tenant }
  let q := it.qid
  let r := s.postResult c q
  let s := (List.range 8).foldl (fun s i => s.setReg .DISP_POST_W (c * 8 + i) (nth words 0 i)) s
  let res (s : State) (n : Nat) : State := s.setReg .DISP_POST_RES c (putF (putF 0 12 8 n) 2 0 r)
  if r ≠ 0 then (res s k.posts).cntDisp 9
  else
    match s.dispQ q with
    | none => s
    | some d =>
      let p := (s.itemPool d).getD 2
      let s1 := (s.drawItem (d.own.fn / 64) p).setCore c { k with posts := k.posts + 1 }
      let it := { it with pool := p }
      let src := s.dispQ k.qid
      let tk := (Tbl.get k.slots {} k.slot).ticket
      let s2 := match src with
        | some e =>
          if e.typ = 2 then
            let s3 := s1.setDispQ q { d with resv := d.resv + 1 }
            let e := (s3.dispQ k.qid).getD e
            s3.setDispQ k.qid { e with staged := updStaged e.staged tk fun x => { x with posts := x.posts ++ [(q, it)] } }
          else s1.enqueue q c it
        | none => s1.enqueue q c it
      res s2 (k.posts + 1)

/-- KERNEL_POST (R278): a core posts while it runs an item that has not faulted. -/
def execKernelPost (core : Fin 512) (words : List Word) (el : Nat) (s : State) : Res :=
  let s := s.advance el
  if (s.core core.val).running && (s.core core.val).faulted.isNone then .next (s.kernelPost core.val words) else .next s

/-! ### Placing (R270, R274, R275) -/

/-- The affinity index of an item. -/
def affIdx (q flow : Nat) : Nat := (flow % 65536) ^^^ (flow / 65536 % 65536) ^^^ q

/-- The core on which an item with this queue and flow runs or waits in a slot. -/
def State.holder (s : State) (q flow : Nat) : Option Nat :=
  ((s.cores.filter fun kv => decide (kv.1 < 512) && kv.2.slots.any fun sl => sl.2.qid == q && sl.2.flow == flow).map (·.1)).head?

/-- Where an item goes now: the core and whether by affinity; none while it waits. `late` says that the affinity wait is
over. -/
def State.coreFor (s : State) (q : Nat) (d : DispQ) (it : Item) (late : Bool) : Option (Nat × Bool) :=
  let hold := if d.typ = 1 then s.holder q it.flow else none
  match hold with
  | some c => if s.eligible d c then some (c, true) else none
  | none =>
    let other := (rotate 512 d.ptr (s.eligible d)).map fun c => (c, false)
    match Tbl.find s.disp.aff (affIdx q it.flow) with
    | none => other
    | some c =>
      if s.eligible d c then some (c, true)
      else if !late && s.clOn (c / 8) && d.mask.toNat.testBit (c / 8) && decide (2 ≤ (s.core c).usedSlots) then none
      else other

/-- The item of a queue that can be placed, its position, and its core. -/
def State.placeable (s : State) (q : Nat) (d : DispQ) (late : Bool) : Option (Nat × Item × Nat × Bool) :=
  if s.rb .DISP_CTRL 0 31 = false || (match s.kernel d.kern with | some k => k.suspended | none => true) then none
  else
    let cand := if d.typ = 0 then d.items.take 1 else d.items
    (cand.zipIdx).findSome? fun (it, i) =>
      if d.typ = 2 && decide (d.ordWin ≤ dist 16 it.ticket d.oldT) then none
      else (s.coreFor q d it late).map fun (c, h) => (i, it, c, h)

/-- An item is written into a free slot of the core, and leaves its queue (R275, R276). -/
def State.place (s : State) (q : Nat) (d : DispQ) (i : Nat) (it : Item) (c : Nat) (hit : Bool) : State :=
  let k := s.core c
  let sl := if k.running then 1 - k.slot else if k.order = [0] then 1 else 0
  let d' := { d with
    items := d.items.eraseIdx i
    ptr := if hit then d.ptr else (c + 1) % 512
    staged := if d.typ = 2 then d.staged ++ [{ ticket := it.ticket }] else d.staged }
  let s1 := (s.setDispQ q d').setCore c { k with slots := Tbl.set k.slots sl it, order := k.order ++ [sl] }
  let s2 := s1.updDisp fun x => { x with
    aff := Tbl.set x.aff (affIdx q it.flow) c
    ptrs := Tbl.set x.ptrs d.rankNow (rotated 12288 (q - 49152)) }
  s2.cntDisp (if hit then 5 else 6)

/-- The queue that the dispatcher serves next, with what it places: of those that have an item to place, the highest rank first,
then R29 over qid with one pointer for each rank (R274, R30). -/
def State.serve (s : State) : Option (Nat × DispQ × (Nat × Item × Nat × Bool)) :=
  let ready := s.disp.qs.filter fun kv => (s.placeable kv.1 kv.2 false).isSome
  match arbitrate (fun r => Tbl.get s.disp.ptrs 0 r + 49152) (ready.map fun kv => (kv.1, kv.2.rankNow)) with
  | none => none
  | some (_, q) => match Tbl.find s.disp.qs q with
    | none => none
    | some d => (s.placeable q d false).map fun p => (q, d, p)

/-- AFF_WAIT_TIMEOUT (R275): the wait for the affinity core ends and the item goes to another eligible core. -/
def execAffWaitTimeout (qid : Nat) (el : Nat) (s : State) : Res :=
  let s := s.advance el
  match Tbl.find s.disp.qs qid with
  | none => .next s
  | some d => match s.placeable qid d true with
    | some (i, it, c, h) => .next (s.place qid d i it c h)
    | none => .next s

/-! ### Starting (R259, R260, R276) -/

/-- The state of a core at the start of an item in slot `sl` (R259, R260). -/
def Core.enter (k : Core) (sl kern load tenant now : Nat) : Core :=
  let a := 0xFF00 + 0x20 * sl
  let same := k.warm && k.prev == some (kern, load)
  let keep := match k.prevT with | some t => t == tenant | none => true
  { k with
    g := (if same then [(1, BitVec.ofNat 32 a), (2, 1)] else [(1, BitVec.ofNat 32 a)])
    acc := [], o := [], cb := [], cl := [], lc := [], act := [], sv := 0, st := 0
    x := [(0, BitVec.ofNat 16 a), (7, 0xFF00)]
    pc := 0
    ldm := if keep then k.ldm else []
    ldmErr := if keep then k.ldmErr else []
    running := true, slot := sl, kern, load, tenant, since := now, posts := 0, faulted := none
    order := k.order.filter (· != sl) }

/-- The bit errors that strike a core (R237, R258, R341). -/
def Core.struck (k : Core) (u : Upsets) : Core :=
  { k with ldmErr := u.ldm.foldl (fun t e => Tbl.set t e.1 e.2) k.ldmErr, icErr := u.ic, imgErr := u.image, memErr := u.ue }

/-- WORK_ITEM_START (R259, R260, R276). -/
def execWorkItemStart (core : Fin 512) (start : Upsets) (s : State) : Res :=
  let s := s.advance start.el
  let c := core.val
  let k := s.core c
  match k.order with
  | [] => .next s
  | sl :: _ =>
    if k.running || k.faulted.isSome || !s.clOn (c / 8) || Tbl.get s.disp.draining false (c / 8) then .next s
    else
      let it := Tbl.get k.slots {} sl
      let d := (s.dispQ it.qid).getD {}
      let kr := (s.kernel d.kern).getD {}
      let t := d.own.fn / 64
      let s1 := s.setCore c { (k.enter sl d.kern kr.load t s.ela).struck start with qid := it.qid }
      let s2 := s1.setReg .CORE_STAT c (putF (putB (putB (s.reg .CORE_STAT c) 31 true) 30 false) 29 28 t)
      let s3 := (s2.setReg .DISP_KINFO c (putF (putF (putF 0 31 30 t) 25 16 d.kern) 15 0 kr.version)).setReg .DISP_POST_RES c 0
      .next ((s3.setReg .DISP_RODATA_LO c (BitVec.ofNat 32 kr.ro)).setReg .DISP_RODATA_HI c (BitVec.ofNat 32 (kr.ro / 2 ^ 32 % 256)))

/-! ### Completion (R271, R280, R281) -/

/-- The posts of the completions that are released: every one from the oldest ticket on that is done (R271). -/
def releaseStaged : Nat → List Staged → Nat → List (Nat × Item) × List Staged × Nat
  | 0, l, t => ([], l, t)
  | n + 1, l, t =>
    match l.find? fun x => x.ticket == t with
    | some x =>
      if x.done then
        let (p, l', t') := releaseStaged n (l.filter fun y => y.ticket != t) ((t + 1) % 65536)
        (x.posts ++ p, l', t')
      else ([], l, t)
    | none => ([], l, t)

/-- Deliver the posts released, each into the space reserved for it. -/
def State.deliver (s : State) (producer : Nat) : List (Nat × Item) → State
  | [] => s
  | (q, it) :: r =>
    match s.dispQ q with
    | none => State.deliver s producer r
    | some d => State.deliver ((s.setDispQ q { d with resv := d.resv - 1 }).enqueue q producer it) producer r

/-- An ordered queue's ticket is done, with or without its posts; what can be released is. -/
def State.finishTicket (s : State) (q tk producer : Nat) (withPosts : Bool) : State :=
  match s.dispQ q with
  | none => s
  | some d =>
    let lostPosts := if withPosts then [] else (d.staged.filter fun x => x.ticket == tk).flatMap (·.posts)
    let s := lostPosts.foldl (fun s p => match s.dispQ p.1 with
      | some e => (s.setDispQ p.1 { e with resv := e.resv - 1 }).returnItem (e.own.fn / 64) p.2.pool
      | none => s) s
    let d := (s.dispQ q).getD d
    let st := updStaged d.staged tk fun x => { x with done := true, posts := if withPosts then x.posts else [] }
    let (p, st', t') := releaseStaged (st.length + 1) st d.oldT
    (s.setDispQ q { d with staged := st', oldT := t' }).deliver producer p

/-- The core's item ends: the slot is free, the core idle. -/
def State.endItem (s : State) (c : Nat) (clean : Bool) : State :=
  let k := s.core c
  let s := s.setCore c { k with
    running := false, faulted := none, slots := Tbl.del k.slots k.slot, prev := some (k.kern, k.load), prevT := some k.tenant
    warm := clean }
  s.setReg .CORE_STAT c (putB (putB (s.reg .CORE_STAT c) 31 false) 30 clean)

/-- Completion of the running item with a status (R280). -/
def State.complete (s : State) (c status : Nat) : State :=
  let k := s.core c
  let it := Tbl.get k.slots {} k.slot
  let s := s.endItem c true
  match s.dispQ k.qid with
  | none => s.releaseOpt it.payload
  | some d =>
    if status = 2 ∧ it.retries < 3 then
      let it' := { it with words := putF (nth it.words 0 0) 22 21 (it.retries + 1) :: it.words.drop 1 }
      let d' := { d with
        items := d.items ++ [it']
        staged := d.staged.filter fun x => x.ticket != it.ticket || d.typ != 2 }
      let posts := (d.staged.filter fun x => x.ticket == it.ticket && d.typ == 2).flatMap (·.posts)
      let s1 := (s.setDispQ k.qid d').cntDisp 4
      posts.foldl (fun s p => match s.dispQ p.1 with
        | some e => (s.setDispQ p.1 { e with resv := e.resv - 1 }).returnItem (e.own.fn / 64) p.2.pool
        | none => s) s1
    else
      let err := status != 0
      let s1 := s.setDispQ k.qid { d with done := d.done + 1, errors := if err then d.errors + 1 else d.errors }
      let s2 := (if err then s1.cntDisp 2 else s1).cntDisp 1
      let s3 := (s2.releaseOpt it.payload).returnItem (d.own.fn / 64) it.pool
      if d.typ = 2 then s3.finishTicket k.qid it.ticket c true else s3

/-- ITEM_WATCHDOG (R281): the running item has exceeded its queue's limit. -/
def execItemWatchdog (core : Fin 512) (el : Nat) (s : State) : Res :=
  let s := s.advance el
  let k := s.core core.val
  let lim := match s.dispQ k.qid with | some d => d.itemLimit | none => 1000
  if k.running && k.faulted.isNone && decide (k.since + lim * 1000 < s.ela) then .next (s.coreFault core.val F_WATCHDOG 0)
  else .next s

/-- Firmware counts a kernel's faults within 1 s and suspends its queues at the limit (R282). -/
def State.countFault (s : State) (kern : Nat) : State :=
  match s.kernel kern with
  | none => s
  | some k =>
    let l := s.ela :: k.faults.filter fun t => decide (s.ela < t + 1000000000)
    let sus := decide (s.disp.faultLimit ≤ l.length)
    let s1 := s.updDisp fun d => { d with kernels := Tbl.set d.kernels kern { k with faults := l, suspended := k.suspended || sus } }
    if sus && !k.suspended && decide (k.own.fn < 256) then s1.notify k.own.fn 0x0A81 kern else s1

/-! ### Draining a cluster and flushing a queue (R269, R284, R291) -/

/-- The items waiting in a core's slots go back to the heads of their queues, keeping tickets and order (R284). -/
def State.unplace (s : State) (c : Nat) : State :=
  let k := s.core c
  let s1 := k.order.reverse.foldl (fun s sl =>
    let it := Tbl.get k.slots {} sl
    match s.dispQ it.qid with
    | none => s
    | some d => s.setDispQ it.qid { d with
        items := it :: d.items
        staged := if d.typ = 2 then d.staged.filter fun x => x.ticket != it.ticket else d.staged }) s
  s1.setCore c { k with order := [], slots := Tbl.keep k.slots fun i _ => k.running && i == k.slot }

/-- An item that cannot be read from the item store is discarded, its payload released and its ticket done (R269, R341). -/
def State.discardItem (s : State) (q : Nat) (d : DispQ) (i : Nat) (it : Item) (c : Nat) : State :=
  let s1 := s.setDispQ q { d with
    items := d.items.eraseIdx i
    staged := if d.typ = 2 then d.staged ++ [{ ticket := it.ticket }] else d.staged }
  let s2 := (s1.releaseOpt it.payload).returnItem (d.own.fn / 64) it.pool
  if d.typ = 2 then s2.finishTicket q it.ticket c false else s2

/-- Every item waiting in a queue is discarded and its payload released (R269). -/
def State.flushQ (s : State) (q : Nat) : State :=
  match Tbl.find s.disp.qs q with
  | none => s
  | some d => d.items.foldl (fun s it => (s.releaseOpt it.payload).returnItem (d.own.fn / 64) it.pool)
      (s.setDispQ q { d with items := [], oldT := if d.typ = 2 then d.nextT else d.oldT })

end Sys2Proof.Machine
end

