-- ==== Sys2Proof/Machine/Safe.lean ====
section
/-! DEFINITION. Safelight: messages on channel 2, the slow clock, device time, the servo, the timers, the fans and the
temperature (R414, R425 to R441). -/

namespace Sys2Proof.Machine

/-! ### Channel 2 -/

/-- What Safelight tells firmware on channel 2, as the model's own log numbers it. -/
abbrev S2_CLOCK : Nat := 0
abbrev S2_DOMAIN : Nat := 1
abbrev S2_WARN : Nat := 2
abbrev S2_BLEACH : Nat := 3
abbrev S2_PFAIL : Nat := 4
abbrev S2_HBM_TEMP : Nat := 5

/-- Safelight posts a message to firmware on channel 2, whose words the spec does not lay out: it demands the control
domain (R417) and enters the mailbox when it is free. -/
def State.chan2 (s : State) (what arg : Nat) : State :=
  let s := (s.emit (.chan2 what arg)).demand 1
  if s.rxOn 2 && !s.full 2 then
    ((List.range 16).foldl (fun s i => let (w, s) := s.freeWord; s.setReg .MBX_MSG (32 + i) w) s).doPost 2
  else s

/-! ### The slow clock (R414) -/

/-- XTAL_FAIL (R414): SYSREF fails. -/
def execXtalFail (s : State) : Res :=
  let s1 := s.setRb .SAFE_CLK 0 30 false
  if s.rb .SAFE_CLK 0 31 then
    .next ((((s1.setRb .SAFE_CLK 0 31 false).setRb .SAFE_CLK 0 29 true).chan2 S2_CLOCK 1).notifyAll 0x0E82 0 [1])
  else .next s1

/-- XTAL_RETURN (R414): SYSREF has been good for 10 ms; Safelight returns to it when firmware has set `RETURN`. -/
def execXtalReturn (s : State) : Res :=
  let s1 := s.setRb .SAFE_CLK 0 30 true
  if s.rb .SAFE_CLK 0 28 && !s.rb .SAFE_CLK 0 31 then
    .next (((s1.setRb .SAFE_CLK 0 31 true).setRb .SAFE_CLK 0 28 false).notifyAll 0x0E82 0 [0])
  else .next s1

/-- SYSREF_SWITCH (R414): the first switch to SYSREF after power-on reset. -/
def execSysrefSwitch (s : State) : Res :=
  if s.rb .SAFE_CLK 0 29 then .next s else .next ((s.setRb .SAFE_CLK 0 30 true).setRb .SAFE_CLK 0 31 true)

/-! ### Device time (R425 to R430) -/

/-- The signed 64-bit value of two words. -/
def off64 (lo hi : Nat) : Int := sx (lo + 2 ^ 32 * hi) 64
/-- The low and the high word of a signed 64-bit value. -/
def offWords (v : Int) : List Nat := let n := wrapN v 64; [n % 2 ^ 32, n / 2 ^ 32]
/-- May device time be stepped by the offset (R429)? -/
def State.stepFits (s : State) (v : Int) : Bool := decide (0 ≤ (s.dev : Int) + v) && decide ((s.dev : Int) + v < 2 ^ 63)

/-- A step is committed; it replaces one that waits (R429). -/
def State.commitStep (s : State) (v : Int) (servo : Bool) : State :=
  { s.setRb .TIME_STAT 0 29 true with time := { s.time with step := some v, stepServo := servo } }

/-- TIME_STEP_COMMIT (R429): the two writes, the second of which commits. -/
def execTimeStepCommit (lo hi : Word) (s : State) : Res :=
  .next { (((s.setReg .TIME_STEP_LO 0 lo).setReg .TIME_STEP_HI 0 hi).commitStep (off64 lo.toNat hi.toNat) false) with bus := .ok 0 }

/-- The layouts' ticks move with a step (R211, R429). -/
def State.moveTicks (s : State) (v : Int) : State :=
  { s with video := { s.video with layouts := Tbl.mapv s.video.layouts fun _ l => { l with t0 := ((l.t0 : Int) + v).toNat } } }

/-- TIME_STEP_APPLY (R429): the next tick comes, and the step is added to device time and never to elapsed time. -/
def execTimeStepApply (s : State) : Res :=
  let s := s.advance 1
  match s.time.step with
  | none => .next s
  | some v =>
    let s1 := { s.setRb .TIME_STAT 0 29 false with time := { s.time with step := none, stepServo := false } }
    if s.stepFits v then
      let s2 := { s1 with time := { s1.time with acc := ((s1.time.acc : Int) + v * 2 ^ 32).toNat } }
      let s3 := if s.time.stepServo then s2.setRb .TIME_STAT 0 31 true else s2
      .next ((s3.moveTicks v).notifyAll 0x0E80 0 (offWords v))
    else .next (s1.setRb .TIME_STAT 0 28 true)

/-! ### The servo (R431) -/

/-- The servo's lock state changes, and every tenant hears of it. -/
def State.setLock (s : State) (l : Lock) : State :=
  if s.time.lock = l then s else { s with time := { s.time with lock := l } }.notifyAll 0x0E81 0 [l.code]

/-- The servo takes an offset sample (R431). How it slews through `RATE` the spec bounds and does not state. -/
def State.servoSample (s : State) (off : Int) : State :=
  let good := if off.natAbs ≤ 100 then s.time.good + 1 else 0
  let t := { s.time with
    offsets := (off :: s.time.offsets).take 64
    lastSample := s.ela
    good := if s.time.lock = .holdover then (if off.natAbs ≤ 100 then 1 else 0) else good }
  let s1 := { s with time := t }
  let s2 := if decide (s.time.thresh < off.natAbs) || !s.rb .TIME_STAT 0 31 then s1.commitStep off true
    else let (w, x) := s1.freeWord; x.setReg .TIME_RATE 0 w
  s2.setLock (if 16 ≤ t.good then .locked else .locking)

/-- PPS_IN_EDGE (R430, R431). -/
def execPpsInEdge (el : Nat) (s : State) : Res :=
  let s := s.advance el
  if s.time.ppsAt ≠ 0 ∧ s.ela < s.time.ppsAt - 1 + 500000000 then .next (s.satRf .TIME_STAT 0 15 0)
  else
    let s1 := { s.setRb .TIME_STAT 0 27 true with
      time := { s.time with ppsAt := s.ela + 1, tod := none }
      cnts := Tbl.set s.cnts (regKey .TIME_PPS_IN_LO 0) (BitVec.ofNat 64 s.dev) }
    match s.time.mode, s.time.tod with
    | .pps, some t => .next (s1.servoSample ((t : Int) * 1000000000 - (s.dev : Int)))
    | _, _ => .next s1

/-- SERVO_HOLDOVER (R431): no sample has come for 3 s; `RATE` holds the frequency estimate, which the spec does not
state. -/
def execServoHoldover (el : Nat) (s : State) : Res :=
  let s := s.advance el
  if s.time.mode ≠ .free ∧ (s.time.lock = .locking ∨ s.time.lock = .locked) ∧ s.time.lastSample + 3000000000 ≤ s.ela then
    let (w, s1) := s.freeWord
    .next ((s1.setReg .TIME_RATE 0 w).setLock .holdover)
  else .next s

/-- PPS_OUT changes level. -/
def State.setPps (s : State) (on : Bool) : State :=
  if s.time.ppsOut = on then s else { s with time := { s.time with ppsOut := on } }.emit (.pin 0 (b2n on))

/-- PPS_OUT_PULSE (R430): the rise at the tick at which device time reaches the offset, the fall after `WIDTH_US`. -/
def execPpsOutPulse (rise : Bool) (el : Nat) (s : State) : Res :=
  let s := s.advance el
  if rise then
    let ph := ((s.dev : Int) - sx (s.reg .TIME_PPS_OFS).toNat 32) % 1000000000
    if s.rb .TIME_PPS_OUT 0 31 && s.rb .TIME_STAT 0 31 && decide (ph < 41) then
      .next ({ s with time := { s.time with ppsRise := s.ela } }.setPps true)
    else .next s
  else if s.time.ppsOut && (decide (s.time.ppsRise + s.rf .TIME_PPS_OUT 0 19 0 * 1000 ≤ s.ela) || !s.rb .TIME_STAT 0 31) then
    .next (s.setPps false)
  else .next s

/-! ### Timers (R433) -/

/-- A timer posts its item. -/
def State.postTimer (s : State) (n : Nat) (t : Timer) : State := s.postHw t.qid 0x0220 (mkItem 0x20 false t.qid 0 [n])

/-- The timers whose expiry woke the fabric post their items once it is ON. -/
def State.postDueTimers (s : State) : State :=
  (Tbl.keysWhere s.time.timers fun _ t => t.due).foldl (fun s n =>
    match Tbl.find s.time.timers n with
    | some t => { s with time := { s.time with timers := Tbl.set s.time.timers n { t with due := false } } }.postTimer n t
    | none => s) s

/-- SAFELIGHT_TIMER_EXPIRY (R433): one item, and no catching up. -/
def execSafelightTimerExpiry (timer : Fin 256) (el : Nat) (s : State) : Res :=
  let s := s.advance el
  match Tbl.find s.time.timers timer.val with
  | none => .next s
  | some t =>
    if s.ela < t.next then .next s
    else
      let on := s.pdOn 34
      let t' := { t with next := t.next + ((s.ela - t.next) / t.period + 1) * t.period, due := !on }
      let s1 := { s with time := { s.time with timers := Tbl.set s.time.timers timer.val t' } }
      .next (if on then s1.postTimer timer.val t else s1.demand 34)

/-! ### Fans and temperature (R436, R437) -/

/-- Does Safelight force the fans (R436)? -/
def State.fanForced (s : State) : Bool := s.rb .SAFE_THERM 0 23 || s.rb .SAFE_THERM 0 22 || s.power.fanStale
/-- `FORCED` of every fan follows. -/
def State.fanUpdate (s : State) : State := (List.range 4).foldl (fun s n => s.setRb .SAFE_FAN n 23 s.fanForced) s

/-- FAN_WRITE_TIMEOUT (R436). -/
def execFanWriteTimeout (el : Nat) (s : State) : Res :=
  let s := s.advance el
  if s.power.fanAt + 5000000000 ≤ s.ela then .next { s with power := { s.power with fanStale := true } }.fanUpdate else .next s

/-- Firmware or the management controller writes a fan register (R436). -/
def State.fanWrite (s : State) (n : Nat) (v : Word) : State :=
  let s1 := s.setReg .SAFE_FAN n (applyWrite (RegName.flds .SAFE_FAN) (s.reg .SAFE_FAN n) v)
  { s1 with power := { s1.power with fanAt := s1.ela, fanStale := false } }.fanUpdate

/-- Tj is read (R437): `WARN` follows, and its rise forces the fans and is told to firmware. -/
def State.thermal (s : State) (tj : Byte) (hbmCrit : Bool) : State :=
  let s1 := s.setRf .SAFE_THERM 0 31 24 tj.toNat
  let warn := decide (sx (s.rf .SAFE_THERM 0 15 8) 8 ≤ sx tj.toNat 8) || hbmCrit
  let s2 := (s1.setRb .SAFE_THERM 0 23 warn).fanUpdate
  if warn && !s.rb .SAFE_THERM 0 23 then s2.chan2 S2_WARN tj.toNat else s2

/-! ### The TIME commands (R440) -/

abbrev WRONG_MODE : Nat := 0x0E00
abbrev STEP_RANGE : Nat := 0x0E01
abbrev TIMER_PAST : Nat := 0x0E02

/-- The code of the servo's mode. -/
def ServoMode.code : ServoMode → Nat
  | .free => 0 | .pps => 1 | .offset => 2

/-- TIME_GET. -/
def timeGetSpec : CmdSpec := { op := 0x0E00, chan := .any }
/-- The error bound is a number that the spec does not state. -/
def timeGetApply (_ : Cmd) (s : State) : Reply :=
  let (w, s1) := s.freeWord
  let w2 := putF (putF (putB (putB 0 31 (s.rb .TIME_STAT 0 31)) 30 (s.rb .SAFE_CLK 0 29)) 29 28 s.time.mode.code) 27 26 s.time.lock.code
  { st := s1, res := [s.dev % 2 ^ 32, s.dev / 2 ^ 32, w2.toNat, w.toNat] }
/-- TIME_GET (R431, R440). -/
def execTimeGet (c : Cmd) (s : State) : Res := .next (runCmd timeGetSpec (fun _ _ => 0) timeGetApply c s)

/-- TIME_SOURCE_SET. -/
def timeSourceSetSpec : CmdSpec := { op := 0x0E01, chan := .ch0, used := [(2, 0x3)] }
def timeSourceSetCheck (c : Cmd) (_ : State) : Nat := rejectIf (c.f 2 1 0 == 3) BAD_PARAM
def timeSourceSetApply (c : Cmd) (s : State) : Reply :=
  let m : ServoMode := if c.f 2 1 0 = 0 then .free else if c.f 2 1 0 = 1 then .pps else .offset
  let t := { s.time with mode := m, thresh := if c.w 3 = 0 then 1000000 else c.w 3 }
  if m = s.time.mode then { st := { s with time := t } }
  else { st := { s with time := { t with good := 0, tod := none, lastSample := s.ela } }.setLock (if c.f 2 1 0 = 0 then .freeRun else .locking) }
/-- TIME_SOURCE_SET (R431). -/
def execTimeSourceSet (c : Cmd) (s : State) : Res := .next (runCmd timeSourceSetSpec timeSourceSetCheck timeSourceSetApply c s)

/-- TIME_TOD. -/
def timeTodSpec : CmdSpec := { op := 0x0E02, chan := .ch0 }
def timeTodCheck (_ : Cmd) (s : State) : Nat := rejectIf (s.time.mode != .pps) WRONG_MODE
def timeTodApply (c : Cmd) (s : State) : Reply := { st := { s with time := { s.time with tod := some (c.q 2) } } }
/-- TIME_TOD (R431). -/
def execTimeTod (c : Cmd) (s : State) : Res := .next (runCmd timeTodSpec timeTodCheck timeTodApply c s)

/-- TIME_OFFSET. -/
def timeOffsetSpec : CmdSpec := { op := 0x0E03, chan := .ch0 }
def timeOffsetCheck (c : Cmd) (s : State) : Nat :=
  let v := off64 (c.w 2) (c.w 3)
  firstCode [rejectIf (s.time.mode != .offset) WRONG_MODE,
    rejectIf ((decide (s.time.thresh < v.natAbs) || !s.rb .TIME_STAT 0 31) && !s.stepFits v) STEP_RANGE]
def timeOffsetApply (c : Cmd) (s : State) : Reply := { st := s.servoSample (off64 (c.w 2) (c.w 3)) }
/-- TIME_OFFSET (R431, R440). -/
def execTimeOffset (c : Cmd) (s : State) : Res := .next (runCmd timeOffsetSpec timeOffsetCheck timeOffsetApply c s)

/-- TIME_PPS_OUT_SET. -/
def timePpsOutSetSpec : CmdSpec := { op := 0x0E04, chan := .ch0, used := [(2, 0x800FFFFF)] }
def timePpsOutSetCheck (c : Cmd) (_ : State) : Nat :=
  let w := c.f 2 19 0
  rejectIf (w == 0 || decide (999999 < w) || decide (500000000 < (sx (c.w 3) 32).natAbs)) BAD_PARAM
def timePpsOutSetApply (c : Cmd) (s : State) : Reply :=
  { st := (s.setReg .TIME_PPS_OUT 0 (putF (putB 0 31 (c.b 2 31)) 19 0 (c.f 2 19 0))).setReg .TIME_PPS_OFS 0 (BitVec.ofNat 32 (c.w 3)) }
/-- TIME_PPS_OUT_SET (R430). -/
def execTimePpsOutSet (c : Cmd) (s : State) : Res := .next (runCmd timePpsOutSetSpec timePpsOutSetCheck timePpsOutSetApply c s)

/-- TIME_TIMER_SET. -/
def timeTimerSetSpec : CmdSpec := { op := 0x0E05, used := [(2, 0xFFFF)] }
/-- The number of the timer that a command names. -/
def timerOf (c : Cmd) : Nat := 64 * c.tenant + c.h
def timeTimerSetCheck (c : Cmd) (s : State) : Nat :=
  let q := c.f 2 15 0
  let mine := match Tbl.find s.time.timers (timerOf c) with
    | some t => ownFail c t.own
    | none => 0
  if 63 < c.h ∨ (0 < c.w 3 ∧ c.w 3 < 1000) then BAD_PARAM
  else if c.w 3 = 0 then mine
  else firstCode [
    rejectIf (decide (q < 49152) || decide (61440 ≤ q)) BAD_PARAM,
    rejectIf (s.dispQ q).isNone BAD_STATE,
    mine,
    (match s.dispQ q with | some d => rejectIf (d.own.fn / 64 != c.tenant) NOT_OWNER | none => 0),
    (match s.dispQ q with | some d => rejectIf d.own.dying BAD_STATE | none => 0),
    rejectIf (c.q 4 != 0 && decide (c.q 4 < s.dev)) TIMER_PAST]
def timeTimerSetApply (c : Cmd) (s : State) : Reply :=
  let p := c.w 3 * 1000
  let tm := if c.w 3 = 0 then Tbl.del s.time.timers (timerOf c)
    else Tbl.set s.time.timers (timerOf c) {
      own := newOwn c s, qid := c.f 2 15 0, period := p
      next := if c.q 4 = 0 then s.ela + p else s.ela + (c.q 4 - s.dev) }
  { st := { s with time := { s.time with timers := tm } } }
/-- TIME_TIMER_SET (R433, R440). -/
def execTimeTimerSet (c : Cmd) (s : State) : Res := .next (runCmd timeTimerSetSpec timeTimerSetCheck timeTimerSetApply c s)

/-- TIME_QUERY. -/
def timeQuerySpec : CmdSpec := { op := 0x0E06, chan := .any, dma := true }
/-- The record's layout is the model's own: mode, lock, `RATE`, the number of offsets, then 64 offsets, newest first. -/
def timeQueryApply (c : Cmd) (s : State) : Reply :=
  let offs := (List.range 64).flatMap fun i => offWords (nth s.time.offsets 0 i)
  { st := s.dma c.fnN (c.q 2) ([s.time.mode.code, s.time.lock.code, (s.reg .TIME_RATE).toNat, s.time.offsets.length] ++ offs) }
/-- TIME_QUERY (R431). -/
def execTimeQuery (c : Cmd) (s : State) : Res := .next (runCmd timeQuerySpec (fun _ _ => 0) timeQueryApply c s)

end Sys2Proof.Machine
end

