-- ==== Sys2Proof/Machine/Trust.lean ====
section
/-! DEFINITION. The flash, the hold-up check, commits, the boot header, images, and the journal's records (R443 to R447,
R451, R460 to R463). -/

namespace Sys2Proof.Machine

def State.updTrust (s : State) (f : Trust → Trust) : State := { s with trust := f s.trust }

/-! ### Hashes and checks -/

/-- SHA-384 of a block, which FIPS 180-4 defines: 12 words. -/
def sha384 (l : List Word) : List Word := (List.range 12).map fun i => nth (Config.transform 7 l) 0 i
/-- Bytes completed or cut to a length. -/
def fixLen (n : Nat) (l : List Byte) : List Byte := (List.range n).map fun i => nth l 0 i
/-- The device's identity keys and signatures (R453), which the fused secret fixes: keys 10 and 11, signatures 8 and 9. -/
def identityKey (ml : Bool) : List Byte := if ml then fixLen 1952 (Config.byteTransform 11 [] []) else fixLen 32 (Config.byteTransform 10 [] [])
/-- A signature of the identity: Ed25519 or ML-DSA-65. -/
def identitySign (ml : Bool) (body : List Byte) : List Byte :=
  if ml then fixLen 3309 (Config.byteTransform 9 [] body) else fixLen 64 (Config.byteTransform 8 [] body)

/-- One bit, and one byte, of CRC-32C. -/
def crcBit (c : Nat) : Nat := if c % 2 = 1 then (c / 2) ^^^ 0x82F63B78 else c / 2
def crcByte (c : Nat) (b : Byte) : Nat :=
  crcBit (crcBit (crcBit (crcBit (crcBit (crcBit (crcBit (crcBit (c ^^^ b.toNat))))))))
/-- CRC-32C of a byte list. -/
def crc32c (l : List Byte) : Nat := l.foldl crcByte 0xFFFFFFFF ^^^ 0xFFFFFFFF

/-- The little-endian bytes of 32-bit numbers. -/
def leWords (l : List Nat) : List Byte := l.flatMap (toLe 4)

/-! ### The flash (R443) -/

/-- A byte of the flash; an erased one reads 0xFF. -/
def Flash.get (f : List (Nat × Byte)) (a : Nat) : Byte := Tbl.get f 0xFF a
/-- One byte programmed: programming clears bits only. -/
def Flash.prog (f : List (Nat × Byte)) (a : Nat) (b : Byte) : List (Nat × Byte) :=
  let v := Flash.get f a &&& b
  if v = 0xFF then Tbl.del f a else Tbl.set f a v
/-- Bytes programmed from an address. -/
def Flash.progAll (f : List (Nat × Byte)) (a : Nat) : List Byte → List (Nat × Byte)
  | [] => f
  | b :: r => Flash.progAll (Flash.prog f a b) (a + 1) r
/-- A range erased. -/
def Flash.erase (f : List (Nat × Byte)) (a n : Nat) : List (Nat × Byte) := Tbl.keep f fun k _ => decide (k < a ∨ a + n ≤ k)
/-- `n` bytes from an address. -/
def Flash.read (f : List (Nat × Byte)) (a n : Nat) : List Byte := (List.range n).map fun i => Flash.get f (a + i)
/-- The word at an address. -/
def Flash.word (f : List (Nat × Byte)) (a : Nat) : Nat := leNat (Flash.read f a 4)

/-- Bytes of the flash: the 2 Gbit device. -/
abbrev flashSize : Nat := 0x10000000
/-- The journal region (R443). -/
abbrev jrnlBase : Nat := 0x4100000
abbrev jrnlBytes : Nat := 0xBF00000

/-! ### The hold-up check and commits (R462, R463) -/

/-- Bank voltage in mV, available energy and need in µJ (R462). -/
def State.bankV (s : State) : Nat := s.trust.sense * s.rf .JRNL_HUP_CFG 0 31 20 / 256
def State.bankEnergy (s : State) : Nat := s.rf .JRNL_HUP_CFG 0 19 0 * s.bankV ^ 2 / 2000000
def State.commitNeed (s : State) (erase : Bool) : Nat :=
  s.rf .JRNL_HUP_LOAD 0 19 0 * (if erase then s.rf .JRNL_HUP_TIME 0 31 12 else s.rf .JRNL_HUP_TIME 0 11 0) / 1000
    + (s.reg .JRNL_HUP_RSV).toNat

/-- `JRNL_RESULT.RESULT` takes a code. -/
def State.jrnlResult (s : State) (r : Nat) : State := s.setRf .JRNL_RESULT 0 31 29 r
abbrev J_BUSY : Nat := 1
abbrev J_DONE : Nat := 2
abbrev J_NO_HOLDUP : Nat := 3
abbrev J_PFAIL : Nat := 4
abbrev J_BAD_PARAM : Nat := 5
abbrev J_FLASH_ERR : Nat := 6

/-- PFAIL_N has been low for 1 µs (R463). -/
def State.pfailOn (s : State) : State :=
  if s.rb .JRNL_STAT 0 31 then s
  else (((s.setRb .JRNL_STAT 0 31 true).setRb .JRNL_STAT 0 30 true).chan2 S2_PFAIL 1).notifyAll 0x0D80 0 [1]

/-- The next conversion of HUP_SNS is taken; its result shows in `V_MV`. -/
def State.convert (s : State) : State :=
  let s := match s.trust.senses with
    | v :: r => s.updTrust fun t => { t with sense := v, senses := r }
    | [] => s
  s.setRf .JRNL_STAT 0 15 0 (min 65535 s.bankV)

/-- A refused commit is counted and reported. -/
def State.refuseCommit (s : State) (code : Nat) : State × Nat :=
  ((s.updTrust fun t => { t with refused := min 65535 (t.refused + 1) }).jrnlResult code, code)

/-- May a commit start (R462, R463)? The state after the check, and 0 or the result that refuses it. -/
def State.mayCommit (s0 : State) (erase : Bool) : State × Nat :=
  let s := match s0.trust.cut with
    | some 0 => (s0.updTrust fun t => { t with cut := none }).pfailOn
    | some (n + 1) => s0.updTrust fun t => { t with cut := some n }
    | none => s0
  if s.rb .JRNL_STAT 0 31 then s.refuseCommit J_PFAIL
  else
    let s1 := s.convert
    let s2 := (s1.setReg .JRNL_HUP_AVAIL 0 (BitVec.ofNat 32 (min 0xFFFFFFFF s1.bankEnergy))).setReg .JRNL_HUP_NEED 0
      (BitVec.ofNat 32 (min 0xFFFFFFFF (s1.commitNeed erase)))
    if s1.rf .JRNL_HUP_CFG 0 31 20 ≠ 0 ∧ s1.commitNeed erase ≤ s1.bankEnergy then (s2, 0) else s2.refuseCommit J_NO_HOLDUP

/-- One page programmed by firmware or the ROM in one commit. -/
def State.progPage (s : State) (a : Nat) (page : List Byte) : State × Nat :=
  match s.mayCommit false with
  | (s, 0) => ((s.updTrust fun t => { t with flash := Flash.progAll t.flash a page }).jrnlResult J_DONE, 0)
  | r => r

/-- One sector erased in one commit. -/
def State.eraseSector (s : State) (a : Nat) : State × Nat :=
  match s.mayCommit true with
  | (s, 0) => ((s.updTrust fun t => { t with flash := Flash.erase t.flash a 4096 }).jrnlResult J_DONE, 0)
  | r => r

/-- Steps of the anti-rollback counter that are reached (R452). -/
def otpCount (v : BitVec 64) : Nat := ((List.range 64).filter fun i => v.getLsbD i).length
/-- `OTP_CTR` follows the fuses. -/
def State.otpShow (s : State) : State := s.setRf .TRUST_STAT 0 15 8 (otpCount s.trust.otp)
/-- A step's fuse is blown. -/
def State.burnStep (s : State) (n : Nat) : State := (s.updTrust fun t => { t with otp := t.otp ||| BitVec.ofNat 64 (2 ^ n) }).otpShow
/-- The lowest step not yet reached. -/
def State.nextStep (s : State) : Nat := ((List.range 64).find? fun i => !s.trust.otp.getLsbD i).getD 64
/-- One step burned in one commit. -/
def State.fuseStep (s : State) : State × Nat :=
  match s.mayCommit true with
  | (s, 0) => ((s.burnStep s.nextStep).jrnlResult J_DONE, 0)
  | r => r

/-- The conversions and the power failure that a command's commits meet. -/
def State.withPower (s : State) (c : Cmd) : State := s.updTrust fun t => { t with senses := c.sense, cut := c.pfailAt }
/-- They end with the command. -/
def State.endPower (s : State) : State := s.updTrust fun t => { t with senses := [], cut := none }

/-! ### The boot header (R444, R445) -/

/-- A boot-header copy: sequence, the words of slots A and B, and the four hold-up words. -/
structure Hdr where
  seq : Nat
  slots : List Nat
  hup : List Nat
  /-- 0 the copy at 0x000_0000, 1 the copy at 0x000_8000. -/
  copy : Nat

/-- A header copy, if its CRC-32C is correct. -/
def Flash.hdr (f : List (Nat × Byte)) (copy : Nat) : Option Hdr :=
  let b := copy * 0x8000
  let w (o : Nat) : Nat := Flash.word f (b + o)
  if crc32c (Flash.read f b 0xFC) = w 0xFC then
    some { seq := w 4, slots := [w 8, w 0xC], hup := [w 0x10, w 0x14, w 0x18, w 0x1C], copy }
  else none

/-- The governing copy (R444). -/
def State.hdr (s : State) : Option Hdr :=
  match Flash.hdr s.trust.flash 0, Flash.hdr s.trust.flash 1 with
  | some a, some b => some (if newer 32 b.seq a.seq then b else a)
  | some a, none => some a
  | none, o => o

/-- The 256 bytes of a header copy. -/
def hdrPage (seq : Nat) (slots hup : List Nat) : List Byte :=
  let body := leWords ([0x50554248, seq] ++ slots ++ hup) ++ List.replicate 0xDC 0
  body ++ toLe 4 (crc32c body)

/-- The hold-up words in force (R445). -/
def State.hupWords (s : State) : List Nat :=
  [(s.reg .JRNL_HUP_CFG).toNat, (s.reg .JRNL_HUP_LOAD).toNat, (s.reg .JRNL_HUP_TIME).toNat, (s.reg .JRNL_HUP_RSV).toNat]

/-- The header changed by erasing and programming the copy that does not govern (R444). -/
def State.writeHdr (s : State) (slots : List Nat) : State × Nat :=
  let (c, q) := match s.hdr with | some h => (1 - h.copy, (h.seq + 1) % 2 ^ 32) | none => (0, 0)
  match s.eraseSector (c * 0x8000) with
  | (s, 0) => s.progPage (c * 0x8000) (hdrPage q slots s.hupWords)
  | r => r

/-- The word of a slot in the governing header; without one, EMPTY. -/
def State.slotWord (s : State) (i : Nat) : Nat := match s.hdr with | some h => nth h.slots 0 i | none => 0
/-- A slot's state, trial boots and SVN. -/
def State.slotFw (s : State) (i : Nat) : SlotFw := SlotFw.ofCode (bits (s.slotWord i) 31 28)
def State.slotTrials (s : State) (i : Nat) : Nat := bits (s.slotWord i) 27 24
def State.slotSvn (s : State) (i : Nat) : Nat := bits (s.slotWord i) 7 0
/-- A slot's word from its parts. -/
def slotWordOf (st : SlotFw) (trials svn : Nat) : Nat := st.code * 2 ^ 28 + trials % 16 * 2 ^ 24 + svn % 256
/-- One slot's word changed in the header. -/
def State.setSlotWord (s : State) (i w : Nat) : State × Nat := s.writeHdr (([s.slotWord 0, s.slotWord 1]).set i w)
/-- A slot is marked BAD; without the commit it keeps its state (R445). -/
def State.markBad (s : State) (i : Nat) : State × Nat := s.setSlotWord i (slotWordOf .bad (s.slotTrials i) (s.slotSvn i))

/-! ### Images (R446, R447) -/

/-- Flash address of a slot. -/
def slotAddr (i : Nat) : Nat := if i = 0 then 0x100000 else 0x2100000
/-- A word of a slot's image header. -/
def State.imgWord (s : State) (i o : Nat) : Nat := Flash.word s.trust.flash (slotAddr i + o)
/-- Its OTP key index, version, SVN, `STATE_FMT`, `STATE_MIN` and `LIVE_OK`. -/
def State.imgKey (s : State) (i : Nat) : Nat := s.imgWord i 4 % 4
def State.imgSvn (s : State) (i : Nat) : Nat := s.imgWord i 0xC % 256
def State.imgFmt (s : State) (i : Nat) : Nat := s.imgWord i 0x18 % 65536
/-- The facts of a slot's image. -/
def State.imgFact (s : State) (i : Nat) : ImgFact := Tbl.get s.trust.imgs {} i
/-- Condition 1 of R447. -/
def State.imgFormatOk (s : State) (i : Nat) : Bool :=
  s.imgWord i 0 == 0x50554657 && s.imgWord i 4 / 65536 == 1 && decide (s.imgSvn i ≤ 64)
    && s.imgWord i 0x10 % 64 == 0 && decide (s.imgWord i 0x10 ≤ 6 * 2 ^ 20) && decide (s.imgWord i 0x14 ≤ 24 * 2 ^ 20)
/-- The number of the first condition of R447 that a slot's image fails, 0 when it verifies, and the `BOOT` code. -/
def State.verify (s : State) (i : Nat) : Nat × Nat :=
  let f := s.imgFact i
  if !s.imgFormatOk i then (1, 8)
  else if !f.keyOk then (2, 3)
  else if s.trust.revoked.getLsbD (s.imgKey i) then (2, 4)
  else if !f.ed then (3, 5)
  else if !f.ml then (4, 6)
  else if s.imgSvn i < otpCount s.trust.otp then (5, 7)
  else (0, 0)

/-! ### Records (R460, R461) -/

abbrev REC_TEST : Nat := 1
abbrev REC_AUDIT : Nat := 2
abbrev REC_SNAP : Nat := 3
abbrev REC_PINS : Nat := 4

/-- Pages of a record with a payload of `n` bytes. -/
def recPages (n : Nat) : Nat := cdiv (n + 48) 256
/-- The bytes of a record: header, payload, and the seal at the end of its last page. -/
def JRec.bytes (r : JRec) : List Byte :=
  let head := leWords [0x50554A52, (if r.tenant < 4 then r.tenant * 256 else 0) + r.typ, r.payload.length, 0,
    r.seq % 2 ^ 32, r.seq / 2 ^ 32, r.time % 2 ^ 32, r.time / 2 ^ 32]
  let body := head ++ r.payload
  let pad := recPages r.payload.length * 256 - 48 - r.payload.length
  body ++ List.replicate pad 0xFF ++ leWords [r.seq % 2 ^ 32, r.seq / 2 ^ 32, crc32c body, 0x5345414C]
/-- Bytes of flash that a record takes. -/
def JRec.span (r : JRec) : Nat := recPages r.payload.length * 256

/-- An address of the journal region that lies `n` bytes after another, the region being a circle. -/
def jrnlAdd (a n : Nat) : Nat := jrnlBase + (a - jrnlBase + n) % jrnlBytes
/-- How far an address lies ahead of another in the region. -/
def jrnlDist (b a : Nat) : Nat := (b + jrnlBytes - a) % jrnlBytes
/-- Bytes from the next page on that are erased. -/
def State.erasedAhead (s : State) : Nat :=
  s.trust.flash.foldl (fun m kv => if jrnlBase ≤ kv.1 then min m (jrnlDist kv.1 s.trust.next) else m) jrnlBytes

/-- Does a record touch a sector? -/
def JRec.inSector (r : JRec) (a : Nat) : Bool := decide (jrnlDist r.addr a < 4096) || decide (jrnlDist a r.addr < r.span)
/-- The record that firmware must keep: the newest SNAPSHOT of each tenant, TEST_RESULT and TRUST_PINS. -/
def State.isNewest (s : State) (r : JRec) : Bool :=
  r.typ != REC_AUDIT && (s.trust.recs.find? fun x => x.typ == r.typ && (r.typ != REC_SNAP || x.tenant == r.tenant)) == some r

/-- Pages programmed one after another from the next unwritten one; the state, the number done and the result that stopped
them. -/
def State.progPages (s : State) : Nat → List Byte → State × Nat
  | 0, _ => (s, 0)
  | n + 1, l =>
    match s.progPage s.trust.next (l.take 256) with
    | (s, 0) => State.progPages (s.updTrust fun t => { t with next := jrnlAdd t.next 256 }) n (l.drop 256)
    | r => r

/-- Words 20 to 23 of the retention words (R451). -/
def State.jrnlRet (s : State) : State :=
  let q := match s.trust.recs with | r :: _ => r.seq | [] => 0
  (((s.setReg .SAFE_RET 20 (BitVec.ofNat 32 q)).setReg .SAFE_RET 21 (BitVec.ofNat 32 (q / 2 ^ 32))).setReg .SAFE_RET 22
    (BitVec.ofNat 32 s.trust.next)).setReg .SAFE_RET 23 (BitVec.ofNat 32 s.trust.oldest)

/-- A record written at the next page; when its seal is programmed it is in the list, newest first by sequence. -/
def State.putRec (s : State) (r : JRec) : State × Nat :=
  let r := { r with addr := s.trust.next }
  if s.erasedAhead < r.span then s.refuseCommit J_NO_HOLDUP
  else match s.progPages (recPages r.payload.length) r.bytes with
    | (s, 0) => ((s.updTrust fun t => { t with
        recs := t.recs.filter (fun x => decide (r.seq < x.seq)) ++ r :: t.recs.filter fun x => decide (x.seq < r.seq) }).jrnlRet, 0)
    | (s, e) => (s.jrnlRet, e)

/-- The records of a sector that must be kept are copied forward, each with its sequence. -/
def State.copyForward (s : State) (a : Nat) : State × Nat :=
  (s.trust.recs.reverse.filter fun r => r.inSector a && s.isNewest r).foldl (fun (p : State × Nat) r =>
    if p.2 ≠ 0 then p else p.1.putRec r) (s, 0)

/-- Firmware keeps 1 MiB erased ahead of the next page: it reclaims the oldest sectors, each after its copies (R461). -/
def State.reclaim (s : State) : Nat → State
  | 0 => s
  | n + 1 =>
    let d := s.erasedAhead
    if 2 ^ 20 ≤ d then s
    else
      let a := jrnlAdd s.trust.next d / 4096 * 4096
      match s.copyForward a with
      | (s, 0) =>
        match s.eraseSector a with
        | (s, 0) => State.reclaim (s.updTrust fun t => { t with
            recs := t.recs.filter fun r => !r.inSector a, oldest := jrnlAdd a 4096 }).jrnlRet n
        | (s, _) => s
      | (s, _) => s

/-- A record with the next sequence committed; 0, or the result that stopped it. -/
def State.commitRec (s : State) (typ tenant : Nat) (payload : List Byte) : State × Nat :=
  let s := s.reclaim 1024
  match s.putRec { seq := s.trust.seq, typ, tenant, time := s.dev, payload } with
  | (s, 0) => (s.updTrust fun t => { t with seq := t.seq + 1 }, 0)
  | r => r

/-- AUDIT records that wait are committed, oldest first, until one is refused. -/
def State.flushAudits (s : State) : Nat → State
  | 0 => s
  | n + 1 =>
    match s.trust.audits with
    | [] => s
    | p :: r =>
      if s.trust.job.isSome then s
      else match s.commitRec REC_AUDIT 4 p with
        | (s, 0) => State.flushAudits (s.updTrust fun t => { t with audits := r }) n
        | (s, _) => s

/-- The event codes of AUDIT records, the model's own numbers. -/
abbrev A_BOOT : Nat := 0
abbrev A_STAGE : Nat := 1
abbrev A_ACTIVATE : Nat := 2
abbrev A_CONFIRM : Nat := 3
abbrev A_ROLLBACK : Nat := 4
abbrev A_REVOKE : Nat := 5
abbrev A_PIN : Nat := 6
abbrev A_BLEACH : Nat := 7
abbrev A_KERNEL : Nat := 8
abbrev A_WARM : Nat := 9
abbrev A_FENCE : Nat := 10
abbrev A_LIVE : Nat := 11

/-- An AUDIT record is due: it joins those that wait, and they are committed as far as the bank allows. -/
def State.audit (s : State) (code : Nat) (fields : List Nat := []) : State :=
  let s := s.updTrust fun t => { t with audits := t.audits ++ [leWords (code :: fields)] }
  s.flushAudits s.trust.audits.length

/-- A record of a command, after the AUDIT records that wait. -/
def State.commitCmdRec (s : State) (typ tenant : Nat) (payload : List Byte) : State × Nat :=
  (s.flushAudits s.trust.audits.length).commitRec typ tenant payload

/-- The sealed record that starts at a flash address, if there is one. -/
def Flash.rec (f : List (Nat × Byte)) (a : Nat) : Option JRec :=
  let at' (o n : Nat) : List Byte := (List.range n).map fun i => Flash.get f (jrnlAdd a (o + i))
  let w (o : Nat) : Nat := leNat (at' o 4)
  let n := w 8
  let e := recPages n * 256
  if w 0 = 0x50554A52 ∧ n ≤ 2 ^ 20 ∧ w (e - 4) = 0x5345414C ∧ w (e - 16) = w 0x10 ∧ w (e - 12) = w 0x14
      ∧ w (e - 8) = crc32c (at' 0 (32 + n)) then
    some { seq := w 0x10 + 2 ^ 32 * w 0x14, typ := w 4 % 256, tenant := if w 4 % 256 = REC_SNAP then bits (w 4) 9 8 else 4
           time := w 0x18 + 2 ^ 32 * w 0x1C, payload := at' 32 n, addr := a }
  else none

/-- Firmware reads the journal at a start: the sealed records, newest first, and where the next one goes. -/
def State.scanJournal (s : State) : State :=
  let f := s.trust.flash
  let starts := (f.filter fun kv => decide (jrnlBase ≤ kv.1) && kv.1 % 256 == 0).map (·.1)
  let ins (l : List JRec) (r : JRec) : List JRec := l.filter (fun x => decide (r.seq < x.seq)) ++ r :: l.filter fun x => decide (x.seq < r.seq)
  let recs := (starts.filterMap (Flash.rec f)).foldl ins []
  let used := f.filter fun kv => decide (jrnlBase ≤ kv.1)
  -- the last written page follows the newest record, or a torn one after it
  let last := match recs with
    | r :: _ => used.foldl (fun m kv => if jrnlDist kv.1 r.addr < 2 ^ 20 + 65536 then max m (jrnlDist kv.1 r.addr) else m) (r.span - 1)
    | [] => 0
  let next := match recs with
    | r :: _ => jrnlAdd r.addr ((last / 256 + 1) * 256)
    | [] => (match used.getLast? with | some kv => jrnlAdd (kv.1 / 256 * 256) 256 | none => jrnlBase)
  s.updTrust fun t => { t with
    recs, next
    oldest := match recs.getLast? with | some r => r.addr / 4096 * 4096 | none => jrnlBase
    seq := match recs with | r :: _ => r.seq + 1 | [] => 1 }

end Sys2Proof.Machine
end

