-- ==== Sys2Proof/Machine/KernelCmds.lean ====
section
/-! DEFINITION. The KERNEL commands (chapter 9). -/

namespace Sys2Proof.Machine

abbrev KEY_SLOT_BUSY : Nat := 0x0A00
abbrev KERNEL_IN_USE : Nat := 0x0A01
abbrev KERNEL_LIMIT : Nat := 0x0A02
abbrev IMAGE_BAD : Nat := 0x0A03
abbrev QUEUE_IN_USE : Nat := 0x0A04
abbrev POOL_OVERCOMMIT : Nat := 0x0A05

/-- A query's answer: the record written to the host address in words 2 and 3. -/
def queryReply (c : Cmd) (s : State) (rec : List Nat) : Reply := { st := s.dma c.fnN (c.q 2) rec }

/-! ### Keys and images -/

/-- KERNEL_KEY_SET. -/
def kernelKeySetSpec : CmdSpec := { op := 0x0A00, minor := 3, chan := .pf, dma := true }
def kernelKeySetCheck (c : Cmd) (s : State) : Nat :=
  firstFail [
    (decide (3 < c.h), BAD_PARAM),
    (s.disp.kernels.any fun kv => kv.2.own.fn / 64 == c.tenant && !kv.2.damilo && kv.2.keySlot == c.h, KEY_SLOT_BUSY),
    ((match Tbl.find s.trust.pins (4 * c.tenant + c.h) with
      | some d => c.dmaOk && sha384 (c.host.take 496) != d
      | none => false), AUTH_FAIL)]
def kernelKeySetApply (c : Cmd) (s : State) : Reply :=
  { st := s.updDisp fun d => { d with keys := Tbl.set d.keys (4 * c.tenant + c.h) (c.host.take 496) } }
/-- KERNEL_KEY_SET (R286, R466). -/
def execKernelKeySet (c : Cmd) (s : State) : Res := .next (runCmd kernelKeySetSpec kernelKeySetCheck kernelKeySetApply c s)

/-- The header of an image (R285): is it well formed for an image of `n` bytes? -/
def imageOk (h : List Word) (n : Nat) : Bool :=
  let w := fun i => (nth h 0 i).toNat
  w 0 == 0x50554B31 && w 1 / 65536 == 1 && w 2 % 4 == 0 && decide (w 2 ≤ 2 ^ 20) && decide (w 3 ≤ 16 * 2 ^ 20)
    && bits (w 4) 30 16 == 0 && w 5 == 0 && w 6 == 0 && w 7 == 0 && decide (64 ≤ n)

/-- KERNEL_LOAD. -/
def kernelLoadSpec : CmdSpec := { op := 0x0A01, minor := 3, dma := true, used := [(4, 0xFFFFFF), (5, 0x3)] }
def kernelLoadCheck (c : Cmd) (s : State) : Nat :=
  let n := c.f 4 23 0
  firstFail [
    (decide (c.h < 256) || decide (1023 < c.h), BAD_PARAM),
    (Tbl.has s.disp.kernels c.h, KERNEL_IN_USE),
    (decide (192 ≤ (Tbl.keysWhere s.disp.kernels fun _ k => !k.damilo && k.own.fn / 64 == c.tenant).length), KERNEL_LIMIT),
    (c.dmaOk && (!imageOk c.host n || !c.authOk || !Tbl.has s.disp.keys (4 * c.tenant + c.f 5 1 0)), AUTH_FAIL),
    (c.dmaOk && n != 64 + (nth c.host 0 2).toNat + (nth c.host 0 3).toNat + 64 + 3309, IMAGE_BAD)]
def kernelLoadApply (c : Cmd) (s : State) : Reply :=
  let w := fun i => (nth c.host 0 i).toNat
  let (ro, s1) := s.freeWord
  let k : Kernel := {
    own := newOwn c s, version := w 1 % 65536, audio := (w 4).testBit 31, cost := w 4 % 65536, code := w 2, roBytes := w 3
    name := (c.host.drop 8).take 8, image := c.host.take ((64 + w 2 + w 3 + 3) / 4), ro := ro.toNat, keySlot := c.f 5 1 0
    load := s.disp.loads + 1 }
  let s2 := s1.updDisp fun d => { d with kernels := Tbl.set d.kernels c.h k, loads := d.loads + 1 }
  { st := s2.audit A_KERNEL (c.h :: (sha384 k.image).map BitVec.toNat) }
/-- KERNEL_LOAD (R286), with its AUDIT record (R460). -/
def execKernelLoad (c : Cmd) (s : State) : Res := .next (runCmd kernelLoadSpec kernelLoadCheck kernelLoadApply c s)

/-- The right over a kernel: Damilo's belong to firmware. -/
def kernelTarget (c : Cmd) (s : State) : Nat :=
  if 1023 < c.h then BAD_PARAM
  else match s.kernel c.h with
    | none => BAD_STATE
    | some k => if k.damilo then NOT_OWNER else ownFail c k.own

/-- KERNEL_UNLOAD. -/
def kernelUnloadSpec : CmdSpec := { op := 0x0A02, minor := 3 }
def kernelUnloadCheck (c : Cmd) (s : State) : Nat :=
  firstCode [kernelTarget c s,
    rejectIf ((s.disp.qs.any fun kv => kv.2.kern == c.h) || s.disp.chains.any fun kv => kv.2.kerns.contains c.h) KERNEL_IN_USE]
def kernelUnloadApply (c : Cmd) (s : State) : Reply := { st := s.updDisp fun d => { d with kernels := Tbl.del d.kernels c.h } }
/-- KERNEL_UNLOAD (R290). -/
def execKernelUnload (c : Cmd) (s : State) : Res := .next (runCmd kernelUnloadSpec kernelUnloadCheck kernelUnloadApply c s)

/-! ### Queues -/

/-- May the issuer bind the kernel (R287)? -/
def bindFail (c : Cmd) (s : State) (k : Nat) : Nat :=
  match s.kernel k with
  | none => BAD_STATE
  | some x => if x.damilo || x.own.fn / 64 == c.tenant then (if x.own.dying then BAD_STATE else 0) else NOT_OWNER

/-- KERNEL_QUEUE_CFG. -/
def kernelQueueCfgSpec : CmdSpec := {
    op := 0x0A03, minor := 3
    used := [(2, 0xFFFF0000), (5, 0x1FFFFF), (6, 0xFFFF), (7, 0x1FFF)] }
def kernelQueueCfgCheck (c : Cmd) (s : State) : Nat :=
  let typ := c.f 2 31 30
  let rank := c.f 2 29 27
  let k := c.f 2 25 16
  firstCode [
    rejectIf (decide (c.h < 49152) || decide (61440 ≤ c.h) || typ == 3 || decide (rank < 2) || decide (6 < rank)
      || c.q 3 == 0 || c.f 5 19 0 == 0 && c.f 5 20 0 == 0 || decide (1048576 < c.w 5)
      || (typ == 2 && (c.f 7 12 0 == 0 || decide (4096 < c.f 7 12 0)))) BAD_PARAM,
    (match Tbl.find s.disp.qs c.h with
      | some d => if d.own.dying && d.own.fn != c.fnN then QUEUE_IN_USE else ownFail c d.own
      | none => rejectIf (s.sharedQ c.h) QUEUE_IN_USE),
    bindFail c s k,
    rejectIf (rank == 2 && (match s.kernel k with | some x => !x.audio | none => true)) BAD_PARAM,
    (match Tbl.find s.disp.qs c.h with
      | some d => rejectIf (d.typ != typ && !d.items.isEmpty) BAD_STATE
      | none => 0)]
def kernelQueueCfgApply (c : Cmd) (s : State) : Reply :=
  let old := Tbl.get s.disp.qs { own := newOwn c s } c.h
  let lim := c.f 6 15 0
  let d := { old with
    typ := c.f 2 31 30, rank := c.f 2 29 27, kern := c.f 2 25 16, mask := BitVec.ofNat 64 (c.q 3), limit := c.w 5
    itemLimit := if lim = 0 then 1000 else lim, ordWin := if c.f 7 12 0 = 0 then old.ordWin else c.f 7 12 0 }
  { st := s.setDispQ c.h d }
/-- KERNEL_QUEUE_CFG (R287). -/
def execKernelQueueCfg (c : Cmd) (s : State) : Res := .next (runCmd kernelQueueCfgSpec kernelQueueCfgCheck kernelQueueCfgApply c s)

/-- A dispatch queue as a target. -/
def dispTarget (c : Cmd) (s : State) : Nat :=
  if c.h < 49152 ∨ 61440 ≤ c.h then BAD_PARAM else target c s.disp.qs (·.own) c.h

/-- KERNEL_QUEUE_RELEASE. -/
def kernelQueueReleaseSpec : CmdSpec := { op := 0x0A04, minor := 3 }
def kernelQueueReleaseApply (c : Cmd) (s : State) : Reply :=
  { st := (s.flushQ c.h).updDisp fun d => { d with qs := Tbl.del d.qs c.h } }
/-- KERNEL_QUEUE_RELEASE (R269). -/
def execKernelQueueRelease (c : Cmd) (s : State) : Res :=
  .next (runCmd kernelQueueReleaseSpec dispTarget kernelQueueReleaseApply c s)

/-- The kernels that KERNEL_CHAIN_SET names. -/
def chainKerns (c : Cmd) : List Nat := (List.range (c.f 2 2 0)).map fun i => c.f (3 + i) 9 0

/-- KERNEL_CHAIN_SET. -/
def kernelChainSetSpec : CmdSpec := {
    op := 0x0A05, minor := 3
    used := [(2, 0x7), (3, 0x3FF), (4, 0x3FF), (5, 0x3FF), (6, 0x3FF), (7, 0xFFFF)] }
def kernelChainSetCheck (c : Cmd) (s : State) : Nat :=
  let q := c.f 7 15 0
  firstCode ([
    rejectIf (c.h == 0 || decide (255 < c.h) || c.f 2 2 0 == 0 || decide (4 < c.f 2 2 0)
      || decide (q < 49152) || decide (61440 ≤ q)) BAD_PARAM,
    (match Tbl.find s.disp.chains c.h with | some x => ownFail c x.own | none => 0),
    target c s.disp.qs (·.own) q] ++ (chainKerns c).map (bindFail c s) ++ [
    rejectIf ((Tbl.get s.disp.qs {} q).rank != 2) BAD_PARAM])
def kernelChainSetApply (c : Cmd) (s : State) : Reply :=
  let own := match Tbl.find s.disp.chains c.h with | some x => x.own | none => newOwn c s
  { st := s.updDisp fun d => { d with chains := Tbl.set d.chains c.h { own, kerns := chainKerns c, qid := c.f 7 15 0 } } }
/-- KERNEL_CHAIN_SET (R288). -/
def execKernelChainSet (c : Cmd) (s : State) : Res := .next (runCmd kernelChainSetSpec kernelChainSetCheck kernelChainSetApply c s)

/-- KERNEL_QUERY. -/
def kernelQuerySpec : CmdSpec := { op := 0x0A06, minor := 3, dma := true, used := [(4, 0x1)] }
def kernelQueryCheck (c : Cmd) (s : State) : Nat :=
  if c.b 4 0 then
    (if 1023 < c.h then BAD_PARAM else match s.kernel c.h with
      | none => BAD_STATE
      | some k => if k.damilo then 0 else ownFail c k.own)
  else dispTarget c s
def kernelQueryApply (c : Cmd) (s : State) : Reply :=
  if c.b 4 0 then
    let k := (s.kernel c.h).getD {}
    queryReply c s ([c.h, k.version, b2n k.audio, k.cost, k.code, k.roBytes, b2n k.suspended, k.faults.length] ++ k.name.map BitVec.toNat)
  else
    let d := Tbl.get s.disp.qs {} c.h
    queryReply c s [c.h, d.typ, d.rank, d.kern, d.mask.toNat % 2 ^ 32, d.mask.toNat / 2 ^ 32, d.limit, d.itemLimit, d.ordWin,
      d.items.length, d.done, d.errors, d.drops]
/-- KERNEL_QUERY (R290). -/
def execKernelQuery (c : Cmd) (s : State) : Res := .next (runCmd kernelQuerySpec kernelQueryCheck kernelQueryApply c s)

/-- KERNEL_RESUME. -/
def kernelResumeSpec : CmdSpec := { op := 0x0A07, minor := 3 }
def kernelResumeApply (c : Cmd) (s : State) : Reply :=
  { st := s.updDisp fun d => { d with kernels := Tbl.upd d.kernels c.h fun k => { k with suspended := false } } }
/-- KERNEL_RESUME (R282). -/
def execKernelResume (c : Cmd) (s : State) : Res := .next (runCmd kernelResumeSpec kernelTarget kernelResumeApply c s)

/-- KERNEL_TENANT_SET. -/
def kernelTenantSetSpec : CmdSpec := { op := 0x0A08, minor := 3, chan := .ch0, used := [(2, 0x1FFFFF)] }
def kernelTenantSetCheck (c : Cmd) (s : State) : Nat :=
  let others := sumN ((List.range 4).map fun t => if t = c.h then 0 else s.itemMin t)
  firstFail [
    (decide (3 < c.h), BAD_PARAM),
    (decide (1048576 < others + c.f 2 20 0 + s.rf .DISP_POOL 0 20 0), POOL_OVERCOMMIT)]
def kernelTenantSetApply (c : Cmd) (s : State) : Reply :=
  { st := s.updDisp fun d => { d with itemMin := Tbl.set d.itemMin c.h (c.f 2 20 0) } }
/-- KERNEL_TENANT_SET (R272). -/
def execKernelTenantSet (c : Cmd) (s : State) : Res := .next (runCmd kernelTenantSetSpec kernelTenantSetCheck kernelTenantSetApply c s)

end Sys2Proof.Machine
end

