-- ==== Sys2Proof/Machine/Keys.lean ====
section
/-! DEFINITION. Key slots, captures, indices, the lanes' checks and the key window (R295 to R312, R317). -/

namespace Sys2Proof.Machine

/-- A counter of the crypto plane (R317). -/
def State.cntCrypt (s : State) (k : Nat) : State := s.bump .CRYPT_CNT_LO k

abbrev K_DEC_PKTS : Nat := 0
abbrev K_ENC_PKTS : Nat := 1
abbrev K_AUTH_FAIL : Nat := 2
abbrev K_REPLAY : Nat := 3
abbrev K_INDEX_REFUSED : Nat := 4
abbrev K_ERASED_DROPS : Nat := 5
abbrev K_NO_KEY : Nat := 6
abbrev K_KIND_MISMATCH : Nat := 7

/-! ### Slots -/

/-- A slot; one that was never loaded is EMPTY with no owner. -/
def State.slot (s : State) (k : Nat) : KeySlot := Tbl.get s.keys.slots {} k
/-- Replace a slot. -/
def State.setSlot (s : State) (k : Nat) (v : KeySlot) : State :=
  { s with keys := { s.keys with slots := Tbl.set s.keys.slots k v } }
/-- Change a slot. -/
def State.updSlot (s : State) (k : Nat) (f : KeySlot → KeySlot) : State := s.setSlot k (f (s.slot k))

/-- Half `i` of a slot. -/
def KeySlot.half (k : KeySlot) (i : Nat) : KeyHalf := if i = 0 then k.h0 else k.h1
/-- Replace half `i`. -/
def KeySlot.setHalf (k : KeySlot) (i : Nat) (h : KeyHalf) : KeySlot := if i = 0 then { k with h0 := h } else { k with h1 := h }
/-- Track `i` of a slot. -/
def KeySlot.track (k : KeySlot) (i : Nat) : Track := if i = 0 then k.t0 else k.t1
/-- Replace track `i`. -/
def KeySlot.setTrack (k : KeySlot) (i : Nat) (t : Track) : KeySlot := if i = 0 then { k with t0 := t } else { k with t1 := t }
/-- Saturating 32-bit count. -/
def sat32 (n : Nat) : Nat := min (n + 1) 0xFFFFFFFF

/-- A slot named by a tenant's command must be the tenant's or nobody's (R296). -/
def slotFail (c : Cmd) (s : State) (k : Nat) : Nat :=
  match (s.slot k).own with
  | none => 0
  | some o => if o.fn / 64 = c.tenant then 0 else NOT_OWNER

/-! ### Retiring, capture and release (R297, R310) -/

/-- Has no index below the switch index a chance any more (R310)? -/
def KeySlot.passed (k : KeySlot) (sw : Nat) : Bool :=
  [0, 1].all fun i => match (k.track i).ref with
    | none => true
    | some r => if k.enc then decide (sw + 64 < Tbl.get (k.half k.act).h 0 i) else decide (sw + 128 ≤ r)

/-- The old half of a slot that drains retires once nothing needs it (R310). -/
def KeySlot.retire (k : KeySlot) : KeySlot :=
  let old := 1 - k.act
  if k.st = .draining ∧ (k.half old).count = 0 ∧ (match k.sw with | none => true | some w => k.passed w) = true then
    { k.setHalf old {} with st := .active, sw := none }
  else k

/-- The halves that a capture counts (R297). -/
def KeySlot.capHalves (k : KeySlot) : List Nat := if k.sw.isSome then [0, 1] else [k.act]

/-- A packet captures a slot's generation for an encrypt or decrypt use of SRTP or SRTCP; none when it is dropped and
counted (R297). -/
def State.capture (s : State) (k : Nat) (enc srtcp : Bool) : State × Option Cap :=
  let v := s.slot k
  if v.st = .empty ∨ v.st = .exhausted then (s.cntCrypt K_NO_KEY, none)
  else if v.enc ≠ enc ∨ v.srtcp ≠ srtcp then (s.cntCrypt K_KIND_MISMATCH, none)
  else
    let hs := v.capHalves
    let v' := hs.foldl (fun v i => v.setHalf i { v.half i with count := (v.half i).count + 1 }) v
    (s.setSlot k v', some { slot := k, ep := v.ep, gen := (v.half v.act).gen, halves := hs })

/-- The lane releases the counts of a packet (R297). -/
def State.releaseCap (s : State) (c : Option Cap) : State :=
  match c with
  | none => s
  | some c =>
    let v := s.slot c.slot
    if v.ep ≠ c.ep then s
    else s.setSlot c.slot (c.halves.foldl (fun v i => v.setHalf i { v.half i with count := (v.half i).count - 1 }) v).retire

/-- Is the packet's capture erased (R311)? -/
def State.capErased (s : State) (c : Cap) : Bool := (s.slot c.slot).ep != c.ep

/-- A captured packet is dropped because its keys were erased (R311, R315). -/
def State.dropErased (s : State) (c : Cap) : State :=
  (s.cntCrypt K_ERASED_DROPS).updSlot c.slot fun v => { v with erased := sat32 v.erased }

/-- Drop a descriptor before it is sent: its capture and its payload reference are released (R19, R297). -/
def State.dropDesc (s : State) (d : Desc) : State := (s.releaseCap d.cap).releasePayload d.payload

/-! ### Indices (R298, R300) -/

/-- The index that a sequence number stands for, closest to the reference index (RFC 3711 section 3.3.1). -/
def Track.estimate (t : Track) (seq : Nat) : Nat :=
  match t.ref with
  | none => t.initRoc * 65536 + seq
  | some r =>
    let roc := r / 65536
    let sl := r % 65536
    let v := if sl < 32768 then (if 32768 < seq - sl then roc - 1 else roc)
      else if seq < sl - 32768 then roc + 1 else roc
    v * 65536 + seq

/-- The largest index of a slot's tracks (R300). -/
def KeySlot.maxIdx (k : KeySlot) : Nat := if k.srtcp then 2 ^ 31 - 1 else 2 ^ 48 - 1

/-- The owner of a slot is notified. -/
def State.keyNote (s : State) (k op : Nat) (words : List Nat := []) : State :=
  match (s.slot k).own with
  | some o => s.notify o.fn op k words
  | none => s

/-- A track has encrypted or authenticated index `i`: its reference index, the exhaustion of R300 and its
notifications. -/
def State.advanceTrack (s : State) (k tr i : Nat) : State :=
  let v := s.slot k
  let t := v.track tr
  let r := match t.ref with | none => i | some r => max r i
  let near := decide (v.maxIdx + 1 - 2 ^ 20 < i)
  let s1 := s.setSlot k (v.setTrack tr { t with ref := some r, near := t.near || near })
  let s2 := if near && !t.near then s1.keyNote k 0x0982 else s1
  if v.maxIdx ≤ i then (s2.updSlot k fun v => { v with st := .exhausted }).keyNote k 0x0981 else s2

/-- The half that serves an index (R308, R309): by the index while a switch at index is pending or drains, else by the
captured generation. -/
def KeySlot.serves (k : KeySlot) (c : Cap) (i : Nat) : Nat :=
  match k.sw with
  | some w =>
    let old := if k.st = .pending then k.act else 1 - k.act
    if i < w then (if (k.half old).live then old else 1 - old) else 1 - old
  | none => if (k.half (1 - k.act)).live ∧ (k.half (1 - k.act)).gen = c.gen then 1 - k.act else k.act

/-- The first packet at or after the switch index completes: the pending half becomes active (R309). -/
def State.switchAt (s : State) (k i : Nat) : State :=
  let v := s.slot k
  match v.st, v.sw with
  | .pending, some w =>
    if w ≤ i then
      let v' := { v with act := 1 - v.act, st := .draining, lastGen := (v.half (1 - v.act)).gen }
      (s.setSlot k v').keyNote k 0x0983 [(v'.half v'.act).gen]
    else s
  | _, _ => s

/-! ### Used map and replay window (R299, R302) -/

/-- May a half encrypt index `i` on a track (R299)? -/
def KeyHalf.mayUse (h : KeyHalf) (tr i : Nat) : Bool :=
  match Tbl.get h.h 0 tr with
  | 0 => true
  | n + 1 => decide (n < i) || (decide (n ≤ i + 63) && !(Tbl.get h.used 0 tr).toNat.testBit (n - i))

/-- The half after it encrypted index `i` on a track. -/
def KeyHalf.use (h : KeyHalf) (tr i : Nat) : KeyHalf :=
  match Tbl.get h.h 0 tr with
  | 0 => { h with h := Tbl.set h.h tr (i + 1), used := Tbl.set h.used tr 1 }
  | n + 1 =>
    let m := Tbl.get h.used 0 tr
    if n < i then { h with h := Tbl.set h.h tr (i + 1), used := Tbl.set h.used tr (m <<< (i - n) ||| 1) }
    else { h with used := Tbl.set h.used tr (m ||| 1 <<< (n - i)) }

/-- Is index `i` a replay on a track (R302)? -/
def Track.replayed (t : Track) (i : Nat) : Bool :=
  match t.ref with
  | none => false
  | some r => decide (i + 128 ≤ r) || (decide (i ≤ r) && t.win.toNat.testBit (r - i))

/-- The replay window with index `i` marked. -/
def Track.mark (t : Track) (i : Nat) : Track :=
  match t.ref with
  | none => { t with win := 1 }
  | some r => if r < i then { t with win := t.win <<< (i - r) ||| 1 } else { t with win := t.win ||| 1 <<< (r - i) }

/-! ### Loading and erasing (R305 to R311) -/

/-- A slot erased in one cycle: both halves, the index state and the replay windows (R311). -/
def KeySlot.erase (k : KeySlot) : KeySlot :=
  { k with st := .empty, act := 0, h0 := {}, h1 := {}, sw := none, t0 := {}, t1 := {}, nextRtcp := 0, ep := k.ep + 1 }

/-- A LOAD as the window takes it (R305, R317). -/
structure Load where
  slot : Nat
  suite : Nat
  enc : Bool
  srtcp : Bool
  at' : Bool
  sca : Bool
  own : Own
  sw : Nat
  initRoc : Nat
  keys : List Word

/-- Is the half that a LOAD would write still in use (R307, R309)? -/
def KeySlot.halfBusy (k : KeySlot) : Bool :=
  match k.st with
  | .draining => true
  | _ => false

/-- Does a LOAD break the window's own checks? -/
def KeySlot.loadBad (k : KeySlot) (l : Load) : Bool :=
  decide (3 < l.suite) || (l.sca && l.enc)
    || (k.own.isSome && (k.enc != l.enc || k.srtcp != l.srtcp))
    || (l.at' && (k.st == .empty || k.st == .exhausted))

/-- A track as a load into an EMPTY or EXHAUSTED slot leaves it (R300). -/
def freshTrack (roc : Nat) : Track := { initRoc := roc }

/-- A LOAD that is not refused (R307 to R309). -/
def KeySlot.load (k : KeySlot) (l : Load) : KeySlot :=
  let own := match k.own with | some o => some o | none => some l.own
  let base := { k with own, enc := l.enc, srtcp := l.srtcp, suite := l.suite, sca := l.sca }
  if k.st = .empty ∨ k.st = .exhausted then
    -- an exhausted half retires in the cycle of the load; an EMPTY slot has no active half
    let g := (k.lastGen + 1) % 16
    let new := if k.st = .exhausted then 1 - k.act else k.act
    { (base.setHalf (1 - new) {}).setHalf new { live := true, gen := g, keys := l.keys } with
      st := .active, act := new, lastGen := g, sw := none
      t0 := freshTrack l.initRoc, t1 := freshTrack l.initRoc, nextRtcp := 0 }
  else
    let new := 1 - k.act
    let g := if k.st = .pending then (k.half new).gen else ((k.half k.act).gen + 1) % 16
    -- packets captured while the pending half waited hold both halves
    let h : KeyHalf := { live := true, gen := g, keys := l.keys, count := if k.st = .pending then (k.half new).count else 0 }
    let b := base.setHalf new h
    if l.at' then { b with st := .pending, sw := some l.sw }
    else KeySlot.retire { b with st := .draining, act := new, lastGen := g, sw := none }

/-- The half that a LOAD wrote: its generation. -/
def KeySlot.newGen (k : KeySlot) : Nat := if k.st = .pending then (k.half (1 - k.act)).gen else (k.half k.act).gen

/-! ### The key window (R303 to R305, R317) -/

abbrev R_BUSY : Nat := 1
abbrev R_DONE : Nat := 2
abbrev R_HALF_BUSY : Nat := 3
abbrev R_BAD_PARAM : Nat := 4
abbrev R_ABORTED : Nat := 5
abbrev R_BLEACH_LOCK : Nat := 6

/-- The holder of the lock, 0 when free. -/
def State.kwOwner (s : State) : Nat := s.rf .KEYWIN_LOCK_STAT 0 3 0
/-- The lock is free again. -/
def State.kwFree (s : State) : State := (s.setRf .KEYWIN_LOCK_STAT 0 3 0 0).setRf .KEYWIN_LOCK_STAT 0 31 30 0
/-- `KEYWIN_DATA` is zeroed. -/
def State.kwZero (s : State) : State := (List.range 16).foldl (fun s w => s.rstReg .KEYWIN_DATA w) s
/-- `KEYWIN_RESULT`. -/
def State.kwResult (s : State) (r gen slot : Nat) : State :=
  s.setReg .KEYWIN_RESULT 0 (putF (putF (putF 0 31 29 r) 20 17 gen) 16 0 slot)
/-- `CRYPT_STAT.BLEACHED`. -/
def State.bleached (s : State) : Bool := s.rb .CRYPT_STAT 0 31 || s.keys.bleaching

/-- KEYWIN_LOCK_ACQUIRE (R303): an acquiring read of KEYWIN_LOCK; masters without an owner ID get a bus error. -/
def execKeywinLockAcquire (owner el : Nat) (s : State) : Res :=
  let s := s.advance el
  let lock (st o : Nat) : Word := putF (putF 0 31 30 st) 3 0 o
  if owner = 0 ∨ 5 < owner then .next { s with bus := .busError }
  else if s.kwOwner = 0 then
    let s1 := (s.setRf .KEYWIN_LOCK_STAT 0 3 0 owner).setRf .KEYWIN_LOCK_STAT 0 31 30 3
    .next { s1 with bus := .ok (lock 1 owner), keys := { s1.keys with since := s1.ela } }
  else if s.kwOwner = owner then .next { s with bus := .ok (lock 1 owner) }
  else .next { s with bus := .ok (lock 2 s.kwOwner) }

/-- KEYWIN_RELEASE (R303): the holder frees the lock; another master's write has no effect. -/
def execKeywinRelease (owner : Nat) (v : Word) (s : State) : Res :=
  if owner = 0 ∨ 5 < owner then .next { s with bus := .busError }
  else if bit v 0 && s.kwOwner == owner then .next { s.kwFree with bus := .ok 0 }
  else .next { s with bus := .ok 0 }

/-- KEYWIN_LOCK_TIMEOUT (R304): after 100 µs the window releases the lock, zeroes KEYWIN_DATA and sets TIMEOUT; a commit
already under way completes first. -/
def execKeywinLockTimeout (el : Nat) (s : State) : Res :=
  let s := s.advance el
  if s.kwOwner ≠ 0 ∧ s.keys.since + 100000 ≤ s.ela ∧ s.keys.pend = none then
    .next ((s.kwFree.kwZero).setRb .KEYWIN_LOCK_STAT 0 29 true)
  else .next s

/-- A command is committed (R305): nothing happens while Bleach holds the window (R316) or a commit is under way. -/
def State.kwCommit (s : State) (owner : Nat) (v : Word) : State :=
  if owner = 0 ∨ owner ≠ s.kwOwner then { s with bus := .busError }
  else if s.keys.pend.isSome then { s with bus := .ok 0 }
  else if s.bleached || s.keys.bleaching then { s.kwResult R_BLEACH_LOCK 0 (fld v 16 0) with bus := .ok 0 }
  else { s.kwResult R_BUSY 0 (fld v 16 0) with bus := .ok 0, keys := { s.keys with pend := some v } }

/-- KEYWIN_LOAD (R305): a KEYWIN_CMD write with OP = LOAD. -/
def execKeywinLoad (owner : Nat) (v : Word) (el : Nat) (s : State) : Res :=
  .next ((s.advance el).kwCommit owner (putF v 31 30 1))

/-- KEYWIN_ERASE (R311): a KEYWIN_CMD write with OP = ERASE. -/
def execKeywinErase (owner : Nat) (v : Word) (el : Nat) (s : State) : Res :=
  .next ((s.advance el).kwCommit owner (putF v 31 30 2))

/-- The LOAD that the window's registers describe. -/
def State.kwLoad (s : State) (v : Word) : Load :=
  { slot := fld v 16 0, suite := fld v 29 27, enc := bit v 26, srtcp := bit v 25, at' := bit v 24, sca := bit v 23
    own := { fn := 64 * fld v 18 17 }
    sw := (s.reg .KEYWIN_SWITCH_LO).toNat + 2 ^ 32 * (s.rf .KEYWIN_SWITCH_HI 0 15 0)
    initRoc := (s.reg .KEYWIN_INIT_ROC).toNat
    keys := (List.range 16).map fun w => s.reg .KEYWIN_DATA w }

/-- KEYWIN_COMMIT_DONE (R305, R307, R311): the commit finishes and posts its outcome. -/
def execKeywinCommitDone (s : State) : Res :=
  match s.keys.pend with
  | none => .next s
  | some v =>
    let k := s.slot (fld v 16 0)
    let s1 := { s with keys := { s.keys with pend := none } }
    if fld v 31 30 = 2 then
      .next ((s1.setSlot (fld v 16 0) k.erase).kwZero.kwResult R_DONE k.lastGen (fld v 16 0))
    else
      let l := s.kwLoad v
      if k.loadBad l then .next (s1.kwZero.kwResult R_BAD_PARAM 0 l.slot)
      else if k.halfBusy then .next (s1.kwZero.kwResult R_HALF_BUSY 0 l.slot)
      else
        let k' := k.load l
        .next ((s1.setSlot l.slot k').kwZero.kwResult R_DONE k'.newGen l.slot)

/-! ### The KEY commands (R306, R318) -/

abbrev BLEACH_LOCK : Nat := 0x0900
abbrev HALF_BUSY : Nat := 0x0901
abbrev SWITCH_PAST : Nat := 0x0902
abbrev NO_DTLS : Nat := 0x0903
abbrev SUITE_MISMATCH : Nat := 0x0904

/-- Firmware zeroes words 5 to 15 of a KEY command where it read them (R306). -/
def State.wipeKey (s : State) (c : Cmd) : State :=
  if s.takeable c then
    match c.via with
    | .mbx ch => (List.range 11).foldl (fun s i => s.setReg .MBX_MSG (ch.val * 16 + 5 + i) 0) s
    | .ring r =>
      let f := s.fifo (.ring r)
      s.dma (ringFn r.val) (f.base + f.cidx % f.depth * f.bytes + 20) (List.replicate 11 0)
  else s

/-- The part of a KEY_LOAD that both forms share: words 1 to 4. -/
def keyLoadOf (c : Cmd) (keys : List Word) (own : Own) : Load :=
  { slot := c.h, suite := c.f 2 31 29, enc := c.b 2 28, srtcp := c.b 2 27, at' := c.b 2 26, sca := c.b 2 25, own
    sw := c.w 3 + 2 ^ 32 * c.f 2 15 0, initRoc := c.w 4, keys }

/-- The checks of R318 that both forms share, in the order of R509; `range` says that a word of the longer form alone is out
of range. -/
def keyLoadFails (c : Cmd) (s : State) (range : Bool) (more : List Nat) : Nat :=
  let k := s.slot c.h
  let l := keyLoadOf c [] {}
  firstCode ([
    rejectIf (decide (131071 < c.h) || c.f 2 24 16 != 0 || range) BAD_PARAM,
    rejectIf (decide (3 < l.suite)) UNSUPPORTED,
    rejectIf (l.sca && l.enc) BAD_PARAM,
    slotFail c s c.h,
    rejectIf (k.own.isSome && (k.enc != l.enc || k.srtcp != l.srtcp)) BAD_PARAM] ++ more ++ [
    rejectIf (l.at' && (k.st == .empty || k.st == .exhausted
      || [0, 1].any fun i => match (k.track i).ref with | some r => decide (l.sw ≤ r) | none => false)) SWITCH_PAST,
    rejectIf s.bleached BLEACH_LOCK,
    rejectIf k.halfBusy HALF_BUSY])

/-- Firmware loads a slot through the window. -/
def State.fwLoad (s : State) (l : Load) : State :=
  let k := (s.slot l.slot).load l
  (s.setSlot l.slot k).kwZero.kwResult R_DONE k.newGen l.slot

/-- KEY_LOAD. -/
def keyLoadSpec : CmdSpec := { op := 0x0900, used := [(2, 0xFE00FFFF)] }
def keyLoadCheck (c : Cmd) (s : State) : Nat := keyLoadFails c s false []
def keyLoadApply (c : Cmd) (s : State) : Reply :=
  let master := (List.range 11).map fun i => BitVec.ofNat 32 (c.w (5 + i))
  { st := s.fwLoad (keyLoadOf c (Config.transform 1 (BitVec.ofNat 32 (c.f 2 31 27) :: master)) (newOwn c s)) }
/-- KEY_LOAD (R305): the session keys are those of RFC 3711 section 4.3. -/
def execKeyLoad (c : Cmd) (s : State) : Res := .next (runCmd keyLoadSpec keyLoadCheck keyLoadApply c (s.wipeKey c))

/-- KEY_LOAD_DTLS: the leg's association is a fact of the command: its first word the negotiated profile, the rest the
exporter's output; no words, no completed association. -/
def keyLoadDtlsSpec : CmdSpec := {
    op := 0x0901, minor := 4
    used := [(2, 0xFE00FFFF), (5, 0x1FFFF), (6, 0x0), (7, 0x0), (8, 0x0), (9, 0x0), (10, 0x0), (11, 0x0), (12, 0x0), (13, 0x0), (14, 0x0), (15, 0x0)] }
def keyLoadDtlsCheck (c : Cmd) (s : State) : Nat :=
  keyLoadFails c s (decide (16383 < c.f 5 15 0) || c.f 5 31 17 != 0) [
    target c s.net.legs (·.own) (c.f 5 15 0),
    rejectIf c.host.isEmpty NO_DTLS,
    rejectIf ((nth c.host 0 0).toNat != c.f 2 31 29) SUITE_MISMATCH]
def keyLoadDtlsApply (c : Cmd) (s : State) : Reply :=
  { st := s.fwLoad (keyLoadOf c (Config.transform 2 (BitVec.ofNat 32 (c.f 2 31 27) :: BitVec.ofNat 32 (c.f 5 16 16) :: c.host)) (newOwn c s)) }
/-- KEY_LOAD_DTLS (R318). -/
def execKeyLoadDtls (c : Cmd) (s : State) : Res :=
  .next (runCmd keyLoadDtlsSpec keyLoadDtlsCheck keyLoadDtlsApply c (s.wipeKey c))

/-- A slot as a target: one that no tenant owns is BAD_STATE. -/
def keyTarget (c : Cmd) (s : State) : Nat :=
  if 131071 < c.h then BAD_PARAM
  else match (s.slot c.h).own with
    | none => BAD_STATE
    | some o => ownFail c o

/-- Firmware's erase goes through the window, which Bleach holds (R316). -/
def keyEraseCheck (c : Cmd) (s : State) : Nat := firstCode [keyTarget c s, rejectIf s.bleached BLEACH_LOCK]

/-- KEY_ERASE. -/
def keyEraseSpec : CmdSpec := { op := 0x0902 }
def keyEraseApply (c : Cmd) (s : State) : Reply :=
  { st := (s.updSlot c.h KeySlot.erase).kwZero.kwResult R_DONE (s.slot c.h).lastGen c.h }
/-- KEY_ERASE (R311). -/
def execKeyErase (c : Cmd) (s : State) : Res := .next (runCmd keyEraseSpec keyEraseCheck keyEraseApply c (s.wipeKey c))

/-- A slot released: erased and without an owner; the last generation stays (R307). -/
def State.releaseSlot (s : State) (k : Nat) : State := s.updSlot k fun v => { v.erase with own := none }

/-- KEY_RELEASE. -/
def keyReleaseSpec : CmdSpec := { op := 0x0903 }
def keyReleaseApply (c : Cmd) (s : State) : Reply :=
  { st := (s.releaseSlot c.h).kwZero.kwResult R_DONE (s.slot c.h).lastGen c.h }
/-- KEY_RELEASE (R296). -/
def execKeyRelease (c : Cmd) (s : State) : Res :=
  .next (runCmd keyReleaseSpec keyEraseCheck keyReleaseApply c (s.wipeKey c))

/-- `CRYPT_SLOT_INFO` of a slot (R317). -/
def KeySlot.info (k : KeySlot) : Word :=
  let gen := if k.st = .empty then k.lastGen else (k.half k.act).gen
  let w := putB (putB (putF 0 31 29 k.st.code) 28 k.enc) 27 k.srtcp
  let w := putB (putB (putF w 26 24 k.suite) 23 k.sca) 22 (k.act == 1)
  putF (putF w 21 18 gen) 17 16 (match k.own with | some o => o.fn / 64 | none => 0)

/-- KEY_QUERY. -/
def keyQuerySpec : CmdSpec := { op := 0x0904, dma := true }
def keyQueryApply (c : Cmd) (s : State) : Reply :=
  let k := s.slot c.h
  let wide (n : Nat) : List Nat := [n % 2 ^ 32, n / 2 ^ 32]
  let ref (i : Nat) : List Nat := wide ((k.track i).ref.getD 0)
  let hw (i : Nat) : List Nat := wide (Tbl.get (k.half k.act).h 0 i - 1)
  queryReply c s ([k.info.toNat] ++ ref 0 ++ ref 1 ++ hw 0 ++ hw 1 ++ [k.refused, k.authFail, k.replay, k.erased])
/-- KEY_QUERY (R295). -/
def execKeyQuery (c : Cmd) (s : State) : Res := .next (runCmd keyQuerySpec keyTarget keyQueryApply c (s.wipeKey c))

end Sys2Proof.Machine
end

