-- ==== Sys2Proof/Machine/Ethernet.lean ====
section
/-! DEFINITION. The Ethernet ports: configuration, negotiation, links and scaled minimums (R42 to R46, R94, R97). -/

namespace Sys2Proof.Machine

/-- The port record. -/
def State.port (s : State) (n : Nat) : Port := Tbl.get s.net.ports {} n
/-- Change a port record. -/
def State.updPort (s : State) (n : Nat) (f : Port → Port) : State :=
  s.updNet fun x => { x with ports := Tbl.updD x.ports {} n f }

/-- The FEC codes that R43 permits for a width code and a lane-rate code; none when the row does not exist. -/
def permittedFec : Nat → Nat → List Nat
  | 0, 0 => [0, 1] | 0, 1 => [0, 1, 2] | 0, 2 => [3] | 0, 3 => [3]
  | 1, 2 => [3] | 1, 3 => [3]
  | 2, 1 => [2] | 2, 2 => [3] | 2, 3 => [3]
  | _, _ => []

/-- `ETH_PCFG` fields. -/
def State.ethOn (s : State) (n : Nat) : Bool := s.rb .ETH_PCFG n 31
def State.ethFixed (s : State) (n : Nat) : Bool := s.rb .ETH_PCFG n 30
def State.ethWidth (s : State) (n : Nat) : Nat := s.rf .ETH_PCFG n 29 28

/-- Does the port's configuration break R42 or R45? -/
def State.ethBad (s : State) (n : Nat) : Bool :=
  let w := s.ethWidth n
  let lanes := 2 ^ w
  w == 3 || n % lanes != 0 || (List.range (lanes - 1)).any (fun i => s.ethOn (n + 1 + i))
    || (s.ethFixed n && (!(permittedFec w (s.rf .ETH_PCFG n 21 20)).contains (s.rf .ETH_PCFG n 19 18)
        || !(s.rf .ETH_PCFG n 25 22).testBit (s.rf .ETH_PCFG n 19 18)))

/-- `ETH_PSTAT` fields. -/
def State.linkUp (s : State) (n : Nat) : Bool := s.rb .ETH_PSTAT n 31
def State.ethResult (s : State) (n : Nat) : Nat := s.rf .ETH_PSTAT n 23 20

abbrev ETH_OK : Nat := 0
abbrev ETH_IN_PROGRESS : Nat := 1
abbrev ETH_NO_COMMON : Nat := 2
abbrev ETH_TRAIN_FAIL : Nat := 3
abbrev ETH_CFG_ERR : Nat := 4

/-- The port rate in use, in kb/s, from the width and lane rate in use (R43). -/
def State.portKbps (s : State) (n : Nat) : Nat :=
  let lane := match s.rf .ETH_PSTAT n 27 26 with | 0 => 10 | 1 => 25 | 2 => 50 | _ => 100
  2 ^ s.rf .ETH_PSTAT n 29 28 * lane * 1000000

/-- `OVERHEAD` of a port, signed; values below -32 act as -32 (R107). -/
def State.overhead (s : State) (n : Nat) : Int := max (-32) (sx (s.rf .EGS_PORT_CFG n 22 16) 7)

/-- The least guard band of a port at its rate in use (R97). -/
def State.guardMin (s : State) (n : Nat) : Nat :=
  let r := s.portKbps n / 1000000
  if r = 0 then 0 else cdiv (((9216 : Int) + s.overhead n).toNat * 8) r

/-- The link of a port changes (R46): `LINK_CHG`; on a fall LEG_PORT_DOWN to the owner of each leg on the port; on a
rise the guard band is raised to the minimum of the new rate first (R97). -/
def State.setLink (s : State) (n : Nat) (up : Bool) : State :=
  if s.linkUp n = up then s
  else
    let s1 := (s.setRb .ETH_PSTAT n 31 up).setRb .ETH_PSTAT n 19 true
    if up then
      if s1.rf .EGS_PORT_CFG n 15 0 < s1.guardMin n then s1.setRf .EGS_PORT_CFG n 15 0 (s1.guardMin n) else s1
    else s1.net.legs.foldl (fun s kv => if kv.2.port = n then s.notify kv.2.own.fn 0x0180 kv.1 else s) s1

/-- A port goes down with a result. -/
def State.ethDown (s : State) (n res : Nat) : State :=
  ((s.setLink n false).setRb .ETH_PSTAT n 30 false).setRf .ETH_PSTAT n 23 20 res

/-- A port starts again from its configuration: negotiation, or the fixed mode's wait for lock. -/
def State.ethStart (s : State) (n : Nat) : State :=
  let s1 := (s.ethDown n ETH_IN_PROGRESS).updPort n fun p => { p with trainFails := 0 }
  let w := s1.reg .ETH_PSTAT n
  if s1.ethFixed n then
    s1.setReg .ETH_PSTAT n (putF (putF (putF w 29 28 (s1.ethWidth n)) 27 26 (s1.rf .ETH_PCFG n 21 20)) 25 24 (s1.rf .ETH_PCFG n 19 18))
  else s1

/-- Every enabled port whose configuration is faulty is down with CFG_ERR, and one that no longer is starts (R42,
R45). -/
def State.ethCheck (s : State) : State :=
  (List.range 8).foldl (fun s n =>
    if !s.ethOn n then s
    else if s.ethBad n then s.ethDown n ETH_CFG_ERR
    else if s.ethResult n = ETH_CFG_ERR then s.ethStart n
    else s) s

/-- ETH_PCFG_WRITE (R42, R45). -/
def execEthPcfgWrite (port : Fin 8) (v : Word) (s : State) : Res :=
  let n := port.val
  let old := s.reg .ETH_PCFG n
  let w := applyWrite (RegName.flds .ETH_PCFG) old v
  let s1 := s.setReg .ETH_PCFG n w
  let s2 := if w = old then s1 else if s1.ethOn n then s1.ethStart n else s1.ethDown n ETH_OK
  .next { s2.ethCheck with bus := .ok 0 }

/-- The greatest code below `n` that meets a condition. -/
def greatest : Nat → (Nat → Bool) → Option Nat
  | 0, _ => none
  | n + 1, p => if p n then some n else greatest n p

/-- The lane rate and FEC that negotiation resolves from what the partner offers (R44). -/
def State.resolveAn (s : State) (n : Nat) (rates fecs : BitVec 4) : Option (Nat × Nat) :=
  let w := s.ethWidth n
  let fec (r : Nat) : Option Nat := greatest 4 fun f =>
    (permittedFec w r).contains f && (s.rf .ETH_PCFG n 25 22).testBit f && fecs.toNat.testBit f
  match greatest 4 fun r => decide (r ≤ s.rf .ETH_PCFG n 27 26) && rates.toNat.testBit r && (fec r).isSome with
  | some r => (fec r).map fun f => (r, f)
  | none => none

/-- AN_RESOLVED (R44). -/
def execAnResolved (port : Fin 8) (rates fecs : BitVec 4) (trained : Bool) (s : State) : Res :=
  let n := port.val
  if !s.ethOn n || s.ethFixed n || s.ethBad n || s.ethResult n == ETH_TRAIN_FAIL then .next s
  else match s.resolveAn n rates fecs with
    | none => .next (s.ethDown n ETH_NO_COMMON)
    | some (r, f) =>
      if trained then
        let w := putF (putF (putF (s.reg .ETH_PSTAT n) 29 28 (s.ethWidth n)) 27 26 r) 25 24 f
        .next ((s.setReg .ETH_PSTAT n (putF (putB w 30 true) 23 20 ETH_OK)).updPort n fun p => { p with trainFails := 0 })
      else
        let k := (s.port n).trainFails + 1
        let s1 := s.updPort n fun p => { p with trainFails := k }
        .next (s1.ethDown n (if 3 ≤ k then ETH_TRAIN_FAIL else ETH_IN_PROGRESS))

/-- AN_RESTART_TIMEOUT (R44): 1 s after the third failure negotiation restarts. -/
def execAnRestartTimeout (port : Fin 8) (s : State) : Res :=
  let n := port.val
  if s.ethOn n && !s.ethFixed n && s.ethResult n == ETH_TRAIN_FAIL then .next (s.ethStart n) else .next s

/-- LINK_CHANGE (R45, R46): a link rises only on an enabled port that is configured well and, unless fixed, has
negotiated. -/
def execLinkChange (port : Fin 8) (up : Bool) (s : State) : Res :=
  let n := port.val
  if up then
    if s.ethOn n && !s.ethBad n && (s.ethFixed n || s.rb .ETH_PSTAT n 30) then
      .next ((s.setRf .ETH_PSTAT n 23 20 ETH_OK).setLink n true)
    else .next s
  else .next (s.setLink n false)

/-! ### Scaled minimums (R92, R94) -/

/-- The rate of a port's audio-class shaper. -/
def State.audioRate (s : State) (n : Nat) : Nat := (Tbl.get (s.port n).classSh {} (s.rf .EGS_PORT_CFG n 30 28)).rate

/-- R92's limit on the sum of the tenants' minimum rates. -/
def State.minLimit (s : State) (n : Nat) : Nat := s.portKbps n - s.audioRate n

/-- The sum of the configured minimum rates. -/
def Port.cfgSum (p : Port) : Nat := sumN (p.tenants.map fun kv => kv.2.cfgMin)

/-- The effective minimum rate of a tenant under a limit (R94). -/
def effMin (cfg limit sum : Nat) : Nat := if sum ≤ limit then cfg else cfg * limit / sum

/-- Every tenant of a port takes its effective minimum, its buckets FULL, and QOS_MIN_SCALED goes to it (R94). -/
def State.scalePort (s : State) (n : Nat) : State :=
  let lim := s.minLimit n
  let sum := (s.port n).cfgSum
  let s1 := s.updPort n fun p => { p with
    scaled := decide (lim < sum)
    tenants := Tbl.mapv p.tenants fun _ t => { t with
      mn := Bucket.of (effMin t.cfgMin lim sum) t.mn.size false s.ela
      mx := Bucket.of t.mx.rate t.mx.size false s.ela } }
  (s1.port n).tenants.foldl (fun s kv => s.notify (64 * kv.1) 0x0882 (4 * n + kv.1) [kv.2.cfgMin, kv.2.mn.rate]) s1

/-- EFFECTIVE_MIN_APPLY (R94): after a LINK_CHG, while the link is up, the minimums are scaled when they do not fit and
restored when they fit again. -/
def execEffectiveMinApply (port : Fin 8) (s : State) : Res :=
  let n := port.val
  if !s.linkUp n then .next s
  else if s.minLimit n < (s.port n).cfgSum || (s.port n).scaled then .next (s.scalePort n)
  else .next s

end Sys2Proof.Machine
end

