-- ==== Sys2Proof/Machine/Parser.lean ====
section
/-! DEFINITION. The parser, Sieve, the decrypt lanes and the delivery of decrypted packets (R47, R48, R70, R79 to R83, R302,
R49, R52, R53, R69). -/

namespace Sys2Proof.Machine

/-! ### Bytes of a frame -/

/-- The byte at an offset, zero past the end. -/
def bAt (l : List Byte) (i : Nat) : Nat := (nth l 0 i).toNat
/-- The 16-bit and `n`-byte numbers at an offset, in network order. -/
def be16 (l : List Byte) (i : Nat) : Nat := bAt l i * 256 + bAt l (i + 1)
def beN (l : List Byte) (i n : Nat) : Nat := beNat ((l.drop i).take n)

/-- The Internet checksum's folded sum of a byte list. -/
def csumAdd : Nat → List Byte → Nat
  | n, [] => n
  | n, [a] => n + a.toNat * 256
  | n, a :: b :: r => csumAdd (n + a.toNat * 256 + b.toNat) r

/-- Ones' complement folding into 16 bits. -/
def csumFold (n : Nat) : Nat :=
  let a := n % 65536 + n / 65536
  let b := a % 65536 + a / 65536
  b % 65536 + b / 65536

/-- What steps 1 to 8 of R47 make of a frame. -/
inductive Parsed where
  | drop
  | frag
  | badCsum
  | control (k : FwKind)
  | udp (v6 : Bool) (vlan : Option Nat) (src dst sp dp dscp : Nat) (data : List Byte)
  deriving DecidableEq, Repr

/-- The UDP part of R47: step 8 on the datagram `u` with its pseudo-header sum. -/
def parseUdp (v6 : Bool) (vlan : Option Nat) (src dst dscp pseudo : Nat) (u : List Byte) : Parsed :=
  let n := be16 u 4
  if n < 8 ∨ u.length < n then .badCsum
  else
    let d := u.take n
    let ok := if be16 d 6 = 0 then !v6 else csumFold (csumAdd (pseudo + 17 + n) d) == 65535
    if ok then .udp v6 vlan src dst (be16 d 0) (be16 d 2) dscp (d.drop 8) else .badCsum

/-- IPv6 next-header values that are extension headers (step 5). -/
def isExtHdr (n : Nat) : Bool := [0, 43, 44, 50, 51, 60, 135, 139, 140].contains n

/-- Steps 1 to 8 of R47 on the bytes of a frame from the destination MAC address to the end without the FCS. -/
def parseFrame (macOk : Bool) (f : List Byte) : Parsed :=
  let dst := f.take 6
  let bcast := dst == List.replicate 6 (255 : Byte)
  let snm := dst.take 3 == [(0x33 : Byte), 0x33, 0xFF]
  if !(macOk || bcast || snm) || decide (9216 < f.length + 4) then .drop
  else
    let tagged := be16 f 12 == 0x8100
    let vlan := if tagged then some (be16 f 14 % 4096) else none
    let et := if tagged then be16 f 16 else be16 f 12
    let ip := f.drop (if tagged then 18 else 14)
    if et == 0x8100 || et == 0x88A8 || et == 0x9100 then .drop
    else if et = 0x0806 then .control .arp
    else if et = 0x0800 then
      if ip.length < 20 then .drop
      else if be16 ip 6 % 16384 ≠ 0 ∨ bAt ip 0 % 16 ≠ 5 then .frag
      else
        let proto := bAt ip 9
        if proto = 1 then .control .icmp
        else if proto ≠ 17 then .drop
        else parseUdp false vlan (beN ip 12 4) (beN ip 16 4) (bAt ip 1 / 4) (csumAdd 0 ((ip.drop 12).take 8))
          ((ip.take (be16 ip 2)).drop 20)
    else if et = 0x86DD then
      if ip.length < 40 then .drop
      else
        let nh := bAt ip 6
        let body := (ip.drop 40).take (be16 ip 4)
        if isExtHdr nh then .frag
        else if nh = 58 then .control .icmp
        else if nh ≠ 17 then .drop
        else parseUdp true vlan (beN ip 8 16) (beN ip 24 16) (be16 ip 0 / 16 % 256 / 4) (csumAdd 0 ((ip.drop 8).take 32)) body
    else .drop

/-! ### RTP headers -/

/-- What the device reads of an RTP header. -/
structure Rtp where
  marker : Bool
  pt : Nat
  seq : Nat
  ts : Nat
  ssrc : Nat
  /-- Bytes of the header with CSRCs and extension. -/
  len : Nat
  pad : Bool
  csrc : List Byte
  /-- The header extension: profile and body. -/
  ext : Option (Nat × List Byte)

/-- The RTP header of a packet. -/
def parseRtp (p : List Byte) : Rtp :=
  let base := 12 + 4 * (bAt p 0 % 16)
  let x := (bAt p 0).testBit 4
  let xl := if x then 4 + 4 * be16 p (base + 2) else 0
  {
    marker := 128 ≤ bAt p 1, pt := bAt p 1 % 128, seq := be16 p 2, ts := beN p 4 4, ssrc := beN p 8 4, len := base + xl,
    pad := (bAt p 0).testBit 5, csrc := (p.drop 12).take (base - 12),
    ext := if x then some (be16 p base, (p.drop (base + 4)).take (xl - 4)) else none }

/-- The elements of an extension body in the one-byte form (profile 0xBEDE) or the two-byte form of RFC 8285. -/
def extElements : Nat → Bool → List Byte → List (Nat × List Byte)
  | 0, _, _ => []
  | _, _, [] => []
  | n + 1, two, i :: r =>
    if i = 0 then extElements n two r
    else if two then
      match r with
      | [] => []
      | l :: r => (i.toNat, r.take l.toNat) :: extElements n two (r.drop l.toNat)
    else if i.toNat / 16 = 15 then []
    else (i.toNat / 16, r.take (i.toNat % 16 + 1)) :: extElements n two (r.drop (i.toNat % 16 + 1))

/-- Does a profile say the two-byte form of RFC 8285? -/
def twoByte (profile : Nat) : Bool := profile / 16 == 0x100

/-- The elements of a header extension; one whose profile is not of RFC 8285 has none. -/
def elementsOf : Option (Nat × List Byte) → List (Nat × List Byte)
  | some (p, b) => if p = 0xBEDE then extElements b.length false b else if twoByte p then extElements b.length true b else []
  | none => []

/-- A number in `n` bytes, network order. -/
def toBe (n v : Nat) : List Byte := (toLe n v).reverse

/-- The elements with one of them set: replaced where it stands, else added at the end. -/
def setElement (l : List (Nat × List Byte)) (id : Nat) (data : List Byte) : List (Nat × List Byte) :=
  if l.any fun e => e.1 == id then l.map fun e => if e.1 = id then (id, data) else e else l ++ [(id, data)]

/-- A header extension of RFC 8285 with these elements; none without an element. It has the two-byte form where `two` asks for it
or an element does not fit the one-byte form. -/
def extOf (two : Bool) (profile : Nat) (l : List (Nat × List Byte)) : Option (Nat × List Byte) :=
  if l.isEmpty then none
  else
    let one := !two && l.all fun e => decide (1 ≤ e.1 ∧ e.1 ≤ 14 ∧ 1 ≤ e.2.length ∧ e.2.length ≤ 16)
    let body := l.flatMap fun e =>
      if one then BitVec.ofNat 8 (e.1 * 16 + (e.2.length - 1)) :: e.2
      else BitVec.ofNat 8 e.1 :: BitVec.ofNat 8 e.2.length :: e.2
    some (if one then 0xBEDE else if twoByte profile then profile else 0x1000, body ++ List.replicate (4 * cdiv body.length 4 - body.length) 0)

/-- A header extension with an element set, in the form that it has, or in the two-byte form where `two` asks for it or the element
needs it. An RTP header has one extension, so that one which is not of RFC 8285 gives way. -/
def setExt (two : Bool) (x : Option (Nat × List Byte)) (id : Nat) (data : List Byte) : Option (Nat × List Byte) :=
  let p := match x with | some (p, _) => p | none => 0
  extOf (two || twoByte p) p (setElement (elementsOf x) id data)

/-- A header extension without an element; unchanged where it has none such. -/
def dropExt (x : Option (Nat × List Byte)) (id : Nat) : Option (Nat × List Byte) :=
  let p := match x with | some (p, _) => p | none => 0
  if (elementsOf x).any fun e => e.1 == id then extOf (twoByte p) p ((elementsOf x).filter fun e => e.1 != id) else x

/-- The three words of the Tolku element (R68), if the packet bears one. -/
def State.tolkuWords (s : State) (h : Rtp) : Option (Nat × Nat × Nat) :=
  match h.ext with
  | some (p, _) =>
    if twoByte p then
      match (elementsOf h.ext).find? fun e => e.1 == s.rf .STRATA_CTRL 0 23 16 with
      | some (_, b) => if b.length = 12 then some (beN b 0 4, beN b 4 4, beN b 8 4) else none
      | none => none
    else none
  | none => none

/-! ### Legs and streams (R48) -/

/-- The leg that a 5-tuple matches, and whether it is the leg's separate RTCP port. -/
def State.legOf (s : State) (v6 : Bool) (vlan : Option Nat) (lip lp rip rp : Nat) : Option (Nat × Bool) :=
  s.net.legs.findSome? fun (i, l) =>
    if l.v6 = v6 ∧ l.vlan = vlan ∧ l.localIp = lip ∧ l.remoteIp = rip then
      if l.localUdp = lp ∧ l.remoteUdp = rp then some (i, false)
      else if l.mux = false ∧ l.localRtcp = lp ∧ l.remoteRtcp = rp then some (i, true)
      else none
    else none

/-- The stream of a leg with an SSRC, and whether the SSRC is its RTX SSRC. -/
def State.streamOf (s : State) (leg ssrc : Nat) : Option (Nat × Bool) :=
  s.net.streams.findSome? fun (i, st) =>
    if st.device = false ∧ st.leg = leg then
      if st.ssrc = ssrc then some (i, false) else if st.rtxSsrc = some ssrc then some (i, true) else none
    else none

def State.leg (s : State) (i : Nat) : Leg := Tbl.get s.net.legs {} i
def State.updLeg (s : State) (i : Nat) (f : Leg → Leg) : State := s.updNet fun n => { n with legs := Tbl.upd n.legs i f }
def State.stream (s : State) (i : Nat) : Stream := Tbl.get s.net.streams {} i
def State.updStream (s : State) (i : Nat) (f : Stream → Stream) : State :=
  s.updNet fun n => { n with streams := Tbl.upd n.streams i f }

/-- An RTP packet of an unknown SSRC: counted, and STREAM_UNKNOWN_SSRC at most once in 100 ms for the leg (R48). -/
def State.unknownSsrc (s : State) (leg ssrc : Nat) : State :=
  let s1 := s.cntStrata C_UNKNOWN_SSRC
  let l := s.leg leg
  if l.ssrcAt = 0 ∨ l.ssrcAt - 1 + 100000000 ≤ s.ela then
    (s1.updLeg leg fun l => { l with ssrcAt := s.ela + 1 }).notify l.own.fn 0x0280 leg [ssrc]
  else s1

/-! ### Sieve (R78 to R83) -/

/-- Colours. -/
inductive Colour where
  | green | yellow | red
  deriving DecidableEq, Repr

/-- The single-rate marker of RFC 2697: committed bucket `c`, excess bucket `e`, which takes what `c` cannot hold. -/
def srTcm (p : Policer) (pre : Colour) (n t : Nat) : Colour × Policer :=
  let cap (b : Bucket) := b.size * unitsPerByte
  let add := p.c.rate * (t - p.c.last)
  let tc := min (cap p.c) (p.c.lvl + add)
  let te := min (cap p.e) (p.e.lvl + (p.c.lvl + add - tc))
  let b := n * unitsPerByte
  let set (tc te : Nat) : Policer := { p with c := { p.c with lvl := tc, last := t }, e := { p.e with lvl := te, last := t } }
  if pre = .green ∧ b ≤ tc then (.green, set (tc - b) te)
  else if pre ≠ .red ∧ b ≤ te then (.yellow, set tc (te - b))
  else (.red, set tc te)

/-- The two-rate marker of RFC 2698: committed bucket `c`, peak bucket `e`. -/
def trTcm (p : Policer) (pre : Colour) (n t : Nat) : Colour × Policer :=
  let c := p.c.refill t
  let e := p.e.refill t
  let b := n * unitsPerByte
  let less (x : Bucket) : Bucket := { x with lvl := x.lvl - b }
  if pre = .red ∨ e.lvl < b then (.red, { p with c, e })
  else if pre = .yellow ∨ c.lvl < b then (.yellow, { p with c, e := less e })
  else (.green, { p with c := less c, e := less e })

/-- The pre-colour of a DSCP in a map (R80). -/
def State.preColour (s : State) (map dscp : Nat) : Colour :=
  match Tbl.get s.net.dscp 0 (64 * map + dscp) with
  | 0 => .green | 1 => .yellow | _ => .red

/-- Sieve on a packet of a leg: none when it is dropped, else its DE mark (R81). -/
def State.police (s : State) (leg n dscp : Nat) (audio : Bool) : State × Option Bool :=
  match Tbl.find s.net.policers leg with
  | none => (s, some false)
  | some p =>
    if s.rb .SIEVE_CTRL 0 31 = false ∨ p.mode = 0 then (s, some false)
    else
      let pre := if p.aware then s.preColour p.map dscp else .green
      let (col, p') := if p.mode = 1 then srTcm p pre n s.ela else trTcm p pre n s.ela
      let s1 := s.updNet fun x => { x with policers := Tbl.set x.policers leg p' }
      let act := match col with | .green => 0 | .yellow => p.yAct | .red => p.rAct
      match act with
      | 0 => (s1, some false)
      | 1 => (s1, some true)
      | _ =>
        if audio && p.exempt then (s1, some true)
        else (s1.updLeg leg fun l => if col = .yellow then { l with yDrops := l.yDrops + 1 } else { l with rDrops := l.rDrops + 1 }, none)

/-! ### Layers and recovery points of a received packet (R52, R53) -/

/-- The layer facts of a packet: S, T, first and last of its frame, recovery point, known. -/
structure LayerInfo where
  s : Nat := 0
  t : Nat := 0
  sof : Bool := true
  eof : Bool := true
  rp : Bool := false
  info : Bool := true
  switch : List (Nat × Nat) := []
  top : Nat := 7
  b : Bool := false

/-- The stream with the template structure that a dependency descriptor brings (R53). -/
def Stream.learn (st : Stream) (f : MediaFacts) : Stream :=
  match f.dd with
  | some ⟨some (t, d, c, tops), _, _, _, _, _, _⟩ =>
    { st with dd := some (decide (t ≤ 64) && decide (d ≤ 16) && decide (c ≤ 8), tops) }
  | _ => st

/-- The layer of the packet that precedes sequence number `q` among those of the same RTP timestamp (R53): the newest by R9 of
those that are older. -/
def Stream.before (st : Stream) (ts q : Nat) : Option (Nat × Nat) :=
  (st.seen.foldl (fun (best : Option (Nat × Nat × Nat × Nat)) x =>
    if x.1 = ts ∧ newer 16 q x.2.1 = true then
      match best with
      | some b => if newer 16 x.2.1 b.2.1 then some x else best
      | none => some x
    else best) none).map fun x => x.2.2

/-- A packet joins those that have been seen; the newest drops those that are no longer older than it by R9. -/
def Stream.see (st : Stream) (ts q s t : Nat) : Stream :=
  { st with seen := match st.seen with
    | [] => [(ts, q, s, t)]
    | h :: r => if newer 16 q h.2.1 then (ts, q, s, t) :: (h :: r).filter (fun x => newer 16 q x.2.1) else h :: (ts, q, s, t) :: r }

/-- Does the stream lack layer information as a whole (R53): a DD stream without a structure, or with one beyond the limits; a
source of another kind has no structure, and a packet without information stands for the stream. -/
def Stream.blind (st : Stream) : Bool :=
  match st.layerSrc, st.dd with
  | 1, some (true, _) => false
  | _, _ => true

/-- The layer of a packet by its stream's `LAYER_SRC`, for sources other than Tolku (R52, R53). -/
def Stream.layers (st : Stream) (f : MediaFacts) (ts seq : Nat) (marker : Bool) : LayerInfo :=
  let audio := st.kind == 0
  let first := !st.seen.any fun x => x.1 == ts
  let dd := if st.ddId = 0 then none else f.dd
  let fm := if st.fmId = 0 then none else f.fm
  let codec : LayerInfo := { sof := first || f.codecRp || audio, eof := marker, rp := audio || f.codecRp }
  let withExt (x : LayerInfo) : LayerInfo :=
    match dd, fm with
    | some d, _ => { x with t := d.t.val, sof := d.sof || x.rp, eof := d.eof, switch := d.switch }
    | none, some m => { x with t := m.tid.val, sof := m.s || x.rp, eof := m.e, b := m.b }
    | none, none => x
  match st.layerSrc with
  | 1 =>
    match st.dd with
    | some (true, tops) =>
      match dd with
      | some d => { s := d.s.val, t := d.t.val, sof := d.sof, eof := d.eof, rp := audio || d.key, switch := d.switch, top := nth tops 7 d.s.val }
      | none => match st.before ts seq with
        | some (s, l) => { s, t := l, sof := false, eof := marker, rp := audio }
        | none => { info := false }
    | _ => { info := false }
  | 2 =>
    match fm with
    | some m => if m.lid.toNat ≤ 3 then { s := m.lid.toNat, t := m.tid.val, sof := m.s, eof := m.e, rp := audio || m.i, b := m.b } else { info := false }
    | none => { info := false }
  | 3 => { withExt codec with s := st.simIndex }
  | 4 => withExt codec
  | _ => codec

/-- A stream with no layer information makes firmware post STREAM_NO_LAYER_INFO once (R53). -/
def State.noInfo (s : State) (i : Nat) (st : Stream) : State :=
  if st.noInfoPosted || !st.blind then s
  else (s.updStream i fun x => { x with noInfoPosted := true }).notify st.own.fn 0x0281 i

/-! ### Delivery (R49, R67, R268) -/

/-- The words 4 to 7 of a packet item (R268). -/
def State.pktWords (s : State) (payload stream leg : Nat) : List Nat :=
  let p := Tbl.get s.net.payloads {} payload
  [(if p.spill then 2 ^ 31 else 0) + stream, p.addr % 2 ^ 32, p.bytes.length % 65536 * 256 + p.addr / 2 ^ 32 % 256, leg]

/-- A decrypted RTCP packet goes to its leg's RTCP dispatch queue (R47 step 13). -/
def State.deliverRtcp (s : State) (leg : Nat) (de : Bool) (plain : List Byte) : State :=
  match s.allocPayload false plain 1 with
  | (s1, none) => s1
  | (s1, some p) =>
    let q := 49152 + (s.leg leg).rtcpDq
    s1.postHw q 0x200 (mkItem 0x02 de q leg (s1.pktWords p 0 leg) (some p))

/-- The stop of R57 begins: every layer from `sc` on, and `CONC_HOLDS`. -/
def State.conceal (s : State) (stream sc ts : Nat) : State :=
  let add (l : List Hold) (layer : Nat) : List Hold :=
    match l.find? fun h => h.layer == layer with
    | some h => if newer 32 ts h.ts then ⟨layer, ts⟩ :: l.filter (·.layer != layer) else l
    | none => ⟨layer, ts⟩ :: l
  let hold (st : Stream) : Stream := { st with holds := ((List.range 4).filter fun k => sc ≤ k).foldl add st.holds }
  let covers (st : Stream) (x : Sub) : Bool :=
    x.st == .fwd && x.member == stream && (if st.layerSrc = 1 ∨ st.layerSrc = 2 ∨ st.layerSrc = 5 then decide (sc ≤ x.curS) else true)
  match Tbl.find s.net.streams stream with
  | none => s
  | some st =>
    if (hold st).holds = st.holds then s
    else (s.updNet fun n => { n with
      streams := Tbl.set n.streams stream (hold st)
      subs := Tbl.mapv n.subs fun _ x => if covers st x then { x with st := .concHold } else x }).cntStrata C_CONC_HOLDS

/-- Place an RTP packet for Strata and for dispatch, as the stream's `DEST` says; the payload is held once (R49). -/
def State.place' (s : State) (i : Nat) (st : Stream) (leg : Nat) (de : Bool) (plain : List Byte) (p : SrcPkt) : State :=
  let toStrata := (st.dest == 0 || st.dest == 2) && s.rb .STRATA_CTRL 0 31
  let toDisp := st.dest == 1 || st.dest == 2
  let refs := b2n toStrata + b2n toDisp
  if refs = 0 then s
  else match s.allocPayload (st.kind == 0) plain refs with
    | (s1, none) => s1
    | (s1, some id) =>
      let s2 := if toStrata then s1.updNet fun n => { n with strata := n.strata ++ [{ p with payload := id }] } else s1
      if toDisp then s2.postHw st.dispQ 0x200 (mkItem 0x01 de st.dispQ i (s2.pktWords id i leg) (some id)) else s2

/-- A packet whose payload is padding and nothing else: probe traffic (R99). DEDUCED: the rule names padding frames, and this is
how RTP pads. -/
def onlyPadding (h : Rtp) (plain : List Byte) : Bool := h.pad && decide (bAt plain (plain.length - 1) = plain.length)

/-- A decrypted RTP packet of a stream that did not come by Tolku. -/
def State.deliverRtp (s : State) (k : Pkt) (h : Rtp) (plain : List Byte) (f : MediaFacts) : State :=
  match Tbl.find s.net.streams k.stream with
  | none => s
  | some st0 =>
    let st := st0.learn f
    let seq := if k.rtx then be16 plain 0 else h.seq
    let li := st.layers f h.ts seq h.marker
    let base : SrcPkt := {
      stream := k.stream, seq := h.seq, ts := h.ts, marker := h.marker, pt := h.pt,
      pad := h.pad, csrc := h.csrc, ext := h.ext, len := k.len, de := k.de, tIn := k.tIn, probe := onlyPadding h plain
      s := li.s, t := li.t, sof := li.sof, eof := li.eof, rp := li.rp, info := li.info, switch := li.switch, top := li.top, b := li.b }
    if k.rtx then
      (s.updStream k.stream fun _ => st).place' k.stream st k.leg k.de plain { base with osn := some seq }
    else
      let st1 := if li.info then st.see h.ts seq li.s li.t else st
      let s1 := s.updStream k.stream fun _ => st1
      let s2 := if li.info then s1 else s1.noInfo k.stream st1
      s2.place' k.stream st1 k.leg k.de plain base

/-- The peer bound to a leg. -/
def State.peerOf (s : State) (leg : Nat) : Option (Nat × Peer) := s.net.peers.find? fun kv => kv.2.leg == leg

/-- A decrypted, authenticated Tolku packet (R69, R70 step 5, R57). -/
def State.deliverTolku (s : State) (k : Pkt) (h : Rtp) (plain : List Byte) : State :=
  match s.peerOf k.leg, s.tolkuWords h with
  | some (pi, p), some (a, b, c) =>
    let s := s.updNet fun n => { n with peers := Tbl.upd n.peers pi fun p => { p with lastHeard := s.ela, lostPosted := false } }
    let typ := bits a 27 26
    let ctrl := k.stream == p.ctrlStream
    if bits a 31 28 ≠ 1 ∨ bits b 31 14 ≠ s.rf .STRATA_DEVID 0 17 0 ∨ s.rb .STRATA_DEVID 0 31 = false
        ∨ bits a 25 8 ≠ p.dev ∨ typ = 3 ∨ (typ = 0) = (ctrl = true) then s.cntStrata C_TOLKU_DROP
    else if typ ≠ 0 then s.emit (.firmware .tolku k.leg plain)
    else
      let ps := bits c 31 30
      let s1 := if c.testBit 24 then s.conceal k.stream ps h.ts else s
      let st := s1.stream k.stream
      let audio := st.kind == 0
      s1.place' k.stream st k.leg k.de plain {
        stream := k.stream, seq := h.seq, ts := h.ts, marker := h.marker, pt := h.pt,
        pad := h.pad, csrc := h.csrc, ext := dropExt h.ext (s.rf .STRATA_CTRL 0 23 16), len := k.len, de := k.de,
        osn := if k.rtx then some (be16 plain 0) else none, tIn := k.tIn, probe := onlyPadding h plain
        s := ps, t := bits c 29 27, rp := audio || c.testBit 26, wd := c.testBit 25, conc := c.testBit 24, sof := c.testBit 23,
        eof := c.testBit 22, hops := some (bits b 13 11) }
  | some (pi, _), none =>
    (s.updNet fun n => { n with peers := Tbl.upd n.peers pi fun p => { p with lastHeard := s.ela, lostPosted := false } }).cntStrata C_TOLKU_DROP
  | none, _ => s.cntStrata C_TOLKU_DROP

/-- A packet that needs no more of the crypto plane is delivered. -/
def State.deliver' (s : State) (k : Pkt) (plain : List Byte) (f : MediaFacts) : State :=
  if k.rtcp then s.deliverRtcp k.leg k.de plain
  else
    let h := parseRtp k.bytes
    if k.tolku then s.deliverTolku k h plain else s.deliverRtp k h plain f

/-! ### FRAME_RECEIVED (R47, R70) -/

/-- A packet goes to its decrypt lane with its captured generation, or straight on when the leg is not an SRTP leg (R20,
R294, R297). -/
def State.toLane (s : State) (k : Pkt) (slot : Nat) (f : MediaFacts) : State :=
  if (s.leg k.leg).srtp then
    match s.capture slot false k.rtcp with
    | (s1, none) => s1
    | (s1, some c) => s1.updNet fun n => { n with dec := Tbl.updD n.dec [] (slot % 16) (· ++ [{ k with cap := some c }]) }
  else
    s.deliver' k (if k.rtcp then k.bytes else k.bytes.drop (parseRtp k.bytes).len) f

/-- An RTCP packet of a leg (step 13). -/
def State.rxRtcp (s : State) (leg : Nat) (k : Pkt) (f : MediaFacts) : State :=
  s.toLane { k with rtcp := true } (s.leg leg).srtcpDec f

/-- May a packet that came by Tolku belong to stream `i` of its leg (R70 step 4): a stream with `LAYER_SRC` = TOLKU, or the control
stream of the leg's peer? -/
def State.tolkuStream (s : State) (leg i : Nat) : Bool :=
  (s.stream i).layerSrc == 5 || s.net.peers.any fun kv => kv.2.leg == leg && kv.2.ctrlStream == i

/-- An RTP packet of a leg (step 14): a stream in destruction takes no more packets. -/
def State.rxRtp (s : State) (leg : Nat) (k : Pkt) (f : MediaFacts) : State :=
  let ssrc := (parseRtp k.bytes).ssrc
  match s.streamOf leg ssrc with
  | none => s.unknownSsrc leg ssrc
  | some (i, rtx) =>
    if k.tolku && !s.tolkuStream leg i then s.unknownSsrc leg ssrc
    else s.toLane { k with stream := i, rtx } (s.stream i).decSlot f

/-- Is the packet's stream an audio stream (R81)? -/
def State.audioPkt (s : State) (leg : Nat) (data : List Byte) : Bool :=
  match s.streamOf leg (parseRtp data).ssrc with
  | some (i, _) => (s.stream i).kind == 0
  | none => false

/-- RTCP by the first two bytes (step 13). -/
def isRtcp (d : List Byte) : Bool := decide (128 ≤ bAt d 0 ∧ bAt d 0 ≤ 191 ∧ 192 ≤ bAt d 1 ∧ bAt d 1 ≤ 223)
/-- RTP by the first byte (step 14). -/
def isRtp (d : List Byte) : Bool := decide (128 ≤ bAt d 0 ∧ bAt d 0 ≤ 191)

/-- Steps 10 to 15 of R47 for a datagram. -/
def State.rxLeg (s : State) (m : Option (Nat × Bool)) (src len dscp : Nat) (d : List Byte) (f : MediaFacts) : State :=
  match m with
  | none =>
    if bAt d 0 ≤ 3 ∧ 20 ≤ d.length ∧ beN d 4 4 = 0x2112A442 then s.emit (.firmware .stun src d) else s.cntStrata C_NO_LEG
  | some (leg, rtcpPort) =>
    let b := bAt d 0
    let k : Pkt := { leg, bytes := d, len, tIn := s.ela }
    if !rtcpPort && decide (b ≤ 3) && !d.isEmpty then s.emit (.firmware .stun leg d)
    else if !rtcpPort && decide (20 ≤ b) && decide (b ≤ 63) then s.emit (.firmware .dtls leg d)
    else if rtcpPort || isRtcp d then
      match s.police leg len dscp false with
      | (s1, some de) => s1.rxRtcp leg { k with de } f
      | (s1, none) => s1
    else if isRtp d then
      match s.police leg len dscp (s.audioPkt leg d) with
      | (s1, some de) => s1.rxRtp leg { k with de } f
      | (s1, none) => s1
    else s

/-- R70 for a datagram to the Tolku port. -/
def State.rxTolku (s : State) (m : Option (Nat × Bool)) (len dscp : Nat) (d : List Byte) (f : MediaFacts) : State :=
  match m with
  | none => s.cntStrata C_NO_LEG
  | some (leg, _) =>
    if (s.leg leg).cascade = false then s.cntStrata C_NO_LEG
    else match s.police leg len dscp (isRtp d && !isRtcp d && s.audioPkt leg d) with
      | (s1, none) => s1
      | (s1, some de) =>
        let b := bAt d 0
        let k : Pkt := { leg, bytes := d, len, de, tIn := s.ela, tolku := true }
        if b ≤ 3 ∧ d ≠ [] then s1.emit (.firmware .stun leg d)
        else if 20 ≤ b ∧ b ≤ 63 then s1.emit (.firmware .dtls leg d)
        else if isRtcp d then s1.rxRtcp leg k f
        else if isRtp d then s1.rxRtp leg k f
        else s1

/-- FRAME_RECEIVED (R47, R48, R70). `macOk` says that the destination is the port's unicast address; `facts` is what the
payload of a leg without SRTP shows. -/
def execFrameReceived (port : Fin 8) (macOk : Bool) (bytes : List Byte) (facts : MediaFacts) (el : Nat) (s : State) : Res :=
  let s := s.advance el
  if !s.linkUp port.val then .next s
  else match parseFrame macOk bytes with
    | .drop => .next s
    | .frag => .next (s.cntStrata C_FRAG)
    | .badCsum => .next (s.cntStrata C_BAD_CSUM)
    | .control k => .next (s.emit (.firmware k port.val bytes))
    | .udp v6 vlan src dst sp dp dscp data =>
      let m := s.legOf v6 vlan dst dp src sp
      let tu := s.rf .STRATA_CTRL 0 15 0
      if tu ≠ 0 ∧ dp = tu then .next (s.rxTolku m (bytes.length + 4) dscp data facts)
      else .next (s.rxLeg m port.val (bytes.length + 4) dscp data facts)

/-! ### SRTP_DECRYPT (R302) -/

/-- The index that a received packet stands for: SRTP by its sequence number, SRTCP by the index it carries. -/
def decIndex (k : Pkt) (sl : KeySlot) : Nat :=
  if k.rtcp then
    -- the SRTCP index word precedes the authentication tag, after it for the AEAD suites
    let tag := if sl.suite < 2 then 10 else 0
    beN k.bytes (k.bytes.length - tag - 4) 4 % 2 ^ 31
  else (sl.track (b2n k.rtx)).estimate (be16 k.bytes 2)

/-- SRTP_DECRYPT (R294, R302, R309 to R311): the oldest packet of a decrypt lane. -/
def execSrtpDecrypt (lane : Fin 16) (authOk : Bool) (plain : List Byte) (facts : MediaFacts) (el : Nat) (s : State) : Res :=
  let s := s.advance el
  if s.keys.bleaching || !s.pdOn 27 then .next s
  else match Tbl.get s.net.dec [] lane.val with
    | [] => .next s
    | k :: r =>
      let s := s.updNet fun n => { n with dec := Tbl.set n.dec lane.val r }
      match k.cap with
      | none => .next (s.deliver' k plain facts)
      | some c =>
        if s.rb .CRYPT_CTRL 0 31 = false then .next (s.releaseCap (some c))
        else if s.capErased c then .next (s.dropErased c)
        else
          let sl := s.slot c.slot
          let tr := if k.rtcp then 0 else b2n k.rtx
          let i := decIndex k sl
          if (sl.track tr).replayed i then
            .next (((s.cntCrypt K_REPLAY).updSlot c.slot fun v => { v with replay := sat32 v.replay }).releaseCap (some c))
          else if !authOk then
            .next (((s.cntCrypt K_AUTH_FAIL).updSlot c.slot fun v => { v with authFail := sat32 v.authFail }).releaseCap (some c))
          else
            let s1 := s.updSlot c.slot fun v => v.setTrack tr ((v.track tr).mark i)
            let s2 := ((s1.advanceTrack c.slot tr i).switchAt c.slot i).cntCrypt K_DEC_PKTS
            .next ((s2.releaseCap (some c)).deliver' k plain facts)

end Sys2Proof.Machine
end

