-- ==== Sys2Proof/Machine/Strata.lean ====
section
/-! DEFINITION. The queue manager's admission, header rewriting, the forwarding decision and its states (R20, R46, R54 to
R66, R71, R85). -/

namespace Sys2Proof.Machine

/-! ### Admission to a flow queue (R84, R85) -/

abbrev E_SENT_FRAMES : Nat := 0
abbrev E_SENT_BYTES : Nat := 1
abbrev E_DROP_TAIL : Nat := 2
abbrev E_DROP_DE : Nat := 3
abbrev E_GATE_LOST : Nat := 4
abbrev E_TGT_REJECT : Nat := 5
abbrev E_MIN_MISSED : Nat := 6
abbrev E_DESC_REFUSED : Nat := 7

/-- Counted bytes in a flow queue. -/
def FlowQ.level (f : FlowQ) : Nat := sumN (f.descs.map (·.counted))
/-- `AUDIO_TC` of a port. -/
def State.audioTc (s : State) (p : Nat) : Nat := s.rf .EGS_PORT_CFG p 30 28

def State.setFlowq (s : State) (q : Nat) (f : FlowQ) : State := s.updNet fun n => { n with flowqs := Tbl.set n.flowqs q f }
/-- The samplers that watch a queue. -/
def State.updSamplers (s : State) (q : Nat) (f : Sampler → Sampler) : State :=
  s.updNet fun n => { n with samplers := Tbl.mapv n.samplers fun _ x => if x.qid = q then f x else x }

def State.descUsed (s : State) (k : Nat) : Nat := Tbl.get s.net.descUsed 0 k
def State.descMin (s : State) (t : Nat) : Nat := Tbl.get s.net.descMin 0 t
def State.descMinSum (s : State) : Nat := s.descMin 0 + s.descMin 1 + s.descMin 2 + s.descMin 3

/-- Descriptors in use, of the 1,048,576 of the pool (R111). -/
def State.descTotal (s : State) : Nat := sumN ((List.range 5).map fun t => s.descUsed (2 + t))

/-- The pool that gives a descriptor for a queue: 0 audio reserve, 1 the tenant's reservation, 2 shared (R85); none when every
descriptor of the device is in use, whatever a reservation that was raised since then says. -/
def State.descPool (s : State) (f : FlowQ) : Option Nat :=
  let t := f.own.fn / 64
  if 1048576 ≤ s.descTotal then none
  else if f.cls = s.audioTc f.port ∧ s.descUsed 0 < s.net.audioDescRsv then some 0
  else if s.descUsed (2 + t) < s.descMin t then some 1
  else if s.descUsed 1 < 1048576 - s.net.audioDescRsv - s.descMinSum then some 2
  else none

/-- Account for a descriptor of a tenant drawn from a pool, or returned. -/
def State.drawDesc (s : State) (t pool : Nat) : State :=
  s.updNet fun n =>
    let u := Tbl.updD n.descUsed 0 (2 + t) (· + 1)
    { n with descUsed := if pool = 0 then Tbl.updD u 0 0 (· + 1) else if pool = 2 then Tbl.updD u 0 1 (· + 1) else u }
def State.returnDesc (s : State) (t pool : Nat) : State :=
  s.updNet fun n =>
    let u := Tbl.updD n.descUsed 0 (2 + t) (· - 1)
    { n with descUsed := if pool = 0 then Tbl.updD u 0 0 (· - 1) else if pool = 2 then Tbl.updD u 0 1 (· - 1) else u }

/-- A refused descriptor: counted for the port, the queue and its samplers, and dropped (R85). -/
def State.refuseDesc (s : State) (q : Nat) (f : FlowQ) (d : Desc) (k : Nat) : State :=
  (((s.cntEgs f.port k).setFlowq q { f with drops := f.drops + 1 }).updSamplers q fun x => { x with drops := x.drops + 1 }).dropDesc d

/-- The queue manager takes a descriptor or drops it (R85); one for an unconfigured queue counts in `DROP_PORT_DOWN`
(R84). -/
def State.enterQueue (s : State) (q : Nat) (d : Desc) : State :=
  match Tbl.find s.net.flowqs q with
  | none => (s.cntStrata C_DROP_PORT_DOWN).dropDesc d
  | some f =>
    let d := { d with counted := ((d.len : Int) + s.overhead f.port).toNat, enq := s.ela, port := f.port, tenant := f.own.fn / 64, qid := q }
    let lvl := f.level
    if f.limBytes < lvl + d.counted ∨ f.limPkts < f.descs.length + 1 then s.refuseDesc q f d E_DROP_TAIL
    else if d.de = true ∧ f.deLimit ≤ lvl then s.refuseDesc q f d E_DROP_DE
    else match s.descPool f with
      | none => s.refuseDesc q f d E_DESC_REFUSED
      | some p => (s.drawDesc d.tenant p).setFlowq q { f with descs := f.descs ++ [{ d with pool := p }] }

/-! ### RTP headers that leave (R61, R66, R71) -/

/-- The bytes of a header extension: profile, length in words, body. -/
def extBytes : Option (Nat × List Byte) → List Byte
  | some (p, b) => toBe 2 p ++ toBe 2 (b.length / 4) ++ b
  | none => []

/-- The RTP header of an outbound packet. -/
def Desc.head (d : Desc) : List Byte :=
  let ext := extBytes d.ext
  let b0 := 0x80 + 32 * b2n d.pad + 16 * b2n (!ext.isEmpty) + d.csrc.length / 4 % 16
  toBe 1 b0 ++ toBe 1 (128 * b2n d.marker + d.pt % 128) ++ toBe 2 d.seq ++ toBe 4 d.ts ++ toBe 4 d.ssrc ++ d.csrc ++ ext

/-- Bytes that SRTP or SRTCP adds to a packet of a slot (R293, R301). -/
def KeySlot.grow (k : KeySlot) (rtcp : Bool) : Nat :=
  let tag := match k.suite, rtcp with | 0, _ => 10 | 1, false => 4 | 1, true => 10 | _, _ => 16
  tag + if rtcp then 4 else 0

/-- The frame length L of an outbound packet (R78): MAC header, tag, IP, UDP, RTP header, payload, what SRTP adds, FCS. -/
def State.outLen (s : State) (l : Leg) (d : Desc) : Nat :=
  14 + (if l.vlan.isSome then 4 else 0) + (if l.v6 then 40 else 20) + 8
    + (if d.rtcp then 0 else d.head.length) + (s.payloadBytes d.payload).length
    + (if l.srtp then (s.slot d.encSlot).grow d.rtcp else 0) + 4

/-- A descriptor for a leg is created and given to its queue (R20, R46, R84, R297): withheld while the port's link is
down, dropped at the capture without a key. It holds one reference to the payload. -/
def State.sendDesc (s : State) (q : Nat) (d : Desc) : State :=
  let l := s.leg d.leg
  if !s.linkUp l.port || !Tbl.has s.net.flowqs q then s.cntStrata C_DROP_PORT_DOWN
  else
    let r := if l.srtp then s.capture d.encSlot true d.rtcp else (s, none)
    if l.srtp && r.2.isNone then r.1
    else
      let s1 := r.1.refPayload d.payload
      let ext := if l.twId = 0 ∨ d.rtcp = true then d.ext else setExt false d.ext l.twId [0, 0]
      let d1 := { d with ext, cap := r.2 }
      let s2 := if d.rtcp then s1 else s1.cntStrata C_FWD_PKTS
      s2.enterQueue q { d1 with len := s1.outLen l d1 }

/-! ### Output contexts -/

def State.sub (s : State) (i : Nat) : Sub := Tbl.get s.net.subs {} i
def State.setSub (s : State) (i : Nat) (x : Sub) : State := s.updNet fun n => { n with subs := Tbl.set n.subs i x }

/-- The effective target (R58). -/
def Sub.effS (x : Sub) : Nat := min x.maxS x.tgtS
def Sub.effT (x : Sub) : Nat := min x.maxT x.tgtT
/-- Is the context forwarding: FWD, UP_WAIT or CONC_HOLD? -/
def Sub.live (x : Sub) : Bool := x.st == .fwd || x.st == .upWait || x.st == .concHold
/-- Does the context wait for a recovery point (R55)? -/
def Sub.waits (x : Sub) : Bool := x.st == .joinWait || x.st == .upWait || (x.st == .fwd && x.downTo.isSome)

/-- A layered stream (R52). -/
def Stream.layered (st : Stream) : Bool := st.layerSrc == 1 || st.layerSrc == 2 || st.layerSrc == 5
/-- A simulcast member. -/
def Stream.sim (st : Stream) : Bool := st.layerSrc == 3 && !st.device

/-- The lowest held layer (R57). -/
def Stream.minHold (st : Stream) : Option Nat := (st.holds.map (·.layer)).min?
/-- Is a layer held? Each layer resumes for itself; a stream that is not layered is held whole. -/
def Stream.held (st : Stream) (layer : Nat) : Bool :=
  if st.layered then st.holds.any fun h => h.layer == layer else !st.holds.isEmpty
/-- The layers that a target admits, capped below a hold: their number (R57). -/
def Stream.capS (st : Stream) (es : Nat) : Nat :=
  match st.minHold with
  | some m => if st.layered then min (es + 1) m else es + 1
  | none => es + 1

/-- The simulcast members of a stream's group: index and stream. -/
def State.members (s : State) (st : Stream) : List (Nat × Nat) :=
  (s.net.streams.filter fun kv => kv.2.sim && kv.2.leg == st.leg && kv.2.simGroup == st.simGroup && !kv.2.own.dying).map
    fun kv => (kv.2.simIndex, kv.1)

/-- The member index that a target names (R58). -/
def State.want (s : State) (st : Stream) (es : Nat) : Nat :=
  let idx := (s.members st).map (·.1)
  match (idx.filter fun i => decide (i ≤ es)).max? with
  | some i => i
  | none => idx.min?.getD st.simIndex

/-- Does a context subscribe to a stream (R51)? -/
def State.follows (s : State) (x : Sub) (i : Nat) (st : Stream) : Bool :=
  x.src == i || (match x.next with | some (n, _) => n == i | none => false) || (st.sim && (let o := s.stream x.src; o.sim && o.leg == st.leg && o.simGroup == st.simGroup && Tbl.has s.net.streams x.src))

/-! ### Sequence numbers and timestamps (R61 to R63) -/

/-- Set bits of a map below position `n`. -/
def popBelow (m : BitVec 64) (n : Nat) : Nat := ((List.range (min n 64)).filter fun i => m.toNat.testBit i).length

/-- The entries of the translation window for the inputs after last_in up to `s` at distance `gap` (R62, R63): from
distance `k`, with `n` numbers already given to missing inputs of `avail`. -/
def fillWin (x : Sub) (gap out avail : Nat) : Nat → Nat → Nat → Sub → Sub
  | 0, _, _, y => y
  | fuel + 1, k, n, y =>
    let e := (x.lastIn + k) % 64
    let on : BitVec 64 := 1 <<< e
    if k = gap then { y with window := Tbl.set y.window e out, reserved := y.reserved ||| on, used := y.used ||| on }
    else if gap < k then y
    else if k ≤ 64 && x.ahead.toNat.testBit (k - 1) then
      fillWin x gap out avail fuel (k + 1) n { y with reserved := y.reserved &&& ~~~on, used := y.used &&& ~~~on }
    else if n < avail then
      fillWin x gap out avail fuel (k + 1) (n + 1) { y with
        window := Tbl.set y.window e ((x.lastOut + 1 + n) % 65536), reserved := y.reserved ||| on, used := y.used &&& ~~~on }
    else fillWin x gap out avail fuel (k + 1) n { y with reserved := y.reserved &&& ~~~on, used := y.used &&& ~~~on }

/-- R62 for an input newer than last_in: the output number and the context. -/
def Sub.number (x : Sub) (s : Nat) : Sub × Nat :=
  let gap := dist 16 s x.lastIn
  let d := min (popBelow x.ahead (gap - 1) + x.dropped) (gap - 1)
  let out := (x.lastOut + gap - d) % 65536
  let from' := max 1 (gap - 63)
  let n0 := from' - 1 - popBelow x.ahead (from' - 1)
  let y := fillWin x gap out (gap - 1 - d) 65 from' n0 x
  ({ y with lastIn := s, lastOut := out, ahead := x.ahead >>> gap, dropped := 0 }, out)

/-- R63 for a late input: its reserved and unused number. -/
def Sub.late (x : Sub) (s : Nat) : Option (Sub × Nat) :=
  let e := s % 64
  if dist 16 x.lastIn s < 64 ∧ x.reserved.toNat.testBit e = true ∧ x.used.toNat.testBit e = false then
    some ({ x with used := x.used ||| 1 <<< e }, Tbl.get x.window 0 e)
  else none

/-- Is an input newer than everything forwarded? -/
def Sub.isNew (x : Sub) (s : Nat) : Bool := !x.started || newer 16 s x.lastIn

/-- A packet withheld by its layer (R62): recorded when its input number is newer than last_in in the space being
forwarded. -/
def Sub.withhold (x : Sub) (p : SrcPkt) : Sub :=
  if !x.started || p.stream != x.member || p.osn.isSome || !newer 16 p.seq x.lastIn then x
  else
    let k := dist 16 p.seq x.lastIn - 1
    if k < 64 then { x with ahead := x.ahead ||| 1 <<< k } else { x with dropped := x.dropped + 1 }

/-- Rounding to the nearest integer, halves up, of a quotient. -/
def roundDiv (a b : Nat) : Nat := (2 * a + b) / (2 * b)

/-- A change of the stream being forwarded (R61, R62). -/
def Sub.change (x : Sub) (p : SrcPkt) (clock : Nat) : Sub :=
  if x.started then
    let ticks := max 1 (roundDiv ((p.tIn - x.tLast) * clock) 1000000000)
    { x with
      member := p.stream, frame := none, tsOff := dist 32 (x.lastOutTs + ticks) p.ts, lastIn := dist 16 p.seq 1
      ahead := 0, dropped := 0, reserved := 0, used := 0 }
  else { x with member := p.stream, frame := none }

/-! ### The decision (R54 to R58) -/

/-- What Strata does with a packet for one context. -/
inductive Act where
  | forward | withhold | late | none
  deriving DecidableEq, Repr

/-- Transitions of R58 on the effective target: `want` is the targeted member of a simulcast group. -/
def Sub.settle (x : Sub) (st : Stream) (want : Nat) : Sub :=
  let above := if st.sim then decide (x.curS < want) else decide (x.curS + 1 < st.capS x.effS)
  let y :=
    if x.st = .fwd ∧ above = true then { x with st := .upWait, keyPosted := false }
    else if x.st = .upWait ∧ above = false then { x with st := .fwd }
    else x
  if st.sim && y.st == .fwd && decide (want < y.curS) then
    (if y.downTo = some want then y else { y with downTo := some want, keyPosted := false })
  else { y with downTo := none }

/-- Temporal switches at the first packet of a frame (R54). -/
def Sub.temporal (x : Sub) (st : Stream) (p : SrcPkt) (rp : Bool) : Sub :=
  let et := x.effT
  if et < x.curT then { x with curT := et }
  else if x.curT = et ∨ p.sof = false then x
  else if rp = true ∧ p.s ≤ x.curS then { x with curT := et }
  else
    let dd := (p.switch.filter fun q => (!st.layered || q.1 == x.curS) && decide (x.curT < q.2 ∧ q.2 ≤ et)).map (·.2)
    let fm := if p.b ∧ p.s ≤ x.curS ∧ x.curT < p.t ∧ p.t ≤ et then p.t else 0
    { x with curT := max x.curT (max (dd.max?.getD 0) fm) }

/-- CONC_HOLD ends when every held layer up to the target has resumed (R58). -/
def Sub.unhold (x : Sub) (st : Stream) (want : Nat) : Sub :=
  let still := if st.sim then !st.holds.isEmpty && decide (st.simIndex ≤ want) else st.held x.effS
  if x.st = .concHold ∧ still = false then { x with st := .fwd } else x

/-- Does the context get the packet's layer? -/
def Sub.carries (x : Sub) (st : Stream) (p : SrcPkt) : Bool := decide (p.s ≤ x.curS) && decide (p.t ≤ x.curT) && !st.held p.s

/-- The layer steps of a context for a packet of a stream that is not a simulcast member (R54, R58). -/
def Sub.layerStep (x : Sub) (st : Stream) (p : SrcPkt) (rp : Bool) : Sub :=
  let x1 := if x.tu ≠ some (p.stream, p.ts) ∧ x.effS < x.curS then { x with curS := x.effS } else x
  let x2 := (x1.temporal st p rp).unhold st 0
  let up := (x2.st == .fwd || x2.st == .upWait) && p.sof && rp && decide (x2.curS < p.s) && decide (p.s < st.capS x2.effS)
  let x3 := if up then { x2 with curS := p.s, curT := x2.effT, st := .fwd } else x2
  x3.settle st 0

/-- The steps for a simulcast group: `cur` is the member being forwarded, `want` the targeted index. -/
def Sub.simStep (x : Sub) (cur st : Stream) (p : SrcPkt) (rp : Bool) (want : Nat) : Sub :=
  let own := p.stream == x.member
  let x1 := (if own then x.temporal st p rp else x).unhold cur want
  let up := decide (x1.curS < p.s) && decide (p.s ≤ max x1.effS want)
  let go := x1.live && !own && p.sof && rp && !st.held p.s && ((up && x1.st != .concHold) || (!up && p.s == want))
  let x2 := if go then { x1.change p st.clock with curS := p.s, curT := x1.effT, downTo := none, st := .fwd } else x1
  x2.settle (if go then st else cur) want

/-- Is the packet's frame a recovery point of its layer for a context (R52)? For a DD source, also by the Switch indication for the
decode target of (S, T_d). -/
def Sub.rpFor (x : Sub) (st : Stream) (p : SrcPkt) : Bool :=
  p.rp || (st.layerSrc == 1 && st.kind != 0 && p.switch.contains (p.s, min x.effT p.top))

/-- Does a recovery point end a hold: of its layer, or of any where the stream is not layered, and later than the concealed picture
(R57, R59)? -/
def Stream.ends (st : Stream) (p : SrcPkt) (h : Hold) : Bool := (!st.layered || h.layer == p.s) && newer 32 p.ts h.ts

/-- A recovery point that is one for every receiver ends the hold of its layer (R57). -/
def Stream.endHolds (st : Stream) (p : SrcPkt) : Stream :=
  if p.sof && p.rp && p.info && p.osn.isNone then { st with holds := st.holds.filter fun h => !st.ends p h } else st

/-- A recovery point for one receiver ends the holds for it (R52, R57); what the stream no longer holds is forgotten. -/
def Sub.endHolds (x : Sub) (st : Stream) (p : SrcPkt) : Sub :=
  let keep := x.ended.filter fun e => e.1 != p.stream || st.holds.contains e.2
  if p.sof && x.rpFor st p && p.info && p.osn.isNone then
    { x with ended := keep ++ ((st.holds.filter fun h => st.ends p h && !keep.contains (p.stream, h)).map fun h => (p.stream, h)) }
  else { x with ended := keep }

/-- A stream as a context sees it: without the holds that have ended for it. -/
def Sub.view (x : Sub) (i : Nat) (st : Stream) : Stream := { st with holds := st.holds.filter fun h => !x.ended.contains (i, h) }

/-- The decision for one context (R54 to R58, R63, R71). -/
def State.decide' (s : State) (x : Sub) (st : Stream) (p : SrcPkt) : Sub × Act :=
  let own := p.stream == x.member
  let rp := x.rpFor st p
  let relayNo := match p.hops with
    | some h => (s.leg x.rxLeg).cascade && !(x.relay && decide (h + 1 ≤ 7))
    | none => false
  if x.st = .paused ∨ p.info = false ∨ relayNo = true then (x, .withhold)
  else if p.osn.isSome then (x, if x.live && own then .forward else .none)
  else
    let same := match x.frame with
      | some (m, ts, mask) => own && m == p.stream && ts == p.ts && mask.testBit p.s
      | none => false
    if x.live && same then (x, .forward)
    else if x.live && own && !x.isNew p.seq then (x, if x.carries st p then .forward else .late)
    else
      let want := if st.sim then s.want st x.effS else 0
      let top := if st.sim then max (x.effS + 1) (want + 1) else st.capS x.effS
      let y :=
        if x.st = .joinWait then
          if p.sof && rp && decide (p.s < top) && !st.held p.s then
            let x1 := if p.stream = x.member then x else x.change p st.clock
            ({ x1 with curS := p.s, curT := x.effT, st := .fwd } : Sub).settle st want
          else x
        else if st.sim then x.simStep (x.view x.member (s.stream x.member)) st p rp want
        else x.layerStep st p rp
      let y := { y with tu := some (p.stream, p.ts) }
      if !y.live || p.stream != y.member || !y.carries st p then (y, .withhold)
      else
        let mask := match y.frame with
          | some (m, ts, k) => if m = p.stream ∧ ts = p.ts then k else 0
          | none => 0
        ({ y with frame := some (p.stream, p.ts, mask ||| 1 <<< p.s) }, .forward)

/-- `SWITCH_UP` and `SWITCH_DOWN`: one count for a change of the current layer, in the direction of S (R73). -/
def State.countSwitch (s : State) (x y : Sub) : State :=
  if x.st = .joinWait ∨ (x.curS = y.curS ∧ x.curT = y.curT) then s
  else if x.curS < y.curS ∨ (x.curS = y.curS ∧ x.curT < y.curT) then s.cntStrata C_SWITCH_UP
  else s.cntStrata C_SWITCH_DOWN

/-- KEY_WANTED: to the source leg's RTCP dispatch queue, or for a device-originated source to firmware, which starts an
early refresh wave (R55). -/
def State.keyWanted (s : State) (i : Nat) (stream : Nat) : State :=
  let st := s.stream stream
  let s1 := (s.cntStrata C_KEY_WANTED).setSub i { s.sub i with keyPosted := true }
  if st.device then s1.updNet fun n => { n with waveReq := n.waveReq ++ [stream] }
  else
    let q := 49152 + (s.leg st.leg).rtcpDq
    s1.postHw q 0x201 (mkItem 0x12 false q st.leg [i, stream])

/-! ### Forwarding (R61 to R66, R71) -/

/-- The marker bit of a forwarded packet (R64). -/
def Sub.markerOf (x : Sub) (st : Stream) (p : SrcPkt) : Bool :=
  if !st.layered then p.marker
  else
    -- the highest layer that the receiver is getting
    let top := (((List.range (x.curS + 1)).filter fun k => !st.held k).max?).getD 0
    let top := match x.frame with
      | some (_, ts, mask) => if ts = p.ts then max top (Nat.log2 mask) else top
      | none => top
    p.eof && p.s == top

/-- The Tolku element for a cascade leg (R71); `rp` says that the packet's frame is a recovery point. -/
def State.tolkuElement (s : State) (dev : Nat) (p : SrcPkt) (rp : Bool) : List Byte :=
  let hops := match p.hops with | some h => h + 1 | none => 0
  toBe 4 (2 ^ 28 + s.rf .STRATA_DEVID 0 17 0 * 256) ++ toBe 4 (dev * 2 ^ 14 + hops * 2 ^ 11)
    ++ toBe 4 (p.s % 4 * 2 ^ 30 + p.t % 8 * 2 ^ 27 + b2n (rp && p.sof) * 2 ^ 26 + b2n p.wd * 2 ^ 25 + b2n p.conc * 2 ^ 24
      + b2n p.sof * 2 ^ 23 + b2n p.eof * 2 ^ 22)

/-- A packet goes out for a context with an output number; one for a cascade leg with no peer bound has no Tolku element, since
there is no dev_id to fill in. An RTX packet is marked as the packet that it carries (R65). -/
def State.forward (s : State) (i : Nat) (x : Sub) (st : Stream) (p : SrcPkt) (out : Nat) : State :=
  let l := s.leg x.rxLeg
  let ext := match (if l.cascade then s.peerOf x.rxLeg else none) with
    | some (_, pr) => setExt true p.ext (s.rf .STRATA_CTRL 0 23 16) (s.tolkuElement pr.dev p (x.rpFor st p))
    | none => p.ext
  let rtx := p.osn.isSome
  let d : Desc := {
    payload := p.payload, leg := x.rxLeg, sub := some i, encSlot := x.encSlot
    ssrc := if rtx then x.rtxSsrc.getD 0 else x.outSsrc
    seq := if rtx then x.rtxSeq else out, osn := if rtx then some out else none
    ts := (p.ts + x.tsOff) % 2 ^ 32, marker := x.markerOf st p, pt := x.pt.getD p.pt
    pad := p.pad, csrc := p.csrc, ext, de := p.de, probe := p.probe, rtx, s := p.s, t := p.t }
  s.sendDesc x.outQ d

/-- Strata forwards a packet to a context: its number by R62, R63 or R65, then the descriptor. -/
def State.forwardTo (s : State) (i : Nat) (x0 : Sub) (st : Stream) (p : SrcPkt) : State :=
  match p.osn with
  | some o =>
    if x0.rtxSsrc.isNone then s.setSub i x0
    else if x0.started && decide (dist 16 x0.lastIn o < 64) && x0.used.toNat.testBit (o % 64) then
      (s.setSub i { x0 with rtxSeq := (x0.rtxSeq + 1) % 65536 }).forward i x0 st p (Tbl.get x0.window 0 (o % 64))
    else (s.setSub i x0).cntStrata C_DROP_LATE
  | none =>
    let x := if x0.started then x0 else { x0 with started := true, lastIn := dist 16 p.seq 1, ahead := 0, dropped := 0, reserved := 0, used := 0 }
    if newer 16 p.seq x.lastIn then
      let (y, out) := x.number p.seq
      let y := { y with tLast := p.tIn, lastOutTs := (p.ts + x.tsOff) % 2 ^ 32 }
      (s.setSub i y).forward i y st p out
    else match x.late p.seq with
      | some (y, out) => (s.setSub i y).forward i y st p out
      | none => (s.setSub i x).cntStrata C_DROP_LATE

/-- A class output whose source changes (R131): from the first packet at or after the change on, the new stream; of the
old one only the packets before it. `none`: the packet is not this context's. -/
def Sub.follow (x : Sub) (p : SrcPkt) (clock : Nat) : Option Sub :=
  match x.next with
  | none => some x
  | some (n, t) =>
    if p.stream = n ∧ t ≤ p.tIn then
      some (if x.started then { x.change p clock with src := n, next := none } else { x with src := n, member := n, next := none })
    else if p.stream = x.src ∧ p.tIn < t then some x
    else none

/-- One context's turn for a packet. -/
def State.strataOne (s : State) (st0 : Stream) (p : SrcPkt) (i : Nat) (x0 : Sub) : State :=
  match x0.follow p st0.clock with
  | none => s
  | some x1 =>
  let x := x1.endHolds st0 p
  let st := x.view p.stream st0
  if x.st = .idle ∨ x.st = .srcGone then s
  else
    let (y, a) := s.decide' x st p
    let s1 := (s.setSub i y).countSwitch x y
    let s2 := if x.waits && y.waits && x.st == y.st && x.curS == y.curS && x.member == y.member && !y.keyPosted
      then s1.keyWanted i p.stream else s1
    let y := s2.sub i
    match a with
    | .forward => s2.forwardTo i y st p
    | .withhold => (s2.setSub i (y.withhold p)).cntStrata C_DROP_LAYER
    | .late => s2.cntStrata C_DROP_LATE
    | .none => s2

/-- Strata decides a packet for every context of its source; its own hold on the payload ends after the last. -/
def State.strata (s : State) (p : SrcPkt) : State :=
  match Tbl.find s.net.streams p.stream with
  | none => s.releasePayload p.payload
  | some st0 =>
    let st := st0.endHolds p
    let s1 := s.updStream p.stream fun _ => st
    let subs := s1.net.subs.filter fun kv => s1.follows kv.2 p.stream st
    (subs.foldl (fun s kv => s.strataOne st p kv.1 (s.sub kv.1)) s1).releasePayload p.payload

/-- A packet of a device-originated stream, handed over by the kernel that made it (R52, R67, R128); its ingress time is
the hand-over, or for a class stream its mix time (R131). A class packet's RTP timestamp is that of its first mix frame
(R114). -/
def State.devPacket (s : State) (k : DevPkt) : State :=
  match Tbl.find s.net.streams k.stream with
  | none => s
  | some st =>
    if !st.device || s.rb .STRATA_CTRL 0 31 = false then s
    else match s.allocPayload (st.kind == 0) k.bytes 1 with
      | (s1, none) => s1
      | (s1, some id) =>
        let audio := st.kind == 0
        s1.strata {
          stream := k.stream, payload := id, seq := k.seq.toNat, ts := if audio then k.frame * st.clock / 100 % 2 ^ 32 else k.ts.toNat, marker := k.marker, pt := k.pt.toNat
          s := if audio then 0 else k.s.val, t := if audio then 0 else k.t.val, sof := audio || k.sof, eof := k.eof
          rp := audio || k.rp, wd := k.wd, probe := k.probe, tIn := if audio then k.frame * 10000000 else s.ela }

/-- STRATA_FORWARD (R54 to R66): a packet that a kernel hands over, or the oldest packet that waits for Strata. -/
def execStrataForward (dev : Option DevPkt) (el : Nat) (s : State) : Res :=
  let s := s.advance el
  if !s.pdOn 26 then .next s
  else match dev with
  | some k => .next (s.devPacket k)
  | none => match s.net.strata with
    | [] => .next s
    | p :: r =>
      let s := s.updNet fun n => { n with strata := r }
      if s.rb .STRATA_CTRL 0 31 then .next (s.strata p) else .next (s.releasePayload p.payload)

/-! ### Layer targets (R60) -/

/-- A target changed: the transitions of R58 that need no packet. -/
def State.retarget (s : State) (i : Nat) (x : Sub) : State :=
  let st := x.view x.member (s.stream x.member)
  s.setSub i (if x.live then x.settle st (if st.sim then s.want st x.effS else 0) else x)

/-- The oldest item of a shared input, which the hardware consumes at once. -/
def State.popShared (s : State) (q : Nat) : Option (Item × State) :=
  match s.dispQ q with
  | none => none
  | some d => match d.items with
    | [] => none
    | it :: r =>
      some (it, ((s.setDispQ q { d with items := r, done := d.done + 1 }).releaseOpt it.payload).returnItem (d.own.fn / 64) it.pool)

/-- LAYER_TARGET_APPLY (R60). -/
def execLayerTargetApply (s : State) : Res :=
  if !s.pdOn 26 then .next s
  else match s.popShared (s.rf .STRATA_TGT_QID 0 15 0) with
  | none => .next s
  | some (it, s) =>
    let i := it.w 4 % 2 ^ 17
    match Tbl.find s.net.subs i with
    | none => .next (s.cntStrata C_TGT_REJECT)
    | some x =>
      if it.event ≠ 0x13 ∨ x.rxLeg ≠ it.w 6 % 65536 ∨ x.own.fn / 64 ≠ it.src then .next (s.cntStrata C_TGT_REJECT)
      else .next (s.retarget i { x with tgtS := bits (it.w 5) 31 30, tgtT := bits (it.w 5) 29 27 })

end Sys2Proof.Machine
end

