-- ==== Sys2Proof/Machine/Egress.lean ====
section
/-! DEFINITION. Egress selection, encryption, send-time records, gates, shaper targets, samplers and the Tolku keepalive
(R66, R72, R87 to R107, R299). -/

namespace Sys2Proof.Machine

/-! ### Sending (R66, R99) -/

/-- The payload bytes as they leave: an RTX packet carries its rewritten original sequence number first (R65). -/
def State.sendBody (s : State) (d : Desc) : List Byte :=
  let b := s.payloadBytes d.payload
  match d.osn with
  | some o => toBe 2 o ++ b.drop 2
  | none => b

/-- The send-time record of a frame on a leg whose window is enabled (R99). -/
def State.sendRecord (s : State) (d : Desc) (cls : Nat) : State :=
  match d.tw, Tbl.find s.net.est d.leg with
  | some tw, some e =>
    if !e.enable then s
    else
      let w3 := 2 ^ 31 + b2n d.probe * 2 ^ 30 + b2n d.rtx * 2 ^ 29 + d.s % 4 * 2 ^ 27 + d.t % 8 * 2 ^ 24 + cls % 8 * 2 ^ 21 + d.leg % 65536
      s.memWords (s.rf .EGS_STR_BASE 0 19 0 * 2 ^ 20 + 16 * (e.base + tw % 2 ^ e.log2))
        [s.dev % 2 ^ 32, s.dev / 2 ^ 32, tw * 65536 + d.len % 16384, w3]
  | _, _ => s

/-- A frame leaves its port: the counters, its flow queue's and the samplers' count of it (R105), the record, the frame, and
the payload's reference (R19). -/
def State.wire (s : State) (d : Desc) (bytes : List Byte) : State :=
  let s0 := (s.cntEgs d.port E_SENT_FRAMES).cntEgs d.port E_SENT_BYTES d.counted
  let s1 := (s0.updNet fun n => { n with
    flowqs := Tbl.upd n.flowqs d.qid fun f => { f with sent := f.sent + 1, sentBytes := f.sentBytes + d.counted } }).updSamplers d.qid fun x =>
      { x with sent := x.sent + 1, sojourn := max x.sojourn ((s.ela - d.enq) / 1000) }
  ((s1.sendRecord d d.cls).emit (.frame d.port bytes)).releasePayload d.payload

/-- A descriptor's spilled payload or its output context cannot be read (R341). -/
def State.descUnread (s : State) (r : Reads) (d : Desc) : Bool :=
  (match Tbl.find s.net.payloads d.payload with
    | some p => p.spill && r.hit p.addr p.bytes.length
    | none => false) ||
  match d.sub with
  | some i => r.hit (s.rf .STRATA_OCTX_BASE 0 18 0 * 2 ^ 21 + 192 * i) 192
  | none => false

/-- A released frame: to its encrypt lane, or out at once when its leg is not an SRTP leg (R20, R294); one that cannot be read is
dropped (R341). -/
def State.release (s : State) (r : Reads) (d : Desc) : State :=
  match d.cap with
  | some c => s.updNet fun n => { n with enc := Tbl.updD n.enc [] (c.slot % 16) (· ++ [d]) }
  | none => if s.descUnread r d then s.dropDesc d else s.wire d ((if d.rtcp then [] else d.head) ++ s.sendBody d)

/-- KEY_INDEX_REFUSED at most once per slot each second (R299). -/
def State.indexRefused (s : State) (k : Nat) : State :=
  let v := s.slot k
  let s1 := (s.cntCrypt K_INDEX_REFUSED).setSlot k { v with refused := sat32 v.refused, refNew := v.refNew + 1 }
  if v.refAt = 0 ∨ v.refAt - 1 + 1000000000 ≤ s.ela then
    (s1.keyNote k 0x0980 [v.refNew + 1]).updSlot k fun v => { v with refAt := s.ela + 1, refNew := 0 }
  else s1

/-- SRTP_ENCRYPT (R299, R301, R309 to R311): the oldest packet of an encrypt lane; one that cannot be read is dropped (R341). -/
def execSrtpEncrypt (lane : Fin 16) (reads : Reads) (s : State) : Res :=
  let s := s.advance reads.el
  if s.keys.bleaching || !s.pdOn 27 then .next s
  else match Tbl.get s.net.enc [] lane.val with
    | [] => .next s
    | d :: r =>
      let s := s.updNet fun n => { n with enc := Tbl.set n.enc lane.val r }
      match d.cap with
      | none => .next (s.releasePayload d.payload)
      | some c =>
        if s.rb .CRYPT_CTRL 0 31 = false then .next (s.dropDesc d)
        else if s.capErased c then .next ((s.dropErased c).releasePayload d.payload)
        else if s.descUnread reads d then .next (s.dropDesc d)
        else
          let v := s.slot c.slot
          let tr := if d.rtcp then 0 else b2n d.rtx
          let i := if d.rtcp then v.nextRtcp else (v.track tr).estimate d.seq
          let h := v.serves c i
          if !(v.half h).mayUse tr i then .next ((s.indexRefused c.slot).dropDesc d)
          else
            let v1 := v.setHalf h ((v.half h).use tr i)
            let s1 := s.setSlot c.slot (if d.rtcp then { v1 with nextRtcp := i + 1 } else v1)
            let s2 := (((s1.advanceTrack c.slot tr i).switchAt c.slot i).cntCrypt K_ENC_PKTS).releaseCap (some c)
            let clear := s2.sendBody d
            let key := (v.half h).keys.map BitVec.toNat
            let body := Config.byteTransform (3 + b2n d.rtcp) ([v.suite, tr, i, d.ssrc] ++ key) clear
            .next (s2.wire d ((if d.rtcp then [] else d.head) ++ body))

/-! ### Selection (R87 to R89) -/

/-- The end of the current entry, and whether a cycle ends there; a list that restarts after a warm reset begins with entry 0
at its next cycle boundary. -/
def Port.entryEnd (p : Port) (l : GateList) : Nat × Bool :=
  if p.waitStart then (p.entryAt, true)
  else (p.entryAt + (nth l.entries ⟨255, 8⟩ p.entry).interval, decide (l.entries.length ≤ p.entry + 1))

/-- The gates of a port now: all open without a list, or before a list that restarts has begun. -/
def Port.gatesNow (p : Port) : Nat :=
  match p.active with
  | some l => if p.waitStart then 255 else (nth l.entries ⟨255, 8⟩ p.entry).gates
  | none => 255

/-- Does the gate of class `c`, open now, close at an instant up to `lim`? Entry `e` of a list ends at `stop`, with `last` at a
cycle boundary, where a pending list that is due takes over. -/
def gateCloses (c lim : Nat) : Nat → List GateEntry → Nat → Nat → Bool → Option GateList → Bool
  | 0, _, _, _, _, _ => false
  | n + 1, es, e, stop, last, pend =>
    let go (l : List GateEntry) (e' : Nat) (q : Option GateList) : Bool :=
      let x := nth l ⟨255, 8⟩ e'
      !x.gates.testBit c || gateCloses c lim n l e' (stop + x.interval) (decide (l.length ≤ e' + 1)) q
    if lim < stop then false
    else match pend with
      | some q =>
        if q.entries.isEmpty then (if q.change ≤ stop ∧ (q.change ≠ 0 ∨ last) then false else go es (if last then 0 else e + 1) pend)
        else if last && decide (q.change ≤ stop) then go q.entries 0 none
        else go es (if last then 0 else e + 1) pend
      | none => go es (if last then 0 else e + 1) none

/-- The class's gate is open, and no closing of it falls within the guard band from now (R87, R97): an entry lasts 8 ns at least,
so that 8,200 of them cover the longest guard band. -/
def State.gateOk (s : State) (n cls : Nat) : Bool :=
  let p := s.port n
  let lim := s.dev + s.rf .EGS_PORT_CFG n 15 0
  match p.active, p.pend with
  | none, none => true
  | none, some q =>
    if q.entries.isEmpty || decide (lim < q.change) then true
    else
      let x := nth q.entries ⟨255, 8⟩ 0
      x.gates.testBit cls && !gateCloses cls lim 8200 q.entries 0 (max s.dev q.change + x.interval) (decide (q.entries.length ≤ 1)) none
  | some l, _ =>
    let (stop, last) := p.entryEnd l
    p.gatesNow.testBit cls && !gateCloses cls lim 8200 l.entries p.entry stop last p.pend

/-- The buckets of a tenant on a port; a tenant without a record has no minimum and no maximum. -/
def State.tenantPort (s : State) (n t : Nat) : TenantPort := Tbl.get (s.port n).tenants {} t
/-- The class shaper of a port. -/
def State.classSh (s : State) (n c : Nat) : Bucket := Tbl.get (s.port n).classSh {} c

/-- Is the queue's head frame eligible (R87)? -/
def State.eligibleQ (s : State) (f : FlowQ) : Bool :=
  match f.descs with
  | [] => false
  | d :: _ =>
    (f.sh.b.refill s.ela).holds d.counted && ((s.classSh f.port f.cls).refill s.ela).holds d.counted && s.gateOk f.port f.cls
      && (f.cls == s.audioTc f.port || ((s.tenantPort f.port (f.own.fn / 64)).mx.refill s.ela).holds d.counted)

/-- The step of R88 in which an eligible queue stands: 0 audio class, 1 below the tenant's minimum, 2 others. A minimum bucket
of rate 0 counts as full (R90). -/
def State.selStep (s : State) (f : FlowQ) (d : Desc) : Nat :=
  if f.cls = s.audioTc f.port then 0
  else if (((s.tenantPort f.port (f.own.fn / 64)).mn).refill s.ela).holds d.counted then 1 else 2

/-- The key by which R88 orders the eligible queues: step, then highest class. -/
def State.selKey (s : State) (f : FlowQ) : Nat :=
  match f.descs with
  | [] => 1000
  | d :: _ => 8 * s.selStep f d + (7 - f.cls)

/-- The queue that the selector of a port picks (R88, R29, R30). -/
def State.selectQ (s : State) (n : Nat) : Option (Nat × FlowQ × Nat) :=
  let el := s.net.flowqs.filter fun kv => kv.2.port == n && s.eligibleQ kv.2
  match arbitrate (Tbl.get (s.port n).ptrs 0) (el.map fun kv => (kv.1, s.selKey kv.2)) with
  | some (k, q) => some (q, Tbl.get s.net.flowqs {} q, k)
  | none => none

/-- A bucket after a frame (R89). -/
def Bucket.spend (b : Bucket) (t n : Nat) : Bucket := (b.refill t).take n

/-- EGRESS_SELECT (R87 to R89, R66): the selector of a port picks a queue and sends its head frame. -/
def execEgressSelect (port : Fin 8) (reads : Reads) (s : State) : Res :=
  let s := s.advance reads.el
  let n := port.val
  if !s.linkUp n then .next s
  else match s.selectQ n with
    | none => .next s
    | some (q, f, k) =>
      match f.descs with
      | [] => .next s
      | d :: r =>
        let t := f.own.fn / 64
        let c := d.counted
        let s1 := s.updPort n fun p => { p with
          ptrs := Tbl.set p.ptrs k (rotated 49152 q)
          classSh := Tbl.upd p.classSh f.cls fun b => b.spend s.ela c
          tenants := Tbl.upd p.tenants t fun x => { x with mn := x.mn.spend s.ela c, mx := x.mx.spend s.ela c, missed := false } }
        let s2 := (s1.setFlowq q { f with
          descs := r, sh := { f.sh with b := f.sh.b.spend s.ela c } }).returnDesc t d.pool
        let s3 := s2
        let l := s3.leg d.leg
        let d := { d with cls := f.cls }
        if l.twId = 0 ∨ d.rtcp = true then .next (s3.release reads d)
        else
          let s4 := s3.updLeg d.leg fun l => { l with twNext := (l.twNext + 1) % 65536 }
          .next (s4.release reads { d with tw := some l.twNext, ext := setExt false d.ext l.twId (toBe 2 l.twNext) })

/-- TENANT_BUCKET_FULL (R93): counted once each time the bucket reaches its size while the tenant holds an eligible frame;
QOS_MIN_MISSED at most once per port and tenant each second (log entry 190). A bucket of rate 0 never reaches its size: it
does not fill. -/
def execTenantBucketFull (port : Fin 8) (tenant : Fin 4) (el : Nat) (s : State) : Res :=
  let s := s.advance el
  let n := port.val
  let x := s.tenantPort n tenant.val
  let b := x.mn.refill s.ela
  let holds := s.net.flowqs.any fun kv =>
    kv.2.port == n && kv.2.own.fn / 64 == tenant.val && s.eligibleQ kv.2
  if s.pdOn 26 = true ∧ b.rate ≠ 0 ∧ b.lvl = b.size * unitsPerByte ∧ holds = true ∧ x.missed = false then
    let due := decide (x.missedAt = 0 ∨ x.missedAt - 1 + 1000000000 ≤ s.ela)
    let s1 := (s.cntEgs n E_MIN_MISSED).updPort n fun p => { p with
      tenants := Tbl.set p.tenants tenant.val { x with missed := true, missedAt := if due then s.ela + 1 else x.missedAt } }
    .next (if due then s1.notify (64 * tenant.val) 0x0880 (4 * n + tenant.val) else s1)
  else .next s

/-! ### Gates (R95 to R98) -/

/-- `EGS_GATE_STAT` follows the port's lists. -/
def State.gateStat (s : State) (n : Nat) : State :=
  let p := s.port n
  let w := putB (putB (putB 0 31 p.pend.isSome) 30 (p.side == 1)) 29 (p.active.isSome && !p.waitStart)
  s.setReg .EGS_GATE_STAT n (putF (putF w 23 16 p.gatesNow) 8 0 p.entry)

/-- The gates of a port now. -/
def State.gates (s : State) (n : Nat) : Nat := (s.port n).gatesNow

/-- What a shaper has lost beyond its size since its level was last brought up to date, in units; an unshaped one loses
nothing. -/
def Bucket.lostNow (b : Bucket) (t : Nat) : Nat := if b.rate = 0 then 0 else b.lost t

/-- Lost refill is counted in whole bytes; the rest of a byte waits (R82, R98). -/
def State.gateLose (s : State) (n units : Nat) : State :=
  let u := (s.port n).lostRem + units
  let s1 := s.updPort n fun p => { p with lostRem := u % unitsPerByte }
  if u < unitsPerByte then s1 else s1.cntEgs n E_GATE_LOST (u / unitsPerByte)

/-- The units that the shapers of a class on a port have lost by now. -/
def State.clsLost (s : State) (n cls : Nat) : Nat :=
  (s.classSh n cls).lostNow s.ela
    + sumN ((s.net.flowqs.filter fun kv => kv.2.port == n && kv.2.cls == cls).map fun kv => kv.2.sh.b.lostNow s.ela)

/-- The loss of one shaper, brought up to now, where its class's gate is closed: before the shaper is written or its queue goes
(R98). -/
def State.loseOne (s : State) (n cls : Nat) (b : Bucket) : State :=
  if (s.gates n).testBit cls then s else s.gateLose n (b.lostNow s.ela)

/-- The units that `GATE_LOST_BYTES` of a port still has to show, behind the gates that are closed now. -/
def State.gatePending (s : State) (n : Nat) : Nat :=
  sumN (((List.range 8).filter fun c => !(s.gates n).testBit c).map (s.clsLost n))

/-- The shapers of a class on a port are brought up to now; what a class whose gate opens has lost is added up (R98). -/
def State.gateLoss (s : State) (n cls : Nat) (opens : Bool) : State × Nat :=
  let units := s.clsLost n cls
  let s1 := s.updPort n fun p => { p with classSh := Tbl.upd p.classSh cls fun b => b.refill s.ela }
  let s2 := s1.updNet fun x => { x with
    flowqs := Tbl.mapv x.flowqs fun _ f => if f.port = n ∧ f.cls = cls then { f with sh := { f.sh with b := f.sh.b.refill s.ela } } else f }
  (s2, if opens then units else 0)

/-- The port's gates take new states: every class whose gate changes. -/
def State.gatesTo (s : State) (n old new : Nat) : State :=
  let (s1, units) := (List.range 8).foldl (fun (acc : State × Nat) c =>
    if old.testBit c = new.testBit c then acc
    else
      let (s', u) := acc.1.gateLoss n c (new.testBit c)
      (s', acc.2 + u)) (s, 0)
  (s1.gateLose n units).gateStat n

/-- The pending list becomes active at time `at'`; an empty one leaves every gate open. -/
def State.gateSwitch (s : State) (n : Nat) (q : GateList) (at' : Nat) : State :=
  let old := s.gates n
  let act := if q.entries.isEmpty then none else some q
  let s1 := s.updPort n fun p => { p with active := act, pend := none, side := 1 - p.side, entry := 0, entryAt := at', waitStart := false }
  s1.gatesTo n old (match q.entries with | e :: _ => e.gates | [] => 255)

/-- When the pending list is due now: the instant at which it becomes active (R96). -/
def State.gateDue (s : State) (n : Nat) : Option (GateList × Nat) :=
  let p := s.port n
  match p.pend with
  | none => none
  | some q =>
    match p.active with
    | none => if q.change ≤ s.dev then some (q, if q.change = 0 then s.dev else q.change) else none
    | some l =>
      let (stop, last) := p.entryEnd l
      if q.entries.isEmpty && q.change != 0 then (if q.change ≤ s.dev then some (q, q.change) else none)
      else if last && decide (stop ≤ s.dev) && decide (q.change ≤ stop) then some (q, stop)
      else none

/-- GATE_LIST_SWITCH (R96). -/
def execGateListSwitch (port : Fin 8) (el : Nat) (s : State) : Res :=
  let s := s.advance el
  if !s.pdOn 26 then .next s
  else match s.gateDue port.val with
  | some (q, t) => .next (s.gateSwitch port.val q t)
  | none => .next s

/-- GATE_ENTRY_ADVANCE (R95, R96): the current entry's interval has expired; at a cycle boundary a due list takes over. -/
def execGateEntryAdvance (port : Fin 8) (el : Nat) (s : State) : Res :=
  let s := s.advance el
  let n := port.val
  let p := s.port n
  match p.active with
  | none => .next s
  | some l =>
    let (stop, last) := p.entryEnd l
    if s.dev < stop ∨ s.pdOn 26 = false then .next s
    else match s.gateDue n with
      | some (q, t) => .next (s.gateSwitch n q t)
      | none =>
        let e := if last then 0 else p.entry + 1
        let s1 := s.updPort n fun p => { p with entry := e, entryAt := stop, waitStart := false }
        .next (s1.gatesTo n (s.gates n) (nth l.entries ⟨255, 8⟩ e).gates)

/-! ### Shaper targets (R91, R102) -/

/-- A bucket written with RESET_TO: one that keeps its rate and size keeps its level (R91). -/
def Bucket.write (b : Bucket) (rate size : Nat) (zero : Bool) (t : Nat) : Bucket :=
  if b.rate = rate ∧ b.size = size then b else Bucket.of rate size zero t

/-- SHAPER_TARGET_APPLY (R102, R106). -/
def execShaperTargetApply (el : Nat) (s : State) : Res :=
  let s := s.advance el
  if !s.pdOn 26 then .next s
  else match s.popShared (s.rf .EGS_TGT_QID 0 15 0) with
  | none => .next s
  | some (it, s) =>
    let q := it.w 4 % 65536
    match Tbl.find s.net.flowqs q with
    | none => .next s
    | some f =>
      if it.event ≠ 0x14 ∨ f.leg ≠ it.w 6 % 65536 ∨ f.own.fn / 64 ≠ it.src ∨ f.sh.adaptive = false ∨ f.cls = s.audioTc f.port then
        .next (s.cntEgs f.port E_TGT_REJECT)
      else
        let r := max f.sh.minRate (min f.sh.maxRate (it.w 5 % 2 ^ 29))
        .next ((s.loseOne f.port f.cls f.sh.b).setFlowq q { f with sh := { f.sh with b := f.sh.b.write r f.sh.b.size ((it.w 5).testBit 31) s.ela } })

/-! ### Loupe samplers (R105) -/

/-- LOUPE_SAMPLE (R105): once a sampler's period has ended. -/
def execLoupeSample (sampler : Fin 1024) (cons : Nat) (el : Nat) (s : State) : Res :=
  let s := s.advance el
  match Tbl.find s.net.samplers sampler.val with
  | none => .next s
  | some x =>
    if x.period = 0 ∨ s.ela < x.nextAt ∨ s.pdOn 26 = false then .next s
    else
      let f := Tbl.get s.net.flowqs {} x.qid
      let sat (n : Nat) : Nat := min n 65535
      let e := [loupeTime s.dev, f.level, sat f.descs.length * 65536 + sat x.sojourn, sat x.sent * 65536 + sat x.drops]
      let (s1, r, _) := s.loupeWrite x.own.fn x.ring cons e
      .next (s1.updNet fun n => { n with samplers := Tbl.set n.samplers sampler.val { x with
        ring := r, nextAt := x.nextAt + x.period, sojourn := 0, sent := 0, drops := 0 } })

/-! ### Cascade (R72) -/

/-- Firmware sends a keepalive to one peer (R68, R72): its RTP timestamp and payload type are free values. -/
def State.keepalive (s : State) (i : Nat) (p : Peer) : State :=
  let id := s.rf .STRATA_CTRL 0 23 16
  if id = 0 ∨ s.rf .STRATA_CTRL 0 15 0 = 0 then s
  else match s.allocPayload false [] 1 with
    | (s1, none) => s1
    | (s1, some pay) =>
      let (w, s2) := s1.freeWord
      let el := toBe 4 (2 ^ 28 + 2 * 2 ^ 26 + s.rf .STRATA_DEVID 0 17 0 * 256) ++ toBe 4 (p.dev * 2 ^ 14) ++ toBe 4 0
      let d : Desc := { payload := pay, leg := p.leg, encSlot := p.encSlot, ssrc := p.txSsrc, seq := p.txSeq, ts := w.toNat, pt := fld w 6 0, ext := setExt true none id el }
      let s3 := s2.updNet fun n => { n with peers := Tbl.set n.peers i { p with txSeq := (p.txSeq + 1) % 65536 } }
      (s3.sendDesc (s.leg p.leg).egressQ d).releasePayload pay

/-- TOLKU_KEEPALIVE (R72): every second to each peer. -/
def execTolkuKeepalive (el : Nat) (s : State) : Res :=
  let s := s.advance el
  .next (s.net.peers.foldl (fun s kv => s.keepalive kv.1 kv.2) s)

/-- CASCADE_PEER_TIMEOUT (R72): after 3 s without a packet CASCADE_PEER_LOST is posted; forwarding goes on. -/
def execCascadePeerTimeout (peer : Fin 1024) (el : Nat) (s : State) : Res :=
  let s := s.advance el
  match Tbl.find s.net.peers peer.val with
  | none => .next s
  | some p =>
    if p.lastHeard + 3000000000 ≤ s.ela ∧ p.lostPosted = false then
      .next ((s.updNet fun n => { n with peers := Tbl.set n.peers peer.val { p with lostPosted := true } }).notify p.own.fn 0x0B80 peer.val)
    else .next s

end Sys2Proof.Machine
end

