-- ==== Sys2Proof/Machine/MixArith.lean ====
section
/-! DEFINITION. The arithmetic of the mix slices: ramps, gains, sums, levels and meters (R119 to R125). -/

namespace Sys2Proof.Machine

/-! ### Ramps (R122) -/

/-- The raised cosine w(k) = (1 - cos(πk/N)) / 2 = sin²(πk/2N) as a quotient; exact where it is rational, else within
2^-100. -/
def cosW (k n : Nat) : Nat × Nat :=
  if n ≤ k then (1, 1)
  else if 2 * k = n then (1, 2)
  else if 3 * k = n then (1, 4)
  else if 3 * k = 2 * n then (3, 4)
  else
    let x := piFix * k / (2 * n)
    let s := (sinTerms 24 x x 0).toNat
    (s * s, 2 ^ 256)

/-- w(k) of a ramp of `n` samples. -/
def rampW (lin : Bool) (k n : Nat) : Nat × Nat := if lin then (k, n) else cosW k n

/-- A product with a quotient, rounded to nearest, halves away from zero. -/
def roundMul (d : Int) (w : Nat × Nat) : Int :=
  let m : Int := ((2 * d.natAbs * w.1 + w.2) / (2 * w.2) : Nat)
  if 0 ≤ d then m else -m

/-- The ramp's value at sample `k` of the current frame; before its start it holds `g0`, after its end `g1`. -/
def Ramp.val (r : Ramp) (k : Int) : Int :=
  let i := (k - r.start + 1).toNat
  if i = 0 then r.g0
  else if r.n ≤ i then r.g1
  else r.g0 + roundMul (r.g1 - r.g0) (rampW r.lin i r.n)

/-- Has the ramp ended at sample `k`? -/
def Ramp.done (r : Ramp) (k : Int) : Bool := decide ((r.n : Int) ≤ k - r.start + 1)

/-- A ramp at rest at a value. -/
def Ramp.rest (g : Int) : Ramp := { g0 := g, g1 := g }

/-- The length of a ramp as an entry gives it (R122): 0 means 240 samples, 1 to 11 act as 12, above 48,000 as 48,000. -/
def rampLen (n : Nat) : Nat := if n = 0 then 240 else max 12 (min 48000 n)

/-- A new ramp to a target from sample `k` on, from the value that the old one has just before it (R122). -/
def Ramp.to (r : Ramp) (target : Int) (n : Nat) (lin : Bool) (k : Int) : Ramp :=
  { g0 := r.val (k - 1), g1 := target, n := rampLen n, lin, start := k }

/-- The ramp seen from the next frame. -/
def Ramp.next (r : Ramp) : Ramp := if r.start ≤ -48000 then r else { r with start := r.start - 480 }

/-- The 480 values of the current frame. -/
def Ramp.frame (r : Ramp) : List Int :=
  if r.done 0 then List.replicate 480 r.g1 else (List.range 480).map fun k => r.val (k : Nat)

/-! ### Samples (R119, R120) -/

/-- `v` shifted right by `n`, arithmetically, after adding half. -/
def halfUp (v : Int) (n : Nat) : Int := (v + 2 ^ (n - 1)) / 2 ^ n

/-- A frame of 480 samples: what is missing is silence. -/
def pad480 (xs : List Int) : List Int := (xs ++ List.replicate (480 - xs.length) 0).take 480

/-- The falling half raised cosine of R119 on a frame. -/
def fadeOut (prev : List Int) : List Int :=
  (pad480 prev).zipIdx.map fun (x, k) => ({ g0 := x, n := 480, start := 0 } : Ramp).val (k : Nat)

/-- A frame under a UQ1.15 factor. -/
def scale15 (xs fs : List Int) : List Int := (xs.zip fs).map fun (x, f) => halfUp (x * f) 15

/-- The product p of one contributor for each sample: route gain, membership factor, sample. -/
def products (gs ms xs : List Int) : List Int :=
  ((gs.zip ms).zip xs).map fun ((g, m), x) => halfUp (g * m) 15 * x

/-- Two lists combined sample by sample, the shorter one continued by silence. -/
def zipPad (f : Int → Int → Int) : List Int → List Int → List Int
  | [], l => l.map (f 0)
  | a, [] => a.map fun x => f x 0
  | x :: a, y :: b => f x y :: zipPad f a b

/-- Lists added and subtracted sample by sample. -/
def addFrames (a b : List Int) : List Int := zipPad (· + ·) a b
def subFrames (a b : List Int) : List Int := zipPad (· - ·) a b

/-! ### Decoding (R116, R117) -/

/-- Stereo folded to mono: (L + R + 1) >> 1. -/
def foldStereo : List Int → List Int
  | l :: r :: xs => (l + r + 1) / 2 :: foldStereo xs
  | xs => xs

/-- The factor by which a codec's output is resampled to 48 kHz. -/
def upFactor (codec : Nat) : Nat := match codec with | 0 => 1 | 3 => 3 | _ => 6

/-- Input samples resampled by a factor; `win` holds the last 48 inputs before them. -/
def upsample (f : Nat) : List Int → List Int → List Int
  | _, [] => []
  | win, x :: xs =>
    let w := win.drop 1 ++ [x]
    ((List.range f).map fun p => (Config.resample f p w).toInt) ++ upsample f w xs

/-- The factor of a concealed frame's samples (R117): the first two in a row play in full, the third to sixth fall linearly to
silence. -/
def concRamp (nth : Nat) : Ramp := { g0 := 32768, g1 := 0, n := 1920, lin := true, start := 960 - 480 * ((nth : Int) - 1) }

/-- What a jitter-buffer kernel does with the decoder's frame (R116, R117): the source afterwards, and the frame that it delivers
with whether it is DECODED or FEC; none from the seventh missing frame on, until a packet arrives. DESIGN CHOICE (log entry):
a frame for which the decoder brings nothing is a missing one too. -/
def Source.jitter (x : Source) (codec : Nat) : Option SrcFrame → Source × Option (Bool × List Int)
  | none => ({ x with conc := x.conc + 1 }, none)
  | some f =>
    let conc := if f.state.val = 2 then x.conc + 1 else 0
    let raw := f.samples.map BitVec.toInt
    let ins := if codec = 0 ∧ f.stereo = true then foldStereo raw else raw
    let hist := List.replicate (48 - x.hist.length) 0 ++ x.hist
    let pcm := pad480 (if upFactor codec = 1 then ins else upsample (upFactor codec) hist ins)
    let y := { x with conc, jbDelay := max x.jbMin (min x.jbMax f.delay), hist := (hist ++ ins).drop ins.length }
    if 6 < conc then (y, none)
    else (y, some (f.state.val < 2, if conc < 3 then pcm else scale15 pcm (concRamp conc).frame))

/-- The sum A of a conference. -/
def sumFrames (l : List (List Int)) : List Int := l.foldl addFrames (List.replicate 480 0)

/-- A stored sample and how many saturated (R121). -/
def store16 (l : List Int) : List Int × Nat := (l.map (satI 16), (l.filter fun v => satI 16 v != v).length)

/-- The conference output of a sum. -/
def confOut (a : List Int) : List Int × Nat := store16 (a.map fun x => halfUp x 12)

/-- A class output of a sum under the class gain. -/
def classOut (a gc : List Int) : List Int × Nat := store16 ((a.zip gc).map fun (x, g) => halfUp (halfUp x 12 * g) 12)

/-! ### Levels (R123 to R125) -/

/-- a^m ≥ b^m · 10^e. -/
def powGe (a b m : Nat) (e : Int) : Bool :=
  if 0 ≤ e then decide (b ^ m * 10 ^ e.toNat ≤ a ^ m) else decide (b ^ m ≤ a ^ m * 10 ^ (-e).toNat)

/-- The least number below `2 ^ n + base` from `base` on that meets a rising condition. -/
def leastFrom : Nat → Nat → (Nat → Bool) → Nat
  | 0, base, p => if p base then base else base + 1
  | n + 1, base, p => if p (base + 2 ^ n - 1) then leastFrom n base p else leastFrom n (base + 2 ^ n) p

/-- round(m · log10(v / ref)) of a level of at most `ref`, with 0 and what lies below -128 dB as 0x8000. -/
def dbOf (v ref m : Nat) : Int :=
  if v = 0 then -32768 else max (-32768) (-(leastFrom 15 0 fun q => powGe v ref (2 * m) (-(2 * (q : Int) + 1)) : Nat))

/-- `PEAK_DB` and `RMS_DB` (R123). -/
def dbPeak (peak : Nat) : Int := dbOf peak 32768 5120
def dbRms (ms : Nat) : Int := dbOf ms (2 ^ 30) 2560

/-- Is 10 log10(sum / c / 2^30) at least a Q8.8 level? -/
def levelGe (sum c : Nat) (db : Int) : Bool := sum != 0 && powGe sum (c * 2 ^ 30) 2560 db

/-- Is the level of `a` at least a Q8.8 distance above that of `b`? -/
def aboveBy (a b : Nat) (db : Int) : Bool := b == 0 || powGe a b 2560 db

/-- `MS` of a frame. -/
def meanSq (xs : List Int) : Nat := sumN (xs.map fun x => x.natAbs * x.natAbs) / 480
/-- `PEAK` of a frame. -/
def peakOf (xs : List Int) : Nat := xs.foldl (fun m x => max m x.natAbs) 0

/-- The peak hold after a frame (R124). -/
def MeterSt.hold' (m : MeterSt) (peak : Int) (frames : Nat) (decay : Int) : MeterSt :=
  if m.hold ≤ peak then { m with hold := peak, timer := frames }
  else if 0 < m.timer then { m with timer := m.timer - 1 }
  else { m with hold := max (-32768) (max peak (m.hold - decay)) }

/-- A meter after a frame of samples; `counts` says that its mean square counts in levels (R125). -/
def MeterSt.frame (m : MeterSt) (xs : List Int) (counts : Bool) (frames : Nat) (decay : Int) : MeterSt :=
  let p := dbPeak (peakOf xs)
  let q := meanSq xs
  let m' := m.hold' p frames decay
  { m' with peakDb := p, rmsDb := dbRms q, ms := ((if counts then q else 0) :: m.ms).take 6 }

/-- The meter's entry in memory (R123). -/
def MeterSt.entry (m : MeterSt) (frame : Nat) (xs : List Int) : List Nat :=
  [frame % 2 ^ 32, peakOf xs * 65536 + wrapN m.peakDb 16, meanSq xs, wrapN m.rmsDb 16 * 65536 + wrapN m.hold 16]

/-- The sum of the mean squares over the last `c` frames before the newest one, or with it. -/
def MeterSt.msSum (m : MeterSt) (skip c : Nat) : Nat := sumN ((m.ms.drop skip).take c)

end Sys2Proof.Machine
end

