-- ==== Sys2Proof/Machine/MixOps.lean ====
section
/-! DEFINITION. The mix fabric's objects: frames and slices, parameter entries, safe-loads, direct writes, tiles, classes'
streams and the removal of sources (R112, R115, R133 to R138, R140, R146). -/

namespace Sys2Proof.Machine

def State.updMix (s : State) (f : Mix → Mix) : State := { s with mix := f s.mix }
def State.conf (s : State) (i : Nat) : Conf := Tbl.get s.mix.confs {} i
def State.updConf (s : State) (i : Nat) (f : Conf → Conf) : State := s.updMix fun m => { m with confs := Tbl.upd m.confs i f }
def State.source (s : State) (i : Nat) : Source := Tbl.get s.mix.sources {} i
def State.updSource (s : State) (i : Nat) (f : Source → Source) : State :=
  s.updMix fun m => { m with sources := Tbl.upd m.sources i f }
def State.cls (s : State) (i : Nat) : MixClass := Tbl.get s.mix.classes {} i
def State.updCls (s : State) (i : Nat) (f : MixClass → MixClass) : State :=
  s.updMix fun m => { m with classes := Tbl.upd m.classes i f }

/-! ### Frames and slices (R112, R144) -/

/-- The mix-frame counter. -/
def State.mixFrame (s : State) : Nat := (s.cnt .MIXF_FRAME_LO 0).toNat

/-- No frame is in progress; the first boundary falls at the next multiple of 10 ms of device time (R112). -/
def State.mixStart (s : State) : State :=
  s.updMix fun m => { m with
    nextAt := s.ela + (10000000 - s.dev % 10000000), boundAt := 0, srcDone := false, written := [], late := [], reached := [] }

/-- Is the slice computing frames? -/
def State.sliceOn (s : State) (n : Nat) : Bool := s.rb .MIXF_CTRL 0 31 && s.rb .MIXF_CTRL 0 n && s.pdOn (2 + n) && s.pdOn 34

/-- A counter of a slice. -/
def State.cntMix (s : State) (slice k : Nat) (n : Nat := 1) : State := s.bump .MIXF_CNT_LO (slice * 8 + k) n

abbrev X_FRAMES : Nat := 0
abbrev X_LATE_SRC : Nat := 1
abbrev X_SAT : Nat := 2
abbrev X_SWAPS : Nat := 3
abbrev X_LATE_ARM : Nat := 4
abbrev X_DIRECT : Nat := 5
abbrev X_OUT_LATE : Nat := 6
abbrev X_FORKS : Nat := 7

/-- Has the slice written the current frame? -/
def State.sliceDone (s : State) (n : Nat) : Bool := Tbl.get s.mix.written false n

/-- The sample of the current frame that the slice has reached. -/
def State.reached (s : State) (n : Nat) : Nat := Tbl.get s.mix.reached 0 n

/-- The sample of the current frame from which a direct write made now counts: the one that the slice has reached, or the next
frame's first where it has written the frame or no boundary has fallen. -/
def State.nowSample (s : State) (n : Nat) : Int := if s.sliceDone n || s.mix.boundAt == 0 then 480 else s.reached n

/-! ### Parameter entries (R133, R136) -/

/-- The key of an entry of a slice. -/
def entryKey (slice i : Nat) : Nat := slice * 2304 + i

/-- An entry, and its fields. -/
def State.entry (s : State) (slice i : Nat) : Entry := Tbl.get s.mix.params {} (entryKey slice i)
def Entry.w (e : Entry) (i : Nat) : Word := nth e.words 0 i
def Entry.valid (e : Entry) : Bool := bit (e.w 0) 31
def Entry.gain (e : Entry) : Int := sx (fld (e.w 1) 31 16) 16

/-- What an entry sums: for a route its source, for a class its sum kind and the source that a minus-self sum leaves out. -/
def Entry.what (e : Entry) (cls : Bool) : Word :=
  if !cls then e.w 0 &&& 0x8000FFFF
  else if bit (e.w 0) 29 then e.w 0 &&& 0xA000FFFF else e.w 0 &&& 0xA0000000

/-- An entry whose words change at sample `k`: its gain ramps to a new target; where what it sums changes or it becomes
invalid, a safe-load crossfades and a direct write does not (R136). What stood before counts for the samples before `k`
(R134). -/
def Entry.become (e : Entry) (cls : Bool) (ws : List Word) (k : Int) (safe : Bool) : Entry :=
  let n : Entry := { e with
    words := (List.range 4).map fun i => nth ws 0 i
    pre := if 0 < k ∧ k < 480 then e.pre ++ [{ upTo := k.toNat, words := e.words, ramp := e.ramp, fades := e.fades }] else e.pre
    swapAt := if safe then some k.toNat else e.swapAt }
  let len := rampLen (fld (n.w 1) 15 0)
  let lin := bit (n.w 0) 30
  if safe && e.what cls != n.what cls then
    { n with
      ramp := if n.valid then (Ramp.rest 0).to n.gain len lin k else Ramp.rest 0
      fades := if e.valid then (e.w 0, e.ramp.to 0 len lin k) :: e.fades else e.fades }
  else if n.gain ≠ e.ramp.g1 then { n with ramp := e.ramp.to n.gain len lin k }
  else n

/-- A frame of an entry from what each of its versions gives for the whole frame: each counts up to its sample (R134). -/
def Entry.part (e : Entry) (f : EntryVer → List Int) : List Int :=
  let l := e.pre.foldl (fun l v => l ++ ((f v).take v.upTo).drop l.length) []
  l ++ (f { words := e.words, ramp := e.ramp, fades := e.fades }).drop l.length

/-- Would a direct write at sample `k` meet a safe-load of the entry in the same sample (R135)? -/
def Entry.overwritten (e : Entry) (k : Int) : Bool := match e.swapAt with | some j => k == (j : Int) | none => false

/-- The classes derived from a class (R130). -/
def State.derivedOf (s : State) (c : Nat) : List (Nat × MixClass) :=
  s.mix.classes.filter fun kv => match kv.2.self with | some (n, _) => n == c | none => false

/-- The class whose entry is entry `i` of a slice. -/
def State.classAt (s : State) (slice i : Nat) : Option (Nat × MixClass) :=
  s.mix.classes.find? fun kv => kv.2.entry == i && (s.conf kv.2.conf).home == slice

/-- One entry takes new words. -/
def State.putEntry (s : State) (slice i : Nat) (ws : List Word) (k : Int) (safe : Bool) : State :=
  s.updMix fun m => { m with params := Tbl.updD m.params {} (entryKey slice i) fun e => e.become (decide (1280 ≤ i)) ws k safe }

/-- An entry takes new words, and with a named class's entry the gains of its derived classes, which have the same recipe
(R130). -/
def State.writeEntry (s : State) (slice i : Nat) (ws : List Word) (k : Int) (safe : Bool) : State :=
  let s1 := s.putEntry slice i ws k safe
  if i < 1280 then s1
  else match s1.classAt slice i with
    | some (c, x) =>
      if x.self.isSome then s1
      else (s1.derivedOf c).foldl (fun s kv =>
        let e := s.entry slice kv.2.entry
        let w0 := putB (e.w 0) 30 (bit (nth ws 0 0) 30)
        s.putEntry slice kv.2.entry [w0, nth ws 0 1, e.w 2, e.w 3] k safe) s1
    | none => s1

/-- `n` direct writes of words of an entry: each counts (R137). In the sample of a safe-load of the entry they are overwritten by
it (R135). -/
def State.directWords (s : State) (slice i : Nat) (ws : List Word) (n : Nat) : State :=
  let k := s.nowSample slice
  (if (s.entry slice i).overwritten k then s else s.writeEntry slice i ws k false).cntMix slice X_DIRECT n

/-- Direct writes of all listed words of an entry: three of a route, four of a class. -/
def State.directEntry (s : State) (slice i : Nat) (ws : List Word) : State :=
  s.directWords slice i ws (if i < 1280 then 3 else 4)

/-- Words of a route and a class entry. -/
def routeWords (src conf : Nat) (shape pinned contrib : Bool) (gain ramp : Nat) : List Word :=
  [putF (putB (putB (putB (putB 0 31 true) 30 shape) 29 pinned) 28 contrib) 15 0 src, putF (putF 0 31 16 gain) 15 0 ramp, putF 0 10 0 conf, 0]
def classWords (self : Option Nat) (shape : Bool) (gain ramp encTile conf off : Nat) : List Word :=
  [putF (putB (putB (putB 0 31 true) 30 shape) 29 self.isSome) 15 0 (self.getD 0), putF (putF 0 31 16 gain) 15 0 ramp,
    putF (putF 0 31 28 encTile) 10 0 conf, putF 0 22 5 (off / 32)]

/-! ### Safe-loads (R134, R135) -/

/-- `MIXF_SL_ARM` and the frame that `MIXF_SL_AT` names. -/
def State.armed (s : State) (n : Nat) : Bool := s.rb .MIXF_SL_ARM n 31
def State.armAt (s : State) (n : Nat) : Nat := (s.reg .MIXF_SL_AT_LO n).toNat + 2 ^ 32 * (s.reg .MIXF_SL_AT_HI n).toNat
def State.armCount (s : State) (n : Nat) : Nat := min 1024 (s.rf .MIXF_SL_ARM n 19 9)
def State.armSample (s : State) (n : Nat) : Nat := s.rf .MIXF_SL_ARM n 8 0

/-- Is a point after the sample that the slice is computing? Of the frame that firmware loads into the counter no sample is
computed: its boundary never falls. -/
def State.pointAhead (s : State) (n frame sample : Nat) : Bool :=
  !s.sliceOn n || decide (s.mixFrame < frame)
    || (decide (frame = s.mixFrame) && s.mix.boundAt != 0 && decide (s.reached n < sample) && !s.sliceDone n)

/-- The swap: the tagged entries are replaced at once. -/
def State.swapNow (s : State) (n : Nat) : State :=
  let k := s.armSample n
  let s1 := (List.range (s.armCount n)).foldl (fun s p =>
    let i := Tbl.get s.mix.tags 0 (n * 1024 + p) % 4096
    if i < 2304 then s.writeEntry n i (Tbl.get s.mix.shadow [] (n * 1024 + p)) k true else s) s
  (((s1.setRb .MIXF_SL_ARM n 31 false).cntMix n X_SWAPS)).updMix fun m => { m with reached := Tbl.set m.reached n (max k (s.reached n)) }

/-- The armed set's swap, when its frame is the current one and the slice has not passed it. -/
def State.swapDue (s : State) (n : Nat) : State :=
  if s.armed n && s.sliceOn n && decide (s.armAt n = s.mixFrame) && s.mix.boundAt != 0 && !s.sliceDone n then s.swapNow n else s

/-- SAFE_LOAD_ARM (R134): a write of `MIXF_SL_ARM`. -/
def execSafeLoadArm (slice : Fin 16) (v : Word) (s : State) : Res :=
  let n := slice.val
  let w := applyWrite (RegName.flds .MIXF_SL_ARM) (s.reg .MIXF_SL_ARM n) v
  let s1 := { s.setReg .MIXF_SL_ARM n w with bus := .ok 0 }
  if !bit v 31 || s.armed n then .next s1
  else if s1.pointAhead n (s1.armAt n) (s1.armSample n) then .next s1
  else .next (((s1.setRb .MIXF_SL_ARM n 31 false).setRb .MIXF_SL_ARM n 30 true).cntMix n X_LATE_ARM)

/-- SAFE_LOAD_SWAP (R134). -/
def execSafeLoadSwap (slice : Fin 16) (s : State) : Res := .next (s.swapDue slice.val)

/-- One image joins the slice's set for a point: it replaces an image of the same entry, else takes the next place. -/
def State.shadowAdd (s : State) (n frame sample : Nat) (i : Nat) (ws : List Word) : State :=
  let cnt := if s.armed n then s.armCount n else 0
  let p := ((List.range cnt).find? fun p => Tbl.get s.mix.tags 0 (n * 1024 + p) == i).getD cnt
  let s1 := s.updMix fun m => { m with
    shadow := Tbl.set m.shadow (n * 1024 + p) ws, tags := Tbl.set m.tags (n * 1024 + p) i }
  let s2 := (s1.setReg .MIXF_SL_AT_LO n (BitVec.ofNat 32 frame)).setReg .MIXF_SL_AT_HI n (BitVec.ofNat 32 (frame / 2 ^ 32))
  s2.setReg .MIXF_SL_ARM n (putF (putF (putB (s2.reg .MIXF_SL_ARM n) 31 true) 19 9 (max cnt (p + 1))) 8 0 sample)

/-- The words that an entry has now or, once armed, will have. -/
def State.futureWords (s : State) (n i : Nat) : List Word :=
  match (if s.armed n then (List.range (s.armCount n)).find? fun p => Tbl.get s.mix.tags 0 (n * 1024 + p) == i else none) with
  | some p => Tbl.get s.mix.shadow [] (n * 1024 + p)
  | none => (s.entry n i).words

/-! ### The timing of commands (R138) -/

/-- A point of change: 0 or 1 = by safe-load at (frame, sample), 2 = direct. -/
structure When where
  direct : Bool
  frame : Nat := 0
  sample : Nat := 0

/-- `APPLY` and its operands: the reserved mode and samples beyond the frame are refused. -/
def applyBad (c : Cmd) : Bool := c.f 12 31 30 == 3 || (c.f 12 31 30 == 1 && decide (479 < c.f 12 8 0))

/-- The point that a command names; NEXT is sample 0 of the first frame at least one frame after acceptance. -/
def applyWhen (c : Cmd) (s : State) : When :=
  match c.f 12 31 30 with
  | 0 => { direct := false, frame := s.mixFrame + (if s.rb .MIXF_CTRL 0 31 then 1 + cdiv (s.ela + 10000000 - s.mix.nextAt) 10000000 else 2) }
  | 1 => { direct := false, frame := c.q 13, sample := c.f 12 8 0 }
  | _ => { direct := true }

abbrev SHADOW_FULL : Nat := 0x0401
abbrev LATE_BOUNDARY : Nat := 0x0402

/-- May entries of a slice change at the point (R134, R135)? -/
def armFail (s : State) (w : When) (n : Nat) (entries : List Nat) : Nat :=
  if w.direct then 0
  else if !s.pointAhead n w.frame w.sample then LATE_BOUNDARY
  else if s.armed n then
    let held := (List.range (s.armCount n)).map fun p => Tbl.get s.mix.tags 0 (n * 1024 + p)
    if s.armAt n ≠ w.frame ∨ s.armSample n ≠ w.sample then BUSY
    else if 1024 < held.length + (entries.filter fun i => !held.contains i).length then BUSY
    else 0
  else 0

/-- An entry changes at a point. -/
def State.changeEntry (s : State) (w : When) (n i : Nat) (ws : List Word) : State :=
  if w.direct then s.directEntry n i ws else s.shadowAdd n w.frame w.sample i ws

/-- The slice's own refusal of an arm (R134): `LATE` and its counter. -/
def State.markLate (s : State) (n : Nat) : State := (s.setRb .MIXF_SL_ARM n 30 true).cntMix n X_LATE_ARM

/-! ### Tiles (R115, R140, R481) -/

/-- Is a tile's shared logic fenced (R481): its domain held off? -/
def State.tileFenced (s : State) (tile : Nat) : Bool := s.rb .CLKPWR_PD_CTRL (2 + tile) 28
/-- Clusters of a tile that are not fenced. -/
def State.liveClusters (s : State) (tile : Nat) : Nat := ((List.range 4).filter fun i => !s.fenced (4 * tile + i)).length
/-- `CODEC_BUDGET` of a tile. -/
def State.codecBudget (s : State) (tile : Nat) : Nat := 32768 * s.liveClusters tile / 4

/-- Admission costs of a decode and an encode in Mcycles/s. -/
def decCost (codec : Nat) (wide : Bool) : Nat := match codec with | 0 => if wide then 16 else 12 | 1 => 3 | 2 => 3 | _ => 6
def encCost (codec bw : Nat) : Nat := match codec with | 0 => nth [30, 40, 56, 56] 56 bw | 3 => 8 | _ => 1

/-- The declared cost of a chain's stages. -/
def State.chainCost (s : State) (chain : Nat) : Nat :=
  match Tbl.find s.disp.chains chain with
  | some x => sumN (x.kerns.map fun k => match s.kernel k with | some y => y.cost | none => 0)
  | none => 0

/-- What a class costs on its encode tile. -/
def State.classCost (s : State) (x : MixClass) : Nat := encCost x.codec x.bw + s.chainCost x.chain

/-- The load of a tile. -/
def State.tileLoad (s : State) (tile : Nat) : Nat :=
  sumN ((s.mix.sources.filter fun kv => kv.2.tile == tile).map fun kv => kv.2.cost)
    + sumN ((s.mix.classes.filter fun kv => kv.2.encTile == tile).map fun kv => s.classCost kv.2)

/-- The lowest free route entry of a tile. -/
def State.freeRoute (s : State) (tile : Nat) : Option Nat :=
  let used := (s.mix.sources.filter fun kv => kv.2.tile == tile).map fun kv => kv.2.route
  if 1280 ≤ used.length then none else (List.range 1280).find? fun i => !used.contains i

/-- The lowest free class entry of a home slice. -/
def State.freeClassEntry (s : State) (home : Nat) : Option Nat :=
  let used := (s.mix.classes.filter fun kv => (s.conf kv.2.conf).home == home).map fun kv => kv.2.entry
  if 1024 ≤ used.length then none else ((List.range 1024).map (1280 + ·)).find? fun i => !used.contains i

/-- The output frame pair of a class in its encode tile's SRAM. -/
def State.outOff (s : State) (x : MixClass) : Nat := fld ((s.entry (s.conf x.conf).home x.entry).w 3) 22 5 * 32

/-- The lowest free place of a frame pair in a tile's SRAM. -/
def State.freeOut (s : State) (tile : Nat) : Option Nat :=
  let used := (s.mix.classes.filter fun kv => kv.2.encTile == tile).map fun kv => s.outOff kv.2
  ((List.range (used.length + 1)).map (1920 * ·)).find? fun o => !used.contains o && decide (o + 1920 ≤ 2 ^ 23)

/-! ### The streams of classes (R114, R128, R131) -/

/-- The RTP clock of a class codec. -/
def codecClock (codec : Nat) : Nat := if codec = 0 then 48000 else 8000

/-- A device-originated audio stream comes to be. -/
def State.addClassStream (s : State) (id : Nat) (own : Own) (codec : Nat) : State :=
  s.updNet fun n => { n with streams := Tbl.set n.streams id { own, device := true, codec, clock := codecClock codec } }

/-- A subscription goes to SRC_GONE, and its owner hears of it (R58). -/
def State.srcGone (s : State) (i : Nat) : State :=
  let x := s.sub i
  (s.setSub i { x with st := .srcGone, next := none }).notify x.own.fn 0x0282 i

/-- A stream's record goes: its output contexts go to SRC_GONE, or where other members of a simulcast group remain a
context that was forwarding it waits again (R58). -/
def State.dropStream (s : State) (i : Nat) : State :=
  match Tbl.find s.net.streams i with
  | none => s
  | some st =>
    let subs := (s.net.subs.filter fun kv => kv.2.st != .srcGone && kv.2.st != .idle
      && match kv.2.next with | some (n, _) => n == i | none => s.follows kv.2 i st).map (·.1)
    let s1 := s.updNet fun n => { n with streams := Tbl.del n.streams i }
    let left := if st.sim then (s1.net.streams.filter fun kv => kv.2.sim && kv.2.leg == st.leg && kv.2.simGroup == st.simGroup).map (·.1) else []
    subs.foldl (fun s k =>
      let x := s.sub k
      match left with
      | [] => s.srcGone k
      | m :: _ =>
        let y := { x with src := if x.src = i then m else x.src }
        s.setSub k (if x.member = i ∧ x.live = true then { y with st := .joinWait, keyPosted := false, frame := none } else y)) s1

/-- Class streams that were freed while a context still changed away from them go once none does. -/
def State.sweepStreams (s : State) : State :=
  (s.net.streams.filter fun kv => kv.2.device && kv.2.own.dying && kv.2.kind == 0).foldl (fun s kv =>
    if s.net.subs.any fun x => x.2.src == kv.1 && x.2.next.isSome then s
    else s.updNet fun n => { n with streams := Tbl.del n.streams kv.1 }) s

/-! ### Removal of sources and classes (R126, R128, R146) -/

/-- Is a source a contributor of a conference's sum? -/
def State.contributesTo (s : State) (i src : Nat) : Bool := (s.conf i).members.any fun m => m.src == src

/-- Is it a contributor of any sum? -/
def State.contributes (s : State) (src : Nat) : Bool := s.mix.confs.any fun kv => kv.2.members.any fun m => m.src == src

/-- A source's record and route entry go. -/
def State.freeSource (s : State) (i : Nat) : State :=
  match Tbl.find s.mix.sources i with
  | none => s
  | some x =>
    let s1 := s.updMix fun m => { m with
      sources := Tbl.del m.sources i
      confs := Tbl.mapv m.confs fun _ c => { c with members := c.members.filter fun y => y.src != i } }
    s1.directEntry x.tile x.route []

/-- A source is removed: a contributor ramps out first, while its conference's slice runs; any other goes at once. -/
def State.removeSource (s : State) (i : Nat) : State :=
  match Tbl.find s.mix.sources i with
  | none => s
  | some _ =>
    if s.mix.confs.any fun kv => kv.2.members.any (fun m => m.src == i) && s.sliceOn kv.2.home then s.updSource i fun x => { x with removed := true, pinned := false }
    else s.freeSource i

/-- A class's record goes, with its entry. -/
def State.freeClass (s : State) (i : Nat) : State :=
  match Tbl.find s.mix.classes i with
  | none => s
  | some x =>
    let home := (s.conf x.conf).home
    (s.directEntry home x.entry []).updMix fun m => { m with classes := Tbl.del m.classes i }

/-- A class and the classes derived from it are destroyed; their contexts go to SRC_GONE. -/
def State.destroyClass (s : State) (i : Nat) : State :=
  if !Tbl.has s.mix.classes i then s
  else
  let l := (s.derivedOf i).map (·.1) ++ [i]
  let s1 := l.foldl (fun s c => (s.dropStream (s.cls c).outStream).freeClass c) s
  s1.updMix fun m => { m with
    joins := Tbl.keep m.joins fun _ j => !l.contains j.cls
    taps := Tbl.keep m.taps fun _ t => !(t.kind == 2 && l.contains t.ident) }

/-- The contributor whose exit ramp has ended leaves the sum; a source that waits for it is removed (R126). -/
def State.endRamp (s : State) (i : Nat) : State :=
  let ended (c : Conf) (m : Member) : Bool := m.src == i && m.leaving && m.m.done (if s.sliceDone c.home then 479 else -1)
  if s.mix.confs.any fun kv => kv.2.members.any (ended kv.2) then
    let s1 := s.updMix fun m => { m with confs := Tbl.mapv m.confs fun _ c => { c with members := c.members.filter fun y => !ended c y } }
    if (s.source i).removed && !s1.contributes i then s1.freeSource i else s1
  else s

/-- MEMBER_RAMP_END (R126). -/
def execMemberRampEnd (source : Nat) (s : State) : Res :=
  if Tbl.has s.mix.sources source then .next (s.endRamp source) else .next s

end Sys2Proof.Machine
end

