-- ==== Sys2Proof/Machine/MixRun.lean ====
section
/-! DEFINITION. The frame schedule of the mix fabric: boundaries, source deadlines, talker selection, forks, moves, merges
and outputs (R112, R116, R119, R120, R125 to R133, R139, R141, R142). -/

namespace Sys2Proof.Machine

/-- `MIXF_SCHED` in ns. -/
def State.srcDeadline (s : State) : Nat := s.rf .MIXF_SCHED 0 31 16 * 1000
def State.outDeadline (s : State) : Nat := s.rf .MIXF_SCHED 0 15 0 * 1000

/-- A meter entry written to memory (R123). -/
def State.meterWrite (s : State) (index : Nat) (m : MeterSt) (xs : List Int) : State :=
  s.memWords (s.rf .MIXF_MTR_BASE 0 19 0 * 2 ^ 20 + 16 * index) (m.entry s.mixFrame xs)

/-! ### Media rings (R142) -/

/-- A packet of items published at once on a ring that the device produces. -/
def State.ringPacket (s : State) (r : Nat) (items : List (List Nat)) : State :=
  let f := s.fifo (ringId r)
  let s1 := (items.zipIdx).foldl (fun s (w, i) => s.dma (ringFn r) (f.base + (f.pidx + i) % f.depth * f.bytes) w) s
  let s2 := s1.setFifo (ringId r) (f.publish false (items.map fun w => w.map (BitVec.ofNat 32)) true)
  (s2.writeBack r).ringEvent r

/-- The words of 16 samples, little-endian, in time order. -/
def packSamples : List Int → List Nat
  | a :: b :: r => (wrapN a 16 + 65536 * wrapN b 16) :: packSamples r
  | [a] => [wrapN a 16]
  | [] => []

/-- The 31 items of a frame (R142). -/
def mediaItems (frame id : Nat) (flags : Nat) (xs : List Int) : List (List Nat) :=
  [frame % 2 ^ 32, frame / 2 ^ 32, id % 65536, flags, 0, 0, 0, 0] ::
    (List.range 30).map fun i => packSamples ((xs.drop (16 * i)).take 16)

/-- The samples of an injected packet. -/
def unpackItems (items : List (List Word)) : List Int :=
  ((items.drop 1).take 30).flatMap fun it =>
    ((List.range 8).map fun j => nth it 0 j).flatMap fun w => [sx (fld w 15 0) 16, sx (fld w 31 16) 16]

/-- The packet that a media-in ring gives for frame `n`: packets whose frame has passed are dropped, one for a later frame
waits. -/
def State.injected : Nat → State → Nat → Nat → State × Option (Bool × List Int)
  | 0, s, _, _ => (s, none)
  | k + 1, s, r, n =>
    let f := s.fifo (ringId r)
    if !s.ringLive r || s.ringType r != 4 || f.ends.isEmpty || f.misconf then (s, none)
    else
      let items := f.items.take f.head
      let h := items.headD []
      let fr := (nth h 0 0).toNat + 2 ^ 32 * (nth h 0 1).toNat
      let s1 := s.ringConsume r f.head
      if fr = 0 ∨ fr = n then (s1, some (!bit (nth h 0 3) 0, unpackItems items))
      else if fr < n then State.injected k s1 r n
      else (s, none)

/-! ### Source frames (R116, R119, R123) -/

/-- What a source delivers for the frame: none = ABSENT, else DECODED or FEC, and the samples. The first frame after its decode
moved is ABSENT (R146), as is one that comes after the deadline, which counts (R119). -/
def State.sourceFrame (s : State) (frames : List SrcFrame) (i : Nat) (x : Source) : State × Option (Bool × List Int) :=
  if !s.sliceOn x.tile then (s, none)
  else if x.kind = 1 then
    let r := State.injected 256 s (x.from' - 61440) s.mixFrame
    (r.1, r.2.map fun p => (p.1, pad480 p.2))
  else
    let f := frames.find? fun f => f.src == i
    let j := x.jitter (s.stream x.from').codec f
    let s1 := s.updSource i fun _ => { j.1 with skip := false }
    if x.skip then (s1, none)
    else match j.2, f with
      | some p, some f => if f.late then (s1.cntMix x.tile X_LATE_SRC, none) else (s1, some p)
      | _, _ => (s1, none)

/-- A source takes its frame: what it contributes, and its meter. -/
def State.takeFrame (s : State) (frames : List SrcFrame) (i : Nat) : State :=
  let c := s.conf (s.source i).conf
  let (s1, got) := s.sourceFrame frames i (s.source i)
  let x := s1.source i
  let xs := match got with | some (_, l) => l | none => List.replicate 480 0
  let good := match got with | some (g, _) => g | none => false
  let m := x.meter.frame xs good c.holdFrames c.decay
  let lastAct := if good && decide (c.vad ≤ m.rmsDb) then s.mixFrame + 1 else x.lastAct
  let y : Source := match got with
    | none => { x with cur := if x.absent = 0 then fadeOut x.prev else List.replicate 480 0, absent := x.absent + 1 }
    | some _ =>
      let fade : Ramp := if x.absent = 0 then x.fade else { g0 := 0, g1 := 32768, n := rampLen c.ramp, start := 0 }
      { x with cur := if fade.done 0 then xs else scale15 xs fade.frame, prev := xs, absent := 0, fade }
  let s2 := s1.updSource i fun _ => { y with raw := xs, good, meter := m, lastAct }
  if s.sliceOn x.tile then s2.meterWrite i m xs else s2

/-! ### Talker selection (R125 to R127) -/

/-- The sum of a source's mean squares over the last C frames, by which levels are compared. -/
def State.lvl (s : State) (c : Conf) (i : Nat) : Nat := (s.source i).meter.msSum 0 c.change

/-- The route entry that a source was given. -/
def State.routeOf (s : State) (i : Nat) : Entry := s.entry (s.source i).tile (s.source i).route

/-- The route entries of a slice. -/
def State.routes (s : State) (slice : Nat) : List Entry :=
  (s.mix.params.filter fun kv => kv.1 / 2304 == slice && decide (kv.1 % 2304 < 1280)).map (·.2)

/-- Does a version of a route feed a conference from a source (R133, R136)? -/
def Entry.feeds (e : Entry) (src conf : Nat) : Bool := e.valid && fld (e.w 0) 15 0 == src && fld (e.w 2) 10 0 == conf

/-- Does a route entry of the source's decoding tile that feeds the conference from it have a bit set? -/
def State.routeBit (s : State) (conf i b : Nat) : Bool :=
  (s.routes (s.source i).tile).any fun e => e.feeds i conf && bit (e.w 0) b

/-- Does R125 let the source stand as a candidate? -/
def State.mayTalk (s : State) (conf i : Nat) : Bool :=
  let x := s.source i
  !x.removed && !x.own.dying && s.routeBit conf i 28
/-- Is it pinned? -/
def State.isPinned (s : State) (conf i : Nat) : Bool := !(s.source i).removed && s.routeBit conf i 29

/-- Is `a` before `b` in descending level, ties by R29 over src_id? -/
def State.louder (s : State) (c : Conf) (a b : Nat) : Bool :=
  let la := s.lvl c a
  let lb := s.lvl c b
  decide (lb < la) || (la == lb && decide ((a + 20480 - c.ptr) % 20480 < (b + 20480 - c.ptr) % 20480))

/-- A list in descending level. -/
def State.byLevel (s : State) (c : Conf) (l : List Nat) : List Nat := sortBy (fun a b => a == b || s.louder c a b) l

/-- CONF_TALKERS (R127). -/
def State.talker (s : State) (i src : Nat) (entered : Bool) : State :=
  let c := s.conf i
  if c.notify && !c.orphan then s.notify c.own.fn 0x0380 i [b2n entered * 2 ^ 31 + src] else s

/-- A member leaves at this boundary: its factor ramps to 0, and its derived classes are to linger (R126, R132). -/
def State.leave (s : State) (i src : Nat) : State :=
  let c := s.conf i
  let s1 := s.updConf i fun c => { c with members := c.members.map fun m =>
    if m.src = src then { m with leaving := true, m := m.m.to 0 c.ramp false 0 } else m }
  let s2 := s1.updMix fun m => { m with classes := Tbl.mapv m.classes fun _ x =>
    if x.conf = i ∧ (match x.self with | some (_, q) => q == src | none => false) = true then { x with linger := some s.mixFrame } else x }
  if c.members.any fun m => m.src == src then s2.talker i src false else s2

/-- A source enters at this boundary: its factor ramps to 1 (R126). -/
def State.enter (s : State) (i src : Nat) : State :=
  let s1 := s.updConf i fun c =>
    let old := c.members.find? fun m => m.src == src
    let r : Ramp := match old with | some m => m.m | none => {}
    let m : Member := { src, m := r.to 32768 c.ramp false 0 }
    { c with members := (c.members.filter fun m => m.src != src) ++ [m], ptr := (src + 1) % 20480 }
  let s2 := s1.updMix fun m => { m with classes := Tbl.mapv m.classes fun _ x =>
    if x.conf = i ∧ (match x.self with | some (_, q) => q == src | none => false) = true then { x with linger := none } else x }
  s2.talker i src true

/-- The members of a conference that are not leaving. -/
def Conf.staying (c : Conf) : List Nat := (c.members.filter fun m => !m.leaving).map (·.src)

/-- May a source enter under the limit of 32 contributors, members still ramping out included (R125 step 5)? -/
def Conf.room (c : Conf) : Bool := decide (c.members.length < 32)

/-- Step 4 and 5 of R125: the candidates in turn, `k` more may enter. -/
def State.candidates (s : State) (i : Nat) : List Nat → Nat → State
  | [], _ => s
  | q :: r, k =>
    let c := s.conf i
    if k = 0 ∨ c.room = false then s
    else if c.staying.length < c.k then State.candidates (s.enter i q) i r (k - 1)
    else
      let un := c.staying.filter fun m => !s.isPinned i m
      match (s.byLevel c un).getLast? with
      | none => s
      | some low =>
        if aboveBy (s.lvl c q) (s.lvl c low) c.hyst then State.candidates ((s.leave i low).enter i q) i r (k - 1)
        else State.candidates s i r k

/-- R125 for a conference at a change boundary. -/
def State.talkers (s : State) (i : Nat) : State :=
  let n := s.mixFrame
  let c0 := s.conf i
  let pins := (s.mix.sources.map (·.1)).filter fun q => s.isPinned i q
  -- step 1
  let s1 := (pins.foldl (fun s q => if (s.conf i).staying.contains q || !(s.conf i).room then s else s.enter i q) s).updConf i
    fun c => { c with ptr := c0.ptr }
  -- step 2
  let s2 := (s1.conf i).staying.foldl (fun s q =>
    let x := s.source q
    if !s.isPinned i q && (!s.mayTalk i q || decide (x.lastAct + c0.hang ≤ n)) then s.leave i q else s) s1
  -- step 3
  let un := s2.byLevel c0 ((s2.conf i).staying.filter fun q => !s2.isPinned i q)
  let excess := (s2.conf i).staying.length - c0.k
  let s3 := (un.reverse.take excess).foldl (fun s q => s.leave i q) s2
  -- steps 4 and 5
  let cand := (s3.mix.sources.map (·.1)).filter fun q =>
    s3.mayTalk i q && !(s3.conf i).staying.contains q && levelGe (s3.lvl c0 q) c0.change c0.vad
  s3.candidates i (s3.byLevel c0 cand) 4

/-! ### Derived classes (R130 to R133) -/

/-- MIX_CLASS_FORKED to the leg's owner. -/
def State.noteFork (s : State) (cls sub : Nat) (fork : Bool) : State :=
  s.notify (s.sub sub).own.fn 0x0480 cls [b2n fork * 2 ^ 31, sub]

/-- A leg's context changes to a class at the current boundary (R131). -/
def State.switchClass (s : State) (sub cls : Nat) : State :=
  let st := (s.cls cls).outStream
  let s1 := s.updMix fun m => { m with joins := Tbl.upd m.joins sub fun j => { j with cur := cls } }
  let x := s1.sub sub
  if x.st = .srcGone ∨ x.src = st then s1.setSub sub { x with next := none }
  else s1.setSub sub { x with next := some (st, s.mixFrame * 10000000) }

/-- A derived class merges: its legs go back to the named class, and the class and its stream are freed (R132). -/
def State.merge (s : State) (d : Nat) : State :=
  match Tbl.find s.mix.classes d with
  | none => s
  | some x => match x.self with
    | none => s
    | some (named, _) =>
      let subs := (s.mix.joins.filter fun kv => kv.2.cur == d).map (·.1)
      let s1 := subs.foldl (fun s k => (s.switchClass k named).noteFork d k false) s
      let s2 := s1.updNet fun n => { n with streams := Tbl.upd n.streams x.outStream fun st => { st with own := { st.own with dying := true } } }
      (s2.freeClass d).sweepStreams

/-- The lowest free identifier of a conference's reserve: class and stream at the same offset (R130). The stream of a class that
has merged is free, although contexts may still leave it (R132). -/
def State.freeDerived (s : State) (c : Conf) : Option Nat :=
  (List.range (2 * c.k)).find? fun j => !Tbl.has s.mix.classes (c.msClass + j)
    && match Tbl.find s.net.streams (c.msStream + j) with | some st => st.device && st.kind == 0 && st.own.dying | none => true

/-- The lingering class that left earliest. -/
def State.oldestLinger (s : State) (i : Nat) : Option Nat :=
  let l := s.mix.classes.filter fun kv => kv.2.conf == i && kv.2.linger.isSome
    && match kv.2.self with | some (_, q) => !s.contributesTo i q | none => false
  (l.foldl (fun (b : Option (Nat × Nat)) kv =>
    let t := kv.2.linger.getD 0
    match b with | some (_, u) => if t < u then some (kv.1, t) else b | none => some (kv.1, t)) none).map (·.1)

/-- Fork the derived class (named, q) (R131): its first packet is the next that begins; none when no identifier is free. -/
def State.fork (s : State) (i named q : Nat) : State × Option Nat :=
  let c := s.conf i
  let s := if (s.freeDerived c).isNone then (match s.oldestLinger i with | some d => s.merge d | none => s) else s
  let x := s.cls named
  match s.freeDerived c, s.freeClassEntry c.home, s.freeOut x.encTile with
  | some j, some e, some off =>
    let id := c.msClass + j
    let st := c.msStream + j
    let ne := s.entry c.home x.entry
    let d : MixClass := { x with
      own := c.own, entry := e, outStream := st, forkFrom := some named, self := some (named, q), first := cdiv (s.mixFrame + b2n (s.sliceDone c.home)) x.ptime * x.ptime
      encoded := false, copyOf := some named, linger := none, meter := {} }
    let ws := classWords (some q) (bit (ne.w 0) 30) (fld (ne.w 1) 31 16) (fld (ne.w 1) 15 0) x.encTile i off
    let s1 := s.addClassStream st c.own x.codec
    let s2 := s1.updMix fun m => { m with
      classes := Tbl.set m.classes id d
      params := Tbl.set m.params (entryKey c.home e) { words := ws, ramp := ne.ramp } }
    (s2.cntMix c.home X_FORKS, some id)
  | _, _, _ => (s, none)

/-- The derived class of a named class and a source, forked when there is none. -/
def State.derived (s : State) (i named q : Nat) : State × Option Nat :=
  match s.mix.classes.find? fun kv => kv.2.self == some (named, q) with
  | some (d, _) => (s.updCls d fun x => { x with linger := none }, some d)
  | none => s.fork i named q

/-- Is a source a member, not leaving? -/
def State.isMember (s : State) (i q : Nat) : Bool := (s.conf i).staying.contains q

/-- Step 2 of R133: every leg whose own source is a member receives the derived class. -/
def State.forks (s : State) (i : Nat) : State :=
  s.mix.joins.foldl (fun s kv =>
    let j := kv.2
    match j.self with
    | some q =>
      if (s.cls j.cls).conf = i ∧ s.isMember i q = true ∧ Tbl.has s.mix.classes j.cls = true then
        match s.derived i j.cls q with
        | (s1, some d) => if (Tbl.get s1.mix.joins j kv.1).cur = d then s1 else (s1.switchClass kv.1 d).noteFork d kv.1 true
        | (s1, none) => s1
      else s
    | none => s) s

/-- Step 3 of R133: the host moves that are due. -/
def State.moves (s : State) (i : Nat) : State :=
  s.mix.joins.foldl (fun s kv =>
    let j := Tbl.get s.mix.joins kv.2 kv.1
    match j.move with
    | some (c, self, f) =>
      if f ≤ s.mixFrame ∧ (s.cls c).conf = i ∧ Tbl.has s.mix.classes c = true then
        let s1 := s.updMix fun m => { m with joins := Tbl.set m.joins kv.1 { j with cls := c, self, move := none } }
        let s2 := if (s.cls c).forkFrom = some j.cls ∧ (s.cls c).encoded = false then s1.updCls c fun x => { x with copyOf := some j.cls } else s1
        match self with
        | some q =>
          if s2.isMember i q then
            match s2.derived i c q with
            | (s3, some d) => (s3.switchClass kv.1 d).noteFork d kv.1 true
            | (s3, none) => s3.switchClass kv.1 c
          else s2.switchClass kv.1 c
        | none => s2.switchClass kv.1 c
      else s
    | none => s) s

/-- Step 4 of R133: the lingering classes that are due, and those that no leg receives any more. -/
def State.merges (s : State) (i : Nat) : State :=
  let n := s.mixFrame
  let c := s.conf i
  let quiet := !levelGe (c.meter.msSum 0 c.change) c.change c.quiet
  s.mix.classes.foldl (fun s kv =>
    let x := s.cls kv.1
    if x.conf ≠ i ∨ x.self.isNone = true ∨ Tbl.has s.mix.classes kv.1 = false then s
    else if !s.mix.joins.any (fun j => j.2.cur == kv.1) then s.merge kv.1
    else match x.linger, x.self with
      | some e, some (_, q) =>
        if s.contributesTo i q = false ∧ ((e + c.linger ≤ n ∧ quiet = true) ∨ e + c.mergeMax ≤ n) then s.merge kv.1 else s
      | _, _ => s) s

/-- The work of a change boundary for one conference, in R133's order. -/
def State.changeBoundary (s : State) (i : Nat) : State :=
  let c := s.conf i
  if s.mixFrame % c.change ≠ 0 ∨ s.sliceOn c.home = false then s
  else (((s.talkers i).forks i).moves i).merges i

/-- A set armed for sample 0 of the current frame is in force for the whole frame, its membership included (R125, R134). -/
def State.swapFirst (s : State) (n : Nat) : State := if s.armSample n = 0 then s.swapDue n else s

/-- Step 3 of R139: membership by the frames before, then the frames of the sources. -/
def State.sourceStep (s : State) (frames : List SrcFrame) : State :=
  let s0 := (List.range 16).foldl State.swapFirst s
  let s1 := (s0.mix.confs.map (·.1)).foldl State.changeBoundary s0
  let s2 := (s1.mix.sources.map (·.1)).foldl (fun s i => s.takeFrame frames i) s1
  s2.updMix fun m => { m with srcDone := true }

/-- SOURCE_DEADLINE (R119, R125, R139). -/
def execSourceDeadline (frames : List SrcFrame) (el : Nat) (s : State) : Res :=
  let s := s.advance el
  if s.rb .MIXF_CTRL 0 31 && !s.mix.srcDone && decide (s.mix.boundAt + s.srcDeadline ≤ s.ela) && decide (0 < s.mix.boundAt) then
    .next (s.sourceStep frames)
  else .next s

/-! ### Outputs (R120, R139, R141, R142) -/

/-- The gain that a version of a route entry gives a source in a conference: the values for a frame. -/
def EntryVer.gainFor (v : EntryVer) (src conf : Nat) : List Int :=
  let is (w : Word) : Bool := bit w 31 && fld w 15 0 == src && fld (nth v.words 0 2) 10 0 == conf
  let now := if is (nth v.words 0 0) then v.ramp.frame else List.replicate 480 0
  v.fades.foldl (fun a f => if is f.1 then addFrames a f.2.frame else a) now

/-- The gain of a source in a conference: what every route entry of its decoding tile gives it (R136). -/
def State.gainFor (s : State) (src conf : Nat) : List Int :=
  sumFrames ((s.routes (s.source src).tile).map fun e => e.part fun v => v.gainFor src conf)

/-- The products of each contributor of a conference: source and p(k). -/
def State.contribs (s : State) (i : Nat) : List (Nat × List Int) :=
  (s.conf i).members.map fun m => (m.src, products (s.gainFor m.src i) m.m.frame (pad480 (s.source m.src).cur))

/-- The sum that an entry's word 0 names: common, or minus-self of a contributor. -/
def sumFor (w : Word) (a : List Int) (p : List (Nat × List Int)) : List Int :=
  if bit w 29 then (match p.find? fun q => q.1 == fld w 15 0 with | some q => subFrames a q.2 | none => a) else a

/-- A sum under a gain, for the word 0 that names the sum. -/
def sumUnder (a : List Int) (p : List (Nat × List Int)) (w : Word) (g : Ramp) : List Int :=
  if bit w 31 then ((sumFor w a p).zip g.frame).map fun (x, g) => halfUp x 12 * g else List.replicate 480 0

/-- The output of a class: its sum under its gain; during a crossfade the old sum under the falling gain too. -/
def Entry.output (e : Entry) (a : List Int) (p : List (Nat × List Int)) : List Int × Nat :=
  let v := e.part fun v => v.fades.foldl (fun acc f => addFrames acc (sumUnder a p f.1 f.2)) (sumUnder a p (nth v.words 0 0) v.ramp)
  store16 (v.map fun x => halfUp x 12)

/-- A tap writes its packet, or counts it lost when its ring has no room (R142). -/
def State.tapWrite (s : State) (k : Nat) (t : Tap) (xs : List Int) (flags : Nat) : State :=
  let r := t.ring - 61440
  if s.ringLive r && s.ringType r == 3 && decide (31 ≤ s.ringFree r) && (s.fifo (ringId r)).ends.length < 255 then
    s.ringPacket r (mediaItems s.mixFrame (k % 64) flags xs)
  else s.updMix fun m => { m with taps := Tbl.upd m.taps k fun t => { t with lost := t.lost + 1 } }

/-- The taps of an object. -/
def State.tapsOf (s : State) (kind ident : Nat) (xs : List Int) (flags : Nat) : State :=
  s.mix.taps.foldl (fun s kv => if kv.2.kind = kind ∧ kv.2.ident = ident then s.tapWrite kv.1 kv.2 xs flags else s) s

/-- FRAME_READY of a class whose packet ends at the current frame (R129, R139). -/
def State.frameReady (s : State) (cls frame : Nat) : State :=
  let x := s.cls cls
  if (frame + 1) % x.ptime = 0 ∧ x.first + x.ptime ≤ frame + 1 then
    (s.updCls cls fun x => { x with encoded := true }).postHw s.disp.encQid 0x203
      (mkItem 0x11 false s.disp.encQid cls [frame % 2 ^ 32, frame / 2 ^ 32, cls])
  else s

/-- Stage `k` of a class's chain on a frame, or when the stages are done its encode (R288). -/
def State.stage (s : State) (cls frame k : Nat) : State :=
  let x := s.cls cls
  let chain := match x.chainAt with | some (ch, f) => if f ≤ frame then ch else x.chain | none => x.chain
  match (if chain = 0 then none else Tbl.find s.disp.chains chain) with
  | none => s.frameReady cls frame
  | some ch =>
    if k < ch.kerns.length then
      s.postHw ch.qid 0x203 (mkItem 0x17 false ch.qid cls [frame % 2 ^ 32, frame / 2 ^ 32, cls, k])
    else s.frameReady cls frame

/-- A CHAIN_STAGE item of the mix fabric has completed: the next stage follows. -/
def State.chainNext (s : State) (it : Item) : State :=
  if it.event = 0x17 ∧ it.producer = 0x203 ∧ Tbl.has s.mix.classes (it.w 6 % 65536) = true then
    s.stage (it.w 6 % 65536) (it.w 4 + 2 ^ 32 * it.w 5) (it.w 7 % 4 + 1)
  else s

/-- One class's output of the current frame. -/
def State.writeClass (s : State) (home i : Nat) (a : List Int) (p : List (Nat × List Int)) : State :=
  let x := s.cls i
  let c := s.conf x.conf
  let (ys, sat) := (s.entry home x.entry).output a p
  let m := x.meter.frame ys true c.holdFrames c.decay
  let n := s.mixFrame
  let s1 := ((s.updCls i fun x => { x with meter := m }).cntMix home X_SAT sat).meterWrite (22528 + i) m ys
  let addr := 0x1000000000 + x.encTile * 2 ^ 23 + s.outOff x + n % 2 * 960
  let s2 := s1.memWrite addr (ys.flatMap fun y => toLe 2 (wrapN y 16))
  (s2.stage i n 0).tapsOf 2 i ys (if sat = 0 then 0 else 2)

/-- The outputs of a conference. -/
def State.writeConf (s : State) (home i : Nat) : State :=
  let c := s.conf i
  let p := s.contribs i
  let a := sumFrames (p.map (·.2))
  let (y0, sat) := confOut a
  let m := c.meter.frame y0 true c.holdFrames c.decay
  let s1 := ((s.updConf i fun c => { c with meter := m }).cntMix home X_SAT sat).meterWrite (20480 + i) m y0
  let s2 := (s1.mix.classes.filter fun kv => kv.2.conf == i).foldl (fun s kv => s.writeClass home kv.1 a p) s1
  s2.tapsOf 1 i y0 (if sat = 0 then 0 else 2)

/-- The class outputs of a slice that are late count once each (R141). -/
def State.lateOut (s : State) (n : Nat) : State :=
  if s.sliceOn n && s.mix.srcDone && !s.sliceDone n && !Tbl.get s.mix.late false n && decide (s.mix.boundAt + s.outDeadline ≤ s.ela) then
    let k := (s.mix.classes.filter fun kv => (s.conf kv.2.conf).home == n).length
    (s.updMix fun m => { m with late := Tbl.set m.late n true }).cntMix n X_OUT_LATE k
  else s

/-- A slice writes the current frame (R139 step 4). -/
def State.writeSlice (s : State) (n : Nat) : State :=
  if s.sliceOn n && s.mix.srcDone && !s.sliceDone n then
    let s1 := s.swapDue n
    let s2 := (s1.mix.confs.filter fun kv => kv.2.home == n).foldl (fun s kv => s.writeConf n kv.1) s1
    let s3 := s2.mix.sources.foldl (fun s kv => if kv.2.tile = n then s.tapsOf 0 kv.1 kv.2.raw (b2n (!kv.2.good)) else s) s2
    (s3.cntMix n X_FRAMES).updMix fun m => { m with written := Tbl.set m.written n true }
  else s

/-- CLASS_OUTPUT_WRITE (R120, R139, R141). -/
def execClassOutputWrite (slice : Fin 16) (el : Nat) (s : State) : Res :=
  .next (((s.advance el).lateOut slice.val).writeSlice slice.val)

/-- OUT_DEADLINE_EXPIRY (R141). -/
def execOutDeadlineExpiry (slice : Fin 16) (el : Nat) (s : State) : Res := .next ((s.advance el).lateOut slice.val)

/-! ### Boundaries (R112, R139 step 1) -/

/-- What the passing frame still owes is done before the next begins: no frame is skipped (R112, R141). -/
def State.finishFrame (s : State) : State :=
  if s.mix.boundAt = 0 then s
  else
    let s1 := if s.mix.srcDone then s else s.sourceStep []
    (List.range 16).foldl (fun s n => (s.lateOut n).writeSlice n) s1

/-- Every ramp is seen from the next frame; fades that have ended go. -/
def Mix.nextFrame (m : Mix) : Mix :=
  { m with
    params := Tbl.mapv m.params fun _ e => { e with
      ramp := e.ramp.next
      fades := (e.fades.map fun f => (f.1, f.2.next)).filter fun f => !f.2.done (-1)
      pre := [], swapAt := none }
    confs := Tbl.mapv m.confs fun _ c => { c with members := c.members.map fun x => { x with m := x.m.next } }
    sources := Tbl.mapv m.sources fun _ x => { x with fade := x.fade.next }
    srcDone := false, written := [], late := [], reached := [] }

/-- The boundary of the next frame. -/
def State.boundary (s : State) : State :=
  let s1 := s.finishFrame.updMix fun m => { m.nextFrame with boundAt := m.nextAt, nextAt := m.nextAt + 10000000 }
  let s2 := s1.bump .MIXF_FRAME_LO 0
  let s3 := (s2.mix.sources.map (·.1)).foldl (fun s i => s.endRamp i) s2
  let n := s3.mixFrame
  let s4 := s3.mix.sources.foldl (fun s kv =>
    if kv.2.kind = 0 then
      let st := s.stream kv.2.from'
      s.postHw st.dispQ 0x203 (mkItem 0x10 false st.dispQ kv.2.from' [n % 2 ^ 32, n / 2 ^ 32, kv.1])
    else s) s3
  s4.sweepStreams

/-- MIX_FRAME_BOUNDARY (R112, R139). -/
def execMixFrameBoundary (el : Nat) (s : State) : Res :=
  let s := s.advance el
  if s.rb .MIXF_CTRL 0 31 && s.pdOn 34 && decide (s.mix.nextAt ≤ s.ela) then .next s.boundary else .next s

end Sys2Proof.Machine
end

