-- ==== Sys2Proof/Machine/MixCmds.lean ====
section
/-! DEFINITION. The CONF and MIX commands (chapter 4). -/

namespace Sys2Proof.Machine

abbrev CONF_IN_USE : Nat := 0x0300
abbrev PIN_LIMIT : Nat := 0x0301
abbrev SLICE_FULL : Nat := 0x0302
abbrev CONF_HAS_LEGS : Nat := 0x0303
abbrev CLASS_IN_USE : Nat := 0x0400
abbrev PTIME_MISMATCH : Nat := 0x0403
abbrev FORK_MISMATCH : Nat := 0x0404
abbrev SRC_IN_USE : Nat := 0x0405
abbrev STREAM_IN_USE : Nat := 0x0200
abbrev SUB_IN_USE : Nat := 0x0203

/-- A ramp length that a command may not carry (R122). -/
def rampBad (n : Nat) : Bool := (decide (1 ≤ n) && decide (n ≤ 11)) || decide (48000 < n)
/-- A field whose zero selects a default. -/
def dflt (v d : Nat) : Nat := if v = 0 then d else v
def dfltI (v : Nat) (d : Int) : Int := if v = 0 then d else sx v 16

/-! ### Conferences -/

/-- What CONF_CREATE's words give. -/
def confOf (c : Cmd) (own : Own) : Conf :=
  {
    own, home := c.f 2 31 28, notify := c.b 2 27, k := c.f 2 20 16, change := nth [1, 2, 4, 6] 1 (c.f 2 15 14)
    vad := dfltI (c.f 3 31 16) (-12800), hyst := dfltI (c.f 3 15 0) 1536, hang := dflt (c.f 4 31 16) 50, ramp := dflt (c.f 4 15 0) 240
    linger := dflt (c.f 5 31 16) 200, mergeMax := dflt (c.f 5 15 0) 1000, quiet := dfltI (c.f 6 31 16) (-11520)
    msClass := c.f 7 15 0, msStream := c.f 8 17 0, decay := sx (c.f 9 31 16) 16, holdFrames := c.f 9 15 0 }

/-- Fields out of range. -/
def confBad (c : Cmd) : Bool :=
  decide (2047 < c.h) || c.f 2 20 16 == 0 || decide (16 < c.f 2 20 16) || rampBad (c.f 4 15 0)
    || decide (16384 < c.f 7 15 0 + 2 * c.f 2 20 16) || decide (262144 < c.f 8 17 0 + 2 * c.f 2 20 16)

/-- Does a range of classes and streams meet a conference's reserve other than `skip`? -/
def State.inReserve (s : State) (skip cb cn sb sn : Nat) : Bool :=
  s.mix.confs.any fun kv => kv.1 != skip
    && ((decide (cb < kv.2.msClass + 2 * kv.2.k) && decide (kv.2.msClass < cb + cn))
      || (decide (sb < kv.2.msStream + 2 * kv.2.k) && decide (kv.2.msStream < sb + sn)))

/-- Is a reserve free of other reserves, and of classes and streams that are not its own derived ones? -/
def State.reserveBad (s : State) (i cb sb n : Nat) : Bool :=
  s.inReserve i cb n sb n || (List.range n).any fun j =>
    let mine := match Tbl.find s.mix.classes (cb + j) with | some x => x.conf == i && x.self.isSome | none => false
    !mine && (Tbl.has s.mix.classes (cb + j) || Tbl.has s.net.streams (sb + j))

/-- A conference as a target: one without an owner is nobody's (R410). -/
def confTarget (c : Cmd) (s : State) (i : Nat) : Nat :=
  match Tbl.find s.mix.confs i with
  | none => BAD_STATE
  | some x => if x.orphan then NOT_OWNER else ownFail c x.own

/-- CONF_CREATE. -/
def confCreateSpec : CmdSpec := { op := 0x0300, used := [(2, 0xF81FC000), (6, 0xFFFF0000), (7, 0xFFFF), (8, 0x3FFFF)] }
def confCreateCheck (c : Cmd) (s : State) : Nat :=
  firstFail [
    (confBad c, BAD_PARAM),
    (!Tbl.has s.mix.confs c.h && s.reserveBad c.h (c.f 7 15 0) (c.f 8 17 0) (2 * c.f 2 20 16), BAD_PARAM),
    (Tbl.has s.mix.confs c.h, CONF_IN_USE),
    (s.tileFenced (c.f 2 31 28) || decide (256 ≤ (s.mix.confs.filter fun kv => kv.2.home == c.f 2 31 28).length), NO_RESOURCE)]
def confCreateApply (c : Cmd) (s : State) : Reply :=
  { st := s.updMix fun m => { m with confs := Tbl.set m.confs c.h (confOf c (newOwn c s)) } }
/-- CONF_CREATE (R143). -/
def execConfCreate (c : Cmd) (s : State) : Res := .next (runCmd confCreateSpec confCreateCheck confCreateApply c s)

/-- CONF_MODIFY. -/
def confModifySpec : CmdSpec := { op := 0x0301, used := [(2, 0xF81FC000), (6, 0xFFFF0000), (7, 0xFFFF), (8, 0x3FFFF)] }
def confModifyCheck (c : Cmd) (s : State) : Nat :=
  let x := s.conf c.h
  let n := confOf c x.own
  firstCode [
    rejectIf (confBad c) BAD_PARAM,
    confTarget c s c.h,
    rejectIf (n.home != x.home || n.change != x.change || n.msClass != x.msClass || n.msStream != x.msStream) BAD_STATE,
    rejectIf (decide (x.k < n.k) && s.reserveBad c.h n.msClass n.msStream (2 * n.k)) BAD_PARAM,
    rejectIf (decide (n.k < (s.mix.sources.filter fun kv => kv.2.conf == c.h && kv.2.pinned).length)) PIN_LIMIT]
def confModifyApply (c : Cmd) (s : State) : Reply :=
  { st := s.updConf c.h fun x =>
      { confOf c x.own with orphan := x.orphan, closing := x.closing, members := x.members, ptr := x.ptr, meter := x.meter } }
/-- CONF_MODIFY (R143). -/
def execConfModify (c : Cmd) (s : State) : Res := .next (runCmd confModifySpec confModifyCheck confModifyApply c s)

/-- The legs that carry a conference. -/
def State.confLegs (s : State) (i : Nat) : List (Nat × Leg) := s.net.legs.filter fun kv => kv.2.conf == i

/-- A conference goes with its classes, sources and taps. -/
def State.destroyConf (s : State) (i : Nat) : State :=
  let s1 := (s.mix.classes.filter fun kv => kv.2.conf == i && kv.2.self.isNone).foldl (fun s kv => s.destroyClass kv.1) s
  let s2 := (s1.mix.classes.filter fun kv => kv.2.conf == i).foldl (fun s kv => s.destroyClass kv.1) s1
  let src := (s2.mix.sources.filter fun kv => kv.2.conf == i).map (·.1)
  let s3 := src.foldl State.freeSource s2
  s3.updMix fun m => { m with
    confs := Tbl.del m.confs i
    taps := Tbl.keep m.taps fun _ t => !((t.kind == 1 && t.ident == i) || (t.kind == 0 && src.contains t.ident)) }

/-- CONF_DESTROY. -/
def confDestroySpec : CmdSpec := { op := 0x0302 }
def confDestroyCheck (c : Cmd) (s : State) : Nat :=
  firstCode [rejectIf (decide (2047 < c.h)) BAD_PARAM, confTarget c s c.h, rejectIf (!(s.confLegs c.h).isEmpty) CONF_HAS_LEGS]
def confDestroyApply (c : Cmd) (s : State) : Reply := { st := s.destroyConf c.h }
/-- At the first refusal with CONF_HAS_LEGS, CONF_CLOSING goes to every other tenant that holds a leg there (R143). -/
def State.confClosing (s : State) (i t : Nat) : State :=
  if (s.conf i).closing then s
  else
    let l := ((s.confLegs i).map fun kv => kv.2.own.tenant).filter (· != t)
    (l.eraseDups.foldl (fun s u => s.notify (64 * u) 0x0381 i) s).updConf i fun x => { x with closing := true }
/-- CONF_DESTROY (R143). -/
def execConfDestroy (c : Cmd) (s : State) : Res :=
  let t := s.advance c.el
  let r := runCmd confDestroySpec confDestroyCheck confDestroyApply c s
  if t.takeable c && !c.dry && statusOf confDestroySpec confDestroyCheck c t == CONF_HAS_LEGS then .next (r.confClosing c.h c.tenant)
  else .next r

/-- CONF_PIN. -/
def confPinSpec : CmdSpec := { op := 0x0303, used := [(2, 0x8000FFFF)] }
def confPinCheck (c : Cmd) (s : State) : Nat :=
  let q := c.f 2 15 0
  firstCode [
    rejectIf (decide (2047 < c.h) || decide (20479 < q)) BAD_PARAM,
    rejectIf (!Tbl.has s.mix.sources q) BAD_STATE,
    confTarget c s c.h,
    rejectIf ((s.source q).own.dying || (s.source q).removed) BAD_STATE,
    rejectIf ((s.source q).conf != c.h) BAD_PARAM,
    rejectIf (c.b 2 31 && !(s.source q).pinned
      && decide ((s.conf c.h).k ≤ (s.mix.sources.filter fun kv => kv.2.conf == c.h && kv.2.pinned).length)) PIN_LIMIT]
def confPinApply (c : Cmd) (s : State) : Reply :=
  let q := c.f 2 15 0
  let x := s.source q
  let on := c.b 2 31
  let pin (ws : List Word) : List Word := putB (nth ws 0 0) 29 on :: ws.drop 1
  let s1 := s.updSource q fun x => { x with pinned := on }
  let s2 := if (s1.entry x.tile x.route).valid then s1.directWords x.tile x.route (pin (s1.entry x.tile x.route).words) 1 else s1
  let held := s2.armed x.tile && (List.range (s2.armCount x.tile)).any fun p => Tbl.get s2.mix.tags 0 (x.tile * 1024 + p) == x.route
  { st := if held then s2.shadowAdd x.tile (s2.armAt x.tile) (s2.armSample x.tile) x.route (pin (s2.futureWords x.tile x.route)) else s2 }
/-- CONF_PIN (R127). -/
def execConfPin (c : Cmd) (s : State) : Res := .next (runCmd confPinSpec confPinCheck confPinApply c s)

/-- CONF_QUERY. -/
def confQuerySpec : CmdSpec := { op := 0x0304, dma := true }
def confQueryCheck (c : Cmd) (s : State) : Nat := firstCode [rejectIf (decide (2047 < c.h)) BAD_PARAM, confTarget c s c.h]
def confQueryApply (c : Cmd) (s : State) : Reply :=
  let x := s.conf c.h
  queryReply c s ([x.members.length, wrapN x.meter.rmsDb 16 * 65536 + wrapN x.meter.hold 16, x.own.fn]
    ++ (x.members.map fun m => b2n m.leaving * 2 ^ 31 + m.src + 2 ^ 16 * b2n (s.isPinned c.h m.src))
    ++ (s.mix.taps.filter fun t => t.2.kind == 1 && t.2.ident == c.h).flatMap fun t => [t.1, t.2.lost])
/-- CONF_QUERY (R145). -/
def execConfQuery (c : Cmd) (s : State) : Res := .next (runCmd confQuerySpec confQueryCheck confQueryApply c s)

/-! ### Sources -/

/-- The tiles in the order in which firmware tries them: those that compute, the conference's home first, then in turn. -/
def State.tileOrder (s : State) (home : Nat) : List Nat :=
  let l := ((List.range 16).map fun i => (home + i) % 16).filter fun n => !s.tileFenced n
  if l.any s.sliceOn then l.filter s.sliceOn else l

/-- What a new source's decode costs. -/
def sourceCost (c : Cmd) (s : State) : Nat := if c.f 2 31 30 = 0 then decCost (s.stream (c.f 3 17 0)).codec (Config.opusWide (c.f 3 17 0)) else 0

/-- The tile that firmware chooses for a new source, or the status that refuses it (R115, R140). -/
def State.sourceTile (s : State) (home cost : Nat) : Except Nat Nat :=
  match (s.tileOrder home).filter fun t => (s.freeRoute t).isSome with
  | [] => .error SLICE_FULL
  | l => match l.find? fun t => decide (s.tileLoad t + cost ≤ s.codecBudget t) with
    | some t => .ok t
    | none => .error NO_RESOURCE

/-- The right of the issuer over a host ring that a command names, and the ring's state (R395). -/
def ringFail (c : Cmd) (s : State) (qid typ : Nat) : Nat :=
  let r := qid - 61440
  let f := ringFn r
  if !s.fnExists f then BAD_STATE
  else if f / 64 ≠ c.tenant ∨ (c.isVf = true ∧ f ≠ c.fnN) then NOT_OWNER
  else rejectIf (!s.ringOn r || s.ringType r != typ) BAD_STATE

/-- MIX_SOURCE_ADD. -/
def mixSourceAddSpec : CmdSpec := { op := 0x0400, used := [(2, 0xF00007FF), (3, 0x3FFFF), (12, 0xC00001FF)] }
def mixSourceAddCheck (c : Cmd) (s : State) : Nat :=
  let kind := c.f 2 31 30
  let x := s.conf (c.f 2 10 0)
  let st := s.stream (c.f 3 17 0)
  let tile := s.sourceTile x.home (sourceCost c s)
  firstCode [
    rejectIf (decide (20479 < c.h) || decide (1 < kind) || rampBad (c.f 4 15 0) || applyBad c
      || (kind == 1 && (decide (c.f 3 15 0 < 61440) || c.f 3 17 16 != 0)) || decide (dflt (c.f 5 15 0) 200 < dflt (c.f 5 31 16) 20)) BAD_PARAM,
    rejectIf (!Tbl.has s.mix.confs (c.f 2 10 0)) BAD_STATE,
    (if kind = 0 then (match Tbl.find s.net.streams (c.f 3 17 0) with | none => BAD_STATE | some st => rejectIf (ownFail c st.own == NOT_OWNER) NOT_OWNER)
      else firstCode [rejectIf (!x.orphan && x.own.tenant != c.tenant) NOT_OWNER, ringFail c s (c.f 3 15 0) 4]),
    rejectIf (x.own.dying || x.orphan) BAD_STATE,
    rejectIf (kind == 0 && (st.own.dying || st.kind != 0 || st.dest == 0)) BAD_STATE,
    rejectIf (kind == 0 && (s.leg st.leg).conf != c.f 2 10 0) BAD_PARAM,
    rejectIf (Tbl.has s.mix.sources c.h) SRC_IN_USE,
    (match tile with | .ok t => armFail s (applyWhen c s) t [(s.freeRoute t).getD 0] | .error e => e),
    rejectIf (kind == 1 && decide (1024 ≤ (s.mix.sources.filter fun kv => kv.2.kind == 1 && kv.2.own.tenant == c.tenant).length)) NO_RESOURCE]
def mixSourceAddApply (c : Cmd) (s : State) : Reply :=
  let kind := c.f 2 31 30
  let home := (s.conf (c.f 2 10 0)).home
  match s.sourceTile home (sourceCost c s) with
  | .error e => { st := s, code := e }
  | .ok t =>
    let r := (s.freeRoute t).getD 0
    let x : Source := {
      own := newOwn c s, kind, conf := c.f 2 10 0, from' := if kind = 0 then c.f 3 17 0 else c.f 3 15 0, contrib := c.b 2 29
      jbMin := dflt (c.f 5 31 16) 20, jbMax := dflt (c.f 5 15 0) 200, jbDelay := dflt (c.f 5 31 16) 20, tile := t, route := r, cost := sourceCost c s }
    let s1 := s.updMix fun m => { m with
      sources := Tbl.set m.sources c.h x, params := Tbl.del m.params (entryKey t r) }
    { st := s1.changeEntry (applyWhen c s) t r (routeWords c.h (c.f 2 10 0) (c.b 2 28) false (c.b 2 29) (c.f 4 31 16) (c.f 4 15 0)) }
/-- The slice that a late arm of a command marks (R134, R138). -/
def State.lateOf (s t : State) (k : CmdSpec) (check : Cmd → State → Nat) (c : Cmd) (slice : Nat) : State :=
  if t.takeable c && !c.dry && statusOf k check c t == LATE_BOUNDARY then s.markLate slice else s
/-- MIX_SOURCE_ADD (R115, R143). -/
def execMixSourceAdd (c : Cmd) (s : State) : Res :=
  let t := s.advance c.el
  let slice := match t.sourceTile (t.conf (c.f 2 10 0)).home (sourceCost c t) with | .ok n => n | .error _ => 0
  .next ((runCmd mixSourceAddSpec mixSourceAddCheck mixSourceAddApply c s).lateOf t mixSourceAddSpec mixSourceAddCheck c slice)

/-- A source as a target. -/
def sourceTarget (c : Cmd) (s : State) (i : Nat) : Nat :=
  firstCode [
    rejectIf (decide (20479 < i)) BAD_PARAM,
    target c s.mix.sources (·.own) i,
    rejectIf (s.source i).removed BAD_STATE]

/-- The words that MIX_SOURCE_MODIFY gives a source's route. -/
def sourceWords (c : Cmd) (s : State) : List Word :=
  let x := s.source c.h
  routeWords c.h x.conf (c.b 2 28) x.pinned (c.b 2 29) (c.f 4 31 16) (c.f 4 15 0)

/-- MIX_SOURCE_MODIFY. -/
def mixSourceModifySpec : CmdSpec := { op := 0x0401, used := [(2, 0xF00007FF), (12, 0xC00001FF)] }
def sourceModifyFails (c : Cmd) (s : State) : Nat :=
  firstCode [rejectIf (decide (1 < c.f 2 31 30) || rampBad (c.f 4 15 0) || applyBad c) BAD_PARAM, sourceTarget c s c.h]
def mixSourceModifyCheck (c : Cmd) (s : State) : Nat :=
  let x := s.source c.h
  firstCode [sourceModifyFails c s, armFail s (applyWhen c s) x.tile [x.route]]
/-- A source's settings change at a point. -/
def State.modifySource (s : State) (c : Cmd) (w : When) : State :=
  let x := s.source c.h
  (s.updSource c.h fun x => { x with contrib := c.b 2 29 }).changeEntry w x.tile x.route (sourceWords c s)
def mixSourceModifyApply (c : Cmd) (s : State) : Reply := { st := s.modifySource c (applyWhen c s) }
/-- MIX_SOURCE_MODIFY (R138). -/
def execMixSourceModify (c : Cmd) (s : State) : Res :=
  let t := s.advance c.el
  .next ((runCmd mixSourceModifySpec mixSourceModifyCheck mixSourceModifyApply c s).lateOf t mixSourceModifySpec mixSourceModifyCheck c
    (t.source c.h).tile)

/-- MIX_SOURCE_REMOVE. -/
def mixSourceRemoveSpec : CmdSpec := { op := 0x0402 }
def mixSourceRemoveCheck (c : Cmd) (s : State) : Nat := sourceTarget c s c.h
def mixSourceRemoveApply (c : Cmd) (s : State) : Reply := { st := s.removeSource c.h }
/-- MIX_SOURCE_REMOVE (R126). -/
def execMixSourceRemove (c : Cmd) (s : State) : Res :=
  .next (runCmd mixSourceRemoveSpec mixSourceRemoveCheck mixSourceRemoveApply c s)

/-! ### Classes -/

/-- Frames in a packet by the `PTIME` code. -/
def ptimeOf (code : Nat) : Nat := nth [1, 2, 4, 6] 1 code

/-- The chain that a class may name (R288). -/
def chainFail (c : Cmd) (s : State) (n : Nat) : Nat :=
  if n = 0 then 0
  else match Tbl.find s.disp.chains n with
    | none => BAD_STATE
    | some x => if x.own.tenant ≠ c.tenant then NOT_OWNER else rejectIf x.own.dying BAD_STATE

/-- What MIX_CLASS_CREATE's words give. -/
def classOf (c : Cmd) (s : State) : MixClass :=
  let x := s.conf (c.f 2 10 0)
  {
    own := newOwn c s, conf := c.f 2 10 0, entry := (s.freeClassEntry x.home).getD 1280, encTile := c.f 2 31 28, codec := c.f 2 26 24
    ptime := ptimeOf (c.f 2 23 22), bw := c.f 2 21 20, fec := c.b 2 19, dtx := c.b 2 18, cplx := c.f 2 17 14, bitrate := c.f 7 18 0
    chain := c.f 5 7 0, outStream := c.f 6 17 0, forkFrom := if c.b 2 27 then some (c.f 3 15 0) else none
    first := cdiv (s.mixFrame + 1) (ptimeOf (c.f 2 23 22)) * ptimeOf (c.f 2 23 22) }

/-- Is the codec configuration the same (R133)? -/
def sameCodec (a b : MixClass) : Bool :=
  a.codec == b.codec && a.ptime == b.ptime && a.bw == b.bw && a.fec == b.fec && a.dtx == b.dtx && a.cplx == b.cplx && a.bitrate == b.bitrate

/-- MIX_CLASS_CREATE. -/
def mixClassCreateSpec : CmdSpec := {
    op := 0x0403
    used := [(2, 0xFFFFC7FF), (3, 0xFFFF), (5, 0xFF), (6, 0x3FFFF), (7, 0x7FFFF)] }
def mixClassCreateCheck (c : Cmd) (s : State) : Nat :=
  let x := s.conf (c.f 2 10 0)
  let n := classOf c s
  firstCode [
    rejectIf (decide (16383 < c.h) || decide (3 < n.codec) || (n.codec == 0 && decide (10 < n.cplx)) || rampBad (c.f 4 15 0)
      || (n.codec == 0 && (decide (n.bitrate < 6000) || decide (510000 < n.bitrate))) || s.inReserve 4096 c.h 1 n.outStream 1
      || (match n.forkFrom with | some f => decide (16383 < f) | none => false)) BAD_PARAM,
    rejectIf (!Tbl.has s.mix.confs (c.f 2 10 0)) BAD_STATE,
    rejectIf x.orphan BAD_STATE,
    ownFail c x.own,
    chainFail c s n.chain,
    rejectIf (Tbl.has s.mix.classes c.h) CLASS_IN_USE,
    rejectIf (x.change % n.ptime != 0) PTIME_MISMATCH,
    (match n.forkFrom with
      | some f => (match Tbl.find s.mix.classes f with
        | some y => rejectIf (y.self.isSome || y.conf != n.conf || !sameCodec n y) FORK_MISMATCH
        | none => FORK_MISMATCH)
      | none => 0),
    rejectIf (Tbl.has s.net.streams n.outStream) STREAM_IN_USE,
    rejectIf ((s.freeClassEntry x.home).isNone || (s.freeOut n.encTile).isNone
      || decide (s.codecBudget n.encTile < s.tileLoad n.encTile + s.classCost n)) NO_RESOURCE]
def mixClassCreateApply (c : Cmd) (s : State) : Reply :=
  let n := classOf c s
  let home := (s.conf n.conf).home
  let s1 := (s.addClassStream n.outStream n.own n.codec).updMix fun m => { m with
    classes := Tbl.set m.classes c.h n, params := Tbl.del m.params (entryKey home n.entry) }
  { st := s1.directEntry home n.entry (classWords none false (c.f 4 31 16) (c.f 4 15 0) n.encTile n.conf ((s.freeOut n.encTile).getD 0)) }
/-- MIX_CLASS_CREATE (R129, R143). -/
def execMixClassCreate (c : Cmd) (s : State) : Res := .next (runCmd mixClassCreateSpec mixClassCreateCheck mixClassCreateApply c s)

/-- A named class as a target. -/
def classTarget (c : Cmd) (s : State) (i : Nat) : Nat :=
  firstCode [
    rejectIf (decide (16383 < i)) BAD_PARAM,
    target c s.mix.classes (·.own) i,
    rejectIf (s.cls i).self.isSome BAD_PARAM]

/-- Does MIX_CLASS_MODIFY ask for another codec? -/
def codecChange (c : Cmd) (s : State) : Bool :=
  let x := s.cls c.h
  (c.w 2 != 0 && (c.f 2 26 24 != x.codec || ptimeOf (c.f 2 23 22) != x.ptime || c.f 2 21 20 != x.bw || c.b 2 19 != x.fec
    || c.b 2 18 != x.dtx || c.f 2 17 14 != x.cplx)) || (c.w 7 != 0 && c.f 7 18 0 != x.bitrate)

/-- MIX_CLASS_MODIFY. -/
def mixClassModifySpec : CmdSpec := { op := 0x0404, used := [(5, 0xFF), (12, 0xC00001FF)] }
def classModifyFails (c : Cmd) (s : State) : Nat :=
  let x := s.cls c.h
  firstCode [
    rejectIf (rampBad (c.f 4 15 0) || applyBad c) BAD_PARAM,
    classTarget c s c.h,
    chainFail c s (c.f 5 7 0),
    rejectIf (codecChange c s) BAD_STATE,
    rejectIf (decide (s.codecBudget x.encTile + s.chainCost x.chain < s.tileLoad x.encTile + s.chainCost (c.f 5 7 0))) NO_RESOURCE]
def mixClassModifyCheck (c : Cmd) (s : State) : Nat :=
  let x := s.cls c.h
  firstCode [classModifyFails c s, armFail s (applyWhen c s) (s.conf x.conf).home [x.entry]]
/-- A class's settings change at a point, and those of its derived classes. -/
def State.modifyClass (s : State) (c : Cmd) (w : When) : State :=
  let x := s.cls c.h
  let home := (s.conf x.conf).home
  let e := s.futureWords home x.entry
  let from' := if w.direct then s.mixFrame + b2n (s.sliceDone home) else w.frame + b2n (decide (0 < w.sample))
  let set (y : MixClass) : MixClass := { y with chain := (match y.chainAt with | some (ch, f) => if f ≤ s.mixFrame then ch else y.chain | none => y.chain), chainAt := some (c.f 5 7 0, from') }
  let s1 := (s.derivedOf c.h).foldl (fun s kv => s.updCls kv.1 set) (s.updCls c.h set)
  s1.changeEntry w home x.entry [nth e 0 0, putF (putF 0 31 16 (c.f 4 31 16)) 15 0 (c.f 4 15 0), nth e 0 2, nth e 0 3]
def mixClassModifyApply (c : Cmd) (s : State) : Reply := { st := s.modifyClass c (applyWhen c s) }
/-- MIX_CLASS_MODIFY (R138). -/
def execMixClassModify (c : Cmd) (s : State) : Res :=
  let t := s.advance c.el
  .next ((runCmd mixClassModifySpec mixClassModifyCheck mixClassModifyApply c s).lateOf t mixClassModifySpec mixClassModifyCheck c
    (t.conf (t.cls c.h).conf).home)

/-- MIX_CLASS_DESTROY. -/
def mixClassDestroySpec : CmdSpec := { op := 0x0405 }
def mixClassDestroyCheck (c : Cmd) (s : State) : Nat := classTarget c s c.h
def mixClassDestroyApply (c : Cmd) (s : State) : Reply := { st := s.destroyClass c.h }
/-- MIX_CLASS_DESTROY (R58, R128). -/
def execMixClassDestroy (c : Cmd) (s : State) : Res :=
  .next (runCmd mixClassDestroySpec mixClassDestroyCheck mixClassDestroyApply c s)

/-! ### Legs of classes -/

/-- A flow queue that a command names: one of another tenant is refused, an unconfigured one is not (R84). -/
def queueNamed (c : Cmd) (s : State) (q : Nat) : Nat :=
  match Tbl.find s.net.flowqs q with
  | some f => rejectIf (f.own.tenant != c.tenant) NOT_OWNER
  | none => 0

/-- A key slot that a command names for a leg that is an SRTP leg (R296). -/
def slotNamed (c : Cmd) (s : State) (srtp : Bool) (k : Nat) : Nat := if srtp then slotFail c s k else 0

/-- `SELF_SRC`: 0xFFFF means none. -/
def selfOf (c : Cmd) : Option Nat := if c.f 4 15 0 = 0xFFFF then none else some (c.f 4 15 0)

/-- Is the sub_id joined to a class already? -/
def State.joined (s : State) (i : Nat) : Bool := match Tbl.find s.net.subs i with | some x => x.pt.isSome | none => false

/-- MIX_LEG_JOIN. -/
def mixLegJoinSpec : CmdSpec := {
    op := 0x0406
    used := [(2, 0xFFFF), (3, 0xFFFF), (4, 0xFFFF), (5, 0x1FFFF), (6, 0xFFFF), (8, 0xFFFF007F), (12, 0xC0000000)] }
def mixLegJoinCheck (c : Cmd) (s : State) : Nat :=
  let move := s.joined c.h
  let l := s.leg (c.f 2 15 0)
  let k := s.cls (c.f 3 15 0)
  firstCode [
    rejectIf (decide (131071 < c.h) || decide (16383 < c.f 2 15 0) || decide (16383 < c.f 3 15 0) || applyBad c
      || (decide (20479 < c.f 4 15 0) && c.f 4 15 0 != 0xFFFF) || (!move && decide (49151 < c.f 6 15 0))) BAD_PARAM,
    rejectIf (!Tbl.has s.net.legs (c.f 2 15 0)) BAD_STATE,
    (match selfOf c with | some q => rejectIf (!Tbl.has s.mix.sources q) BAD_STATE | none => 0),
    (if move then (match Tbl.find s.net.subs c.h with | some x => rejectIf (ownFail c x.own == NOT_OWNER) NOT_OWNER | none => 0) else 0),
    rejectIf (ownFail c l.own == NOT_OWNER) NOT_OWNER,
    (if move then 0 else firstCode [slotNamed c s l.srtp (c.f 5 16 0), queueNamed c s (c.f 6 15 0)]),
    rejectIf (!Tbl.has s.mix.classes (c.f 3 15 0) || k.self.isSome || k.conf != l.conf) BAD_PARAM,
    (match selfOf c with | some q => rejectIf ((s.source q).conf != l.conf) BAD_PARAM | none => 0),
    rejectIf (l.own.dying || k.own.dying) BAD_STATE,
    rejectIf (move && ((s.sub c.h).own.dying || (s.sub c.h).rxLeg != c.f 2 15 0 || (s.sub c.h).st == .srcGone || !Tbl.has s.mix.joins c.h)) BAD_STATE,
    rejectIf (!move && Tbl.has s.net.subs c.h) SUB_IN_USE,
    rejectIf (!move && decide (16384 ≤ (s.net.subs.filter fun kv => kv.2.src == k.outStream).length)) NO_RESOURCE]
def mixLegJoinApply (c : Cmd) (s : State) : Reply :=
  let cl := c.f 3 15 0
  if s.joined c.h then
    let w := applyWhen c s
    let f := if w.direct then s.mixFrame else w.frame
    { st := s.updMix fun m => { m with joins := Tbl.upd m.joins c.h fun j => { j with move := some (cl, selfOf c, f) } } }
  else
    -- while its own source is a member, the leg receives the derived class, forked where there is none (R130)
    let had := s.mix.classes
    let (s, d) := match selfOf c with
      | some q => if s.isMember (s.cls cl).conf q then s.derived (s.cls cl).conf cl q else (s, none)
      | none => (s, none)
    let cur := d.getD cl
    let st := (s.cls cur).outStream
    let x : Sub := {
      own := newOwn c s, st := .joinWait, src := st, pt := some (c.f 8 6 0), rxLeg := c.f 2 15 0, encSlot := c.f 5 16 0
      outQ := c.f 6 15 0, outSsrc := c.w 7, tsOff := c.w 9, lastOut := dist 16 (c.f 8 31 16) 1, member := st }
    let s1 := (s.setSub c.h x).updMix fun m => { m with joins := Tbl.set m.joins c.h { cls := cl, self := selfOf c, cur } }
    { st := if d.isSome && !Tbl.has had cur then s1.noteFork cur c.h true else s1 }
/-- MIX_LEG_JOIN (R128, R130, R133). -/
def execMixLegJoin (c : Cmd) (s : State) : Res := .next (runCmd mixLegJoinSpec mixLegJoinCheck mixLegJoinApply c s)

/-- An output context ends (R58): IDLE has no record. -/
def State.dropSub (s : State) (i : Nat) : State :=
  (s.updNet fun n => { n with subs := Tbl.del n.subs i }).updMix fun m => { m with joins := Tbl.del m.joins i }

/-- An output context as a target. -/
def subTarget (c : Cmd) (s : State) (i : Nat) : Nat := if 131071 < i then BAD_PARAM else target c s.net.subs (·.own) i

/-- MIX_LEG_LEAVE. -/
def mixLegLeaveSpec : CmdSpec := { op := 0x0407 }
def mixLegLeaveCheck (c : Cmd) (s : State) : Nat := firstCode [subTarget c s c.h, rejectIf (!s.joined c.h) BAD_STATE]
def mixLegLeaveApply (c : Cmd) (s : State) : Reply := { st := s.dropSub c.h }
/-- MIX_LEG_LEAVE (R128). -/
def execMixLegLeave (c : Cmd) (s : State) : Res := .next (runCmd mixLegLeaveSpec mixLegLeaveCheck mixLegLeaveApply c s)

/-! ### Batches, taps and queries -/

/-- The messages of a batch: each one's opcode, and the message with the batch's timing. -/
def batchMsgs (c : Cmd) : List (Nat × Cmd) :=
  (List.range (c.f 4 11 0)).map fun i =>
    let ws := (List.range 16).map fun j => nth c.host 0 (16 * i + j)
    (fld (nth ws 0 0) 31 16, { c with
      handle := nth ws 0 1
      pay := (ws.drop 2).take 10 ++ [BitVec.ofNat 32 (c.w 12), BitVec.ofNat 32 (c.w 13), BitVec.ofNat 32 (c.w 14), nth ws 0 15] })

/-- The entry that a message of a batch changes: slice and index. -/
def batchEntry (s : State) (m : Nat × Cmd) : Nat × Nat :=
  if m.1 = 0x0401 then ((s.source m.2.h).tile, (s.source m.2.h).route)
  else ((s.conf (s.cls m.2.h).conf).home, (s.cls m.2.h).entry)

/-- The entries of a batch on each slice. -/
def batchSlices (c : Cmd) (s : State) : List (Nat × List Nat) :=
  let es := ((batchMsgs c).map (batchEntry s)).eraseDups
  (List.range 16).map fun n => (n, (es.filter fun e => e.1 == n).map (·.2))

/-- The point of a batch: AUTO takes direct writes where the set does not fit the shadow (R138). -/
def batchWhen (c : Cmd) (s : State) : When :=
  let fits := (batchSlices c s).all fun e => decide (e.2.length ≤ 1024)
  if c.f 5 31 30 = 2 ∨ (c.f 5 31 30 = 1 ∧ fits = false) then { direct := true } else applyWhen c s

/-- MIX_BATCH. -/
def mixBatchSpec : CmdSpec := {
    op := 0x0408, dma := true, minor := 2
    used := [(4, 0xFFF), (5, 0xC0000000), (12, 0xC00001FF)] }
def mixBatchCheck (c : Cmd) (s : State) : Nat :=
  let mode := c.f 5 31 30
  let w := batchWhen c s
  firstCode ([
    rejectIf (mode == 3 || applyBad c) BAD_PARAM] ++
    if !c.dmaOk then [] else
    (batchMsgs c).map (fun m =>
      if m.1 = 0x0401 then firstCode [rejectIf (mixSourceModifySpec.rsvSet m.2) BAD_PARAM, sourceModifyFails m.2 s]
      else if m.1 = 0x0404 then firstCode [rejectIf (mixClassModifySpec.rsvSet m.2) BAD_PARAM, classModifyFails m.2 s] else BAD_PARAM) ++ [
    rejectIf (mode == 0 && (batchSlices c s).any fun e => decide (1024 < e.2.length)) SHADOW_FULL] ++
    (batchSlices c s).map fun e => if e.2.isEmpty then 0 else armFail s w e.1 e.2)
def mixBatchApply (c : Cmd) (s : State) : Reply :=
  let w := batchWhen c s
  { st := (batchMsgs c).foldl (fun s m => if m.1 = 0x0401 then s.modifySource m.2 w else s.modifyClass m.2 w) s }
/-- MIX_BATCH (R138). -/
def execMixBatch (c : Cmd) (s : State) : Res :=
  let t := s.advance c.el
  let w := batchWhen c t
  let slice := match (batchSlices c t).find? fun e => !e.2.isEmpty && !t.pointAhead e.1 w.frame w.sample with | some e => e.1 | none => 0
  .next ((runCmd mixBatchSpec mixBatchCheck mixBatchApply c s).lateOf t mixBatchSpec mixBatchCheck c slice)

/-- MIX_TAP_SET. -/
def mixTapSetSpec : CmdSpec := { op := 0x0409, used := [(2, 0xC000FFFF), (3, 0xFFFF)] }
def mixTapSetCheck (c : Cmd) (s : State) : Nat :=
  let kind := c.f 2 31 30
  let id := c.f 2 15 0
  let own := match kind with
    | 0 => target c s.mix.sources (·.own) id
    | 1 => (match Tbl.find s.mix.confs id with | none => BAD_STATE | some x => if x.orphan then BAD_STATE else ownFail c x.own)
    | 2 => target c s.mix.classes (·.own) id
    | _ => 0
  let conf := match kind with | 0 => (s.source id).conf | 1 => id | _ => (s.cls id).conf
  firstCode [
    rejectIf (decide (63 < c.h) || (kind == 0 && decide (20479 < id)) || (kind == 1 && decide (2047 < id)) || (kind == 2 && decide (16383 < id))
      || (kind != 3 && decide (c.f 3 15 0 < 61440))) BAD_PARAM,
    (match Tbl.find s.mix.taps (64 * c.tenant + c.h) with | some t => ownFail c t.own | none => 0),
    own,
    rejectIf (kind != 3 && (s.conf conf).orphan) BAD_STATE,
    (if kind = 3 then 0 else ringFail c s (c.f 3 15 0) 3)]
def mixTapSetApply (c : Cmd) (s : State) : Reply :=
  let k := 64 * c.tenant + c.h
  let t : Tap := { own := newOwn c s, kind := c.f 2 31 30, ident := c.f 2 15 0, ring := c.f 3 15 0 }
  { st := s.updMix fun m => { m with taps := if c.f 2 31 30 = 3 then Tbl.del m.taps k else Tbl.set m.taps k t } }
/-- MIX_TAP_SET (R142). -/
def execMixTapSet (c : Cmd) (s : State) : Res := .next (runCmd mixTapSetSpec mixTapSetCheck mixTapSetApply c s)

/-- MIX_QUERY. -/
def mixQuerySpec : CmdSpec := { op := 0x040A, dma := true, used := [(4, 0x1)] }
def mixQueryCheck (c : Cmd) (s : State) : Nat :=
  if c.b 4 0 then (if 16383 < c.h then BAD_PARAM else target c s.mix.classes (·.own) c.h)
  else if 20479 < c.h then BAD_PARAM else target c s.mix.sources (·.own) c.h
def mixQueryApply (c : Cmd) (s : State) : Reply :=
  let tail (m : MeterSt) : List Nat := [wrapN m.peakDb 16 * 65536 + wrapN m.rmsDb 16, wrapN m.hold 16]
  let taps (k : Nat) : List Nat := (s.mix.taps.filter fun t => t.2.kind == k && t.2.ident == c.h).flatMap fun t => [t.1, t.2.lost]
  if c.b 4 0 then
    let x := s.cls c.h
    queryReply c s ([x.conf, x.encTile, x.codec, x.ptime, x.bitrate, x.chain, x.outStream, b2n x.encoded]
      ++ ((s.entry (s.conf x.conf).home x.entry).words.map BitVec.toNat) ++ tail x.meter ++ taps 2)
  else
    let x := s.source c.h
    queryReply c s ([x.kind, x.conf, x.from', x.tile, x.route, x.jbMin, x.jbMax, x.jbDelay, b2n (s.contributes c.h), b2n x.good, x.absent]
      ++ ((s.routeOf c.h).words.map BitVec.toNat) ++ tail x.meter ++ taps 0)
/-- MIX_QUERY (R145). -/
def execMixQuery (c : Cmd) (s : State) : Res := .next (runCmd mixQuerySpec mixQueryCheck mixQueryApply c s)

end Sys2Proof.Machine
end

