-- ==== Sys2Proof/Machine/Pool.lean ====
section
/-! DEFINITION. The reference pool: regions, marks, generations, pictures in memory, display slots (R150 to R157). -/

namespace Sys2Proof.Machine

def State.updVideo (s : State) (f : Video → Video) : State := { s with video := f s.video }
def State.updPool (s : State) (f : Pool → Pool) : State := s.updVideo fun v => { v with pool := f v.pool }
/-- The pool entry of a buffer. -/
def State.ent (s : State) (b : Nat) : PoolEnt := Tbl.get s.video.pool.ents {} b
def State.setEnt (s : State) (b : Nat) (e : PoolEnt) : State := s.updPool fun p => { p with ents := Tbl.set p.ents b e }

/-- The marks (R153). -/
abbrev M_DEC_REF : Nat := 0
abbrev M_DISP : Nat := 1
abbrev M_COMP : Nat := 2
abbrev M_ENC_REF : Nat := 3
abbrev M_ANALYSIS : Nat := 4
abbrev M_LAYER : Nat := 5
abbrev M_HOST : Nat := 6
abbrev M_HOLD : Nat := 7

/-- The result codes of `POOL_OP_RES`. -/
abbrev P_STALE : Nat := 1
abbrev P_FREE : Nat := 2
abbrev P_LIMIT : Nat := 3
abbrev P_NO_REGION : Nat := 4

/-- The empty display slot's handle (R157). -/
abbrev NO_FBH : Nat := 0xFFFFF

/-! ### Regions (R151, R152) -/

def State.rgnUnits (s : State) (r : Nat) : Nat := s.rf .POOL_RGN_CFG r 31 22
def State.rgnCount (s : State) (r : Nat) : Nat := if s.rgnUnits r = 0 then 0 else s.rf .POOL_RGN_CFG r 19 0
def State.rgnFirst (s : State) (r : Nat) : Nat := s.rf .POOL_RGN_FIRST r 19 0
def State.rgnBytes (s : State) (r : Nat) : Nat := s.rgnUnits r * 65536
def State.region (s : State) (r : Nat) : Region := Tbl.get s.video.pool.regions {} r

/-- The region that owns a handle. -/
def State.regionOf (s : State) (b : Nat) : Option Nat :=
  (List.range 16).find? fun r => decide (s.rgnFirst r ≤ b) && decide (b < s.rgnFirst r + s.rgnCount r)

/-- The bridge address of a buffer. -/
def State.bufAddr (s : State) (b : Nat) : Nat :=
  match s.regionOf b with
  | some r => s.rf .POOL_RGN_BASE r 18 0 * 2 ^ 21 + (b - s.rgnFirst r) * s.rgnBytes r
  | none => 0

/-- Free buffers of a region, as `POOL_RGN_FREE` reads. -/
def State.rgnFree (s : State) (r : Nat) : Nat := s.rgnCount r - (s.region r).fresh + (s.region r).freed.length

/-- Bytes of a frame buffer (R151). -/
def frameBytes (w h : Nat) (p010 : Bool) : Nat :=
  (cdiv w 64 * cdiv h 64 + cdiv w 64 * cdiv h 128) * (if p010 then 8192 else 4096)

def State.poolOn (s : State) : Bool := s.rb .POOL_CTRL 0 31

/-- Allocate a buffer of a region: the head of its free list, `BUSY` set (R152, R163). -/
def State.poolAlloc (s : State) (r : Nat) : Option (Buf × State) :=
  let g := s.region r
  if s.poolOn = false then none
  else
    let take (b : Nat) (g : Region) : Buf × State :=
      let e : PoolEnt := { gen := (s.ent b).gen, busy := true, region := r }
      (⟨b, e.gen⟩, (s.setEnt b e).updPool fun p => { p with regions := Tbl.set p.regions r g })
    if g.fresh < s.rgnCount r then some (take (s.rgnFirst r + g.fresh) { g with fresh := g.fresh + 1 })
    else match g.freed with
      | b :: l => some (take b { g with freed := l })
      | [] => none

/-! ### Marks (R153 to R155) -/

/-- `MARKS` as they read: the counted marks are their counts. -/
def PoolEnt.bits (e : PoolEnt) : BitVec 8 :=
  (e.marks &&& 0xBB) ||| (if e.comp = 0 then 0 else 4) ||| (if e.host = 0 then 0 else 64)

/-- Free: no mark and not `BUSY`. -/
def PoolEnt.free (e : PoolEnt) : Bool := e.bits == 0 && !e.busy

/-- Word 0 of the pool entry. -/
def PoolEnt.word0 (e : PoolEnt) : Word :=
  putF (putB (putF (putF (putF 0 31 26 e.comp) 25 22 e.host) 21 18 e.gen) 8 e.busy) 7 0 e.bits.toNat

/-- Is the mark set? -/
def PoolEnt.has (e : PoolEnt) (m : Nat) : Bool := e.bits.toNat.testBit m

/-- The entry with the mark set, or its count incremented. -/
def PoolEnt.add (e : PoolEnt) (m : Nat) : PoolEnt :=
  if m = M_COMP then { e with comp := e.comp + 1 }
  else if m = M_HOST then { e with host := e.host + 1 }
  else { e with marks := e.marks ||| BitVec.ofNat 8 (2 ^ m) }

/-- The entry with the mark cleared, or its count decremented. -/
def PoolEnt.sub (e : PoolEnt) (m : Nat) : PoolEnt :=
  if m = M_COMP then { e with comp := e.comp - 1 }
  else if m = M_HOST then { e with host := e.host - 1 }
  else { e with marks := e.marks &&& ~~~ BitVec.ofNat 8 (2 ^ m) }

/-- Is a counted mark at its maximum? -/
def PoolEnt.atLimit (e : PoolEnt) (m : Nat) : Bool := (m == M_COMP && decide (63 ≤ e.comp)) || (m == M_HOST && decide (15 ≤ e.host))

/-- A buffer's entry changes; in becoming free its generation rises and it joins the tail of its region's free list
(R155). -/
def State.settle (s : State) (b : Nat) (e : PoolEnt) : State :=
  if e.free && !(s.ent b).free then
    (s.setEnt b { e with gen := (e.gen + 1) % 16 }).updPool fun p =>
      { p with regions := Tbl.updD p.regions {} ((s.regionOf b).getD e.region) fun g => { g with freed := g.freed ++ [b] } }
  else s.setEnt b e

/-- SET (R154): the result code and the state. -/
def State.markSet (s : State) (b : Buf) (m : Nat) : Nat × State :=
  let e := s.ent b.fbh
  if s.poolOn = false ∨ s.regionOf b.fbh = none then (P_NO_REGION, s)
  else if b.gen ≠ e.gen then (P_STALE, s)
  else if e.free then (P_FREE, s)
  else if e.atLimit m then (P_LIMIT, s)
  else (0, s.setEnt b.fbh (e.add m))

/-- CLEAR (R154). -/
def State.markClear (s : State) (b : Buf) (m : Nat) : Nat × State :=
  let e := s.ent b.fbh
  if s.poolOn = false ∨ s.regionOf b.fbh = none then (P_NO_REGION, s)
  else if b.gen ≠ e.gen then (P_STALE, s)
  else if e.has m = false then (0, s.updPool fun p => { p with underflow := p.underflow + 1 })
  else (0, s.settle b.fbh (e.sub m))

/-- A block clears a mark that it holds. -/
def State.unmark (s : State) (b : Buf) (m : Nat) : State := (s.markClear b m).2

/-- A block sets a mark. -/
def State.mark (s : State) (b : Buf) (m : Nat) : State := (s.markSet b m).2

/-- A buffer being written is complete: `BUSY` clears, and at the same moment marks are set and the entry's words take
what is known of the picture (R163). A buffer that takes no mark is free. -/
def State.poolDone (s : State) (b : Buf) (marks : List Nat) (f : PoolEnt → PoolEnt) : State :=
  let e := f (s.ent b.fbh)
  s.settle b.fbh ((marks.foldl PoolEnt.add e) |> fun e => { e with busy := false })

/-- A buffer being written is given up. -/
def State.poolDrop (s : State) (b : Buf) : State := s.poolDone b [] id

/-! ### Pictures in memory (R150, R151) -/

/-- The planes: luma, Cb, Cr. -/
inductive Plane where
  | y | cb | cr
  deriving DecidableEq, Repr

/-- The address of a sample of a picture at `base`, in bytes from it. -/
def sampleOff (w h : Nat) (p010 : Bool) (p : Plane) (x y : Nat) : Nat :=
  let k := if p010 then 2 else 1
  let wt := cdiv w 64
  match p with
  | .y => k * ((y / 64 * wt + x / 64) * 4096 + y % 64 * 64 + x % 64)
  | .cb => k * ((wt * cdiv h 64 + y / 64 * wt + x / 32) * 4096 + y % 64 * 64 + x % 32 * 2)
  | .cr => k * ((wt * cdiv h 64 + y / 64 * wt + x / 32) * 4096 + y % 64 * 64 + x % 32 * 2 + 1)

/-- A stored sample: 8 bits, or the 10 sample bits of a P010 word. -/
def storedSample (m : List Host.Cell) (base w h : Nat) (p010 : Bool) (p : Plane) (x y : Nat) : Nat :=
  let a := base + sampleOff w h p010 p x y
  if p010 then leNat (Mem.read m a 2) / 64 else (Mem.get m a).toNat

/-- A sample brought to a depth (R150). -/
def toDepth (src dst : Bool) (v : Nat) : Nat :=
  match src, dst with
  | false, true => v * 4
  | true, false => min 255 ((v + 2) / 4)
  | _, _ => v

/-- The bytes of a picture whose sample of each plane at each place is `f`; the padding repeats the last column and row of
its plane (R151). -/
def pictureBytes (w h : Nat) (p010 : Bool) (f : Plane → Nat → Nat → Nat) : List Byte :=
  let put (v : Nat) : List Byte := if p010 then toLe 2 (v * 64) else [BitVec.ofNat 8 v]
  let wt := cdiv w 64
  let cw := cdiv w 2
  let ch := cdiv h 2
  ((List.range (wt * cdiv h 64)).flatMap fun t => (List.range 4096).flatMap fun i =>
      put (f .y (min (t % wt * 64 + i % 64) (w - 1)) (min (t / wt * 64 + i / 64) (h - 1))))
    ++ ((List.range (wt * cdiv h 128)).flatMap fun t => (List.range 4096).flatMap fun i =>
      put (f (if i % 2 = 0 then .cb else .cr) (min (t % wt * 32 + i % 64 / 2) (cw - 1)) (min (t / wt * 64 + i / 64) (ch - 1))))

/-- Mid-grey (R150). -/
def greyOf (p010 : Bool) : Nat := if p010 then 512 else 128

/-- A buffer filled with mid-grey. -/
def State.greyFill (s : State) (b : Buf) (w h : Nat) (p010 : Bool) : State :=
  s.memWrite (s.bufAddr b.fbh) (pictureBytes w h p010 fun _ _ _ => greyOf p010)

/-- A sample that the spec does not state, of 8 or 10 bits: of the data numbered `c`, by plane and place. -/
def freeSample (c : Nat) (deep : Bool) (p : Plane) (x y : Nat) : Nat :=
  let i := 2 * (((match p with | .y => 0 | .cb => 1 | .cr => 2) * 65536 + y) * 65536 + x)
  let v := (Config.freeByte c i).toNat
  if deep then 4 * v + (Config.freeByte c (i + 1)).toNat % 4 else v

/-- A decoded picture: free samples at the coded depth, in the buffer's format (R150), a picture without chroma with both chroma
planes at mid-grey (R148). -/
def State.decodedFill (s : State) (b : Buf) (w h : Nat) (p010 deep mono : Bool) : State :=
  { s.memWrite (s.bufAddr b.fbh) (pictureBytes w h p010 fun p x y =>
      if mono && p != .y then greyOf p010 else toDepth deep p010 (freeSample s.freeCtr deep p x y)) with
    freeCtr := s.freeCtr + 1 }

/-! ### Display slots (R156, R157) -/

/-- Publish: `DISP` on the new buffer, the slot takes it, `DISP` leaves the old buffer. -/
def State.publish (s : State) (old new : Slot) : State :=
  let s1 := match new.buf with
    | some b => s.mark b M_DISP
    | none => s
  match old.buf with
  | some b => if old.buf = new.buf then s1 else s1.unmark b M_DISP
  | none => s1

/-- Acquire: the slot's buffer with one holder of `COMP` more; none when the slot is empty or its buffer has 63. -/
def State.acquire (s : State) (x : Slot) : Option Buf × State :=
  match x.buf with
  | none => (none, s)
  | some b => match s.markSet b M_COMP with
    | (0, s1) => (some b, s1)
    | (_, _) => (none, s)

/-! ### `POOL_OP` (R154, R172) -/

/-- The display slot of a decode context. -/
def State.slotOf (s : State) (dec : Nat) : Slot := (Tbl.get s.video.decs {} dec).disp

/-- The result word of an operation; what the spec gives no value is a free value. -/
def State.opRes (s : State) (core code gen : Nat) (v : Option Nat) : State :=
  let (w, s1) := match v with
    | some v => (v, s)
    | none => (s.freeWord.1.toNat, s.freeWord.2)
  s1.updPool fun p => { p with res := Tbl.set p.res core (putF (putF (putF 0 31 29 code) 23 20 gen) 19 0 w) }

/-- A write of `POOL_OP` by a control core, whose operation is `op`. -/
def State.poolOp (s : State) (core op : Nat) (v : Word) : State :=
  let b := fld v 19 0
  let m := fld v 28 26
  let h : Buf := ⟨b, fld v 23 20⟩
  match op with
  | 0 => let (r, s1) := s.markSet h m; s1.opRes core r (s1.ent b).gen none
  | 1 => let (r, s1) := s.markClear h m; s1.opRes core r (s1.ent b).gen none
  | 2 =>
    if s.poolOn = false ∨ s.regionOf b = none then s.opRes core P_NO_REGION (s.ent b).gen none
    else
      let e := s.ent b
      s.opRes core 0 e.gen (some (e.comp % 64 * 2 ^ 14 + e.host % 16 * 2 ^ 10 + fld e.word0 8 0))
  | 3 =>
    let f := match (s.slotOf (b % 4096)).buf with | some x => x.fbh | none => NO_FBH
    if s.poolOn = false then s.opRes core P_NO_REGION (s.ent f).gen none else s.opRes core 0 (s.ent f).gen (some f)
  | _ => s

/-- An operation of a control core. -/
def poolRes (core : Fin 4) (op : Nat) (v : Word) (s : State) : Res := .next { s.poolOp core.val op v with bus := .ok 0 }

/-- POOL_SET (R154). -/
def execPoolSet (core : Fin 4) (v : Word) (s : State) : Res := poolRes core 0 v s
/-- POOL_CLEAR (R154, R155). -/
def execPoolClear (core : Fin 4) (v : Word) (s : State) : Res := poolRes core 1 v s
/-- POOL_QUERY (R154). -/
def execPoolQuery (core : Fin 4) (v : Word) (s : State) : Res := poolRes core 2 v s
/-- SLOT_QUERY (R154, R157). -/
def execSlotQuery (core : Fin 4) (v : Word) (s : State) : Res := poolRes core 3 v s

end Sys2Proof.Machine
end

