-- ==== Sys2Proof/Machine/VideoDec.lean ====
section
/-! DEFINITION. The decode pipes: requests, units, missing references, concealment, recovery (R158 to R171). -/

namespace Sys2Proof.Machine

def State.eng (s : State) (pe : Nat) : DecEng := Tbl.get s.video.eng {} pe
def State.updEng (s : State) (pe : Nat) (f : DecEng → DecEng) : State :=
  s.updVideo fun v => { v with eng := Tbl.updD v.eng {} pe f }
def State.dec (s : State) (i : Nat) : DecCtx := Tbl.get s.video.decs {} i
def State.updDec (s : State) (i : Nat) (f : DecCtx → DecCtx) : State :=
  s.updVideo fun v => { v with decs := Tbl.upd v.decs i f }

/-- A counter of an engine and of a context (R172): 0 PICTURES, 1 CONCEALED, 2 SUBSTITUTIONS, 3 BITSTREAM_ERRORS,
4 NO_BUFFER, 5 REQ_REJECT, 6 SKIPPED, 7 OUT_OF_LIMITS. -/
def State.cntDec (s : State) (pe dec k : Nat) (n : Nat := 1) : State :=
  (s.bump .PICT_DEC_CNT_LO (8 * pe + k) n).updDec dec fun d => { d with cnt := Tbl.updD d.cnt 0 k (· + n) }

/-- The request and completion FIFOs of an engine. -/
def reqId (pe : Nat) : FifoId := .decReq (Fin.ofNat 8 pe)
def doneId (pe : Nat) : FifoId := .decDone (Fin.ofNat 8 pe)

/-! ### Request ports (R160, R161) -/

def State.updReqPort (s : State) (pe core : Nat) (f : ReqPort → ReqPort) : State :=
  s.updEng pe fun e => { e with ports := Tbl.updD e.ports {} core f }

/-- `REQ_RES` as it reads. -/
def ReqPort.word (p : ReqPort) : Word := putF (putF 0 13 8 p.staged.length) 2 0 p.res

/-- A kernel's access at an offset of a request port: its core runs an item, and the engine answers; else the kernel faults
(R22, R27). -/
def State.reqAccess (s : State) (pe core off : Nat) (f : State → State) : State :=
  if !(s.core core).running || !s.pdOn (18 + pe) then
    State.kernelErr { s with bus := .busError } (.kernel (Fin.ofNat 512 core)) (0x2003008000 + pe * 0x100000 + core * 0x40 + off)
  else { f s with bus := .ok 0 }

/-- REQ_APPEND (R161): the write of `REQ_W7` stages an item; a 34th is not staged. -/
def execReqAppend (pe : Fin 8) (core : Fin 512) (words : List Word) (s : State) : Res :=
  .next (s.reqAccess pe.val core.val 0x1C fun s => s.updReqPort pe.val core.val fun p =>
    if 33 ≤ p.staged.length then { p with res := 2 }
    else { p with staged := p.staged ++ [(List.range 8).map fun i => nth words 0 i], res := 0 })

/-- The segments of a request's items 1 onward: address and length. -/
def reqSegs (n : Nat) (items : List (List Word)) : List (Nat × Nat) :=
  let seg (l : List Word) (k : Nat) : Nat × Nat := ((nth l 0 k).toNat + 2 ^ 32 * fld (nth l 0 (k + 1)) 7 0, (nth l 0 (k + 2)).toNat)
  (items.flatMap fun l => [seg l 0, seg l 4]).take n

/-- Does a segment in HBM lie outside the tenant's windows (R346)? -/
def State.segBad (s : State) (t : Nat) (g : Nat × Nat) : Bool := inHbm g.1 && g.2 != 0 && !s.windowOk t false g.1 g.2

/-- Does the engine refuse a request under R160 or R346? -/
def State.reqRefused (s : State) (pe core : Nat) (head : List Word) (segs : List (List Word)) : Bool :=
  match Tbl.find s.video.decs (fld (nth head 0 0) 11 0) with
  | none => true
  | some d => d.pe != pe || d.own.dying || d.own.tenant != (s.core core).tenant
      || fld (nth head 0 3) 7 0 == 0 || decide (64 < fld (nth head 0 3) 7 0)
      || (reqSegs (fld (nth head 0 3) 7 0) segs).any (s.segBad (s.core core).tenant)

/-- The staged items committed as one request. -/
def State.reqCommit (s : State) (pe core : Nat) : State :=
  let p := Tbl.get (s.eng pe).ports {} core
  match p.staged with
  | [] => (s.bump .PICT_DEC_CNT_LO (8 * pe + 5)).updReqPort pe core fun p => { p with res := 3 }
  | head :: segs =>
    let dec := fld (nth head 0 0) 11 0
    if s.reqRefused pe core head segs then
      let s1 := if (s.dec dec).pe = pe then s.cntDec pe dec 5 else s.bump .PICT_DEC_CNT_LO (8 * pe + 5)
      s1.updReqPort pe core fun p => { p with staged := [], res := 3 }
    else
      let f := s.fifo (reqId pe)
      if f.accepts false p.staged.length true then
        let s1 := s.setFifo (reqId pe) (f.publish false p.staged true)
        (s1.updReqPort pe core fun p => { p with staged := [], res := 0 }).updEng pe fun e =>
          { e with reqs := e.reqs ++ [{ dec, items := p.staged.length, head }] }
      else s.updReqPort pe core fun p => { p with res := 1 }

/-- REQ_COMMIT (R161): `REQ_COMMIT` bit 0. -/
def execReqCommit (pe : Fin 8) (core : Fin 512) (s : State) : Res :=
  .next (s.reqAccess pe.val core.val 0x20 fun s => s.reqCommit pe.val core.val)

/-- REQ_DISCARD (R161): `REQ_COMMIT` bit 1. -/
def execReqDiscard (pe : Fin 8) (core : Fin 512) (s : State) : Res :=
  .next (s.reqAccess pe.val core.val 0x20 fun s => s.updReqPort pe.val core.val fun p => { p with staged := [] })

/-- Items still staged when the core's work item ends are discarded (R161). -/
def State.dropStaged (s : State) (core : Nat) : State :=
  s.updVideo fun v => { v with eng := Tbl.mapv v.eng fun _ e => { e with ports := Tbl.mapv e.ports fun k p => if k = core then { p with staged := [] } else p } }

/-! ### Taking a request (R162) -/

/-- The oldest request of the context that R29 picks. -/
def DecEng.next (e : DecEng) : Option DecReq :=
  let l := e.reqs.filter fun r => !r.taken
  match (l.map fun r => (r.dec + 4096 - e.ptr) % 4096).min? with
  | some d => l.find? fun r => (r.dec + 4096 - e.ptr) % 4096 == d
  | none => none

/-- Mark the first waiting request of a context as taken. -/
def takeFirst (dec : Nat) : List DecReq → List DecReq
  | [] => []
  | r :: l => if r.dec = dec && !r.taken then { r with taken := true } :: l else r :: takeFirst dec l

/-- Requests taken leave the request FIFO as its head reaches them. -/
def State.sweepReqs (s : State) (pe : Nat) : State :=
  let e := s.eng pe
  let l := e.reqs.takeWhile (·.taken)
  let n := sumN (l.map (·.items))
  if n = 0 then s
  else (s.setFifo (reqId pe) ((s.fifo (reqId pe)).consume n)).updEng pe fun e => { e with reqs := e.reqs.drop l.length }

/-- The request's header fields (R160). -/
def rqLost (h : List Word) : Nat := fld (nth h 0 0) 31 29
def rqS (h : List Word) : Nat := fld (nth h 0 0) 28 27
def rqT (h : List Word) : Nat := fld (nth h 0 0) 26 24
def rqRp (h : List Word) : Bool := bit (nth h 0 0) 23
def rqWd (h : List Word) : Bool := bit (nth h 0 0) 22
def rqConc (h : List Word) : Bool := bit (nth h 0 0) 21
def rqTs (h : List Word) : Nat := (nth h 0 1).toNat

/-- Completion statuses (R162). -/
abbrev D_DECODED : Nat := 0
abbrev D_CONCEALED : Nat := 1
abbrev D_RECOVERING : Nat := 2
abbrev D_SKIPPED : Nat := 3
abbrev D_BITSTREAM_ERROR : Nat := 4
abbrev D_NO_BUFFER : Nat := 5
abbrev D_OUT_OF_LIMITS : Nat := 6

/-- The completion item (R162), posted to firmware's FIFO. -/
def State.decDone (s : State) (pe dec status ts : Nat) (buf : Option Buf := none) (pub refresh : Bool := false) (cycles : Nat := 0) :
    State :=
  let b := buf.getD { fbh := NO_FBH }
  let it : List Word := [
    putF (putB (putB (putF 0 31 24 status) 23 pub) 22 refresh) 11 0 dec,
    putF (putF 0 23 20 b.gen) 19 0 b.fbh, BitVec.ofNat 32 ts, BitVec.ofNat 32 cycles, 0, 0, 0, 0]
  (s.setFifo (doneId pe) ((s.fifo (doneId pe)).publish false [it] true)).updEng pe fun e => { e with job := none }

/-! ### The state of a context (R168, R169) -/

/-- The context enters a state. -/
def State.decTo (s : State) (i : Nat) (st : DecSt) : State :=
  let d := s.dec i
  if d.st = st then s
  else
    let s1 := s.updDec i fun d => { d with
      st
      errSent := if d.st = .waitRp then false else d.errSent
      reported := if d.st = .concealed ∨ st = .clean then none else d.reported
      timer := if d.st = .concealed then none else d.timer
      conc := if st = .clean then [] else d.conc }
    if st = .clean ∧ (d.st = .concealed ∨ d.st = .recovering) then s1.notify d.own.fn 0x0681 i else s1

/-- On `REFRESH_REQ` firmware posts KEY_WANTED to the source leg's RTCP dispatch queue; for a device-originated stream it
starts an early refresh wave (R168, R55). The item names no subscription: that word is a free value. -/
def State.refreshReq (s : State) (i : Nat) : State :=
  let stream := (s.dec i).stream
  match Tbl.find s.net.streams stream with
  | none => s
  | some st =>
    if st.device then s.updNet fun n => { n with waveReq := n.waveReq ++ [stream] }
    else
      let (w, s1) := s.freeWord
      let q := 49152 + (s1.leg st.leg).rtcpDq
      s1.postHw q 0x210 (mkItem 0x12 false q st.leg [w.toNat, stream])

/-- A unit of layer `l` is lost (R165, R171): unanswered on every layer from it on, since the pictures decoded so far. The latest
loss counts, since what was refreshed before an earlier one was refreshed before it too. -/
def DecCtx.lose (d : DecCtx) (l : Nat) : DecCtx :=
  { d with lost := ((List.range 4).filter (l ≤ ·)).foldl (fun t x => Tbl.set t x d.seq) d.lost }

/-- The declared size of a layer. -/
def DecCtx.dims (d : DecCtx) (l : Nat) : Nat × Nat :=
  if l = 0 ∧ d.outS ≠ 0 then (dflt d.w0 d.maxW, dflt d.h0 d.maxH) else (d.maxW, d.maxH)

/-- The declared rate of a context at an operating point: samples per second over the layers decoded (R158). -/
def DecCtx.rate (d : DecCtx) : Nat :=
  d.fps * sumN ((List.range (d.outS + 1)).map fun l => (d.dims l).1 * (d.dims l).2)

/-- A picture of the context by layer and RTP timestamp, among those that it holds for reference. -/
def DecCtx.picOf (d : DecCtx) (l ts : Nat) : Option Pic :=
  ((d.slots.map (·.2)) ++ d.layers).find? fun p => p.s == l && p.ts == ts

/-- The reference that the picture meets; none when it is missing (R165) or cannot be read (R341). -/
def DecCtx.ref (d : DecCtx) (f : PicFacts) (l ts : Nat) : Option Pic :=
  match d.picOf l ts with
  | none => none
  | some p =>
    if p.broken || f.unread.contains (l, ts) then none
    else match Tbl.find d.lost l with
      | some k => if d.codec = 6 && !f.frameIds && decide (p.seq ≤ k) then none else some p
      | none => some p

/-- Pictures with `LAYER` that meet a condition lose it (R158). -/
def State.unlayer (s : State) (i : Nat) (p : Pic → Bool) : State :=
  let l := (s.dec i).layers
  (l.filter p).foldl (fun s x => s.unmark x.buf M_LAYER) (s.updDec i fun d => { d with layers := l.filter fun x => !p x })

/-! ### Starting a unit (R159, R163 to R171) -/

/-- Does the unit break R148, R149 or what the context declares (R166)? -/
def DecCtx.outOfLimits (d : DecCtx) (f : PicFacts) (l : Nat) : Bool :=
  !f.inLimits || decide (f.width < 16) || decide (f.height < 16) || decide ((d.dims l).1 < f.width) || decide ((d.dims l).2 < f.height)
    || decide (d.fps * 11 < d.tuTimes.length * 10)

/-- An operating point that lowers (R159). -/
def DecCtx.lower' (d : DecCtx) : DecCtx :=
  match d.want with
  | some (a, b) => if a < d.outS ∨ (a = d.outS ∧ b < d.outT) then { d with outS := a, outT := b, want := none } else d
  | none => d

/-- A new temporal unit: its time, the pictures that lose `LAYER`, and an operating point that lowers (R158, R159). -/
def State.newUnit (s : State) (i ts : Nat) : State :=
  if (s.dec i).tu = some ts then s
  else (s.unlayer i fun p => p.ts != ts).updDec i fun d => { d.lower' with
    tu := some ts
    tuTimes := (d.tuTimes.filter fun t => decide (s.ela < t + 1000000000)) ++ [s.ela] }

/-- An operating point that rises, at a recovery point for the new layer (R159). -/
def DecCtx.raise (d : DecCtx) (l : Nat) (rp : Bool) : DecCtx :=
  match d.want with
  | some (a, b) => if rp && a == l then { d with outS := a, outT := b, want := none } else d
  | none => d

/-- Does the picture complete the count (R170)? -/
def DecCtx.counted (d : DecCtx) (f : PicFacts) : Bool :=
  match d.recEnd with
  | some e => if d.codec = 4 then (f.frameNum : Int) == e else d.codec == 5 && decide (e ≤ f.poc)
  | none => false

/-- The `frame_num` or POC that completes the count of the unit's recovery point SEI (R170). -/
def seiEnd (codec : Nat) (f : PicFacts) : Option Int :=
  f.sei.map fun n => if codec = 4 then ((f.frameNum : Int) + n) % (f.maxFrameNum : Int) else f.poc + n

/-- The effect of a recovery point on the context's state (R169), before the unit is decoded. -/
def State.applyRp (s : State) (i l : Nat) (f : PicFacts) : State :=
  let d := s.dec i
  let intact := f.refs.all fun r => match d.ref f r.1 r.2 with | some p => !p.conc | none => false
  match d.st with
  | .waitRp =>
    let s1 := s.updDec i fun d => { d with rpSeq := d.seq + 1, cra := f.cra, recEnd := seiEnd d.codec f }
    s1.decTo i (if f.key then .clean else .recovering)
  | .concealed =>
    if d.conc.contains l then
      let clean := f.key || intact
      let rest := d.conc.filter (· != l)
      if rest.any (· ≤ d.outS) then (if clean then s.updDec i fun d => { d with conc := rest } else s)
      else (s.updDec i fun d => { d with rpSeq := d.seq + 1, conc := rest, recEnd := seiEnd d.codec f }).decTo i (if clean then .clean else .recovering)
    else s
  | .recovering => s
  | .clean => s

/-- A context without its record of the last concealment and losses waits for a recovery point. -/
def State.decWait (s : State) (i : Nat) : State :=
  (s.updDec i fun d => { d with timer := none, reported := none }).decTo i .waitRp

/-- The picture that stands in for a missing reference of a layer (R165): the `HOLD` picture of the layer, unless it has other
dimensions where the codec cannot scale references; else mid-grey. -/
def DecCtx.standIn (d : DecCtx) (f : PicFacts) (l : Nat) : Option Buf :=
  match Tbl.find d.hold l with
  | some p => if d.codec = 6 ∨ (p.width = f.width ∧ p.height = f.height) then some p.buf else none
  | none => none

/-- What the pipe makes of the unit's references (R165, R167, R170): what stands in for those that are missing, and whether the
picture is concealed. In RECOVERING, references from before the recovery point are mid-grey and conceal nothing. -/
def DecCtx.plan (d : DecCtx) (f : PicFacts) (concIn : Bool) : DecPlan :=
  let old (p : Pic) : Bool := d.st == .recovering && decide (p.seq < d.rpSeq)
  let one (p : DecPlan) (r : Nat × Nat) : DecPlan :=
    match d.ref f r.1 r.2 with
    | some x => if old x then { p with subs := p.subs ++ [none] } else { p with conc := p.conc || x.conc }
    | none =>
      let early := d.st == .recovering && match d.picOf r.1 r.2 with | some x => old x | none => true
      if early then { p with subs := p.subs ++ [none] } else { p with subs := p.subs ++ [d.standIn f r.1], conc := true }
  f.refs.foldl one { conc := concIn, facts := f }

/-- The `GREY` buffer that a plan needs: allocated, filled with mid-grey and marked in its entry (R165). -/
def State.greyFor (s : State) (j : DecJob) : Option Buf × State :=
  if j.plan.subs.any (·.isNone) then
    match s.poolAlloc j.region with
    | some (b, s1) =>
      let f := j.plan.facts
      let p := (s1.dec j.dec).p010
      let s2 := s1.setEnt b.fbh { s1.ent b.fbh with width := f.width, height := f.height, p010 := p, s := rqS j.head, t := rqT j.head, grey := true, ctx := some j.dec, ts := rqTs j.head }
      (some b, s2.greyFill b f.width f.height p)
    | none => (none, s)
  else (none, s)

/-- The buffers of a job are given up. -/
def State.dropJob (s : State) (j : DecJob) : State :=
  let s1 := match j.buf with | some b => s.poolDrop b | none => s
  match j.grey with | some b => s1.poolDrop b | none => s1

/-- The pipe takes a request out of the FIFO. -/
def State.takeReq (s : State) (pe : Nat) (r : DecReq) : State :=
  (s.updEng pe fun e => { e with reqs := takeFirst r.dec e.reqs, ptr := (r.dec + 1) % 4096 }).sweepReqs pe

/-- Is the unit discarded undecoded: above the operating point, a RASL picture, or one that waits for a recovery point
(R158, R169, R170)? -/
def DecCtx.skips (d : DecCtx) (h : List Word) (f : PicFacts) : Bool :=
  decide (d.outS < rqS h) || (d.codec == 6 && decide (d.outT < rqT h)) || (f.rasl && d.cra) || (d.st == .waitRp && !rqRp h)

/-- A lost unit that the request tells of (R160, R171). -/
def State.loseTold (s : State) (i : Nat) (h : List Word) : State :=
  if rqLost h ≤ 3 then s.updDec i fun d => d.lose (rqLost h) else s

/-- A request is taken with a buffer (R171): its loss, its recovery point, then the decoding begins. -/
def State.beginUnit (s0 : State) (pe : Nat) (r : DecReq) (f : PicFacts) (b : Buf) (region : Nat) : State :=
  let i := r.dec
  let h := r.head
  let l := rqS h
  let s := s0.loseTold i h
  let s := if rqRp h then
      let waits := (s.dec i).st == .waitRp
      let s1 := s.updDec i fun d => { d with lost := Tbl.keep d.lost fun x _ => if f.key then decide (x < l) else decide (x ≠ l) }
      let s2 := s1.applyRp i l f
      if f.key then s2.updDec i fun d => { d with cra := f.cra && waits } else s2
    else s
  let j : DecJob := { dec := i, head := h, plan := (s.dec i).plan f (rqConc h), region, since := s.ela, buf := some b }
  let (g, s1) := s.greyFor j
  s1.updEng pe fun e => { e with job := some { j with grey := g } }

/-- The pipe comes to a request (R163): one that is not decoded completes at once; for any other the output buffer is allocated
before the request is taken, and with none free the request waits in the FIFO. -/
def State.tryUnit (s0 : State) (pe : Nat) (r : DecReq) (f : PicFacts) : State :=
  let i := r.dec
  let h := r.head
  let l := rqS h
  let ts := rqTs h
  let s := (s0.newUnit i ts).updDec i fun d => d.raise l (rqRp h)
  let d := s.dec i
  if d.outOfLimits f l then
    let s := s.takeReq pe r
    let s1 := if d.errSent then s else s.notify d.own.fn 0x0682 i [D_OUT_OF_LIMITS]
    let s2 := (s1.decWait i).updDec i fun d => { d with errSent := true }
    (s2.cntDec pe i 7).decDone pe i D_OUT_OF_LIMITS ts
  else if d.skips h f then (((s.takeReq pe r).loseTold i h).cntDec pe i 6).decDone pe i D_SKIPPED ts
  else
    let region := if l = d.outS then d.region else d.lower
    match s.poolAlloc region with
    | some (b, s1) => (s1.takeReq pe r).beginUnit pe r f b region
    | none => s.updEng pe fun e => { e with job := some (match e.job with
        | some j => { j with region }
        | none => { dec := i, head := h, region, since := s.ela }) }

/-- May the pipe work: enabled, its engine on, room for a completion? -/
def State.pipeOn (s : State) (pe : Nat) : Bool :=
  s.rb .PICT_DEC_CTRL pe 31 && s.pdOn (18 + pe) && (s.fifo (doneId pe)).accepts false 1 true

/-- The request that the pipe comes to: the one that waits for a buffer, else the next. -/
def DecEng.front (e : DecEng) : Option DecReq :=
  match e.job with
  | some j => e.reqs.find? fun r => r.dec == j.dec && !r.taken
  | none => e.next

/-- Has a request waited `ALLOC_WAIT_US` for a buffer (R163)? -/
def State.waitOver (s : State) (pe : Nat) : Bool :=
  match (s.eng pe).job with
  | some j => j.buf.isNone && decide (j.since + s.rf .PICT_DEC_CTRL pe 15 0 * 1000 ≤ s.ela)
  | none => false

/-- The request that has waited too long completes with NO_BUFFER: its unit is lost (R163, R165). -/
def State.noBuffer (s : State) (pe : Nat) (r : DecReq) : State :=
  let i := r.dec
  let s1 := ((s.takeReq pe r).loseTold i r.head).updDec i fun d => d.lose (rqS r.head)
  (s1.cntDec pe i 4).decDone pe i D_NO_BUFFER (rqTs r.head)

/-- DECODE_START (R163): the pipe comes to the request that waits for a buffer, else to the next. -/
def execDecodeStart (pe : Fin 8) (facts : PicFacts) (el : Nat) (s : State) : Res :=
  let s := s.advance el
  let pe := pe.val
  if !s.pipeOn pe || (match (s.eng pe).job with | some j => j.buf.isSome | none => false) then .next s
  else match (s.eng pe).front with
    | none => .next s
    | some r => .next (if s.waitOver pe then s.noBuffer pe r else s.tryUnit pe r facts)

/-- ALLOC_WAIT_TIMEOUT (R163): no buffer has freed within `ALLOC_WAIT_US`. -/
def execAllocWaitTimeout (pe : Fin 8) (el : Nat) (s : State) : Res :=
  let s := s.advance el
  let pe := pe.val
  match (s.eng pe).front with
  | none => .next s
  | some r => if s.pipeOn pe && s.waitOver pe then .next (s.noBuffer pe r) else .next s

/-! ### Completing a unit (R162 to R170) -/

/-- The reference slots take the picture and lose those emptied; a picture in no slot any more loses `DEC_REF`. -/
def State.takeSlots (s : State) (i : Nat) (p : Pic) (takes empties : List Nat) : State :=
  let d := s.dec i
  let t := takes.foldl (fun t k => Tbl.set t k p) (empties.foldl Tbl.del d.slots)
  let gone := ((d.slots.map fun kv => kv.2.buf).eraseDups).filter fun b => t.all fun kv => kv.2.buf != b
  gone.foldl (fun s b => s.unmark b M_DEC_REF) (s.updDec i fun d => { d with slots := t })

/-- The concealment report of R168 when it is due: to Strata, the timer, and the owner's notification. -/
def State.reportConc (s : State) (i l ts : Nat) : State :=
  let d := s.dec i
  let s1 := ((s.conceal d.stream l ts).updDec i fun d => { d with reported := some l, timer := some s.ela }).refreshReq i
  if d.concNotify ∧ (d.noteAt = 0 ∨ d.noteAt + d.gapMs * 1000000 ≤ s.ela + 1) then
    (s1.updDec i fun d => { d with noteAt := s.ela + 1 }).notify d.own.fn 0x0680 i [l, ts]
  else s1

/-- The picture of a job is complete. -/
def State.endUnit (s0 : State) (pe : Nat) (j : DecJob) (b : Buf) (f : PicFacts) : State :=
  let i := j.dec
  let l := rqS j.head
  let ts := rqTs j.head
  let s := s0.updDec i fun d => { d with seq := d.seq + 1 }
  -- recovery ends at the refresh wave's or the SEI's last picture
  let s := if (s.dec i).st = .recovering ∧ (rqWd j.head ∨ (s.dec i).counted j.plan.facts) then s.decTo i .clean else s
  let recov := (s.dec i).st == .recovering
  let conc := j.plan.conc
  let before := Tbl.get (s.dec i).prevConc false l
  let s := s.updDec i fun d => { d with prevConc := Tbl.set d.prevConc l conc, conc := if conc && !d.conc.contains l then l :: d.conc else d.conc }
  let s := if conc ∧ (s.dec i).st = .clean then (s.updDec i fun d => { d with st := .concealed }) else s
  let refresh := conc && !before && (match (s.dec i).reported with | some r => decide (l ≤ r) | none => true)
  let d := s.dec i
  let layer := decide (l < d.outS)
  let p : Pic := { buf := b, s := l, ts, seq := d.seq, conc, broken := d.codec == 4 && Tbl.has d.lost l, width := j.plan.facts.width, height := j.plan.facts.height }
  let takes := f.slots.filter (· < 16)
  let marks := [M_HOLD] ++ (if takes.isEmpty then [] else [M_DEC_REF]) ++ (if layer then [M_LAYER] else [])
  let pub := f.shown && l == d.outS
  let now := s.dev
  let s := s.decodedFill b p.width p.height d.p010 j.plan.facts.deep j.plan.facts.mono
  let s := s.poolDone b marks fun e => { e with
    width := p.width, height := p.height, p010 := d.p010, s := l, t := rqT j.head, concealed := conc, recovering := recov
    grey := false, grain := f.grain, ctx := some i, ts, time := now }
  let s := s.takeSlots i p takes f.empties
  let oldHold := Tbl.find d.hold l
  let s := s.updDec i fun d => { d with hold := Tbl.set d.hold l p, layers := if layer then d.layers ++ [p] else d.layers }
  let new : Slot := { buf := some b, concealed := conc, recovering := recov, width := p.width, height := p.height, ts }
  let s := if pub then (s.publish d.disp new).updDec i fun d => { d with disp := new } else s
  let s := match oldHold with | some o => s.unmark o.buf M_HOLD | none => s
  let s := if l = d.outS then s.unlayer i fun x => x.ts == ts else s
  let s := if refresh then s.reportConc i l ts else s
  let s := s.cntDec pe i 0
  let s := if conc then s.cntDec pe i 1 else s
  let s := if j.plan.subs.isEmpty then s else s.cntDec pe i 2 j.plan.subs.length
  let s := match j.grey with | some g => s.poolDrop g | none => s
  let s := s.updEng pe fun e => { e with load := (s.ela, p.width * p.height) :: e.load.filter fun x => decide (s.ela < x.1 + 100000000) }
  s.decDone pe i (if conc then D_CONCEALED else if recov then D_RECOVERING else D_DECODED) ts (some b) pub refresh f.cycles

/-- DECODE_COMPLETE (R162): the unit in progress completes with what the pipe found in its bitstream. -/
def execDecodeComplete (pe : Fin 8) (facts : PicFacts) (el : Nat) (s : State) : Res :=
  let s := s.advance el
  let pe := pe.val
  match (s.eng pe).job with
  | none => .next s
  | some j => match j.buf with
    | none => .next s
    | some b =>
      if !s.pipeOn pe then .next s
      else if facts.error then
        let s1 := (s.dropJob j).updDec j.dec fun d => d.lose (rqS j.head)
        .next ((s1.cntDec pe j.dec 3).decDone pe j.dec D_BITSTREAM_ERROR (rqTs j.head) none false false facts.cycles)
      else .next (s.endUnit pe j b facts)

/-- REFRESH_TIMER_EXPIRY (R168): while the context stays CONCEALED the request is raised again. -/
def execRefreshTimerExpiry (ctx : Nat) (el : Nat) (s : State) : Res :=
  let s := s.advance el
  match Tbl.find s.video.decs ctx with
  | none => .next s
  | some d => match d.timer with
    | none => .next s
    | some t =>
      if d.st = .concealed ∧ t + d.gapMs * 1000000 ≤ s.ela then
        .next ((s.updDec ctx fun d => { d with timer := some s.ela }).refreshReq ctx)
      else .next s

/-! ### The DEC commands (R158, R159, R173, R174) -/

abbrev DEC_IN_USE : Nat := 0x0600
abbrev PIXEL_BUDGET : Nat := 0x0601
abbrev REGION_SMALL : Nat := 0x0602
abbrev HOST_LIMIT : Nat := 0x0603

/-- The highest rate of a codec's level (R149). -/
def levelRate (codec : Nat) : Nat := if codec = 4 then 530841600 else 534773760

/-- What DEC_CREATE's words give. -/
def decOf (c : Cmd) (own : Own) : DecCtx :=
  {
    own, codec := c.f 2 31 29, stream := c.f 2 17 0, maxW := c.f 3 31 16, maxH := c.f 3 15 0, fps := c.f 4 31 24
    outS := c.f 4 23 22, outT := c.f 4 21 19, p010 := c.b 4 18, concNotify := c.b 4 17, lower := c.f 4 11 8, region := c.f 4 3 0
    gapMs := dflt (c.f 5 31 16) 300, pe := c.f 6 2 0, w0 := c.f 7 15 0, h0 := c.f 7 31 16 }

/-- What words 4 to 6 of DEC_MODIFY make of a context, its new operating point in force. -/
def DecCtx.modified (d : DecCtx) (c : Cmd) : DecCtx :=
  { d with
    fps := c.f 4 31 24, outS := c.f 4 23 22, outT := c.f 4 21 19, p010 := c.b 4 18, concNotify := c.b 4 17
    lower := c.f 4 11 8, region := c.f 4 3 0, gapMs := dflt (c.f 5 31 16) 300 }

/-- Fields out of range (R148, R149). -/
def DecCtx.bad (d : DecCtx) : Bool :=
  decide (d.codec < 4) || decide (6 < d.codec) || decide (d.maxW < 16) || decide (3840 < d.maxW) || decide (d.maxH < 16)
    || decide (2160 < d.maxH) || d.fps == 0 || decide (120 < d.fps) || (d.codec != 6 && (d.outS != 0 || d.outT != 0))
    || decide (d.gapMs < 100) || decide ((d.dims 0).1 < 16) || decide (d.maxW < (d.dims 0).1) || decide ((d.dims 0).2 < 16)
    || decide (d.maxH < (d.dims 0).2) || decide (levelRate d.codec < d.rate)

/-- A region is too small for the context's pictures. -/
def State.decRegionSmall (s : State) (d : DecCtx) : Bool :=
  decide (s.rgnBytes d.region < frameBytes d.maxW d.maxH d.p010)
    || (d.outS != 0 && (List.range d.outS).any fun l => decide (s.rgnBytes d.lower < frameBytes (d.dims l).1 (d.dims l).2 d.p010))

/-- Is an engine fenced (R481): its domain held off? -/
def State.engFenced (s : State) (pe : Nat) : Bool := s.rb .CLKPWR_PD_CTRL (18 + pe) 28

/-- What a context is charged: its declared rate, at the operating point that waits if there is one. -/
def DecCtx.charge (d : DecCtx) : Nat :=
  match d.want with
  | some (a, b) => ({ d with outS := a, outT := b } : DecCtx).rate
  | none => d.rate

/-- Does a rate fit an engine (R158), leaving out context `skip`? -/
def State.decFits (s : State) (skip rate pe : Nat) : Bool :=
  let l := s.video.decs.filter fun kv => kv.1 != skip && kv.2.pe == pe
  !s.engFenced pe && decide (l.length < 512) && decide (sumN (l.map fun kv => kv.2.charge) + rate ≤ 2000000000)

end Sys2Proof.Machine
end

