-- ==== Sys2Proof/Machine/VideoCmds.lean ====
section
/-! DEFINITION. The DEC commands, snapshots, and the moves and resets of decode contexts (R158, R159, R173 to R175). -/

namespace Sys2Proof.Machine

/-- A context's requests and its unit in progress leave its engine. -/
def State.dropRequests (s : State) (i : Nat) : State :=
  let pe := (s.dec i).pe
  let s1 := match (s.eng pe).job with
    | some j =>
      if j.dec = i then
        (s.dropJob j).updEng pe fun e => { e with job := none }
      else s
    | none => s
  (s1.updEng pe fun e => { e with reqs := e.reqs.map fun r => if r.dec = i then { r with taken := true } else r }).sweepReqs pe

/-- The marks of a context but `DISP` are cleared. -/
def State.clearDecMarks (s : State) (i : Nat) : State :=
  let d := s.dec i
  let s1 := ((d.slots.map fun kv => kv.2.buf).eraseDups).foldl (fun s b => s.unmark b M_DEC_REF) s
  let s2 := d.layers.foldl (fun s p => s.unmark p.buf M_LAYER) s1
  let s3 := d.hold.foldl (fun s kv => s.unmark kv.2.buf M_HOLD) s2
  s3.updDec i fun d => { d with
    slots := [], layers := [], hold := [], lost := [], prevConc := [], conc := [], tu := none, tuTimes := [], reported := none
    timer := none, recEnd := none, cra := false }

/-- The context's slot empties (R157). -/
def State.emptySlot (s : State) (i : Nat) : State := (s.publish (s.dec i).disp {}).updDec i fun d => { d with disp := {} }

/-- The owners of the layouts that show a destroyed context hear of it once for each cell (R216). -/
def State.sourceGone (s : State) (i : Nat) : State :=
  s.video.layouts.foldl (fun s kv =>
    let hit := (kv.2.sheet.cells.zipIdx.filter fun x =>
      let w := nth x.1 0 0
      bit w 31 && fld w 30 29 == 0 && fld w 11 0 == i && !kv.2.gone.contains x.2).map (·.2)
    let s1 := hit.foldl (fun s k => s.notify kv.2.own.fn 0x0581 kv.1 [k]) s
    s1.updVideo fun v => { v with layouts := Tbl.upd v.layouts kv.1 fun l => { l with gone := l.gone ++ hit } }) s

/-- A context is destroyed: its marks are cleared and its slot empties. -/
def State.destroyDec (s : State) (i : Nat) : State :=
  if Tbl.has s.video.decs i then
    ((((s.dropRequests i).clearDecMarks i).emptySlot i).updVideo fun v => { v with decs := Tbl.del v.decs i }).sourceGone i
  else s

/-- A context moves to an engine: it waits for a recovery point, raises `REFRESH_REQ`, loses all marks but `DISP`, and its
slot keeps the picture (R175). -/
def State.moveDec (s : State) (i pe : Nat) : State :=
  (((s.dropRequests i).clearDecMarks i).updDec i fun d => { d with pe, st := .waitRp }).refreshReq i

/-- The engine for a rate: the one named, or the lowest that fits. -/
def State.decPlace (s : State) (skip rate : Nat) (any : Bool) (pe : Nat) : Option Nat :=
  if any then (List.range 8).find? (s.decFits skip rate) else if s.decFits skip rate pe then some pe else none

/-- Does the tenant own the stream or its conference (R173)? -/
def State.ownsStream (s : State) (c : Cmd) (st : Stream) : Bool :=
  c.fn.isNone || st.own.tenant == c.tenant
    || (match Tbl.find s.mix.confs (s.leg st.leg).conf with | some x => !x.orphan && x.own.tenant == c.tenant | none => false)

/-- DEC_CREATE. -/
def decCreateSpec : CmdSpec := { op := 0x0600, used := [(2, 0xE003FFFF), (4, 0xFFFE0F0F), (5, 0xFFFF0000), (6, 0xF)] }
def decCreateCheck (c : Cmd) (s : State) : Nat :=
  let d := decOf c {}
  let st := s.stream d.stream
  firstFail [
    (decide (4095 < c.h) || d.bad, BAD_PARAM),
    (!Tbl.has s.net.streams d.stream, BAD_STATE),
    (!s.ownsStream c st, NOT_OWNER),
    (st.own.dying || st.kind != 1 || st.dest == 0, BAD_STATE),
    (Tbl.has s.video.decs c.h, DEC_IN_USE),
    (s.decRegionSmall d, REGION_SMALL),
    ((s.decPlace 4096 d.rate (c.b 6 3) d.pe).isNone, PIXEL_BUDGET)]
def decCreateApply (c : Cmd) (s : State) : Reply :=
  let d := decOf c (newOwn c s)
  let d := { d with pe := (s.decPlace 4096 d.rate (c.b 6 3) d.pe).getD 0 }
  { st := s.updVideo fun v => { v with decs := Tbl.set v.decs c.h d } }
/-- DEC_CREATE (R158, R173). -/
def execDecCreate (c : Cmd) (s : State) : Res := .next (runCmd decCreateSpec decCreateCheck decCreateApply c s)

/-- The target of a DEC command. -/
def decTarget (c : Cmd) (s : State) : Nat := target c s.video.decs (·.own) c.h

/-- DEC_MODIFY. -/
def decModifySpec : CmdSpec := { op := 0x0601, used := [(4, 0xFFFE0F0F), (5, 0xFFFF0000), (6, 0xF)] }
/-- The engine that the modified context is to be on: its own, unless word 6 names another. -/
def decModifyPe (c : Cmd) (s : State) : Option Nat :=
  let d := s.dec c.h
  let n := d.modified c
  s.decPlace c.h n.rate false (if c.b 6 3 then d.pe else c.f 6 2 0)
def decModifyCheck (c : Cmd) (s : State) : Nat :=
  let n := (s.dec c.h).modified c
  firstCode [
    rejectIf (decide (4095 < c.h) || (Tbl.has s.video.decs c.h && n.bad)) BAD_PARAM,
    decTarget c s,
    rejectIf (s.decRegionSmall n) REGION_SMALL,
    rejectIf (decModifyPe c s).isNone PIXEL_BUDGET]
def decModifyApply (c : Cmd) (s : State) : Reply :=
  let d := s.dec c.h
  let n := d.modified c
  let want := if n.outS = d.outS ∧ n.outT = d.outT then none else some (n.outS, n.outT)
  let s1 := s.updDec c.h fun _ => { n with outS := d.outS, outT := d.outT, want }
  let pe := (decModifyPe c s).getD d.pe
  { st := if pe = d.pe then s1 else s1.moveDec c.h pe }
/-- DEC_MODIFY (R159). -/
def execDecModify (c : Cmd) (s : State) : Res := .next (runCmd decModifySpec decModifyCheck decModifyApply c s)

/-- DEC_DESTROY. -/
def decDestroySpec : CmdSpec := { op := 0x0602 }
def decDestroyCheck (c : Cmd) (s : State) : Nat := firstCode [rejectIf (decide (4095 < c.h)) BAD_PARAM, decTarget c s]
def decDestroyApply (c : Cmd) (s : State) : Reply := { st := s.destroyDec c.h }
/-- DEC_DESTROY (R153, R174). -/
def execDecDestroy (c : Cmd) (s : State) : Res := .next (runCmd decDestroySpec decDestroyCheck decDestroyApply c s)

/-- DEC_QUERY. -/
def decQuerySpec : CmdSpec := { op := 0x0603, dma := true }
def decQueryCheck (c : Cmd) (s : State) : Nat := decDestroyCheck c s
def decQueryApply (c : Cmd) (s : State) : Reply :=
  let d := s.dec c.h
  let b := d.disp.buf.getD { fbh := NO_FBH }
  queryReply c s ([d.st.code, d.pe, d.stream, d.outS, d.outT, b.fbh, b.gen, b2n d.disp.concealed, b2n d.disp.recovering]
    ++ (List.range 8).map fun k => Tbl.get d.cnt 0 k)
/-- DEC_QUERY (R174). -/
def execDecQuery (c : Cmd) (s : State) : Res := .next (runCmd decQuerySpec decQueryCheck decQueryApply c s)

/-- Bytes of a picture in linear layout. -/
def linearBytes (w h : Nat) (p010 : Bool) : Nat := (w * h + 2 * (cdiv w 2 * cdiv h 2)) * (if p010 then 2 else 1)

/-- DEC_SNAPSHOT. -/
def decSnapshotSpec : CmdSpec := { op := 0x0604, minor := 4, used := [(4, 0xFFFFFF)] }
def decSnapshotCheck (c : Cmd) (s : State) : Nat :=
  let d := s.dec c.h
  let full := match d.disp.buf with | some b => decide (15 ≤ (s.ent b.fbh).host) | none => false
  firstCode [
    rejectIf (decide (4095 < c.h)) BAD_PARAM,
    decTarget c s,
    rejectIf d.disp.buf.isNone BAD_STATE,
    rejectIf (decide (c.f 4 23 0 < linearBytes d.disp.width d.disp.height d.p010)) BAD_PARAM,
    rejectIf (full || decide (256 ≤ (s.video.snaps.filter fun x => x.own.fn / 64 == c.tenant).length)) HOST_LIMIT,
    rejectIf (match c.fn with | some f => !(s.fn f).bme | none => false) BAD_STATE]
def decSnapshotApply (c : Cmd) (s : State) : Reply :=
  let d := s.dec c.h
  let b := d.disp.buf.getD {}
  let x : Snapshot := { own := newOwn c s, dec := c.h, buf := b, addr := c.q 2 }
  { st := (s.mark b M_HOST).updVideo fun v => { v with snaps := v.snaps ++ [x] } }
/-- DEC_SNAPSHOT (R174). -/
def execDecSnapshot (c : Cmd) (s : State) : Res := .next (runCmd decSnapshotSpec decSnapshotCheck decSnapshotApply c s)

/-- The samples of a plane of a frame buffer, row by row: `n` samples of each of `rows` rows, `b` bytes a sample, in tiles of
64 by 64 samples, `wt` of them in a row (R151). -/
def planeBytes (m : List Host.Cell) (base wt b n rows : Nat) : List Byte :=
  (List.range rows).flatMap fun y => (List.range n).flatMap fun x =>
    Mem.read m (base + ((y / 64 * wt + x / 64) * 4096 + y % 64 * 64 + x % 64) * b) b

/-- The picture of a frame buffer in linear layout: luma, then Cb and Cr pairs. -/
def State.linearPicture (s : State) (b : Buf) : List Byte :=
  let e := s.ent b.fbh
  let k := if e.p010 then 2 else 1
  let wt := cdiv e.width 64
  let base := s.bufAddr b.fbh
  planeBytes s.mem base wt k e.width e.height
    ++ planeBytes s.mem (base + wt * cdiv e.height 64 * 4096 * k) wt k (2 * cdiv e.width 2) (cdiv e.height 2)

/-- SNAPSHOT_COPY_DONE (R174, R404): the tenant's oldest copy ends and its `HOST` mark goes. -/
def execSnapshotCopyDone (tenant : Fin 4) (ok : Bool) (el : Nat) (s : State) : Res :=
  let s := s.advance el
  match s.video.snaps.find? fun x => x.own.fn / 64 == tenant.val with
  | none => .next s
  | some x =>
    let s1 := (s.unmark x.buf M_HOST).updVideo fun v => { v with snaps := v.snaps.erase x }
    let s2 := if ok then s1.dmaBytes x.own.fn x.addr (s1.linearPicture x.buf) else s1
    .next (s2.notify x.own.fn 0x0683 x.dec [if ok then OK else BAD_PARAM])

end Sys2Proof.Machine
end

