-- ==== Sys2Proof/Machine/EncSearch.lean ====
section
/-! DEFINITION. The motion search of an analysis unit, and what renditions make of its decisions (R183 to R188, R192). -/

namespace Sys2Proof.Machine

/-! ### Sizes, layers and waves (R178, R191, R205) -/

/-- A scale code as a fraction. -/
def scaleAB (c : Nat) : Nat × Nat := nth [(1, 1), (3, 4), (2, 3), (1, 2), (1, 3), (1, 4)] (1, 1) c
/-- A canvas dimension at a scale. -/
def scaledDim (w c : Nat) : Nat := 2 * (w * (scaleAB c).1 / (2 * (scaleAB c).2))

/-- The temporal layer of a slot of the pattern (R205). -/
def tempLayer (temporal slot : Nat) : Nat :=
  match temporal with
  | 0 => 0
  | 1 => slot % 2
  | _ => nth [0, 2, 1, 2] 0 (slot % 4)

/-- The boundary B_k of a wave of n pictures in a rendition (R191): `u` superblocks along its direction, `d` samples. -/
def waveBound (u d a b n k : Nat) : Nat := if n = 0 then 0 else min d (8 * cdiv (cdiv (k * u) n * 64 * a) (8 * b))

/-- The intra region of wave picture k (R192). -/
def waveIntra (u d a b n k : Nat) : Nat × Nat := (waveBound u d a b n (k - 1) - 16, waveBound u d a b n k)

/-- The codec's highest quantiser and the quantiser steps that halve an estimate (R198, R201). -/
def codecQMax (codec : Nat) : Nat := if codec = 6 then 255 else 51
def codecHalf (codec : Nat) : Nat := if codec = 6 then 24 else 6

/-- The largest n below 2^32 with n^h at most x. -/
def iroot (h x : Nat) : Nat :=
  (List.range 32).foldl (fun n i => let m := n + 2 ^ (31 - i); if m ^ h ≤ x then m else n) 0

/-! ### Vectors (R183) -/

def Mv.add (a b : Mv) : Mv := ⟨a.dx + b.dx, a.dy + b.dy⟩
/-- A vector of integer samples, in eighths. -/
def Mv.ofInt (x y : Int) : Mv := ⟨8 * x, 8 * y⟩
/-- Within ±256 across and ±128 down. -/
def Mv.inRange (v : Mv) : Bool := decide (v.dx.natAbs ≤ 2048) && decide (v.dy.natAbs ≤ 1024)
/-- A vector clamped to the range. -/
def Mv.clamp (v : Mv) : Mv := ⟨max (-2048) (min 2048 v.dx), max (-1024) (min 1024 v.dy)⟩
/-- A vector rounded to integer samples. -/
def Mv.whole (v : Mv) : Mv := .ofInt (nearDiv v.dx 8) (nearDiv v.dy 8)
/-- The component-wise median of three vectors. -/
def Mv.median (a b c : Mv) : Mv :=
  let m (x y z : Int) : Int := max (min x y) (min (max x y) z)
  ⟨m a.dx b.dx c.dx, m a.dy b.dy c.dy⟩

/-! ### What a search reads -/

/-- The search of one picture. -/
structure Search where
  /-- The canvas, and the group's codec. -/
  w : Nat
  h : Nat
  codec : Nat
  /-- Bit depth 10. -/
  deep : Bool
  /-- Luma samples of the canvas and of the analysis reference, at any place. -/
  cur : Int → Int → Nat
  ref : Int → Int → Nat
  hasRef : Bool
  /-- Qe of R185. -/
  qe : Nat
  starved : Bool
  /-- Global motion by superblock (R180). -/
  gmv : Tbl Mv
  /-- The decisions of the reference picture, and of the last two pictures analysed. -/
  co : Tbl BlkDec
  prev : Tbl BlkDec
  prev2 : Tbl BlkDec
  /-- The wave's direction, and the start of its intra region or the boundary less 16 (R192, R194). -/
  rows : Bool
  lo : Nat
  /-- Superblocks that are not searched (R188). -/
  skip : List Nat

/-- Blocks and superblocks in a row. -/
def Search.bw (c : Search) : Nat := cdiv c.w 8
def Search.bh (c : Search) : Nat := cdiv c.h 8
def Search.sw (c : Search) : Nat := cdiv c.w 64
/-- The superblock of a block. -/
def Search.sb (c : Search) (bx by' : Nat) : Nat := by' / 8 * c.sw + bx / 8

/-- The blocks in the order of the search: raster order within each superblock. -/
def Search.order (c : Search) : List (Nat × Nat) :=
  (List.range (c.sw * cdiv c.h 64)).flatMap fun i =>
    ((List.range 64).map fun j => (i % c.sw * 8 + j % 8, i / c.sw * 8 + j / 8)).filter fun p => decide (p.1 < c.bw) && decide (p.2 < c.bh)

/-- The vector at a block of a table; none where there is no block, no decision yet, or an intra block. -/
def Search.vec (c : Search) (t : Tbl BlkDec) (bx by' : Int) : Option Mv :=
  if bx < 0 ∨ by' < 0 ∨ (c.bw : Int) ≤ bx ∨ (c.bh : Int) ≤ by' then none
  else match Tbl.find t (by'.toNat * c.bw + bx.toNat) with
    | some d => if d.intra then none else some d.mv
    | none => none

/-- The first vector decided in a superblock. -/
def Search.firstIn (c : Search) (done : Tbl BlkDec) (bx by' : Nat) : Option Mv :=
  (List.range 64).findSome? fun j => c.vec done (bx / 8 * 8 + j % 8 : Nat) (by' / 8 * 8 + j / 8 : Nat)

/-- The superblock that a vector from a block's centre points into. -/
def Search.pointed (c : Search) (bx by' : Nat) (v : Mv) : Option Nat :=
  let x : Int := (bx * 8 + 4 : Nat) + nearDiv v.dx 8
  let y : Int := (by' * 8 + 4 : Nat) + nearDiv v.dy 8
  if x < 0 ∨ y < 0 ∨ (c.w : Int) ≤ x ∨ (c.h : Int) ≤ y then none else some (y.toNat / 64 * c.sw + x.toNat / 64)

/-- Candidate 4: the median of candidates 1 to 3. -/
def Search.med (c : Search) (done : Tbl BlkDec) (bx by' : Nat) : Mv :=
  let v (x y : Int) : Option Mv := c.vec done x y
  let x : Int := bx
  let y : Int := by'
  (Mv.median ((v (x - 1) y).getD {}) ((v x (y - 1)).getD {}) (((v (x + 1) (y - 1)).orElse fun _ => v (x - 1) (y - 1)).getD {})).clamp

/-- Candidate `i` of a block (R183). -/
def Search.cand (c : Search) (done : Tbl BlkDec) (bx by' i : Nat) : Option Mv :=
  let x : Int := bx
  let y : Int := by'
  let gm := Tbl.find c.gmv (c.sb bx by')
  match i with
  | 0 => some {}
  | 1 => c.vec done (x - 1) y
  | 2 => c.vec done x (y - 1)
  | 3 => (c.vec done (x + 1) (y - 1)).orElse fun _ => c.vec done (x - 1) (y - 1)
  | 4 => some (c.med done bx by')
  | 5 => c.vec c.co x y
  | 6 => c.vec c.co (x + 1) y
  | 7 => c.vec c.co x (y + 1)
  | 8 => c.vec c.prev x y
  | 9 => gm.bind fun g => (c.vec c.prev x y).map (Mv.add · g)
  | 10 => gm
  | 11 => c.firstIn done bx by'
  | 12 => c.vec done (x - 2) y
  | 13 => c.vec done x (y - 2)
  | 14 => c.vec c.prev2 x y
  | 15 => ((c.vec c.co x y).bind (c.pointed bx by')).bind (Tbl.find c.gmv)
  | _ => none

/-- Does a vector of integer samples keep the wave's restriction (R192 rule 2, R194)? -/
def Search.keeps (c : Search) (bx by' : Nat) (v : Mv) : Bool :=
  let p := 8 * (if c.rows then by' else bx)
  let d := if c.rows then v.dy else v.dx
  decide (c.lo < p + 8) || decide ((p : Int) + 8 + d / 8 ≤ c.lo)

/-- The candidates that remain, in integer samples and in order (R183); a starved search has only 0, 5 and 8 (R201). -/
def Search.cands (c : Search) (done : Tbl BlkDec) (bx by' : Nat) : List Mv :=
  ((if c.starved then [0, 5, 8] else List.range 16).filterMap fun i => ((c.cand done bx by' i).map fun v => v.clamp.whole)).foldl
    (fun l v => if l.contains v || !c.keeps bx by' v then l else l ++ [v]) []

/-! ### Costs (R185, R186) -/

/-- λ_m × R, rounded down. -/
def lambdaR (qe r : Nat) : Nat := iroot 6 (r ^ 6 * 2 ^ qe / 2 ^ 12)

/-- Qe from the lowest `Q_TARGET`: AV1's quantiser index on the scale of a QP. -/
def costQ (codec q : Nat) : Nat := if codec = 6 then (2 * q * 51 + 255) / 510 else q

/-- R(mvd), in eighths of a sample: 2⌊log2(2|v| + 1)⌋ + 1 for each component. -/
def mvdBits (a b : Mv) : Nat :=
  let r (d : Int) : Nat := 2 * Nat.log2 (d.natAbs + 1) + 1
  r (a.dx - b.dx) + r (a.dy - b.dy)

/-- The sign of an entry of the 4 × 4 Hadamard matrix. -/
def hadSign (i k : Nat) : Int := if (i % 2 * (k % 2) + i / 2 * (k / 2)) % 2 = 0 then 1 else -1

/-- The SATD of an 8 × 8 difference: the sum of the absolute values of its four 4 × 4 Hadamard transforms. -/
def satd8 (d : Nat → Nat → Int) : Nat :=
  let sum (l : List Int) : Int := l.foldl (· + ·) 0
  sumN ((List.range 4).flatMap fun q => (List.range 16).map fun uv =>
    (sum ((List.range 16).map fun ij =>
      hadSign (uv % 4) (ij % 4) * hadSign (uv / 4) (ij / 4) * d (q % 2 * 4 + ij % 4) (q / 2 * 4 + ij / 4))).natAbs)

/-- The SAD of an 8 × 8 difference. -/
def sad8 (d : Nat → Nat → Int) : Nat := sumN ((List.range 64).map fun i => (d (i % 8) (i / 8)).natAbs)

/-- The reference's sample that a vector brings to a place. -/
def Search.pred (c : Search) (v : Mv) (x y : Nat) : Nat :=
  let x := (x : Int) + v.dx / 8
  let y := (y : Int) + v.dy / 8
  if v.dx % 8 = 0 ∧ v.dy % 8 = 0 then c.ref x y
  else Config.fracSample (v.dx % 8).toNat (v.dy % 8).toNat
    ((List.range 64).map fun i => c.ref (x + (i % 8 : Nat) - 3) (y + (i / 8 : Nat) - 3))

/-- J of a vector (R185). -/
def Search.cost (c : Search) (med : Mv) (bx by' : Nat) (v : Mv) : Nat :=
  let d (x y : Nat) : Int := (c.cur (bx * 8 + x : Nat) (by' * 8 + y : Nat) : Int) - c.pred v (bx * 8 + x) (by' * 8 + y)
  (if v.dx % 8 = 0 ∧ v.dy % 8 = 0 then sad8 d else satd8 d) + lambdaR c.qe (mvdBits v med)

/-- Mean of a list of samples, rounded; mid-grey of an empty one. -/
def meanOf (deep : Bool) (l : List Nat) : Nat := if l.isEmpty then greyOf deep else (sumN l + l.length / 2) / l.length

/-- The SATD of the best of DC, horizontal and vertical prediction from the canvas (R186). -/
def Search.intraCost (c : Search) (bx by' : Nat) : Nat :=
  let at' (x y : Int) : Nat := c.cur (bx * 8 + x) (by' * 8 + y)
  let left (y : Nat) : Nat := if bx = 0 then greyOf c.deep else at' (-1) y
  let above (x : Nat) : Nat := if by' = 0 then greyOf c.deep else at' x (-1)
  let dc := meanOf c.deep ((if bx = 0 then [] else (List.range 8).map left) ++ (if by' = 0 then [] else (List.range 8).map above))
  let s (p : Nat → Nat → Nat) : Nat := satd8 fun x y => (at' x y : Int) - p x y
  min (s fun _ _ => dc) (min (s fun _ y => left y) (s fun x _ => above x))

/-! ### The search (R184) -/

/-- The cheapest of a list of vectors and of a best one so far; equal costs keep the earlier. -/
def cheapest (cost : Mv → Nat) (best : Mv × Nat) (l : List Mv) : Mv × Nat :=
  l.foldl (fun b v => let j := cost v; if j < b.2 then (v, j) else b) best

/-- The integer diamond search from a candidate; every move is cheaper, so a path has no more places than the square. -/
def diamond (cost : Mv → Nat) (from' : Mv) : Nat → Mv × Nat → Mv × Nat
  | 0, b => b
  | n + 1, b =>
    let v := (cheapest cost b ([⟨8, 0⟩, ⟨-8, 0⟩, ⟨0, 8⟩, ⟨0, -8⟩].map b.1.add))
    if v.1 = b.1 ∨ 64 < (v.1.dx - from'.dx).natAbs ∨ 64 < (v.1.dy - from'.dy).natAbs ∨ v.1.inRange = false then b
    else diamond cost from' n v

/-- The eight neighbours of a vector at a distance that stay in range. -/
def ring8 (v : Mv) (d : Int) : List Mv :=
  ([⟨-d, -d⟩, ⟨0, -d⟩, ⟨d, -d⟩, ⟨-d, 0⟩, ⟨d, 0⟩, ⟨-d, d⟩, ⟨0, d⟩, ⟨d, d⟩].map v.add).filter Mv.inRange

/-- The refinements of a group: halves, quarters and, in AV1, eighths; a starved search stops at quarters (R201). -/
def Search.steps (c : Search) : List Int := if c.codec = 6 ∧ c.starved = false then [4, 2, 1] else [4, 2]

/-- The best vector of a block and its cost. -/
def Search.best (c : Search) (done : Tbl BlkDec) (bx by' : Nat) : Mv × Nat :=
  let cost := c.cost (c.med done bx by') bx by'
  let tries := (c.cands done bx by').map fun v => diamond cost v 289 (v, cost v)
  match tries with
  | [] => ({}, cost {})
  | t :: l =>
    let b := l.foldl (fun b x => if x.2 < b.2 then x else b) t
    c.steps.foldl (fun b d => cheapest cost b (ring8 b.1 d)) b

/-- The decision of a block: intra when the intra SATD plus 4 λ_m, which is 2^(Qe / 6), is below J (R186). -/
def Search.block (c : Search) (done : Tbl BlkDec) (bx by' : Nat) : BlkDec :=
  if c.skip.contains (c.sb bx by') then {}
  else
    let i := c.intraCost bx by'
    if c.hasRef then
      let (mv, j) := c.best done bx by'
      { mv, cost := j, icost := i, intra := decide (i < j) && decide (2 ^ c.qe < (j - i) ^ 6) }
    else { intra := true, cost := i, icost := i }

/-- The decisions of a picture. -/
def Search.run (c : Search) : Tbl BlkDec :=
  c.order.foldl (fun done p => Tbl.set done (p.2 * c.bw + p.1) (c.block done p.1 p.2)) []

/-! ### Rendition blocks (R187, R188, R192) -/

/-- A codec's vector units in a sample. -/
def mvUnit (codec : Nat) : Nat := if codec = 6 then 8 else 4

/-- A component of a rendition's vector (R187). -/
def scaleMv (codec : Nat) (ab : Nat × Nat) (v : Mv) : Mv :=
  let f (x : Int) : Int := nearDiv (x * (ab.1 * mvUnit codec : Nat)) (8 * ab.2)
  ⟨f v.dx, f v.dy⟩

/-- The last sample that a prediction of 8 samples from `p` reads along one direction: luma, and the luma places of the chroma
samples. -/
def lastRead (codec p : Nat) (v : Int) : Int :=
  let u : Int := mvUnit codec
  let luma := (p : Int) + 7 + v / u + (if v % u = 0 then 0 else if codec = 4 then 3 else 4)
  let chroma := ((p / 2 : Nat) : Int) + 3 + v / (2 * u) + (if v % (2 * u) = 0 then 0 else if codec = 4 then 1 else if codec = 5 then 2 else 4)
  max luma (2 * chroma + 1)

/-- Does an inter block at `p` along the wave's direction break rule 2 of R192, whose limit is `lo`? -/
def breaksWave (codec lo p : Nat) (v : Int) : Bool := decide (p < lo) && decide ((lo : Int) ≤ lastRead codec p v)

/-- The zero-motion form of a codec, by what it predicts there (R188). -/
def zeroForm (codec : Nat) (pred : Bool) : ZeroForm :=
  match codec, pred with
  | 4, true => .pSkip
  | 4, false => .pL0
  | 5, true => .skipMerge
  | 5, false => .amvpZero
  | _, _ => .globalMv

/-- The blocks of a square that lie in a picture. -/
def squareBlocks (w h x y n : Nat) : List (Nat × Nat) :=
  ((List.range (n / 8 * (n / 8))).map fun i => (x + i % (n / 8) * 8, y + i / (n / 8) * 8)).filter fun p => decide (p.1 < w) && decide (p.2 < h)

/-- One form for all of a list of blocks. -/
def sameForm (f : Nat → Nat → BlkForm) : List (Nat × Nat) → Option BlkForm
  | [] => none
  | p :: l => if l.all (fun q => f q.1 q.2 == f p.1 p.2) then some (f p.1 p.2) else none

/-- The partitions of a square of size 8 × 2^k (R187): the largest that the codec allows, whole, in halves, or in quarters. -/
def mergeSq (codec w h : Nat) (f : Nat → Nat → BlkForm) : Nat → Nat → Nat → List Part
  | 0, x, y => if w ≤ x ∨ h ≤ y then [] else [{ x, y, form := f x y }]
  | k + 1, x, y =>
    let n := 8 * 2 ^ (k + 1)
    let m := n / 2
    let l := squareBlocks w h x y n
    let fits := codec != 5 || (decide (x + n ≤ 8 * cdiv w 8) && decide (y + n ≤ 8 * cdiv h 8))
    let half (p : Nat × Nat → Bool) : Option BlkForm := sameForm f (l.filter p)
    let four := mergeSq codec w h f k x y ++ mergeSq codec w h f k (x + m) y ++ mergeSq codec w h f k x (y + m)
      ++ mergeSq codec w h f k (x + m) (y + m)
    if !fits then four
    else match sameForm f l, half (fun p => decide (p.2 < y + m)), half (fun p => decide (y + m ≤ p.2)),
        half (fun p => decide (p.1 < x + m)), half (fun p => decide (x + m ≤ p.1)) with
      | some a, _, _, _, _ => [{ x, y, w := n, h := n, form := a }]
      | _, some a, some b, _, _ => [{ x, y, w := n, h := m, form := a }, { x, y := y + m, w := n, h := m, form := b }]
      | _, _, _, some a, some b => [{ x, y, w := m, h := n, form := a }, { x := x + m, y, w := m, h := n, form := b }]
      | _, _, _, _, _ => four

/-- The size of the largest partition, as the exponent above 8 samples. -/
def unitExp (codec : Nat) : Nat := if codec = 4 then 1 else 3
/-- The unit of a codec: macroblock, CTB or superblock. -/
def unitSize (codec : Nat) : Nat := if codec = 4 then 16 else 64

/-- The partitions of a superblock row of a rendition. -/
def rowParts (codec w h : Nat) (f : Nat → Nat → BlkForm) (r : Nat) : List Part :=
  let u := unitSize codec
  (List.range (64 / u)).flatMap fun j => (List.range (cdiv w u)).flatMap fun i =>
    mergeSq codec w h f (unitExp codec) (i * u) (r * 64 + j * u)

/-- The structure of a rendition's bitstream (R177). -/
def bitStruct (codec profile : Nat) (p010 : Bool) : BitStruct :=
  match codec with
  | 4 => { codec, level := 52, unit := 16, cabac := profile == 1, t8x8 := profile == 1 }
  | 5 => { codec, level := 51, unit := 64, cabac := true, sao := true }
  | _ => { codec, level := 51, unit := 64, depth := if p010 then 10 else 8, orderHint := true, frameIds := true }

/-! ### Damage (R180, R188) -/

/-- The canvas superblocks along one direction that a span of a rendition touches, with `m` samples more on each side. -/
def sbSpan (ab : Nat × Nat) (d m x n : Nat) : Nat × Nat :=
  ((x * ab.2 / ab.1 - m) / 64, (min d (cdiv ((x + n) * ab.2) ab.1 + m) - 1) / 64)

/-- Does a span of superblocks across and one down hold a superblock of a list? -/
def spansHit (cols : Nat) (xs ys : Nat × Nat) (l : List Nat) : Bool :=
  l.any fun i => decide (xs.1 ≤ i % cols) && decide (i % cols ≤ xs.2) && decide (ys.1 ≤ i / cols) && decide (i / cols ≤ ys.2)

end Sys2Proof.Machine
end

