-- ==== Sys2Proof/Machine/EncRun.lean ====
section
/-! DEFINITION. The encode pipes: posts, input, waves and analysis (R180 to R188, R191 to R196, R201, R205). -/

namespace Sys2Proof.Machine

def State.group (s : State) (i : Nat) : Group := Tbl.get s.video.groups {} i
def State.updGroup (s : State) (i : Nat) (f : Group → Group) : State :=
  s.updVideo fun v => { v with groups := Tbl.upd v.groups i f }
def State.rend (s : State) (i : Nat) : Rend := Tbl.get s.video.rends {} i
def State.updRend (s : State) (i : Nat) (f : Rend → Rend) : State := s.updVideo fun v => { v with rends := Tbl.upd v.rends i f }
def State.encEng (s : State) (pe : Nat) : EncEng := Tbl.get s.video.enc {} pe
def State.updEnc (s : State) (pe : Nat) (f : EncEng → EncEng) : State :=
  s.updVideo fun v => { v with enc := Tbl.updD v.enc {} pe f }

/-- A counter of an encode pipe (R206). -/
def State.cntEnc (s : State) (pe k : Nat) (n : Nat := 1) : State := s.bump .PICT_ENC_CNT_LO (12 * pe + k) n
abbrev E_ANALYSED : Nat := 0
abbrev E_CODED : Nat := 1
abbrev E_GREY : Nat := 2
abbrev E_WAVES : Nat := 3
abbrev E_FLOOR : Nat := 4
abbrev E_SKIP : Nat := 5
abbrev E_CAP : Nat := 6
abbrev E_LATE : Nat := 7
abbrev E_LOST : Nat := 8
abbrev E_NO_BUFFER : Nat := 9
abbrev E_STARVED : Nat := 10
abbrev E_DAMAGE : Nat := 11

/-- The FIFOs of an encode pipe. -/
def encInId (pe : Nat) : FifoId := .encIn (Fin.ofNat 8 pe)
def encOutId (pe c : Nat) : FifoId := .encOut (Fin.ofNat 8 pe) (Fin.ofNat 4 c)
def encDoneId (pe : Nat) : FifoId := .encDone (Fin.ofNat 8 pe)

/-! ### Sizes and targets (R178, R201) -/

/-- The size of a rendition. -/
def State.rendDims (s : State) (r : Rend) : Nat × Nat :=
  let g := s.group r.group
  (scaledDim g.w r.scale, scaledDim g.h r.scale)

/-- The effective target of a rendition (R201). -/
def State.effTarget (s : State) (r : Rend) : Nat := min r.qMax (r.qTarget + (s.group r.group).raise)

/-! ### Damage (R180, R188) -/

/-- The bits of a damage map: one bit per superblock, rows on 32-bit boundaries. -/
def State.readDamage (s : State) (w h a : Nat) : List Nat :=
  let c := cdiv w 64
  (List.range (c * cdiv h 64)).filter fun i =>
    let j := i / c * (cdiv c 32) + i % c / 32
    bit (Mem.word s.mem (a + 4 * j)) (i % c % 32)

/-- The union of two damage sets; none is everything. -/
def damageUnion : Option (List Nat) → Option (List Nat) → Option (List Nat)
  | some a, some b => some (a ++ b.filter fun x => !a.contains x)
  | _, _ => none

/-- Damage of the pictures composed after picture `ref` up to `seq`. -/
def Group.damageSince (g : Group) (ref seq : Nat) : Option (List Nat) :=
  (g.hist.filter fun kv => decide (ref < kv.1) && decide (kv.1 ≤ seq)).foldl (fun t kv => damageUnion t kv.2) (some [])

/-- The damage between a job's picture and its reference. -/
def State.jobDamage (s : State) (j : CoderJob) : Option (List Nat) :=
  j.ref.bind fun ref => (s.group (s.rend j.rend).group).damageSince ref j.pic.seq

/-- Does a span of `n` samples along the wave's direction meet the intra region of a job's picture? -/
def CoderJob.inIntra (j : CoderJob) (p n : Nat) : Bool := j.k != 0 && decide (p < j.hi) && decide (j.lo < p + n)

/-- Is the unit at a place undamaged (R188)? Units of the wave's intra region and of stale rows never are. -/
def State.clean (s : State) (j : CoderJob) (dmg : Option (List Nat)) (x y : Nat) : Bool :=
  let r := s.rend j.rend
  let g := s.group r.group
  let (w, h) := s.rendDims r
  let u := unitSize g.codec
  let ux := x / u * u
  let uy := y / u * u
  match dmg with
  | none => false
  | some dmg =>
    !spansHit (cdiv g.w 64) (sbSpan (scaleAB r.scale) g.w 4 ux (min u (w - ux))) (sbSpan (scaleAB r.scale) g.h 4 uy (min u (h - uy))) dmg
      && !j.inIntra (if g.rows then uy else ux) u && !r.stale.contains (uy / 64)

/-- The places of a rendition's units. -/
def State.units (s : State) (r : Rend) : List (Nat × Nat) :=
  let (w, h) := s.rendDims r
  let u := unitSize (s.group r.group).codec
  (List.range (cdiv h u)).flatMap fun y => (List.range (cdiv w u)).map fun x => (x * u, y * u)

/-- The limits that a wave picture sets (R192): its intra region; for a T1 or T2 picture after it, no region and the boundary of
its T0 reference (R194). -/
def Group.waveLimits (g : Group) (w h : Nat) (ab : Nat × Nat) (t n k : Nat) : Nat × Nat :=
  let u := if g.rows then cdiv g.h 64 else cdiv g.w 64
  let d := if g.rows then h else w
  if k = 0 ∨ n = 0 then (0, 0)
  else if t = 0 then waveIntra u d ab.1 ab.2 n k
  else
    let b := waveBound u d ab.1 ab.2 n k - 16
    (b, b)

/-! ### Posts (R37, R203) -/

/-- The pipe is enabled and its engine on. -/
def State.encOn (s : State) (pe : Nat) : Bool := s.rb .PICT_ENC_CTRL pe 31 && s.pdOn (18 + pe)

/-- Items published into an output FIFO: into its storage, and to its consumer (R202, R206). -/
def State.outPublish (s : State) (pe c : Nat) (items : List (List Word)) (eop : Bool) : State :=
  let f := s.fifo (encOutId pe c)
  (items.zipIdx.foldl (fun s x => s.memWords (f.base + (f.pidx + x.2) % f.depth * f.bytes) (x.1.map BitVec.toNat)) s).setFifo
    (encOutId pe c) (f.publish false items eop)

/-- The FIFO of a post. -/
def EncPost.fifo (pe : Nat) : EncPost → FifoId
  | .out c _ => encOutId pe c
  | .done _ => encDoneId pe

/-- A post, when its FIFO has room for it. -/
def State.tryPost (s : State) (pe : Nat) : EncPost → Option State
  | .out c l => if (s.fifo (encOutId pe c)).accepts false l.length true then some (s.outPublish pe c l true) else none
  | .done it =>
    let f := s.fifo (encDoneId pe)
    if f.accepts false 1 true then some (s.setFifo (encDoneId pe) (f.publish false [it] true)) else none

/-- The posts that wait are made in order, each FIFO's after its earlier ones. -/
def State.payOwed (s : State) (pe : Nat) : State :=
  if s.encOn pe then
    let (s1, left) := (s.encEng pe).owed.foldl (fun (a : State × List EncPost) p =>
      if a.2.any fun q => q.fifo pe == p.fifo pe then (a.1, a.2 ++ [p])
      else match a.1.tryPost pe p with
        | some t => (t, a.2)
        | none => (a.1, a.2 ++ [p])) (s, [])
    s1.updEnc pe fun e => { e with owed := left }
  else s

/-- A post of the pipe; a full FIFO keeps it waiting. -/
def State.encPost (s : State) (pe : Nat) (p : EncPost) : State := (s.updEnc pe fun e => { e with owed := e.owed ++ [p] }).payOwed pe

/-- Elapsed time passes, and the pipe makes the posts that waited. -/
def State.encStep (s : State) (pe el : Nat) : State := (s.advance el).payOwed pe

/-- The completion item of a rendition-picture (R203). -/
def State.encDone (s : State) (pe status r ts : Nat) (starved : Bool) (waveK bytes floor skip : Nat := 0) : State :=
  let it : List Word := [
    putF (putB (putF (putF 0 31 24 status) 23 20 waveK) 19 starved) 10 0 r,
    putF 0 23 0 bytes, putF (putF 0 15 8 floor) 7 0 skip, putF 0 7 0 (s.rend r).stale.length, BitVec.ofNat 32 ts, 0, 0, 0]
  s.encPost pe (.done it)

/-- Room for a completion, after those that wait. -/
def State.encRoom (s : State) (pe : Nat) : Bool :=
  (s.fifo (encDoneId pe)).accepts false 1 true && !(s.encEng pe).owed.any fun p => p.fifo pe == encDoneId pe

/-! ### Pictures (R180 to R182) -/

/-- The decisions that later pictures or the coders read stay (R184). -/
def Group.trimDecs (g : Group) : Group :=
  { g with decs := Tbl.keep g.decs fun q _ => g.last.contains q || Tbl.has g.pics q || g.anRefs.any fun x => x.2 == q }

/-- `ANALYSIS` leaves the buffers that no rendition and no later analysis needs, and their pictures go (R182). -/
def State.sweepPics (s : State) (gi : Nat) : State :=
  let g := s.group gi
  let busy := (s.encEng g.pe).an
  (g.pics.foldl (fun s kv =>
    if kv.2.begun && kv.2.todo.isEmpty && busy != some (gi, kv.1) then
      let keep := g.anRefs.any fun x => x.2 == kv.1
      let s1 := (kv.2.bufs.filter fun x => !(keep && x.1 == 0)).foldl (fun s x => s.unmark x.2 M_ANALYSIS) s
      let rest (t : Tbl EncPic) : Tbl EncPic :=
        if keep then Tbl.set t kv.1 { kv.2 with bufs := kv.2.bufs.filter fun x => x.1 == 0 } else Tbl.del t kv.1
      s1.updGroup gi fun g => { g with pics := rest g.pics }
    else s) s).updGroup gi Group.trimDecs

/-- A rendition has finished with a picture. -/
def State.finishRend (s : State) (r seq : Nat) : State :=
  let gi := (s.rend r).group
  (s.updGroup gi fun g => { g with pics := Tbl.upd g.pics seq fun p => { p with todo := p.todo.filter (· != r) } }).sweepPics gi

/-- The renditions of a group. -/
def State.rendsOf (s : State) (gi : Nat) : List (Nat × Rend) := s.video.rends.filter fun kv => kv.2.group == gi
/-- Does a rendition code pictures? -/
def Rend.live (r : Rend) : Bool := r.st != .paused && !r.removed

/-- A picture that was accepted and not started is dropped (R181). -/
def State.lateDrop (s : State) (gi seq : Nat) : State :=
  let g := s.group gi
  match Tbl.find g.pics seq with
  | none => s
  | some p =>
    let s1 := p.bufs.foldl (fun s x => s.unmark x.2 M_ANALYSIS) s
    let s2 := (s1.updGroup gi fun g => { g with pics := Tbl.del g.pics seq }).cntEnc g.pe E_LATE
    (s2.rendsOf gi).foldl (fun s kv =>
      if kv.2.live then (s.updRend kv.1 fun r => { r with cnt := Tbl.updD r.cnt 0 3 (· + 1) }).encDone g.pe 2 kv.1 p.ts g.starved else s) s2

/-- The valid entries of a global-motion table at an address (R180), in eighths of a sample. -/
def State.readGm (s : State) (w h a : Nat) : Tbl Mv :=
  (List.range (cdiv w 64 * cdiv h 64)).filterMap fun i =>
    let e := Mem.word s.mem (a + 4 * i)
    if bit e 31 then some (i, .ofInt (sx (fld e 11 0) 12) (sx (fld e 27 16) 12)) else none

/-- A 40-bit address in two words of an item. -/
def itemAddr (it : List Word) (i : Nat) : Nat := (nth it 0 i).toNat + 2 ^ 32 * fld (nth it 0 (i + 1)) 7 0

/-- An item that the pipe takes from its input FIFO. -/
def State.acceptItem (s : State) (pe : Nat) (it : List Word) : State :=
  let w (i : Nat) : Word := nth it 0 i
  let gi := fld (w 0) 10 0
  match Tbl.find s.video.groups gi with
  | none => s.cntEnc pe E_LOST
  | some g =>
    if g.pe ≠ pe ∨ g.removed then s.cntEnc pe E_LOST
    else
      let dmg := if bit (w 0) 31 then some (s.readDamage g.w g.h (itemAddr it 10)) else none
      let gmv := if bit (w 0) 30 then s.readGm g.w g.h (itemAddr it 12) else []
      let bufs : Tbl Buf := ((List.range 6).map fun c => (c, (⟨fld (w (4 + c)) 19 0, fld (w (4 + c)) 23 20⟩ : Buf))).filter
        fun x => x.2.fbh != NO_FBH
      let seq := g.nextPic
      let s := s.updGroup gi fun g => { g with nextPic := seq + 1, hist := Tbl.set g.hist seq dmg }
      let (s1, got, ok) := bufs.foldl (fun (a : State × List Buf × Bool) x =>
        if a.2.2 then
          match a.1.markSet x.2 M_ANALYSIS with
          | (0, u) => (u, x.2 :: a.2.1, true)
          | (_, u) => (u, a.2.1, false)
        else a) (s, [], true)
      if !ok then (got.foldl (fun s b => s.unmark b M_ANALYSIS) s1).cntEnc pe E_LOST
      else
        let p : EncPic := {
          ts := (w 1).toNat, capture := (w 2).toNat + 2 ^ 32 * (w 3).toNat, bufs, damage := dmg, gm := bit (w 0) 30, gmv, slot := seq }
        let s2 := s1.updGroup gi fun g => { g with pics := Tbl.set g.pics seq p }
        match (s2.group gi).pics.filter fun kv => !kv.2.begun with
        | a :: _ :: _ :: _ => s2.lateDrop gi a.1
        | _ => s2

/-- The pipe takes the item at the head of its input FIFO. -/
def State.acceptOne (s : State) (pe : Nat) : State :=
  let f := s.fifo (encInId pe)
  match f.ends, f.items with
  | _ :: _, it :: _ => if s.encOn pe then (s.setFifo (encInId pe) (f.consume 1)).acceptItem pe it else s
  | _, _ => s

/-- The pipe takes every item that its input FIFO holds: what a post brings, before the post completes (R181). -/
def State.acceptAll (s : State) (pe : Nat) : State :=
  (List.range (s.fifo (encInId pe)).items.length).foldl (fun s _ => s.acceptOne pe) s

/-- ENC_INPUT_ACCEPT (R181): the pipe takes an item that its input FIFO still holds, posted before it was enabled. -/
def execEncInputAccept (pe : Fin 8) (el : Nat) (s : State) : Res := .next ((s.encStep pe.val el).acceptOne pe.val)

/-! ### Starvation (R201) -/

/-- The group's requests were held back too long in the picture in progress: once in a picture the raise of its targets grows, and
at most once a second its owner hears of it. -/
def State.starve (s : State) (gi : Nat) : State :=
  match Tbl.find s.video.groups gi with
  | none => s
  | some g =>
    if g.hit || g.removed then s
    else
      let d := codecHalf g.codec
      let s1 := (s.updGroup gi fun g => { g with hit := true, starved := true, raise := g.raise + d, peak := g.raise + d }).cntEnc g.pe E_STARVED
      let s2 := s1.updEnc g.pe fun e => { e with
        coders := Tbl.mapv e.coders fun _ j => if (s.rend j.rend).group = gi then { j with starved := true } else j }
      if g.starvedAt = 0 ∨ g.starvedAt + 1000000000 ≤ s.ela + 1 then
        (s2.updGroup gi fun g => { g with starvedAt := s.ela + 1 }).notify g.own.fn 0x0780 gi
      else s2

/-- STARVED_RAISE (R201). -/
def execStarvedRaise (group : Nat) (el : Nat) (s : State) : Res := .next ((s.advance el).starve group)

/-- A picture has ended: after one without STARVED the raise of the target falls (R201). -/
def Group.endPicture (g : Group) : Group :=
  if g.hit then { g with hit := false }
  else
    let r := g.raise - cdiv g.peak 4
    { g with starved := false, raise := r, peak := if r = 0 then 0 else g.peak }

/-! ### Waves (R195, R196) -/

/-- Is a wave of the group's renditions still to be started on some picture? -/
def State.waveRunning (s : State) (gi : Nat) : Bool :=
  (s.rendsOf gi).any fun kv => kv.2.live && (match kv.2.left with | some (_ + 1) => true | _ => false)

/-- Is some rendition STEADY, as analysis plans? -/
def State.anySteady (s : State) (gi : Nat) : Bool := (s.rendsOf gi).any fun kv => kv.2.live && kv.2.left == some 0

/-- Strata's requests for a wave of the group's streams become the group's request (R55, R195). -/
def State.takeWaveReq (s : State) (gi : Nat) : State :=
  let outs := (s.rendsOf gi).map fun kv => kv.2.outStream
  if s.net.waveReq.any outs.contains then
    (s.updNet fun n => { n with waveReq := n.waveReq.filter fun x => !outs.contains x }).updGroup gi fun g => { g with asked := true }
  else s

/-- The wave that is due at the start of a T0 picture (R195): its length, and the state. The first wave is the one that follows the
grey starts. -/
def State.waveDue (s : State) (gi : Nat) : Option Nat × State :=
  let g := s.group gi
  let s1 := s.updGroup gi fun g => { g with since := g.since.map (· + 1) }
  let start (s : State) : State := (s.updGroup gi fun g => { g with since := some 0 }).cntEnc g.pe E_WAVES
  if s.waveRunning gi then (none, if g.since = none then start s1 else s1)
  else if !s.anySteady gi then (none, s1)
  else if g.asked then (some g.earlyN, (start s1).updGroup gi fun g => { g with asked := false })
  else match (s1.group gi).since with
    | some n => if g.period ≤ n then (some g.waveN, start s1) else (none, s1)
    | none => (none, s1)

/-- A rendition's part in a picture whose analysis starts (R191, R195): its first is the grey start, and then come the pictures of
the wave in progress or of one that is due. -/
def Rend.plan (r : Rend) (seq startN : Nat) (due : Option Nat) : Rend × RendPic :=
  let p : RendPic := { seq, epoch := r.epoch }
  match r.left, due with
  | none, _ => ({ r with left := some startN, planN := startN }, p)
  | some (m + 1), _ => ({ r with left := some m }, { p with wave := true })
  | some 0, some n => ({ r with left := some (n - 1), planN := n }, { p with wave := true, first := some n })
  | some 0, none => (r, p)

/-- A picture that a rendition does not code advances no wave (R181, R197): what was planned for it goes to the next. -/
def Rend.unplan (r : Rend) (t : Nat) (p : RendPic) : Rend :=
  if t = 0 ∧ p.epoch = r.epoch ∧ (p.wave || r.st == .start) = true then
    { r with left := r.left.map (· + 1), startDue := if p.first.isSome then p.first else r.startDue }
  else r

/-- A rendition starts over with a grey start picture (R196). -/
def Rend.restart (r : Rend) : Rend :=
  { r with st := .start, k := 0, n := 0, left := none, startDue := none, fresh := false, epoch := r.epoch + 1 }
/-- A rendition resumes with a wave of its own (R196). -/
def Rend.resume (r : Rend) (n : Nat) : Rend :=
  { r with st := .wave, k := 0, n, left := some n, planN := n, startDue := none, epoch := r.epoch + 1 }
/-- A rendition pauses; its references stay (R196). -/
def Rend.pause (r : Rend) (fresh : Bool) : Rend :=
  { r with st := .paused, left := some 0, startDue := none, fresh := r.fresh || fresh, epoch := r.epoch + 1 }
/-- A rendition whose wave is broken off waits for the next one (R209). -/
def Rend.hold (r : Rend) : Rend :=
  match r.st with
  | .paused => r
  | .start => r.restart
  | _ => { r with st := .steady, k := 0, left := some 0, startDue := none, epoch := r.epoch + 1 }

/-! ### Analysis (R182 to R188) -/

/-- The caps of a rendition (R103, R197). -/
def State.capsOf (_s : State) (r : Rend) : Option Caps := if r.fixed then some r.fixedCaps else r.est

/-- The group that R29 picks, and its oldest picture that waits. -/
def State.nextAnalysis (s : State) (pe : Nat) : Option (Nat × Nat) :=
  let l := (s.video.groups.filter fun kv => kv.2.pe == pe && !kv.2.removed).filterMap fun kv =>
    ((kv.2.pics.filter fun x => !x.2.begun).head?).map fun x => (kv.1, x.1)
  let p := (s.encEng pe).ptr
  match l.find? fun x => decide (p ≤ x.1) with
  | some x => some x
  | none => l.head?

/-- ANALYSIS_START (R182): the analysis unit takes a picture; due waves start, and the picture keeps its caps. -/
def execAnalysisStart (pe : Fin 8) (el : Nat) (s : State) : Res :=
  let pe := pe.val
  let s := s.encStep pe el
  if !s.encOn pe || (s.encEng pe).an.isSome then .next s
  else match s.nextAnalysis pe with
    | none => .next s
    | some (gi, seq) =>
      let s1 := (s.updGroup gi Group.endPicture).takeWaveReq gi
      let g := s1.group gi
      let p := Tbl.get g.pics {} seq
      let t0 := tempLayer g.temporal p.slot == 0
      let (due, s2) := if t0 then s1.waveDue gi else (none, s1)
      let rs := (s2.rendsOf gi).filter fun kv => kv.2.live && Tbl.has p.bufs kv.2.scale && (kv.2.left.isSome || t0)
      let plans := rs.map fun kv => (kv.1, if t0 then kv.2.plan seq g.startN due else (kv.2, { seq, epoch := kv.2.epoch }))
      let p' := { p with
        begun := true, since := s.ela, todo := rs.map (·.1), caps := rs.map fun kv => (kv.1, s2.capsOf kv.2)
        plan := plans.map fun x => (x.1, x.2.2) }
      let s3 := plans.foldl (fun s x => s.updRend x.1 fun _ => x.2.1) s2
      .next ((s3.updGroup gi fun g => { g with pics := Tbl.set g.pics seq p' }).updEnc pe fun e =>
        { e with an := some (gi, seq), ptr := (gi + 1) % 2048 })

/-- Analysis references after a picture of a layer (R205). -/
def anRefsAfter (temporal t seq : Nat) (l : Tbl Nat) : Tbl Nat :=
  if t = 0 then [(0, seq)] else if t = 1 ∧ temporal = 2 then Tbl.set l 1 seq else l

/-- The picture that one of layer `t` references (R205), of the latest of layers T0 and T1. -/
def refOf (t : Nat) : Option Nat → Option Nat → Option Nat
  | some a, some b => some (if t = 2 then max a b else a)
  | some a, none => some a
  | none, _ => none

/-- The newest picture that a picture of layer `t` references. -/
def Rend.refSeq (r : Rend) (t : Nat) : Option Nat := refOf t ((Tbl.find r.refs 0).map (·.2)) ((Tbl.find r.refs 1).map (·.2))

/-- A sample of a buffer's luma; places beyond the edges take the edge's. -/
def State.lumaAt (s : State) (b : Buf) (w h : Nat) (x y : Int) : Nat :=
  storedSample s.mem (s.bufAddr b.fbh) w h (s.ent b.fbh).p010 .y (min x.toNat (w - 1)) (min y.toNat (h - 1))

/-- The wave picture that analysis plans for a rendition with a picture: number and length. -/
def Rend.planned (r : Rend) (t : Nat) (p : RendPic) : Nat × Nat :=
  match r.left with
  | some m => if (t = 0 ∧ p.wave) ∨ (t ≠ 0 ∧ 0 < m) then (r.planN - m, r.planN) else (0, r.planN)
  | none => (0, 0)

/-- A rendition-picture as analysis foresees it. -/
def State.foreseen (s : State) (i t : Nat) (p : RendPic) : CoderJob :=
  let r := s.rend i
  let (w, h) := s.rendDims r
  let (k, n) := r.planned t p
  let (lo, hi) := (s.group r.group).waveLimits w h (scaleAB r.scale) t n k
  { rend := i, pic := p, k := if t = 0 then k else 0, n, lo, hi, ref := r.refSeq t }

/-- The superblocks of the canvas that only undamaged units of the renditions cover (R188). -/
def State.unsearched (s : State) (gi t : Nat) (p : EncPic) : List Nat :=
  let g := s.group gi
  let cols := cdiv g.w 64
  let dirty := p.plan.flatMap fun x =>
    let r := s.rend x.1
    let j := s.foreseen x.1 t x.2
    let dmg := s.jobDamage j
    let u := unitSize g.codec
    let (w, h) := s.rendDims r
    ((s.units r).filter fun q => !s.clean j dmg q.1 q.2).map fun q =>
      (sbSpan (scaleAB r.scale) g.w 0 q.1 (min u (w - q.1)), sbSpan (scaleAB r.scale) g.h 0 q.2 (min u (h - q.2)))
  if p.plan.isEmpty then [] else (List.range (cols * cdiv g.h 64)).filter fun i => !dirty.any fun d => spansHit cols d.1 d.2 [i]

/-- What the search of a group's picture reads. -/
def State.searchOf (s : State) (gi seq : Nat) : Search :=
  let g := s.group gi
  let p := Tbl.get g.pics {} seq
  let t := tempLayer g.temporal p.slot
  let refSeq := refOf t (Tbl.find g.anRefs 0) (Tbl.find g.anRefs 1)
  let ref := refSeq.bind fun q => (Tbl.find g.pics q).bind fun x => Tbl.find x.bufs 0
  let cur := Tbl.get p.bufs {} 0
  let decs (q : Option Nat) : Tbl BlkDec := match q with | some q => Tbl.get g.decs [] q | none => []
  let (k, n) := (p.plan.findSome? fun x =>
    let y := (s.rend x.1).planned t x.2
    if y.1 = 0 then none else some y).getD (0, 0)
  { w := g.w, h := g.h, codec := g.codec, deep := (s.ent cur.fbh).p010
    cur := s.lumaAt cur g.w g.h, ref := match ref with | some b => s.lumaAt b g.w g.h | none => fun _ _ => 0, hasRef := ref.isSome
    qe := costQ g.codec ((((s.rendsOf gi).filter fun kv => !kv.2.removed).map fun kv => kv.2.qTarget).min?.getD 0)
    starved := g.starved, gmv := p.gmv, co := decs refSeq, prev := decs g.last.head?, prev2 := decs (g.last.drop 1).head?
    rows := g.rows, lo := (g.waveLimits g.w g.h (1, 1) t n k).1, skip := s.unsearched gi t p }

/-- The costs of the analysis blocks that a row of a rendition covers (R186). -/
def rowCosts (g : Group) (d : Tbl BlkDec) (ab : Nat × Nat) (r : Nat) : List Nat :=
  let bw := cdiv g.w 8
  let lo := r * 64 * ab.2 / (8 * ab.1)
  let hi := min (cdiv g.h 8) (cdiv ((r + 1) * 64 * ab.2) (8 * ab.1))
  (List.range (hi - lo)).flatMap fun y => (List.range bw).map fun x =>
    let k := Tbl.get d {} ((lo + y) * bw + x)
    if k.intra then k.icost else k.cost

/-- The row records of a rendition-picture: the estimates at its target and its `Q_MAX` (R186), and the floor bounds (R199), which
the free data numbered `c` fix. -/
def rowRecords (r : Rend) (rows : List (List Nat)) (c : Nat) : List (Nat × Nat × Nat) :=
  rows.zipIdx.map fun x =>
    (Config.rowEstimate r.ratio r.qTarget x.1, Config.rowEstimate r.ratio r.qMax x.1,
      sumN ((List.range (rows.length - x.2)).map fun i => Config.floorRow c (x.2 + i)))

/-- A picture whose analysis is complete goes to a rendition's coder, unless the rendition has paused or started over since. -/
def State.queuePic (s : State) (g : Group) (p : EncPic) (d : Tbl BlkDec) (seq i : Nat) : State :=
  let r := s.rend i
  let pl := Tbl.get p.plan {} i
  if r.live && pl.epoch == r.epoch then
    let rows := (List.range (cdiv (s.rendDims r).2 64)).map (rowCosts g d (scaleAB r.scale))
    { s.updRend i fun x => { x with
        queue := x.queue ++ [{ pl with caps := Tbl.get p.caps none i, rows := rowRecords r rows s.freeCtr }] } with freeCtr := s.freeCtr + 1 }
  else s.finishRend i seq

/-- A rendition's part of a picture that analysis could not read ends ABORTED; what was planned for it goes to the next picture
(R203, R341). -/
def State.abortPlanned (s : State) (g : Group) (p : EncPic) (seq i : Nat) : State :=
  let r := s.rend i
  let pl := Tbl.get p.plan {} i
  if r.live && pl.epoch == r.epoch then
    ((s.updRend i fun r => r.unplan (tempLayer g.temporal p.slot) pl).encDone g.pe 5 i p.ts g.starved).finishRend i seq
  else s.finishRend i seq

/-- ANALYSIS_COMPLETE (R183 to R188): the decisions and row estimates of a picture go to its renditions' coders. A picture that cannot
be read ends ABORTED (R341). -/
def execAnalysisComplete (pe : Fin 8) (unread : Bool) (el : Nat) (s : State) : Res :=
  let pe := pe.val
  let s := s.encStep pe el
  match (s.encEng pe).an with
  | none => .next s
  | some (gi, seq) =>
    let g := s.group gi
    let p := Tbl.get g.pics {} seq
    if !s.encOn pe then .next s
    else if unread then
      .next ((p.todo.foldl (fun s i => s.abortPlanned g p seq i) (s.updEnc pe fun e => { e with an := none })).sweepPics gi)
    else
      let d := (s.searchOf gi seq).run
      let s1 := (s.cntEnc pe E_ANALYSED).updEnc pe fun e =>
        { e with an := none, anLoad := (s.ela, g.w * g.h) :: e.anLoad.filter fun x => decide (s.ela < x.1 + 100000000) }
      let s2 := p.todo.foldl (fun s i => s.queuePic g p d seq i) s1
      .next ((s2.updGroup gi fun g => { g with
        anRefs := anRefsAfter g.temporal (tempLayer g.temporal p.slot) seq g.anRefs
        decs := Tbl.set g.decs seq d, last := (seq :: g.last).take 2 }).sweepPics gi)

end Sys2Proof.Machine
end

