-- ==== Sys2Proof/Machine/EncCode.lean ====
section
/-! DEFINITION. The residual coders: headers, rate control, rows, output, and the moves of groups (R177, R182, R187 to R194, R196 to
R206, R209). -/

namespace Sys2Proof.Machine

/-! ### Pictures that go (R182, R196) -/

/-- A rendition's queue of pictures is given up. -/
def State.dropQueue (s : State) (r : Nat) : State :=
  let l := (s.rend r).queue
  l.foldl (fun s p => s.finishRend r p.seq) (s.updRend r fun x => { x with queue := [] })

/-- The reconstructions of a rendition lose `ENC_REF`. -/
def State.dropRefs (s : State) (r : Nat) : State :=
  (s.rend r).refs.foldl (fun s kv => s.unmark kv.2.1 M_ENC_REF) (s.updRend r fun x => { x with refs := [] })

/-- A group that goes is gone once it has no rendition and no picture in analysis. -/
def State.sweepGroup (s : State) (gi : Nat) : State :=
  let g := s.group gi
  if g.removed && (s.rendsOf gi).isEmpty && !(match (s.encEng g.pe).an with | some (x, _) => x == gi | none => false) then
    (g.pics.foldl (fun s kv => kv.2.bufs.foldl (fun s x => s.unmark x.2 M_ANALYSIS) s) s).updVideo fun v =>
      { v with groups := Tbl.del v.groups gi }
  else s

/-- Is a coder at work on the rendition? -/
def State.coding (s : State) (r : Nat) : Bool :=
  (s.encEng (s.group (s.rend r).group).pe).coders.any fun kv => kv.2.rend == r

/-- A rendition that goes is gone once no coder works on it (R196). -/
def State.sweepRend (s : State) (r : Nat) : State :=
  if (s.rend r).removed && !s.coding r then
    let gi := (s.rend r).group
    let s1 := ((s.dropQueue r).dropRefs r)
    let s2 := (s1.group gi).pics.foldl (fun s kv => s.finishRend r kv.1) s1
    (s2.updVideo fun v => { v with rends := Tbl.del v.rends r }).sweepGroup gi
  else s

/-- The coder ends its work on a picture. -/
def State.endJob (s : State) (pe c : Nat) (j : CoderJob) : State :=
  ((s.updEnc pe fun e => { e with coders := Tbl.del e.coders c }).finishRend j.rend j.pic.seq).sweepRend j.rend

/-- A coder keeps its picture. -/
def State.setJob (s : State) (pe c : Nat) (j : CoderJob) : State := s.updEnc pe fun e => { e with coders := Tbl.set e.coders c j }

/-- The RTP timestamp and record of a job's picture. -/
def State.jobPic (s : State) (j : CoderJob) : EncPic := Tbl.get (s.group (s.rend j.rend).group).pics {} j.pic.seq
/-- The temporal layer of a job's picture. -/
def State.jobLayer (s : State) (j : CoderJob) : Nat :=
  tempLayer (s.group (s.rend j.rend).group).temporal (s.jobPic j).slot

/-- Bytes that the coder has emitted of a picture. -/
def CoderJob.emitted (j : CoderJob) : Nat := if j.row = 0 then 0 else j.header.getD 0 + j.used

/-- The completion of a job (R203). -/
def State.jobDone (s : State) (pe status : Nat) (j : CoderJob) : State :=
  s.encDone pe status j.rend (s.jobPic j).ts j.starved (j.k % 16) j.emitted j.floorRows j.skipped.length

/-- A picture that its coder does not code completes, and the wave goes on with the next (R181, R190, R197, R204). -/
def State.notCoded (s : State) (pe c status : Nat) (j : CoderJob) : State :=
  ((s.updRend j.rend fun r => r.unplan (s.jobLayer j) j.pic).jobDone pe status j).endJob pe c j

/-! ### The next picture (R182) -/

/-- The class in which a coder serves a rendition: its next picture in a wave or with stale rows, or not (R182). -/
def Rend.inWave (r : Rend) : Bool := r.st == .wave || !r.stale.isEmpty || (r.queue.headD {}).wave

/-- The rendition that a coder serves next, and its class (R30, R182). -/
def State.nextRend (s : State) (pe c : Nat) : Option (Nat × Nat) :=
  let l := s.video.rends.filter fun kv => kv.2.coder == c && (s.group kv.2.group).pe == pe && !kv.2.queue.isEmpty && kv.2.live
  (arbitrate (fun k => Tbl.get (s.encEng pe).ptrs 0 (2 * c + k)) (l.map fun kv => (kv.1, if kv.2.inWave then 0 else 1))).map
    fun x => (x.2, x.1)

/-! ### Reconstructions (R204) -/

/-- Allocate a buffer of a region whose buffers are large enough. -/
def State.allocFit (s : State) (r bytes : Nat) : Option (Buf × State) :=
  if s.rgnBytes r < bytes then none else s.poolAlloc r

/-- The coder allocates the reconstruction; with none free it waits (R204). -/
def State.reconAlloc (s : State) (pe c : Nat) (j : CoderJob) : State :=
  let r := s.rend j.rend
  match s.allocFit r.region (frameBytes (s.rendDims r).1 (s.rendDims r).2 r.p010) with
  | some (b, s1) => s1.setJob pe c { j with buf := some b }
  | none => s.setJob pe c j

/-- No buffer in time. -/
def State.encNoBuffer (s : State) (pe c : Nat) (j : CoderJob) : State := (s.cntEnc pe E_NO_BUFFER).notCoded pe c 3 j

/-! ### Headers (R189, R191, R193) -/

/-- Pictures of the pattern for each T0 picture, and those of them that others reference (R205). -/
def patternLen (temporal : Nat) : Nat := match temporal with | 0 => 1 | 1 => 2 | _ => 4
def patternRefs (temporal : Nat) : Nat := if temporal = 2 then 2 else 1

/-- What the header of a picture says, and its packets' descriptors. -/
def headerElems (g : Group) (r : Rend) (j : CoderJob) (q : Nat) : List HdrElem :=
  let m := patternLen g.temporal
  let params := HdrElem.params (bitStruct g.codec r.profile r.p010)
  if j.grey then [params, .key, .picture q false, .rp, .wd]
  else
    (if j.k = 1 then
      (match g.codec with
        | 4 => [.recovery ((j.n - 1) * patternRefs g.temporal) true false]
        | 5 => [.recovery ((j.n - 1) * m) true false]
        | _ => [params, .switch 0xFF, .metadata 24 [1, (j.n - 1) * m, 0], .aggN]) ++ [.rp, .ddSwitch]
    else []) ++ (if j.k ≠ 0 ∧ j.k = j.n then [.wd] else [])
      ++ (match g.codec, j.ref with | 6, some q => if 1 < j.k then [.primary q] else [] | _, _ => [])
      ++ [.picture q (g.codec != 4 && j.k == 0)]

/-- The header's bytes in the rendition-context area; where its last byte is not full the picture data goes on in it, most
significant bits first. -/
def State.headerBytes (s : State) (pe : Nat) (h : EncHdr) : List Byte :=
  let l := Mem.read s.mem (s.rf .PICT_ENC_CTX_BASE pe 19 0 * 2 ^ 20 + h.off) (cdiv h.bits 8)
  let m := 2 ^ (8 * cdiv h.bits 8 - h.bits)
  if m = 1 then l
  else l.dropLast ++ [BitVec.ofNat 8 ((l.getLast?.getD 0).toNat / m * m + (Config.freeByte s.freeCtr 0).toNat % m)]

/-- The header item of an output packet (R202). -/
def State.outHeader (s : State) (j : CoderJob) : List Word :=
  let p := s.jobPic j
  let w0 := putF (putF 0 31 21 j.rend) 20 18 (s.jobLayer j)
  let w0 := putB (putB (putB w0 17 (j.grey || j.k == 1)) 16 (j.grey || (j.k != 0 && j.k == j.n))) 15 j.grey
  [w0, BitVec.ofNat 32 p.ts, BitVec.ofNat 32 p.capture, BitVec.ofNat 32 (p.capture / 2 ^ 32), BitVec.ofNat 32 (s.rend j.rend).count]
    ++ List.replicate 11 0

/-- The trailer item (R202). -/
def outTrailer (status bytes : Nat) (j : CoderJob) : List Word :=
  [putF (putF 0 31 24 status) 23 0 bytes, putF (putF 0 31 16 j.floorRows) 15 0 j.skipped.length,
    BitVec.ofNat 32 (if j.qs.isEmpty then 0 else sumN j.qs / j.qs.length % 256)] ++ List.replicate 13 0

/-- The bytes of an item. -/
def itemBytes (l : List Word) : List Byte := l.flatMap fun w => toLe 4 w.toNat
/-- The items that a list of bytes fills. -/
def bytesItems (l : List Byte) : List (List Word) :=
  (List.range (l.length / 64)).map fun i => (List.range 16).map fun j => BitVec.ofNat 32 (leNat ((l.drop (64 * i + 4 * j)).take 4))
/-- Zeros that fill the last item. -/
def padItem (l : List Byte) : List Byte := l ++ List.replicate (64 * cdiv l.length 64 - l.length) 0

/-! ### The start of a picture (R190, R191, R194 to R197) -/

/-- A picture dropped by its cap (R197). -/
def State.capDrop (s : State) (pe c : Nat) (j : CoderJob) : State :=
  let l := s.ela :: (s.rend j.rend).drops.filter fun t => decide (s.ela < t + 1000000000)
  let s1 := (s.cntEnc pe E_CAP).updRend j.rend fun r => { r with drops := l, cnt := Tbl.updD r.cnt 0 2 (· + 1) }
  let r := s1.rend j.rend
  let s2 := if r.dropAt = 0 ∨ r.dropAt + 1000000000 ≤ s.ela + 1 then
      (s1.updRend j.rend fun r => { r with dropAt := s.ela + 1 }).notify r.own.fn 0x0781 j.rend [l.length]
    else s1
  s2.notCoded pe c 1 j

/-- The first rows of a list of stale rows, top first. -/
def topRows (n : Nat) (l : List Nat) : List Nat := ((List.range 64).filter l.contains).take n

/-- The floor bound of the rows from `r` on. -/
def CoderJob.f (j : CoderJob) (r : Nat) : Nat := (nth j.pic.rows (0, 0, 0) r).2.2

/-- The wave picture that a T0 picture is: number and length; none outside a wave (R195, R196). -/
def Rend.waveStep (r : Rend) (p : RendPic) : Nat × Nat :=
  match r.st, p.first.orElse fun _ => r.startDue with
  | .wave, _ => (r.k + 1, r.n)
  | .steady, some n => (1, n)
  | _, _ => (0, 0)

/-- The budget of a picture (R197), less its header. -/
def Rend.avail (r : Rend) (p : RendPic) : Option Nat := p.caps.map fun x => min x.pic (x.win - sumN (r.window.take (x.pics - 1)))

/-- A coder has its picture's header: what the picture is, its budget, and the reconstruction (R191 to R197, R204). A picture planned
before its rendition paused or started over, or one of a higher layer before the grey start, is not coded. -/
def State.beginPic (s : State) (pe c : Nat) (j : CoderJob) (hdr : EncHdr) : State :=
  let r := s.rend j.rend
  let g := s.group r.group
  let t := s.jobLayer j
  let hb := s.headerBytes pe hdr
  let avail := r.avail j.pic
  if j.pic.epoch ≠ r.epoch ∨ (r.st = .start ∧ t ≠ 0) then s.notCoded pe c 5 j
  else if (match avail with | some a => decide (a < hb.length + j.f 0) | none => false) then s.capDrop pe c j
  else
    let (k, n) := if t = 0 then r.waveStep j.pic else (0, 0)
    let (w, h) := s.rendDims r
    let (lo, hi) := if t = 0 then g.waveLimits w h (scaleAB r.scale) 0 n k
      else if r.st = .wave then g.waveLimits w h (scaleAB r.scale) t r.n r.k else (0, 0)
    let j := { j with
      header := some hb.length, since := s.ela, grey := r.st == RendSt.start, k, n, lo, hi
      budget := avail.map (· - hb.length)
      target := s.effTarget r
      ref := r.refSeq t
      refresh := if r.st = RendSt.start then [] else topRows g.staleRows r.stale }
    ({ s with freeCtr := s.freeCtr + 1 } : State).reconAlloc pe c { j with elems := headerElems g r j j.target, tail := itemBytes (s.outHeader j) ++ hb }

/-- CODER_START (R182, R190, R197, R204): the coder takes the next rendition-picture, or goes on with the one that waits for
its header or its buffer. -/
def execCoderStart (pe : Fin 8) (coder : Fin 4) (header : Option EncHdr) (el : Nat) (s : State) : Res :=
  let pe := pe.val
  let s := s.encStep pe el
  let c := coder.val
  let go (s : State) (j : CoderJob) : State :=
    match header with
    | some h => s.beginPic pe c j h
    | none => s.setJob pe c j
  if !s.encOn pe || !s.encRoom pe then .next s
  else match Tbl.find (s.encEng pe).coders c with
    | some j =>
      if j.buf.isSome then .next s
      else if j.header.isSome then .next (if j.since + 2000000 < s.ela then s.encNoBuffer pe c j else s.reconAlloc pe c j)
      else .next (if j.since + 1000000 < s.ela then s.notCoded pe c 4 j else go s j)
    | none => match s.nextRend pe c with
      | none => .next s
      | some (r, cls) =>
        let pic := (s.rend r).queue.headD {}
        let s1 := (s.updRend r fun x => { x with queue := x.queue.drop 1 }).updEnc pe fun e =>
          { e with ptrs := Tbl.set e.ptrs (2 * c + cls) ((r + 1) % 2048) }
        .next (go s1 { rend := r, pic, since := s.ela, starved := (s.group (s.rend r).group).starved })

/-- HEADER_WAIT_TIMEOUT (R190). -/
def execHeaderWaitTimeout (pe : Fin 8) (coder : Fin 4) (el : Nat) (s : State) : Res :=
  let s := s.encStep pe.val el
  match Tbl.find (s.encEng pe.val).coders coder.val with
  | none => .next s
  | some j =>
    if j.header.isNone && decide (j.since + 1000000 ≤ s.ela) && s.encRoom pe.val then .next (s.notCoded pe.val coder.val 4 j)
    else .next s

/-- RECON_ALLOC_TIMEOUT (R204). -/
def execReconAllocTimeout (pe : Fin 8) (coder : Fin 4) (el : Nat) (s : State) : Res :=
  let s := s.encStep pe.val el
  match Tbl.find (s.encEng pe.val).coders coder.val with
  | none => .next s
  | some j =>
    if j.header.isSome && j.buf.isNone && decide (j.since + 2000000 ≤ s.ela) && s.encRoom pe.val then .next (s.encNoBuffer pe.val coder.val j)
    else .next s

/-! ### Rows (R187, R198 to R202) -/

/-- A row's estimate at quantiser `q` (R198): max(m, ⌊e × 2^(-(q - target) / h)⌋). -/
def rowEst (h target q : Nat) (row : Nat × Nat × Nat) : Nat := max row.2.1 (iroot h (row.1 ^ h / 2 ^ (q - target)))

/-- The quantiser of the next row, and whether the picture is in floor mode (R198). -/
def State.rowQ (s : State) (j : CoderJob) : Nat × Bool :=
  let r := s.rend j.rend
  let h := codecHalf (s.group r.group).codec
  let t := j.target
  if j.floorMode then (r.qMax, true)
  else match j.budget with
    | none => (t, false)
    | some b =>
      let rows := j.pic.rows.drop j.row
      match ((List.range (r.qMax + 1 - t)).map (t + ·)).find? fun q => decide (sumN (rows.map (rowEst h r.qTarget q)) ≤ b - j.used) with
      | some q => (q, false)
      | none => (r.qMax, true)

/-- The decision of the analysis block that holds the centre of a rendition's block, mapped to the canvas (R187). -/
def decisionAt (g : Group) (d : Tbl BlkDec) (ab : Nat × Nat) (x y : Nat) : BlkDec :=
  Tbl.get d {} (min ((y + 4) * ab.2 / ab.1) (g.h - 1) / 8 * cdiv g.w 8 + min ((x + 4) * ab.2 / ab.1) (g.w - 1) / 8)

/-- How the block at a place of a picture is coded, in a row that is floor-skip or not (R187, R188, R191, R192, R199, R200). -/
def State.blkForm (s : State) (j : CoderJob) (dmg : Option (List Nat)) (skip : Bool) (x y : Nat) : BlkForm :=
  let r := s.rend j.rend
  let g := s.group r.group
  let p := if g.rows then y else x
  let zero : BlkForm := .zero (zeroForm g.codec (Config.zeroPred s.freeCtr x y))
  let intra : BlkForm := .intra (if j.k != 0 && decide (p < j.hi) then some j.hi else none)
  let d := decisionAt g (Tbl.get g.decs [] j.pic.seq) (scaleAB r.scale) x y
  if j.grey then .dcIntra
  else if skip then (if j.inIntra p 8 then .dcIntra else zero)
  else if j.inIntra p 8 || j.refresh.contains (y / 64) then intra
  else if s.clean j dmg x y then zero
  else if d.intra then intra
  else
    let v := scaleMv g.codec (scaleAB r.scale) d.mv
    .inter (if breaksWave g.codec j.lo p (if g.rows then v.dy else v.dx) then {} else v)

/-- The coder publishes the items that it has filled while its output FIFO has room (R37, R202). -/
def State.drain (s : State) (pe c : Nat) (j : CoderJob) : State × CoderJob :=
  let f := s.fifo (encOutId pe c)
  let room := if f.misconf || ((s.encEng pe).owed.any fun p => p.fifo pe == encOutId pe c) then 0 else f.depth - f.level
  let n := min room (j.tail.length / 64)
  if n = 0 ∨ j.row = 0 then (s, j)
  else (s.outPublish pe c (bytesItems (j.tail.take (64 * n))) false, { j with tail := j.tail.drop (64 * n), items := j.items + n, stall := none })

/-- A full output FIFO stalls the coder; a stall longer than `STARVE_US` counts as STARVED (R202). -/
def State.stallJob (s : State) (pe c : Nat) (j : CoderJob) : State :=
  let s1 := s.setJob pe c { j with stall := some (j.stall.getD s.ela) }
  if j.stall.getD s.ela + 1000 * s.rf .PICT_ENC_CTRL pe 15 0 < s.ela then s1.starve (s.rend j.rend).group else s1

/-- A coded row's bytes: free data. -/
def State.rowData (s : State) (n : Nat) : List Byte := (List.range n).map (Config.freeByte s.freeCtr)

/-- The picture that a coder works on ends ABORTED; engine `by'` posts the completion when it can (R37). An output packet that is lost
with its engine has no trailer. -/
def State.abortJob (s : State) (pe c by' : Nat) (lost : Bool) : State :=
  match Tbl.find (s.encEng pe).coders c with
  | none => s
  | some j =>
    let s1 := match j.buf with | some b => s.poolDrop b | none => s
    let s2 := if j.row = 0 ∨ lost = true then s1 else s1.encPost pe (.out c [outTrailer 1 j.emitted j])
    (s2.jobDone by' 5 j).endJob pe c j

/-- CODER_ROW_COMMIT (R198, R199): the next row, which coded at its quantiser takes `bytes`, is committed as coded or as
floor-skip; its items go to the output FIFO, which stalls the coder while it is full (R202). A picture whose canvas or reference cannot be read
ends ABORTED (R341). -/
def execCoderRowCommit (pe : Fin 8) (coder : Fin 4) (bytes : Nat) (unread : Bool) (el : Nat) (s : State) : Res :=
  let pe := pe.val
  let s := s.encStep pe el
  let c := coder.val
  match Tbl.find (s.encEng pe).coders c with
  | none => .next s
  | some j =>
    if !s.encOn pe || j.buf.isNone then .next s
    else if unread then .next ((s.updRend j.rend fun r => r.unplan (s.jobLayer j) j.pic).abortJob pe c pe false)
    else
      let (s, j) := s.drain pe c j
      if j.row ≠ 0 ∧ 64 ≤ j.tail.length then .next (s.stallJob pe c j)
      else if j.pic.rows.length ≤ j.row then .next (s.setJob pe c j)
      else
        let g := s.group (s.rend j.rend).group
        let (w, h) := s.rendDims (s.rend j.rend)
        let (q, fm) := s.rowQ j
        let floor := j.f j.row - j.f (j.row + 1)
        let excess := match j.budget with | some b => decide (b < j.used + bytes + j.f (j.row + 1)) | none => false
        let skip := !j.grey && (j.skipping || excess || decide (262144 < bytes))
        let size := if j.grey || skip then floor else bytes
        let j' := { j with
          used := j.used + size
          row := j.row + 1
          floorMode := fm && !j.grey
          skipping := skip
          floorRows := if fm && !skip && !j.grey then j.floorRows + 1 else j.floorRows
          skipped := if skip then j.skipped ++ [j.row] else j.skipped
          qs := if skip then j.qs else j.qs ++ [q]
          sizes := j.sizes ++ [size]
          parts := Tbl.set j.parts j.row (rowParts g.codec w h (s.blkForm j (s.jobDamage j) skip) j.row)
          tail := j.tail ++ s.rowData size }
        let (s1, j1) := ({ s with freeCtr := s.freeCtr + 1 } : State).drain pe c j'
        .next (if 64 ≤ j1.tail.length then s1.stallJob pe c j1 else s1.setJob pe c j1)

/-! ### The end of a picture (R196, R200 to R205) -/

/-- The references of a rendition after a picture of layer `t` (R204, R205): those that no layer references lose
`ENC_REF`. -/
def State.takeRecon (s : State) (i t : Nat) (b : Buf) (seq : Nat) : State :=
  let r := s.rend i
  let temporal := (s.group r.group).temporal
  let keep : Tbl (Buf × Nat) := if t = 0 then [(0, (b, seq))] else if t = 1 ∧ temporal = 2 then Tbl.set r.refs 1 (b, seq) else r.refs
  let gone := (r.refs.map fun kv => kv.2.1) ++ [b]
  (gone.filter fun x => !keep.any fun kv => kv.2.1 == x).foldl (fun s x => s.unmark x M_ENC_REF)
    (s.updRend i fun r => { r with refs := keep })

/-- The damage history that no reference needs any more goes. -/
def State.trimHist (s : State) (gi : Nat) : State :=
  let refs := (s.rendsOf gi).flatMap fun kv => kv.2.refs.map fun x => x.2.2
  match refs.min? with
  | some m => s.updGroup gi fun g => { g with hist := g.hist.filter fun kv => decide (m < kv.1) }
  | none => s

/-- A rendition's state after a picture coded (R196): its wave counts only pictures planned since it last started over. -/
def Rend.advance (r : Rend) (j : CoderJob) : Rend :=
  if j.pic.epoch ≠ r.epoch then r
  else if j.grey then { r with st := .wave, k := 0, n := r.planN }
  else if j.k = 0 then r
  else { r with
    st := if j.k = j.n then .steady else .wave, k := j.k, n := j.n
    startDue := if r.st = .steady then none else j.pic.first.orElse fun _ => r.startDue }

/-- A rendition after a picture coded: its window, its stale rows (R200), its counts, and the ratio of its estimates (R186). -/
def Rend.coded (r : Rend) (j : CoderJob) : Rend :=
  let bytes := j.header.getD 0 + j.used
  { r.advance j with
    window := (bytes :: r.window).take 63
    stale := if j.grey then [] else topRows 64 ((r.stale.filter fun x => !j.refresh.contains x) ++ j.skipped)
    count := (r.count + 1) % 2 ^ 32
    ratio := Config.ratioNext r.ratio (j.pic.rows.map (·.1)) j.sizes
    cnt := Tbl.updD (Tbl.updD r.cnt 0 0 (· + 1)) 0 1 (· + bytes) }

/-- The reconstruction of a picture: mid-grey for a grey start (R191); the pool takes it with `ENC_REF`. -/
def State.finishRecon (s : State) (j : CoderJob) (b : Buf) : State :=
  let r := s.rend j.rend
  let (w, h) := s.rendDims r
  let now := s.dev
  let ts := (s.jobPic j).ts
  let t := s.jobLayer j
  let s1 := if j.grey then s.greyFill b w h r.p010 else s.decodedFill b w h r.p010 r.p010 false
  (s1.poolDone b [M_ENC_REF] fun e => { e with
    width := w, height := h, p010 := r.p010, s := 0, t, ts, time := now, ctx := none, concealed := false, recovering := false
    grey := j.grey }).takeRecon j.rend t b j.pic.seq

/-- Units of a picture that are undamaged. -/
def State.undamaged (s : State) (j : CoderJob) : Nat :=
  let dmg := s.jobDamage j
  if j.grey then 0 else ((s.units (s.rend j.rend)).filter fun q => s.clean j dmg q.1 q.2).length

/-- PICTURE_CODED (R196, R200 to R204): every row is committed. A picture that ends later than its frame interval counts as
STARVED. -/
def execPictureCoded (pe : Fin 8) (coder : Fin 4) (el : Nat) (s : State) : Res :=
  let pe := pe.val
  let s := s.encStep pe el
  let c := coder.val
  match Tbl.find (s.encEng pe).coders c with
  | none => .next s
  | some j => match j.buf with
    | none => .next s
    | some b =>
      if !s.encOn pe || decide (j.row < j.pic.rows.length) || !s.encRoom pe then .next s
      else
        let (s, j) := s.drain pe c j
        let last := bytesItems (padItem j.tail) ++ [outTrailer 0 (j.header.getD 0 + j.used) j]
        if 64 ≤ j.tail.length || !(s.fifo (encOutId pe c)).accepts false last.length true
            || (s.encEng pe).owed.any (fun p => p.fifo pe == encOutId pe c) then .next (s.stallJob pe c j)
        else
          let gi := (s.rend j.rend).group
          let g := s.group gi
          let (w, h) := s.rendDims (s.rend j.rend)
          let skips := s.undamaged j
          let s := (s.outPublish pe c last true).finishRecon j b
          let late := decide ((s.jobPic j).since + 1000000000 / g.fps < s.ela)
          let s := if late then s.starve gi else s
          let j := { j with starved := j.starved || late }
          let s := s.updRend j.rend fun r => r.coded j
          let s := ((s.cntEnc pe E_CODED).cntEnc pe E_FLOOR j.floorRows).cntEnc pe E_SKIP j.skipped.length
          let s := (if j.grey then s.cntEnc pe E_GREY else s).cntEnc pe E_DAMAGE skips
          let s := s.updEnc pe fun e => { e with outLoad := (s.ela, w * h) :: e.outLoad.filter fun x => decide (s.ela < x.1 + 100000000) }
          .next (((s.jobDone pe 0 j).endJob pe c j).trimHist gi)

/-! ### Removal and moves (R196, R209) -/

/-- A rendition is removed: its stream goes, and the rendition itself after the picture in progress. -/
def State.removeRend (s : State) (i : Nat) : State :=
  if Tbl.has s.video.rends i && !(s.rend i).removed then
    ((((s.dropStream (s.rend i).outStream).updRend i fun r => { r with removed := true }).dropQueue i).sweepRend i)
  else s

/-- A group is destroyed: every rendition is removed, then the group. -/
def State.removeGroup (s : State) (gi : Nat) : State :=
  ((s.rendsOf gi).foldl (fun s kv => s.removeRend kv.1) (s.updGroup gi fun g => { g with removed := true })).sweepGroup gi

/-- A group moves to an engine, or stays on one that has lost its work: its pictures in progress end ABORTED, its reconstructions keep
`ENC_REF`, and the next picture starts an early wave (R209). Posts of an engine that is lost are the new engine's. -/
def State.moveGroup (s : State) (gi pe : Nat) (lost : Bool) : State :=
  let old := (s.group gi).pe
  let jobs := (s.encEng old).coders.filter fun kv => (s.rend kv.2.rend).group == gi
  let s1 := jobs.foldl (fun s kv => s.abortJob old kv.1 (if lost then pe else old) lost) s
  let s2 := (s1.rendsOf gi).foldl (fun s kv => (s.dropQueue kv.1).updRend kv.1 Rend.hold) s1
  let s3 := s2.updEnc old fun e => { e with an := match e.an with | some (x, q) => if x = gi then none else some (x, q) | none => none }
  let s4 := (s3.group gi).pics.foldl (fun s kv => kv.2.bufs.foldl (fun s x => s.unmark x.2 M_ANALYSIS) s) s3
  (s4.updGroup gi fun g => { g with pe, pics := [], anRefs := [], decs := [], last := [], hit := false, asked := true }).sweepGroup gi

end Sys2Proof.Machine
end

