-- ==== Sys2Proof/Machine/CompArith.lean ====
section
/-! DEFINITION. Cell geometry, the Enlarger and blending (R214 to R221). -/

namespace Sys2Proof.Machine

/-! ### Sheets and cells (R213, R214) -/

/-- Field [hi:lo] of header word `i`. -/
def Sheet.f (s : Sheet) (i hi lo : Nat) : Nat := fld (nth s.hdr 0 i) hi lo
def Sheet.w (s : Sheet) : Nat := s.f 0 31 16
def Sheet.h (s : Sheet) : Nat := s.f 0 15 0
def Sheet.fps (s : Sheet) : Nat := s.f 1 31 24
def Sheet.p010 (s : Sheet) : Bool := bit (nth s.hdr 0 1) 23
def Sheet.bgEn (s : Sheet) : Bool := bit (nth s.hdr 0 3) 31
def Sheet.bgImg (s : Sheet) : Nat := s.f 3 11 0
def Sheet.region (s : Sheet) : Nat := s.f 4 3 0
def Sheet.scaledRegion (s : Sheet) : Nat := s.f 4 7 4

/-- A cell descriptor: field [hi:lo] of word `i`. -/
def cf (c : List Word) (i hi lo : Nat) : Nat := fld (nth c 0 i) hi lo
def cellValid (c : List Word) : Bool := bit (nth c 0 0) 31
def cellKind (c : List Word) : Nat := cf c 0 30 29
def cellZ (c : List Word) : Nat := cf c 0 28 23
def cellFit (c : List Word) : Nat := cf c 0 22 21
def cellConc (c : List Word) : Nat := cf c 0 20 19
def cellSrc (c : List Word) : Nat := cf c 0 11 0
def cellAlpha (c : List Word) : Nat := cf c 5 31 24
def cellBorder (c : List Word) : Nat := 2 * cf c 5 19 16

/-- A rectangle: corner and size. -/
structure Rect where
  x : Nat := 0
  y : Nat := 0
  w : Nat := 0
  h : Nat := 0
  deriving DecidableEq, Repr

/-- Does the rectangle hold a point? -/
def Rect.has (r : Rect) (x y : Nat) : Bool := decide (r.x ≤ x) && decide (x < r.x + r.w) && decide (r.y ≤ y) && decide (y < r.y + r.h)
/-- Do two rectangles meet? -/
def Rect.meets (a b : Rect) : Bool :=
  decide (a.x < b.x + b.w) && decide (b.x < a.x + a.w) && decide (a.y < b.y + b.h) && decide (b.y < a.y + a.h)
/-- Does the first lie wholly inside the second? -/
def Rect.inside (a b : Rect) : Bool :=
  decide (b.x ≤ a.x) && decide (a.x + a.w ≤ b.x + b.w) && decide (b.y ≤ a.y) && decide (a.y + a.h ≤ b.y + b.h)
/-- The rectangle in chroma coordinates. -/
def Rect.half (r : Rect) : Rect := { x := r.x / 2, y := r.y / 2, w := r.w / 2, h := r.h / 2 }

/-- The cell's whole rectangle, and the inner one. -/
def cellRect (c : List Word) : Rect := { x := cf c 1 31 16, y := cf c 1 15 0, w := cf c 2 31 16, h := cf c 2 15 0 }
def cellInner (c : List Word) : Rect :=
  let r := cellRect c
  let b := cellBorder c
  { x := r.x + b, y := r.y + b, w := r.w - 2 * b, h := r.h - 2 * b }

/-- Does a word set a bit outside a mask? -/
def strayBits (l : List Word) (i mask : Nat) : Bool := nth l 0 i &&& ~~~ BitVec.ofNat 32 mask != 0

/-- A header whose reserved fields are not zero (R213, R509). -/
def hdrStray (h : List Word) : Bool :=
  strayBits h 1 0xFF80007F || strayBits h 2 0xFFFFFF || strayBits h 3 0x80000FFF || strayBits h 4 0xFF
    || (List.range 11).any fun i => nth h 0 (5 + i) != 0

/-- A cell whose reserved fields are not zero (R214, R509). -/
def cellStray (c : List Word) : Bool :=
  strayBits c 0 0xFFFF8FFF || strayBits c 3 0x1FFF1FFF || strayBits c 4 0x1FFF1FFF || strayBits c 5 0xFF0F0000 || strayBits c 6 0xFFFFFF
    || strayBits c 7 0xFFFFFF

/-- A descriptor that is refused, the tenant's right over its source left out (R214). -/
def cellBad (w h : Nat) (c : List Word) : Bool :=
  let r := cellRect c
  cellStray c || cellKind c == 3 || cellFit c == 3 || cellConc c == 3 || cf c 4 28 16 == 0 || cf c 4 12 0 == 0
    || r.x % 2 != 0 || r.y % 2 != 0 || r.w % 2 != 0 || r.h % 2 != 0 || decide (w < r.x + r.w) || decide (h < r.y + r.h)
    || decide (r.w < 2 * cellBorder c + 16) || decide (r.h < 2 * cellBorder c + 16)
    || decide (4096 < cf c 3 28 16 + cf c 4 28 16) || decide (4096 < cf c 3 12 0 + cf c 4 12 0)

/-! ### Geometry (R217) -/

/-- Where an image comes from and goes to: the crop in the source, and the image's place on the canvas. -/
structure Place where
  crop : Rect := {}
  img : Rect := {}
  deriving DecidableEq, Repr

/-- The crop in samples. -/
def cellCrop (c : List Word) (ws hs : Nat) : Rect :=
  {
    x := 2 * (cf c 3 28 16 * ws / 8192), y := 2 * (cf c 3 12 0 * hs / 8192)
    w := max 2 (2 * (cf c 4 28 16 * ws / 8192)), h := max 2 (2 * (cf c 4 12 0 * hs / 8192)) }

/-- The place of a cell's image for a source of `ws` × `hs` samples. -/
def cellPlace (c : List Word) (ws hs : Nat) : Place :=
  let k := cellCrop c ws hs
  let d := cellInner c
  let wide := decide (k.h * d.w < k.w * d.h)
  match cellFit c with
  | 1 =>
    let iw := if wide then d.w else 2 * (k.w * d.h / (2 * k.h))
    let ih := if wide then 2 * (k.h * d.w / (2 * k.w)) else d.h
    { crop := k, img := { x := d.x + 2 * ((d.w - iw) / 4), y := d.y + 2 * ((d.h - ih) / 4), w := iw, h := ih } }
  | 2 =>
    if wide then
      let cw := 2 * (k.h * d.w / (2 * d.h))
      { crop := { k with x := k.x + 2 * ((k.w - cw) / 4), w := cw }, img := d }
    else
      let ch := 2 * (k.w * d.h / (2 * d.w))
      { crop := { k with y := k.y + 2 * ((k.h - ch) / 4), h := ch }, img := d }
  | _ => { crop := k, img := d }

/-- The ratio output / crop lies outside 1/8 to 8 on an axis (R218). -/
def ratioBad (p : Place) : Bool :=
  let bad (cl ol : Nat) : Bool := ol == 0 || cl == 0 || decide (8 * ol < cl) || decide (8 * cl < ol)
  bad p.crop.w p.img.w || bad p.crop.h p.img.h

/-! ### The Enlarger (R218 to R220) -/

/-- The automatic bank for an axis: crop length and output length (R220). -/
def autoBank (cl ol : Nat) : Nat :=
  if cl ≤ ol then 0
  else if 3 * cl ≤ 4 * ol then 1
  else if cl ≤ 2 * ol then 2
  else if 3 * cl ≤ 8 * ol then 3
  else if cl ≤ 4 * ol then 4
  else if 3 * cl ≤ 16 * ol then 5
  else 6

/-- A coefficient of an engine's memory: taps 0 to 7 luma, 8 to 11 chroma. -/
def State.coef (s : State) (pe bank phase tap : Nat) : Int :=
  let i := ((pe * 8 + bank) * 64 + phase) * 6 + tap / 2
  sx (if tap % 2 = 0 then s.rf .PICT_COMP_COEF i 11 0 else s.rf .PICT_COMP_COEF i 27 16) 12

/-- One pass on one axis: the sum over the taps for output `i` of `ol` from a crop of `cl` samples at `c0`; an axis whose
lengths are equal is copied, which a single coefficient of 1,024 does exactly. -/
def axisSum (coef : Nat → Nat → Int) (luma : Bool) (c0 cl ol i : Nat) (x : Nat → Int) : Int :=
  if cl = ol then 1024 * x (c0 + i)
  else
    let step := cl * 65536 / ol
    let q : Int := (c0 * 65536 + i * step + step / 2 : Nat) - 32768
    let m := q / 65536
    let p := (q / 1024 % 64).toNat
    let n := if luma then 8 else 4
    let first : Int := if luma then 3 else 1
    (List.range n).foldl (fun t (k : Nat) =>
      let j := m - first + (k : Int)
      let j : Nat := if j < (c0 : Int) then c0 else if ((c0 + cl : Nat) : Int) ≤ j then c0 + cl - 1 else j.toNat
      t + coef p (if luma then k else 8 + k) * x j) 0

/-- Clamp to a range. -/
def clampI (lo hi v : Int) : Int := if v < lo then lo else if hi < v then hi else v

/-- A sample of the enlarged image: the horizontal pass keeps 4 fraction bits, the vertical pass rounds them away. -/
def enlarge (coefH coefV : Nat → Nat → Int) (luma p010 : Bool) (p : Place) (src : Nat → Nat → Nat) (x y : Nat) : Nat :=
  let h (yy : Nat) : Int :=
    clampI (-32768) 32767 ((axisSum coefH luma p.crop.x p.crop.w p.img.w (x - p.img.x) (fun xx => (src xx yy : Int)) + 32) / 64)
  (clampI 0 (if p010 then 1023 else 255)
    ((axisSum coefV luma p.crop.y p.crop.h p.img.h (y - p.img.y) h + 8192) / 16384)).toNat

/-- The place in chroma coordinates. -/
def Place.half (p : Place) : Place := { crop := p.crop.half, img := p.img.half }

/-- A sample of a picture in memory, enlarged into its place on a canvas of depth `p010`. -/
def State.imageSample (s : State) (pe : Nat) (bank : Option Nat) (src : Shown) (base : Nat) (p010 : Bool) (p : Place) (pl : Plane)
    (x y : Nat) : Nat :=
  let luma := pl == .y
  let q := if luma then p else p.half
  let bh := bank.getD (autoBank q.crop.w q.img.w)
  let bv := bank.getD (autoBank q.crop.h q.img.h)
  enlarge (s.coef pe bh) (s.coef pe bv) luma p010 q
    (fun xx yy => toDepth src.p010 p010 (storedSample s.mem base src.w src.h src.p010 pl xx yy)) x y

/-! ### Blending (R221) -/

/-- A component of a colour word Y, Cb, Cr at a depth (R213). -/
def colour (p010 : Bool) (c : Nat) (p : Plane) : Nat :=
  let v := match p with | .y => bits c 23 16 | .cb => bits c 15 8 | .cr => bits c 7 0
  if p010 then v * 4 else v

/-- A sample laid over another with an alpha. -/
def blend (alpha s d : Nat) : Nat :=
  let a := alpha + alpha / 128
  (a * s + (256 - a) * d + 128) / 256

/-- The cells in the order in which they are drawn: by `Z`, then by index. -/
def drawOrder (cells : List (List Word)) : List (Nat × List Word) :=
  let l := (cells.zipIdx.map fun x => (x.2, x.1)).filter fun x => cellValid x.2
  (List.range 64).flatMap fun z => l.filter fun x => cellZ x.2 == z

/-- What a cell paints at a point of a plane, if anything. -/
def State.cellSample (s : State) (pe : Nat) (p010 : Bool) (c : List Word) (sh : Shown) (pl : Plane) (x y : Nat) : Option Nat :=
  let r (q : Rect) : Rect := if pl = .y then q else q.half
  if (r (cellRect c)).has x y = false then none
  else if (r (cellInner c)).has x y = false then some (colour p010 (cf c 6 23 0) pl)
  else match sh.buf with
    | none => some (colour p010 (cf c 7 23 0) pl)
    | some b =>
      let p := cellPlace c sh.w sh.h
      if (r p.img).has x y then
        some (s.imageSample pe (if bit (nth c 0 0) 18 then some (cf c 0 17 15) else none) sh (s.bufAddr b.fbh) p010 p pl x y)
      else some (colour p010 (cf c 7 23 0) pl)

/-- The background at a point. -/
def State.bgSample (s : State) (pe : Nat) (sh : Sheet) (pl : Plane) (x y : Nat) : Nat :=
  match (if sh.bgEn then Tbl.find s.video.images sh.bgImg else none) with
  | some im =>
    let src : Shown := { buf := some im.buf, w := im.w, h := im.h, p010 := im.p010 }
    let p : Place := { crop := { w := im.w, h := im.h }, img := { w := sh.w, h := sh.h } }
    s.imageSample pe none src (s.bufAddr im.buf.fbh) sh.p010 p pl x y
  | none => colour sh.p010 (nth sh.hdr 0 2).toNat pl

/-- A sample of the scale-1 canvas. -/
def State.canvasSample (s : State) (pe : Nat) (sh : Sheet) (shown : List Shown) (pl : Plane) (x y : Nat) : Nat :=
  (drawOrder sh.cells).foldl (fun d c => match s.cellSample pe sh.p010 c.2 (nth shown {} c.1) pl x y with
    | some v => blend (cellAlpha c.2) v d
    | none => d) (s.bgSample pe sh pl x y)

/-- The scale-1 canvas written to its buffer. -/
def State.writeCanvas (s : State) (pe : Nat) (sh : Sheet) (shown : List Shown) (b : Buf) : State :=
  s.memWrite (s.bufAddr b.fbh) (pictureBytes sh.w sh.h sh.p010 (s.canvasSample pe sh shown))

/-- A scaled canvas, enlarged from the scale-1 canvas (R226). -/
def State.writeScaled (s : State) (pe : Nat) (sh : Sheet) (one : Buf) (code : Nat) (b : Buf) : State :=
  let src : Shown := { buf := some one, w := sh.w, h := sh.h, p010 := sh.p010 }
  let w := scaledDim sh.w code
  let h := scaledDim sh.h code
  let p : Place := { crop := { w := sh.w, h := sh.h }, img := { w, h } }
  s.memWrite (s.bufAddr b.fbh) (pictureBytes w h sh.p010 (s.imageSample pe none src (s.bufAddr one.fbh) sh.p010 p))

end Sys2Proof.Machine
end

