-- ==== Sys2Proof/Machine/CompRun.lean ====
section
/-! DEFINITION. Composition: the picture clock, sources, damage, global motion and output (R211 to R228). -/

namespace Sys2Proof.Machine

def State.layout (s : State) (i : Nat) : Layout := Tbl.get s.video.layouts {} i
def State.updLayout (s : State) (i : Nat) (f : Layout → Layout) : State :=
  s.updVideo fun v => { v with layouts := Tbl.upd v.layouts i f }

/-- A counter of a composition unit and of a layout (R229). -/
def State.cntComp (s : State) (i k : Nat) (n : Nat := 1) : State :=
  (s.bump .PICT_COMP_CNT_LO (8 * (s.layout i).pe + k) n).updLayout i fun l => { l with cnt := Tbl.updD l.cnt 0 k (· + n) }
abbrev L_PICTURES : Nat := 0
abbrev L_LATE : Nat := 1
abbrev L_NO_BUFFER : Nat := 2
abbrev L_EMPTY : Nat := 3
abbrev L_HELD : Nat := 4
abbrev L_RATIO : Nat := 5
abbrev L_DAMAGED : Nat := 6
abbrev L_UNDAMAGED : Nat := 7

/-- When picture n is due, and its RTP timestamp (R211). -/
def Layout.tick (l : Layout) (n : Nat) : Nat := l.t0 + n * 1000000000 / l.sheet.fps
def Layout.ts (l : Layout) (n : Nat) : Nat := (l.ts0 + n * 90000 / l.sheet.fps) % 2 ^ 32

/-- The groups that name a layout. -/
def State.groupsOf (s : State) (i : Nat) : List (Nat × Group) := s.video.groups.filter fun kv => kv.2.layout == i && !kv.2.removed

/-- The scales that a layout's pictures carry: scale 1, and those of its groups' renditions. -/
def State.scalesOf (s : State) (i : Nat) : List Nat :=
  let used := (s.groupsOf i).flatMap fun g => ((s.rendsOf g.1).filter fun r => !r.2.removed).map fun r => r.2.scale
  (List.range 6).filter fun c => c == 0 || used.contains c

/-- Twice the charge of a sheet at a set of scales (R228), in samples per second. -/
def State.compCharge (s : State) (sh : Sheet) (scales : List Nat) : Nat :=
  let read := sumN (sh.cells.map fun c =>
    if cellValid c && cellKind c == 0 then
      let d := s.dec (cellSrc c)
      let p := cellPlace c d.maxW d.maxH
      p.crop.w * p.crop.h - 2 * (p.img.w * p.img.h)
    else 0)
  sh.fps * (2 * sumN (scales.map fun c => scaledDim sh.w c * scaledDim sh.h c) + read)

/-- What a layout is charged: its sheet in force, or a pending one that charges more. -/
def State.layoutCharge (s : State) (i : Nat) (l : Layout) : Nat :=
  let c (sh : Sheet) : Nat := s.compCharge sh (s.scalesOf i)
  match l.pend with
  | some (_, sh) => max (c l.sheet) (c sh)
  | none => c l.sheet

/-- `COMP_BUDGET_MPX`, in samples per second. -/
abbrev compBudget : Nat := 1500000000

/-- Does a charge fit an engine (R228), leaving out layout `skip`? -/
def State.compFits (s : State) (skip charge pe : Nat) : Bool :=
  let l := s.video.layouts.filter fun kv => kv.1 != skip && kv.2.pe == pe
  !s.engFenced pe && decide (l.length < 128)
    && decide (sumN (l.map fun kv => s.layoutCharge kv.1 kv.2) + charge ≤ 2 * compBudget)

/-- The lowest free engine-local index. -/
def State.freeIdx (s : State) (pe : Nat) : Nat :=
  let used := (s.video.layouts.filter fun kv => kv.2.pe == pe).map fun kv => kv.2.idx
  ((List.range 128).find? fun i => !used.contains i).getD 0

/-! ### A new sheet (R215, R222) -/

/-- A cell's held picture is given up. -/
def State.dropHeld (s : State) (i k : Nat) : State :=
  match Tbl.find (s.layout i).held k with
  | none => s
  | some h =>
    (match h.buf with | some b => s.unmark b M_COMP | none => s).updLayout i fun l => { l with held := Tbl.del l.held k }

/-- Two descriptors name the same source. -/
def sameSrc (a b : List Word) : Bool := cellValid a && cellValid b && cellKind a == cellKind b && cellSrc a == cellSrc b

/-- A sheet comes into force: cells that change source or go lose their held picture, and a changed cell fills no more for
a source that is gone. -/
def State.takeSheet (s : State) (i : Nat) (sh : Sheet) : State :=
  let old := (s.layout i).sheet
  let s1 := ((s.layout i).held.map (·.1)).foldl (fun s k =>
    if sameSrc (nth old.cells [] k) (nth sh.cells [] k) then s else s.dropHeld i k) s
  s1.updLayout i fun l => { l with sheet := sh, gone := l.gone.filter fun k => nth old.cells [] k == nth sh.cells [] k }

/-! ### Reading sources (R215, R216) -/

/-- What reading a layout's sources has gathered. -/
structure Gather where
  st : State
  shown : List Shown := []
  srcs : List Buf := []
  conc : Bool := false

/-- A picture that a cell would show, unless its ratio is out of range (R216). -/
def State.ratioCheck (s : State) (i : Nat) (c : List Word) (x : Shown) : State × Shown :=
  if ratioBad (cellPlace c x.w x.h) then (s.cntComp i L_RATIO, {}) else (s, x)

/-- One cell's source. -/
def Gather.cell (g : Gather) (i k : Nat) (c : List Word) : Gather :=
  let s := g.st
  let add (s : State) (x : Shown) (l : List Buf) (conc : Bool) : Gather :=
    { st := s, shown := g.shown ++ [x], srcs := g.srcs ++ l, conc := g.conc || conc }
  if !cellValid c || cellKind c == 2 then add s {} [] false
  else if cellKind c == 1 then
    match Tbl.find s.video.images (cellSrc c) with
    | none => add s {} [] false
    | some im => let (s1, x) := s.ratioCheck i c { buf := some im.buf, w := im.w, h := im.h, p010 := im.p010 }; add s1 x [] false
  else if (s.layout i).gone.contains k || !Tbl.has s.video.decs (cellSrc c) then add s {} [] false
  else
    let slot := s.slotOf (cellSrc c)
    match s.acquire slot with
    | (none, s1) => add (s1.cntComp i L_EMPTY) {} [] false
    | (some b, s1) =>
      let e := s1.ent b.fbh
      let clean := !slot.concealed && !slot.recovering && !slot.grey
      let x : Shown := { buf := some b, w := e.width, h := e.height, p010 := e.p010 }
      let held := Tbl.find (s1.layout i).held k
      -- showing another picture ends the hold
      let other (s : State) : State := if (held.bind (·.buf)) = some b then s else s.dropHeld i k
      match cellConc c, clean with
      | 0, _ => let (s2, y) := s1.ratioCheck i c x; add (if y.buf.isSome then other s2 else s2) y [b] (!clean && y.buf.isSome)
      | 1, true =>
        let (s2, y) := s1.ratioCheck i c x
        if (held.bind (·.buf)) = some b then add s2 y [b] false
        else add ((s2.dropHeld i k).updLayout i fun l => { l with held := Tbl.set l.held k x }) y [] false
      | 1, false =>
        let s2 := (s1.unmark b M_COMP).cntComp i L_HELD
        match held with
        | some h => let (s3, y) := s2.ratioCheck i c h; add s3 y [] false
        | none => add s2 {} [] false
      | _, true => let (s2, y) := s1.ratioCheck i c x; add (if y.buf.isSome then other s2 else s2) y [b] false
      | _, false => add (s1.cntComp i L_HELD) {} [b] false

/-- Every cell's source, in index order. -/
def State.gather (s : State) (i : Nat) : Gather :=
  (s.layout i).sheet.cells.zipIdx.foldl (fun g x => g.cell i x.2 x.1) { st := s }

/-! ### Damage and global motion (R224, R225) -/

/-- A cell that damages: its rectangle and place in the drawing order. -/
structure Cause where
  r : Rect
  z : Nat
  k : Nat

/-- A superblock's rectangle within a canvas. -/
def sbRect (w h i : Nat) : Rect :=
  let c := cdiv w 64
  let x := i % c * 64
  let y := i / c * 64
  { x, y, w := min 64 (w - x), h := min 64 (h - y) }

/-- The causes of damage between two pictures, by rules 3 and 4. -/
def damageCauses (old new : Sheet) (was now : List Shown) : List Cause :=
  (List.range (max old.cells.length new.cells.length)).flatMap fun k =>
    let a := nth old.cells [] k
    let b := nth new.cells [] k
    let ca (c : List Word) : List Cause := if cellValid c then [⟨cellRect c, cellZ c, k⟩] else []
    if a != b then ca a ++ ca b
    else if cellValid b && (nth was {} k).buf != (nth now {} k).buf then ca b
    else []

/-- The damaged superblocks of a picture after another. -/
def damageOf (old new : Sheet) (was now : List Shown) (bgNew : Bool) : List Nat :=
  let causes := damageCauses old new was now
  let occ : List Cause := (List.range new.cells.length).filterMap fun k =>
    let b := nth new.cells [] k
    if cellValid b && nth old.cells [] k == b && cellAlpha b == 255 && (nth was {} k).buf == (nth now {} k).buf then
      some ⟨cellRect b, cellZ b, k⟩ else none
  let w := new.w
  let h := new.h
  (List.range (cdiv w 64 * cdiv h 64)).filter fun i =>
    let r := sbRect w h i
    let hit := causes.filter fun c => c.r.meets r
    bgNew || (!hit.isEmpty && !(occ.any fun o => r.inside o.r && hit.all fun c => decide (c.z < o.z) || (c.z == o.z && decide (c.k < o.k))))

/-- The global-motion entry of a superblock. -/
def gmEntry (old new : Sheet) (was now : List Shown) (i : Nat) : Word :=
  let c := cdiv new.w 64
  let x := i % c * 64 + 32
  let y := i / c * 64 + 32
  match (drawOrder new.cells).reverse.find? fun e =>
      (nth now {} e.1).buf.isSome && (cellPlace e.2 (nth now {} e.1).w (nth now {} e.1).h).img.has x y with
  | none => 0
  | some (k, b) =>
    let a := nth old.cells [] k
    let n := nth now {} k
    let o := nth was {} k
    let pb := (cellPlace b n.w n.h).img
    let pa := (cellPlace a o.w o.h).img
    let dx : Int := (pb.x : Int) - pa.x
    let dy : Int := (pb.y : Int) - pa.y
    if sameSrc a b && o.buf.isSome && nth a 0 3 == nth b 0 3 && nth a 0 4 == nth b 0 4 && pa.w == pb.w && pa.h == pb.h
        && (dx != 0 || dy != 0) && decide (dx.natAbs ≤ 2047) && decide (dy.natAbs ≤ 2047) then
      putF (putF (putB 0 31 true) 27 16 (wrapN dy 12)) 11 0 (wrapN dx 12)
    else 0

/-- The map slot of a picture (R224). -/
def State.mapSlot (s : State) (l : Layout) (n : Nat) : Nat :=
  s.rf .PICT_COMP_MAP_BASE l.pe 16 0 * 2 ^ 23 + 65536 * l.idx + 16384 * (n % 4)

/-- The words of a damage map. -/
def mapWords (w h : Nat) (d : List Nat) : List Nat :=
  let c := cdiv w 64
  (List.range (cdiv h 64)).flatMap fun y => (List.range (cdiv c 32)).map fun j =>
    (List.range 32).foldl (fun v b => if j * 32 + b < c ∧ d.contains (y * c + j * 32 + b) = true then v + 2 ^ b else v) 0

/-! ### The tick (R212, R227) -/

/-- A tick is missed (R212, R232). -/
def State.missTick (s : State) (i : Nat) : State :=
  let l := s.ela :: (s.layout i).late.filter fun t => decide (s.ela < t + 1000000000)
  let s1 := (s.cntComp i L_LATE).updLayout i fun x => { x with late := l }
  let x := s1.layout i
  if x.lateAt = 0 ∨ x.lateAt + 1000000000 ≤ s.ela + 1 then
    (s1.updLayout i fun x => { x with lateAt := s.ela + 1 }).notify x.own.fn 0x0580 i [l.length]
  else s1

/-- A tick that produces no picture: the last one is still being composed, or the engine is off. -/
def State.lateTick (s : State) (i : Nat) : State := (s.missTick i).updLayout i fun x => { x with next := x.next + 1 }

/-- The layouts of an engine whose next picture is due at a time, by engine-local index. -/
def State.dueAt (s : State) (pe t : Nat) : List Nat :=
  sortBy (· ≤ ·)
    ((s.video.layouts.filter fun kv => kv.2.pe == pe && !kv.2.removed && kv.2.job.isNone && kv.2.tick kv.2.next == t).map fun kv => kv.2.idx)

/-- Must a layout's due picture wait (R212)? A picture of another layout of the engine that was due before it is not completed, or R29
picks another of those due at the same tick. -/
def State.tickWaits (s : State) (i : Nat) : Bool :=
  let l := s.layout i
  let t := l.tick l.next
  (s.video.layouts.any fun kv => kv.1 != i && kv.2.pe == l.pe && (match kv.2.job with
      | some j => decide (kv.2.tick j.n < t)
      | none => !kv.2.removed && decide (kv.2.tick kv.2.next < t)))
    || rotateIn (Tbl.get s.video.compPtr 0 l.pe) (s.dueAt l.pe t) != some l.idx

/-- One buffer for each scale, or none at all. -/
def State.allocScales (s : State) (sh : Sheet) : List Nat → Option (Tbl Buf × State)
  | [] => some ([], s)
  | c :: r =>
    match s.allocFit (if c = 0 then sh.region else sh.scaledRegion) (frameBytes (scaledDim sh.w c) (scaledDim sh.h c) sh.p010) with
    | none => none
    | some (b, s1) => (State.allocScales s1 sh r).map fun x => ((c, b) :: x.1, x.2)

/-- The damage map and the global-motion table of a picture are written and counted. -/
def State.writeMaps (s : State) (i n : Nat) (shown : List Shown) : State × Bool × Bool :=
  let l := s.layout i
  let sh := l.sheet
  let all := List.range (cdiv sh.w 64 * cdiv sh.h 64)
  let bg := if sh.bgEn then (Tbl.find s.video.images sh.bgImg).map (·.buf) else none
  let (dmg, gm, valid) := match l.lastSheet with
    | none => (all, all.map fun _ => (0 : Word), false)
    | some o =>
      let bgNew := nth o.hdr 0 2 != nth sh.hdr 0 2 || o.bgEn != sh.bgEn || bg != l.bg
      (damageOf o sh l.shown shown bgNew, all.map (gmEntry o sh l.shown shown), true)
  let a := s.mapSlot l n
  let s1 := ((s.memWords a (mapWords sh.w sh.h dmg)).memWords (a + 512) (gm.map BitVec.toNat)).updLayout i fun l => { l with bg }
  ((s1.cntComp i L_DAMAGED dmg.length).cntComp i L_UNDAMAGED (all.length - dmg.length), valid, gm.any (· != 0))

/-- The unit starts picture n. -/
def State.startPicture (s0 : State) (i n : Nat) : State :=
  let l0 := s0.layout i
  let s := match l0.pend with
    | some (m, sh) => if m ≤ n then (s0.takeSheet i sh).updLayout i fun l => { l with pend := none } else s0
    | none => s0
  let s := s.updLayout i fun l => { l with next := n + 1 }
  let g := s.gather i
  let sh := (s.layout i).sheet
  match g.st.allocScales sh (s.scalesOf i) with
  | none => ({ s with cnts := g.st.cnts }.updLayout i fun l => { l with cnt := (g.st.layout i).cnt }).cntComp i L_NO_BUFFER
  | some (bufs, s1) =>
    let (s2, valid, gm) := s1.writeMaps i n g.shown
    s2.updLayout i fun l => { l with job := some {
      n, since := s.ela, bufs, shown := g.shown, srcs := g.srcs, concealed := g.conc, damageValid := valid, gmValid := gm
      capture := l.tick n } }

/-- The unit is enabled and its engine on. -/
def State.compOn (s : State) (pe : Nat) : Bool := s.rb .PICT_COMP_CTRL pe 31 && s.pdOn (18 + pe)

/-- LAYOUT_TICK (R211, R212, R227): a layout's next picture is due. -/
def execLayoutTick (layout : Fin 1024) (el : Nat) (s : State) : Res :=
  let s := s.advance el
  let i := layout.val
  match Tbl.find s.video.layouts i with
  | none => .next s
  | some l =>
    if l.removed || decide (s.dev < l.tick l.next) then .next s
    else if !s.pdOn (18 + l.pe) then .next (s.lateTick i)
    else if !s.compOn l.pe then .next (s.updLayout i fun l => { l with next := l.next + 1 })
    else if l.job.isSome then .next (s.lateTick i)
    else if s.tickWaits i then .next s
    else .next ((s.updVideo fun v => { v with compPtr := Tbl.set v.compPtr l.pe ((l.idx + 1) % 128) }).startPicture i l.next)

/-! ### Completion (R227) -/

/-- Every mark of a layout is released and it is gone. -/
def State.freeLayout (s : State) (i : Nat) : State :=
  let l := s.layout i
  let s1 := (l.srcs ++ l.canvas).foldl (fun s b => s.unmark b M_COMP) s
  let s2 := (l.held.map (·.1)).foldl (fun s k => s.dropHeld i k) s1
  (s2.publish l.disp {}).updVideo fun v => { v with layouts := Tbl.del v.layouts i }

/-- A layout is destroyed, after the picture in progress. -/
def State.destroyLayout (s : State) (i : Nat) : State :=
  if (s.layout i).job.isSome then s.updLayout i fun l => { l with removed := true }
  else if Tbl.has s.video.layouts i then s.freeLayout i else s

/-- A picture in progress is given up. -/
def State.dropPicture (s : State) (i : Nat) : State :=
  match (s.layout i).job with
  | none => s
  | some j =>
    let s1 := j.bufs.foldl (fun s x => s.poolDrop x.2) s
    (j.srcs.foldl (fun s b => s.unmark b M_COMP) s1).updLayout i fun l => { l with job := none }

/-- The input item of a picture (R180). -/
def State.inputItem (s : State) (l : Layout) (j : CompJob) (gi : Nat) : List Word :=
  let a := s.mapSlot l j.n
  let canvas (c : Nat) : Word := match Tbl.find j.bufs c with
    | some b => putF (putF 0 23 20 b.gen) 19 0 b.fbh
    | none => BitVec.ofNat 32 NO_FBH
  [putF (putB (putB 0 31 j.damageValid) 30 j.gmValid) 10 0 gi, BitVec.ofNat 32 (l.ts j.n), BitVec.ofNat 32 j.capture,
    BitVec.ofNat 32 (j.capture / 2 ^ 32)] ++ (List.range 6).map canvas
    ++ [BitVec.ofNat 32 a, BitVec.ofNat 32 (a / 2 ^ 32), BitVec.ofNat 32 (a + 512), BitVec.ofNat 32 ((a + 512) / 2 ^ 32), 0, 0]

/-- The picture in progress of a layout is composed and published (R227 steps 5 and 6). -/
def State.composePicture (s : State) (i : Nat) (j : CompJob) : State :=
  let l := s.layout i
  let sh := l.sheet
  let one := Tbl.get j.bufs {} 0
  let s := s.writeCanvas l.pe sh j.shown one
  let s := (j.bufs.filter fun x => x.1 != 0).foldl (fun s x => s.writeScaled l.pe sh one x.1 x.2) s
  let now := s.dev
  let s := j.bufs.foldl (fun s x => s.setEnt x.2.fbh { s.ent x.2.fbh with
    width := scaledDim sh.w x.1, height := scaledDim sh.h x.1, p010 := sh.p010, concealed := j.concealed, recovering := false
    grey := false, grain := false, ctx := none, s := 0, t := 0, ts := l.ts j.n, time := now }) s
  let new : Slot := { buf := some one, concealed := j.concealed, width := sh.w, height := sh.h, ts := l.ts j.n }
  let posts := (s.groupsOf i).map (·.1)
  (s.publish l.disp new).updLayout i fun l => { l with disp := new, job := some { j with posts := some posts } }

/-- The picture's input items are posted to its groups in turn, each taken before its post completes (R181); a full input FIFO stalls
the post (R37). The groups that are left. -/
def State.postInputs (s : State) (i : Nat) (j : CompJob) : List Nat → State × List Nat
  | [] => (s, [])
  | g :: r =>
    let pe := (s.group g).pe
    let f := s.fifo (encInId pe)
    if !Tbl.has s.video.groups g then s.postInputs i j r
    else if f.accepts false 1 true then
      ((s.setFifo (encInId pe) (f.publish false [s.inputItem (s.layout i) j g] true)).acceptAll pe).postInputs i j r
    else (s, g :: r)

/-- The picture is handed on (R227 step 7). -/
def State.endPicture (s : State) (i : Nat) (j : CompJob) : State :=
  let l := s.layout i
  let sh := l.sheet
  let s := j.bufs.foldl (fun s x => s.poolDone x.2 [M_COMP] id) s
  let s := (l.srcs ++ l.canvas).foldl (fun s b => s.unmark b M_COMP) s
  let s := s.cntComp i L_PICTURES
  let px := sumN (j.bufs.map fun x => scaledDim sh.w x.1 * scaledDim sh.h x.1)
  let push (t : List (Nat × Nat)) : List (Nat × Nat) := (s.ela, px) :: t.filter fun x => decide (s.ela < x.1 + 100000000)
  let s := s.updVideo fun v => { v with compLoad := Tbl.updD v.compLoad [] l.pe push }
  let s := s.updLayout i fun l => { l with
    job := none, lastSheet := some sh, shown := j.shown, srcs := j.srcs, canvas := j.bufs.map (·.2) }
  if l.removed then s.freeLayout i else s

/-- The source of a cell cannot be read (R341). -/
def State.shownUnread (s : State) (r : Reads) (x : Shown) : Bool :=
  match x.buf with
  | some b => r.hit (s.bufAddr b.fbh) (frameBytes x.w x.h x.p010)
  | none => false

/-- Superblocks that become damaged in the maps of a picture, without global motion. -/
def State.damageMore (s : State) (i n : Nat) (l : List Nat) : State :=
  let sh := (s.layout i).sheet
  let a := s.mapSlot (s.layout i) n
  l.foldl (fun s k => s.memWords (a + 512 + 4 * k) [0]) (s.memWords a (mapWords sh.w sh.h (s.readDamage sh.w sh.h a ++ l)))

/-- A picture some of whose sources cannot be read: their cells show `FILL_COLOUR`, count `SOURCE_EMPTY` and are damaged (R341). -/
def State.blankUnread (s : State) (i : Nat) (j : CompJob) (r : Reads) : State × CompJob :=
  let sh := (s.layout i).sheet
  let bad := (List.range j.shown.length).filter fun k => s.shownUnread r (nth j.shown {} k)
  if bad.isEmpty then (s, j)
  else
    let l := (List.range (cdiv sh.w 64 * cdiv sh.h 64)).filter fun x =>
      bad.any fun k => (cellRect (nth sh.cells [] k)).meets (sbRect sh.w sh.h x)
    ((s.damageMore i j.n l).cntComp i L_EMPTY bad.length, { j with shown := j.shown.map fun x => if s.shownUnread r x then {} else x })

/-- COMPOSE_COMPLETE (R227): the picture that the engine has composed longest is published and posted; a full input FIFO stalls the
post, and what follows it, until a later one. A cell whose source cannot be read is filled (R341). -/
def execComposeComplete (pe : Fin 8) (reads : Reads) (s : State) : Res :=
  let s := s.advance reads.el
  let l := s.video.layouts.filterMap fun kv => if kv.2.pe == pe.val then kv.2.job.map fun j => (kv.1, j) else none
  let oldest := (l.map fun x => x.2.since).min?
  match l.find? fun x => some x.2.since == oldest with
  | none => .next s
  | some (i, j) =>
    if !s.compOn pe.val then .next s
    else
      let (s, j) := if j.posts.isNone then s.blankUnread i j reads else (s, j)
      let s1 := if j.posts.isNone then s.composePicture i j else s
      let (s2, left) := s1.postInputs i j (((s1.layout i).job.bind (·.posts)).getD [])
      .next (if left.isEmpty then s2.endPicture i j else s2.updLayout i fun l => { l with job := some { j with posts := some left } })

/-- A layout's engine is lost: the picture in progress goes and counts as missed, and the next one carries `DAMAGE_VALID` 0 (R232). -/
def State.breakLayout (s : State) (i : Nat) : State :=
  let s1 := (s.dropPicture i).updLayout i fun l => { l with lastSheet := none }
  if (s.layout i).job.isSome then s1.missTick i else s1

/-- A layout moves to an engine: its first picture there carries `DAMAGE_VALID` 0 (R232). -/
def State.moveLayout (s : State) (i pe : Nat) : State :=
  let idx := s.freeIdx pe
  (s.updLayout i fun l => { l with pe, idx }).breakLayout i

end Sys2Proof.Machine
end

