-- ==== Sys2Proof/Machine/LayoutCmds.lean ====
section
/-! DEFINITION. The LAYOUT commands (R211 to R214, R222, R223, R228, R230, R231). -/

namespace Sys2Proof.Machine

abbrev LAYOUT_IN_USE : Nat := 0x0500
abbrev COMP_BUDGET : Nat := 0x0501
abbrev LATE_PICTURE : Nat := 0x0502
abbrev IMAGE_IN_USE : Nat := 0x0503
abbrev IMAGE_LIMIT : Nat := 0x0504

/-- The sheet that a host's words hold. -/
def sheetOf (ws : List Word) : Sheet :=
  let hdr := (List.range 16).map fun i => nth ws 0 i
  { hdr, cells := (List.range (fld (nth ws 0 1) 6 0)).map fun k => (List.range 8).map fun i => nth ws 0 (16 + 8 * k + i) }

/-- Is the source of a cell another's, or nobody's (R214)? -/
def State.cellForeign (s : State) (c : Cmd) (x : List Word) : Bool :=
  let other (o : Option Own) : Bool := match o with | some y => decide (y.fn / 64 ≠ c.tenant) || y.dying | none => true
  match cellKind x with
  | 0 => other ((Tbl.find s.video.decs (cellSrc x)).map (·.own))
  | 1 => other ((Tbl.find s.video.images (cellSrc x)).map (·.own))
  | _ => false

/-- A sheet that is refused (R213, R214). -/
def State.sheetBad (s : State) (c : Cmd) (sh : Sheet) : Bool :=
  sh.w % 2 != 0 || sh.h % 2 != 0 || decide (sh.w < 128) || decide (3840 < sh.w) || decide (sh.h < 128) || decide (2160 < sh.h)
    || sh.fps == 0 || decide (60 < sh.fps) || decide (64 < sh.cells.length) || hdrStray sh.hdr
    || (sh.bgEn && (match Tbl.find s.video.images sh.bgImg with | some im => im.own.fn / 64 != c.tenant | none => true))
    || sh.cells.any fun x => cellBad sh.w sh.h x || s.cellForeign c x

/-- The engine for a layout's charge. -/
def State.compPlace (s : State) (charge : Nat) (any : Bool) (pe : Nat) : Option Nat :=
  if any then (List.range 8).find? (s.compFits 1024 charge) else if s.compFits 1024 charge pe then some pe else none

/-- LAYOUT_CREATE. -/
def layoutCreateSpec : CmdSpec := { op := 0x0500, dma := true, used := [(4, 0xF0000000)] }
def layoutCreateCheck (c : Cmd) (s : State) : Nat :=
  let sh := sheetOf c.host
  firstFail [
    (decide (1023 < c.h) || (c.dmaOk && s.sheetBad c sh), BAD_PARAM),
    (Tbl.has s.video.layouts c.h, LAYOUT_IN_USE),
    ((s.compPlace (s.compCharge sh [0]) (c.b 4 31) (c.f 4 30 28)).isNone, COMP_BUDGET)]
def layoutCreateApply (c : Cmd) (s : State) : Reply :=
  let sh := sheetOf c.host
  let pe := (s.compPlace (s.compCharge sh [0]) (c.b 4 31) (c.f 4 30 28)).getD 0
  let t0 := if c.q 6 = 0 then cdiv (s.dev + 1000000) 1000000 * 1000000 else c.q 6
  { st := s.updVideo fun v => { v with layouts := Tbl.set v.layouts c.h { own := newOwn c s, pe, idx := s.freeIdx pe, ts0 := c.w 5, t0, sheet := sh } } }
/-- LAYOUT_CREATE (R211, R228). -/
def execLayoutCreate (c : Cmd) (s : State) : Res := .next (runCmd layoutCreateSpec layoutCreateCheck layoutCreateApply c s)

/-- The target of a LAYOUT command; a layout that goes is as good as gone. -/
def layoutTarget (c : Cmd) (s : State) : Nat :=
  firstCode [target c s.video.layouts (·.own) c.h, rejectIf (s.layout c.h).removed BAD_STATE]

/-- The picture that a change names (R222). -/
def changeAt (c : Cmd) (s : State) : Nat := if c.f 12 31 30 = 0 then (s.layout c.h).next else c.q 13

/-- The refusals that a change's timing and its sheet bring (R222, R223, R228). -/
def changeFail (c : Cmd) (s : State) (sh : Sheet) : List Nat :=
  let l := s.layout c.h
  [rejectIf (c.f 12 31 30 == 1 && decide (c.q 13 < l.next)) LATE_PICTURE,
    rejectIf (match l.pend with | some (m, _) => m != changeAt c s | none => false) BUSY,
    rejectIf (decide (s.compCharge l.sheet (s.scalesOf c.h) < s.compCharge sh (s.scalesOf c.h)) && !s.compFits c.h (s.compCharge sh (s.scalesOf c.h)) l.pe)
      COMP_BUDGET]

/-- A change joins the layout's pending set. -/
def State.pendSheet (s : State) (c : Cmd) (sh : Sheet) : State := s.updLayout c.h fun l => { l with pend := some (changeAt c s, sh) }

/-- LAYOUT_SET. -/
def layoutSetSpec : CmdSpec := { op := 0x0501, dma := true, used := [(12, 0xC0000000)] }
def layoutSetCheck (c : Cmd) (s : State) : Nat :=
  let sh := sheetOf c.host
  let l := s.layout c.h
  firstCode ([
    rejectIf (decide (1023 < c.h) || decide (1 < c.f 12 31 30) || (c.dmaOk && s.sheetBad c sh)) BAD_PARAM,
    layoutTarget c s,
    rejectIf (c.dmaOk && (sh.w != l.sheet.w || sh.h != l.sheet.h || sh.fps != l.sheet.fps || sh.p010 != l.sheet.p010)) BAD_STATE] ++ changeFail c s sh)
def layoutSetApply (c : Cmd) (s : State) : Reply := { st := s.pendSheet c (sheetOf c.host) }
/-- LAYOUT_SET (R222, R223). -/
def execLayoutSet (c : Cmd) (s : State) : Res := .next (runCmd layoutSetSpec layoutSetCheck layoutSetApply c s)

/-- The sheet that a cell's change gives: of the pending set, or of the layout. -/
def cellSheet (c : Cmd) (s : State) : Sheet :=
  let l := s.layout c.h
  let sh := match l.pend with | some (_, x) => x | none => l.sheet
  { sh with cells := setNth sh.cells (c.f 2 5 0) ((List.range 8).map fun i => BitVec.ofNat 32 (c.w (4 + i))) }

/-- LAYOUT_CELL_SET. -/
def layoutCellSetSpec : CmdSpec := { op := 0x0502, minor := 2, used := [(2, 0x3F), (12, 0xC0000000)] }
def layoutCellSetCheck (c : Cmd) (s : State) : Nat :=
  let sh := cellSheet c s
  let cell := (List.range 8).map fun i => BitVec.ofNat 32 (c.w (4 + i))
  firstCode ([
    rejectIf (decide (1023 < c.h) || decide (1 < c.f 12 31 30)) BAD_PARAM,
    rejectIf (Tbl.has s.video.layouts c.h && (decide (sh.cells.length ≤ c.f 2 5 0) || cellBad sh.w sh.h cell || s.cellForeign c cell)) BAD_PARAM,
    layoutTarget c s] ++ changeFail c s sh)
def layoutCellSetApply (c : Cmd) (s : State) : Reply := { st := s.pendSheet c (cellSheet c s) }
/-- LAYOUT_CELL_SET (R222, R223). -/
def execLayoutCellSet (c : Cmd) (s : State) : Res := .next (runCmd layoutCellSetSpec layoutCellSetCheck layoutCellSetApply c s)

/-- LAYOUT_DESTROY. -/
def layoutDestroySpec : CmdSpec := { op := 0x0503 }
def layoutDestroyCheck (c : Cmd) (s : State) : Nat := firstCode [rejectIf (decide (1023 < c.h)) BAD_PARAM, layoutTarget c s]
def layoutDestroyApply (c : Cmd) (s : State) : Reply := { st := s.destroyLayout c.h }
/-- LAYOUT_DESTROY (R230). -/
def execLayoutDestroy (c : Cmd) (s : State) : Res := .next (runCmd layoutDestroySpec layoutDestroyCheck layoutDestroyApply c s)

/-- LAYOUT_QUERY. -/
def layoutQuerySpec : CmdSpec := { op := 0x0506, dma := true }
def layoutQueryCheck (c : Cmd) (s : State) : Nat := layoutDestroyCheck c s
def layoutQueryApply (c : Cmd) (s : State) : Reply :=
  let l := s.layout c.h
  queryReply c s ((l.sheet.hdr.map BitVec.toNat) ++ (l.sheet.cells.flatMap fun x => x.map BitVec.toNat)
    ++ [l.pe, l.next % 2 ^ 32, l.next / 2 ^ 32, b2n l.job.isSome, b2n l.pend.isSome] ++ (List.range 8).map fun k => Tbl.get l.cnt 0 k)
/-- LAYOUT_QUERY (R231). -/
def execLayoutQuery (c : Cmd) (s : State) : Res := .next (runCmd layoutQuerySpec layoutQueryCheck layoutQueryApply c s)

/-! ### Images (R230) -/

/-- The sample of a linear image in a host's words. -/
def linearSample (bytes : List Byte) (w h : Nat) (p010 : Bool) (p : Plane) (x y : Nat) : Nat :=
  let k := if p010 then 2 else 1
  let o := match p with
    | .y => k * (y * w + x)
    | .cb => k * (h * w + y * w + 2 * x)
    | .cr => k * (h * w + y * w + 2 * x + 1)
  if p010 then leNat ((bytes.drop o).take 2) / 64 else (nth bytes 0 o).toNat

/-- LAYOUT_IMAGE_LOAD. -/
def layoutImageLoadSpec : CmdSpec := { op := 0x0504, dma := true, used := [(5, 0x8000000F)] }
def layoutImageLoadCheck (c : Cmd) (s : State) : Nat :=
  let w := c.f 4 31 16
  let h := c.f 4 15 0
  firstCode [
    rejectIf (decide (4095 < c.h) || w % 2 != 0 || h % 2 != 0 || decide (w < 16) || decide (3840 < w) || decide (h < 16) || decide (2160 < h)) BAD_PARAM,
    (match Tbl.find s.video.images c.h with | some im => ownFail c im.own | none => 0),
    rejectIf (!Tbl.has s.video.images c.h && decide (1024 ≤ (s.video.images.filter fun kv => kv.2.own.fn / 64 == c.tenant).length)) IMAGE_LIMIT,
    rejectIf (s.allocFit (c.f 5 3 0) (frameBytes w h (c.b 5 31))).isNone NO_RESOURCE]
def layoutImageLoadApply (c : Cmd) (s : State) : Reply :=
  let w := c.f 4 31 16
  let h := c.f 4 15 0
  let p := c.b 5 31
  match s.allocFit (c.f 5 3 0) (frameBytes w h p) with
  | none => { st := s, code := NO_RESOURCE }
  | some (b, s1) =>
    let now := s.dev
    let s2 := s1.memWrite (s1.bufAddr b.fbh) (pictureBytes w h p (linearSample (wordsToBytes c.host) w h p))
    let s3 := s2.poolDone b [M_COMP] fun e => { e with width := w, height := h, p010 := p, time := now }
    let s4 := match Tbl.find s.video.images c.h with | some im => s3.unmark im.buf M_COMP | none => s3
    { st := s4.updVideo fun v => { v with images := Tbl.set v.images c.h { own := newOwn c s, buf := b, w, h, p010 := p } } }
/-- LAYOUT_IMAGE_LOAD (R230). -/
def execLayoutImageLoad (c : Cmd) (s : State) : Res := .next (runCmd layoutImageLoadSpec layoutImageLoadCheck layoutImageLoadApply c s)

/-- Does a sheet name an image? -/
def Sheet.names (sh : Sheet) (i : Nat) : Bool :=
  (sh.bgEn && sh.bgImg == i) || sh.cells.any fun x => cellValid x && cellKind x == 1 && cellSrc x == i

/-- Is an image named by a layout, in its sheet or its pending set? -/
def State.imageUsed (s : State) (i : Nat) : Bool :=
  s.video.layouts.any fun kv => kv.2.sheet.names i || (match kv.2.pend with | some (_, sh) => sh.names i | none => false)

/-- An image is freed. -/
def State.freeImage (s : State) (i : Nat) : State :=
  match Tbl.find s.video.images i with
  | none => s
  | some im => (s.unmark im.buf M_COMP).updVideo fun v => { v with images := Tbl.del v.images i }

/-- LAYOUT_IMAGE_FREE. -/
def layoutImageFreeSpec : CmdSpec := { op := 0x0505 }
def layoutImageFreeCheck (c : Cmd) (s : State) : Nat :=
  firstCode [rejectIf (decide (4095 < c.h)) BAD_PARAM, target c s.video.images (·.own) c.h, rejectIf (s.imageUsed c.h) IMAGE_IN_USE]
def layoutImageFreeApply (c : Cmd) (s : State) : Reply := { st := s.freeImage c.h }
/-- LAYOUT_IMAGE_FREE (R230). -/
def execLayoutImageFree (c : Cmd) (s : State) : Res := .next (runCmd layoutImageFreeSpec layoutImageFreeCheck layoutImageFreeApply c s)

end Sys2Proof.Machine
end

