-- ==== Sys2Proof/Machine/EncCmds.lean ====
section
/-! DEFINITION. The ENC commands (R178, R179, R195, R196, R206 to R208) and the caps of R103. -/

namespace Sys2Proof.Machine

abbrev GROUP_IN_USE : Nat := 0x0700
abbrev REND_IN_USE : Nat := 0x0701
abbrev ANALYSIS_BUDGET : Nat := 0x0702
abbrev CODER_BUDGET : Nat := 0x0703
abbrev FAMILY_MISMATCH : Nat := 0x0704
abbrev GROUP_FULL : Nat := 0x0705
abbrev SIZE_LIMIT : Nat := 0x0706

/-! ### Groups -/

/-- What words 4 to 6 give a group. -/
def Group.rates (g : Group) (c : Cmd) : Group :=
  { g with
    fps := c.f 4 31 24, rows := c.b 4 23, waveN := c.f 4 22 16, earlyN := dflt (c.f 4 14 8) (c.f 4 22 16), startN := dflt (c.f 4 6 0) 4
    period := c.f 5 15 0, staleRows := dflt (c.f 6 5 0) 2 }

/-- Words 4 to 6 out of range. -/
def ratesBad (c : Cmd) : Bool :=
  let wave (n : Nat) : Bool := decide (n < 4) || decide (120 < n)
  c.f 4 31 24 == 0 || decide (60 < c.f 4 31 24) || wave (c.f 4 22 16) || (c.f 4 14 8 != 0 && wave (c.f 4 14 8)) || (c.f 4 6 0 != 0 && wave (c.f 4 6 0))
    || (c.f 5 15 0 != 0 && decide (c.f 5 15 0 < c.f 4 22 16)) || decide (34 < c.f 6 5 0)

/-- Does an analysis charge fit an engine (R179), leaving out group `skip`? -/
def State.anFits (s : State) (skip charge pe : Nat) : Bool :=
  let l := s.video.groups.filter fun kv => kv.1 != skip && kv.2.pe == pe
  !s.engFenced pe && decide (l.length < 256) && decide (sumN (l.map fun kv => kv.2.w * kv.2.h * kv.2.fps) + charge ≤ 600000000)

/-- The engine for a group. -/
def State.groupPlace (s : State) (charge : Nat) (any : Bool) (pe : Nat) : Option Nat :=
  if any then (List.range 8).find? (s.anFits 2048 charge) else if s.anFits 2048 charge pe then some pe else none

/-- ENC_GROUP_CREATE. -/
def encGroupCreateSpec : CmdSpec := { op := 0x0700, used := [(2, 0xFF8003FF), (5, 0xFFFF), (6, 0x3F)] }
def encGroupCreateCheck (c : Cmd) (s : State) : Nat :=
  let w := c.f 3 31 16
  let h := c.f 3 15 0
  let l := s.layout (c.f 2 9 0)
  firstCode [
    rejectIf (decide (2047 < c.h) || decide (c.f 2 31 29 < 4) || decide (6 < c.f 2 31 29) || c.f 2 24 23 == 3 || ratesBad c) BAD_PARAM,
    target c s.video.layouts (·.own) (c.f 2 9 0),
    rejectIf l.removed BAD_STATE,
    rejectIf (l.sheet.w != w || l.sheet.h != h) BAD_PARAM,
    rejectIf (Tbl.has s.video.groups c.h) GROUP_IN_USE,
    rejectIf (decide (w < 128) || decide (3840 < w) || decide (h < 128) || decide (2160 < h)) SIZE_LIMIT,
    rejectIf (s.groupPlace (w * h * c.f 4 31 24) (c.b 2 28) (c.f 2 27 25)).isNone ANALYSIS_BUDGET]
def encGroupCreateApply (c : Cmd) (s : State) : Reply :=
  let w := c.f 3 31 16
  let h := c.f 3 15 0
  let pe := (s.groupPlace (w * h * c.f 4 31 24) (c.b 2 28) (c.f 2 27 25)).getD 0
  let g : Group := { own := newOwn c s, codec := c.f 2 31 29, pe, temporal := c.f 2 24 23, layout := c.f 2 9 0, w, h }
  { st := s.updVideo fun v => { v with groups := Tbl.set v.groups c.h (g.rates c) } }
/-- ENC_GROUP_CREATE (R178, R179, R207). -/
def execEncGroupCreate (c : Cmd) (s : State) : Res := .next (runCmd encGroupCreateSpec encGroupCreateCheck encGroupCreateApply c s)

/-- The target of a command on a group. -/
def groupTarget (c : Cmd) (s : State) (i : Nat) : Nat :=
  firstCode [target c s.video.groups (·.own) i, rejectIf (s.group i).removed BAD_STATE]

/-- The renditions on an engine. -/
def State.rendsOn (s : State) (pe : Nat) : List (Nat × Rend) := s.video.rends.filter fun kv => (s.group kv.2.group).pe == pe

/-- What renditions charge a coder (R179). -/
def State.coderLoad (s : State) (l : List (Nat × Rend)) (c : Nat) : Nat :=
  sumN ((l.filter fun kv => kv.2.coder == c).map fun kv => (s.rendDims kv.2).1 * (s.rendDims kv.2).2 * (s.group kv.2.group).fps)

/-- Does one more rate fit a coder of an engine (R179), leaving out rendition `skip`? -/
def State.coderFits (s : State) (skip rate pe c : Nat) : Bool :=
  let on := (s.rendsOn pe).filter fun kv => kv.1 != skip
  decide (on.length < 256) && decide (s.coderLoad on c + rate ≤ 600000000)

/-- ENC_GROUP_MODIFY. -/
def encGroupModifySpec : CmdSpec := { op := 0x0701, used := [(5, 0xFFFF), (6, 0x3F)] }
def encGroupModifyCheck (c : Cmd) (s : State) : Nat :=
  let g := s.group c.h
  let n := g.rates c
  let s1 := s.updGroup c.h fun _ => n
  firstCode [
    rejectIf (decide (2047 < c.h) || ratesBad c) BAD_PARAM,
    groupTarget c s c.h,
    rejectIf (!s.anFits c.h (n.w * n.h * n.fps) g.pe) ANALYSIS_BUDGET,
    rejectIf (decide (g.fps < n.fps) && (List.range 4).any fun k => decide (600000000 < s1.coderLoad (s1.rendsOn g.pe) k)) CODER_BUDGET]
def encGroupModifyApply (c : Cmd) (s : State) : Reply := { st := s.updGroup c.h fun g => g.rates c }
/-- ENC_GROUP_MODIFY (R195). -/
def execEncGroupModify (c : Cmd) (s : State) : Res := .next (runCmd encGroupModifySpec encGroupModifyCheck encGroupModifyApply c s)

/-- ENC_GROUP_DESTROY. -/
def encGroupDestroySpec : CmdSpec := { op := 0x0702 }
def encGroupDestroyCheck (c : Cmd) (s : State) : Nat := firstCode [rejectIf (decide (2047 < c.h)) BAD_PARAM, groupTarget c s c.h]
def encGroupDestroyApply (c : Cmd) (s : State) : Reply := { st := s.removeGroup c.h }
/-- ENC_GROUP_DESTROY (R196). -/
def execEncGroupDestroy (c : Cmd) (s : State) : Res := .next (runCmd encGroupDestroySpec encGroupDestroyCheck encGroupDestroyApply c s)

/-- ENC_REFRESH. -/
def encRefreshSpec : CmdSpec := { op := 0x0706 }
def encRefreshCheck (c : Cmd) (s : State) : Nat := encGroupDestroyCheck c s
def encRefreshApply (c : Cmd) (s : State) : Reply := { st := s.updGroup c.h fun g => { g with asked := true } }
/-- ENC_REFRESH (R195). -/
def execEncRefresh (c : Cmd) (s : State) : Res := .next (runCmd encRefreshSpec encRefreshCheck encRefreshApply c s)

/-! ### Renditions -/

/-- What words 2 to 5 and 8 give a rendition of a codec. -/
def Rend.settings (r : Rend) (c : Cmd) (codec : Nat) : Rend :=
  { r with
    scale := c.f 2 15 13, profile := c.f 2 20 19, p010 := c.b 2 21, fixed := c.b 3 16
    qTarget := c.f 3 7 0, qMax := dflt (c.f 3 15 8) (codecQMax codec)
    fixedCaps := { pic := c.f 4 23 0, win := c.f 5 23 0, pics := dflt (c.f 5 31 26) 64 }, maxKbps := c.f 8 28 0 }

/-- The coder for a rendition: the one named, or with any its own or the lowest that fits. -/
def State.coderPlace (s : State) (skip rate pe : Nat) (any : Bool) (c own : Nat) : Option Nat :=
  if any then (if s.coderFits skip rate pe own then some own else (List.range 4).find? (s.coderFits skip rate pe))
  else if s.coderFits skip rate pe c then some c else none

/-- The refusals that a rendition's settings bring, in a group. -/
def State.rendFail (s : State) (c : Cmd) (g : Group) (skip own : Nat) : List Nat :=
  let r := ({ group := c.f 2 10 0 } : Rend).settings c g.codec
  let w := scaledDim g.w r.scale
  let h := scaledDim g.h r.scale
  let need := Config.floorBytes g.codec w h
  [rejectIf (decide (r.qMax < r.qTarget) || decide (codecQMax g.codec < r.qMax)
      || (r.fixed && (r.fixedCaps.pics == 1 || decide (r.fixedCaps.pic < need) || decide (r.fixedCaps.win < need)))) BAD_PARAM,
    rejectIf ((g.codec == 4 && decide (1 < r.profile)) || (g.codec != 4 && r.profile != 0) || (g.codec != 6 && r.p010)) FAMILY_MISMATCH,
    rejectIf (decide (w < 64) || decide (h < 64)) SIZE_LIMIT,
    rejectIf (s.coderPlace skip (w * h * g.fps) g.pe (c.b 2 18) (c.f 2 17 16) own).isNone CODER_BUDGET,
    rejectIf (let sc := s.scalesOf g.layout
      let l := s.layout g.layout
      !sc.contains r.scale && Tbl.has s.video.layouts g.layout && !s.compFits g.layout (s.compCharge l.sheet (sc ++ [r.scale])) l.pe) NO_RESOURCE]

/-- ENC_REND_ADD. -/
def encRendAddSpec : CmdSpec := {
    op := 0x0703
    used := [(2, 0x803FE7FF), (3, 0x1FFFF), (4, 0xFFFFFF), (5, 0xFCFFFFFF), (6, 0x3FFFF), (7, 0xF), (8, 0x1FFFFFFF)] }
def encRendAddCheck (c : Cmd) (s : State) : Nat :=
  let gi := c.f 2 10 0
  let g := s.group gi
  firstCode ([
    rejectIf (decide (2047 < c.h) || decide (5 < c.f 2 15 13) || c.f 2 20 19 == 3) BAD_PARAM,
    groupTarget c s gi,
    rejectIf (Tbl.has s.video.rends c.h) REND_IN_USE,
    rejectIf (Tbl.has s.net.streams (c.f 6 17 0)) STREAM_IN_USE,
    rejectIf (decide (8 ≤ ((s.rendsOf gi).filter fun kv => !kv.2.removed).length)) GROUP_FULL] ++ s.rendFail c g 2048 0)
def encRendAddApply (c : Cmd) (s : State) : Reply :=
  let gi := c.f 2 10 0
  let g := s.group gi
  let r := ({ own := newOwn c s, group := gi, outStream := c.f 6 17 0, region := c.f 7 3 0 } : Rend).settings c g.codec
  let coder := (s.coderPlace 2048 (scaledDim g.w r.scale * scaledDim g.h r.scale * g.fps) g.pe (c.b 2 18) (c.f 2 17 16) 0).getD 0
  let r := { r with coder, st := if c.b 2 31 then RendSt.paused else RendSt.start, left := if c.b 2 31 then some 0 else none }
  let s1 := s.updVideo fun v => { v with rends := Tbl.set v.rends c.h r }
  let st : Stream := { own := newOwn c s, device := true, kind := 1, layerSrc := 4, codec := g.codec, clock := 90000 }
  { st := s1.updNet fun n => { n with streams := Tbl.set n.streams (c.f 6 17 0) st } }
/-- ENC_REND_ADD (R178, R179). -/
def execEncRendAdd (c : Cmd) (s : State) : Res := .next (runCmd encRendAddSpec encRendAddCheck encRendAddApply c s)

/-- The target of a command on a rendition. -/
def rendTarget (c : Cmd) (s : State) : Nat :=
  firstCode [target c s.video.rends (·.own) c.h, rejectIf (s.rend c.h).removed BAD_STATE]

/-- ENC_REND_MODIFY. -/
def encRendModifySpec : CmdSpec := {
    op := 0x0704
    used := [(2, 0x803FE7FF), (3, 0x1FFFF), (4, 0xFFFFFF), (5, 0xFCFFFFFF), (8, 0x1FFFFFFF)] }
def encRendModifyCheck (c : Cmd) (s : State) : Nat :=
  let r := s.rend c.h
  let g := s.group r.group
  firstCode ([
    rejectIf (decide (2047 < c.h) || decide (5 < c.f 2 15 13) || c.f 2 20 19 == 3) BAD_PARAM,
    rendTarget c s,
    rejectIf (c.f 2 10 0 != r.group) BAD_PARAM] ++ s.rendFail c g c.h r.coder)
def encRendModifyApply (c : Cmd) (s : State) : Reply :=
  let r := s.rend c.h
  let g := s.group r.group
  let n := r.settings c g.codec
  let coder := (s.coderPlace c.h (scaledDim g.w n.scale * scaledDim g.h n.scale * g.fps) g.pe (c.b 2 18) (c.f 2 17 16) r.coder).getD r.coder
  let fresh := n.scale != r.scale || n.profile != r.profile || n.p010 != r.p010
  let s1 := s.updRend c.h fun _ => { n with coder }
  if c.b 2 31 then { st := (s1.updRend c.h (Rend.pause · fresh)).dropQueue c.h }
  else if fresh || (r.st == .paused && (r.fresh || r.refs.isEmpty)) then { st := (s1.updRend c.h Rend.restart).dropQueue c.h }
  else if r.st = .paused then { st := s1.updRend c.h (Rend.resume · g.earlyN) }
  else { st := s1 }
/-- ENC_REND_MODIFY (R196). -/
def execEncRendModify (c : Cmd) (s : State) : Res := .next (runCmd encRendModifySpec encRendModifyCheck encRendModifyApply c s)

/-- ENC_REND_REMOVE. -/
def encRendRemoveSpec : CmdSpec := { op := 0x0705 }
def encRendRemoveCheck (c : Cmd) (s : State) : Nat := firstCode [rejectIf (decide (2047 < c.h)) BAD_PARAM, rendTarget c s]
def encRendRemoveApply (c : Cmd) (s : State) : Reply := { st := s.removeRend c.h }
/-- ENC_REND_REMOVE (R196). -/
def execEncRendRemove (c : Cmd) (s : State) : Res := .next (runCmd encRendRemoveSpec encRendRemoveCheck encRendRemoveApply c s)

/-- ENC_QUERY. -/
def encQuerySpec : CmdSpec := { op := 0x0707, dma := true, used := [(4, 0x1)] }
def encQueryCheck (c : Cmd) (s : State) : Nat := if c.b 4 0 then encRendRemoveCheck c s else encGroupDestroyCheck c s
def encQueryApply (c : Cmd) (s : State) : Reply :=
  if c.b 4 0 then
    let r := s.rend c.h
    let caps := (s.capsOf r).getD {}
    queryReply c s ([r.st.code, r.group, r.coder, r.scale, r.k, r.n, r.count, r.stale.length, caps.pic, caps.win, caps.pics]
      ++ (List.range 4).map fun k => Tbl.get r.cnt 0 k)
  else
    let g := s.group c.h
    queryReply c s [g.codec, g.pe, g.temporal, g.layout, g.w, g.h, g.fps, g.since.getD 0, b2n g.asked, b2n g.starved, g.raise, g.nextPic]
/-- ENC_QUERY (R208). -/
def execEncQuery (c : Cmd) (s : State) : Res := .next (runCmd encQuerySpec encQueryCheck encQueryApply c s)

end Sys2Proof.Machine
end

