-- ==== Sys2Proof/Machine/Legs.lean ====
section
/-! DEFINITION. The LEG, STREAM and CASCADE commands (R48, R50, R51, R58, R70, R75), and the destruction of legs and
streams with their dependants. -/

namespace Sys2Proof.Machine

abbrev LEG_IN_USE : Nat := 0x0100
abbrev ADDR_IN_USE : Nat := 0x0101
abbrev SSRC_IN_USE : Nat := 0x0201
abbrev CONF_MISMATCH : Nat := 0x0202
abbrev PEER_IN_USE : Nat := 0x0B00
abbrev DEV_ID_UNSET : Nat := 0x0B01
abbrev PEER_LIMIT : Nat := 0x0B02

/-! ### Destruction (R58, R76, R410) -/

/-- The descriptors of a flow queue are discarded (R19). -/
def State.flushFlowq (s : State) (q : Nat) : State :=
  match Tbl.find s.net.flowqs q with
  | none => s
  | some f => f.descs.foldl (fun s d => (s.returnDesc d.tenant d.pool).dropDesc d) (s.setFlowq q { f with descs := [] })

/-- A stream is destroyed with what depends on it: the sources, decode contexts and rendition that are made from it, then
its subscriptions (R58, R146, R175, R209). -/
def State.destroyStream (s : State) (i : Nat) : State :=
  let src := s.mix.sources.keysWhere fun _ x => x.kind == 0 && x.from' == i
  let s1 := src.foldl State.removeSource s
  let s2 := (s1.video.decs.keysWhere fun _ d => d.stream == i).foldl State.destroyDec s1
  let s3 := (s2.video.rends.keysWhere fun _ r => r.outStream == i && !r.removed).foldl State.removeRend s2
  s3.dropStream i

/-- The output contexts of a leg go to IDLE (R58). -/
def State.dropLegSubs (s : State) (i : Nat) : State := (s.net.subs.keysWhere fun _ x => x.rxLeg == i).foldl State.dropSub s

/-- The cascade bindings of a leg end. -/
def State.dropLegPeers (s : State) (i : Nat) : State := s.updNet fun n => { n with peers := Tbl.keep n.peers fun _ p => p.leg != i }

/-- A conference without an owner goes with its last leg (R410). -/
def State.sweepConf (s : State) (i : Nat) : State :=
  if (s.conf i).orphan && Tbl.has s.mix.confs i && (s.confLegs i).isEmpty then s.destroyConf i else s

/-- A leg is destroyed with its streams, subscriptions, policer, window and bindings, and its queues are flushed (R58,
R110). -/
def State.destroyLeg (s : State) (i : Nat) : State :=
  match Tbl.find s.net.legs i with
  | none => s
  | some l =>
    let s1 := (s.net.streams.keysWhere fun _ x => !x.device && x.leg == i).foldl State.destroyStream s
    let s2 := (s1.dropLegSubs i).dropLegPeers i
    let s3 := (s2.net.flowqs.keysWhere fun _ f => f.leg == i).foldl State.flushFlowq s2
    (s3.updNet fun n => { n with legs := Tbl.del n.legs i, policers := Tbl.del n.policers i, est := Tbl.del n.est i }).sweepConf l.conf

/-! ### Legs -/

/-- An IP address of a message: IPv4 in its first word, or IPv6 in four, most significant word first. -/
def ipOf (c : Cmd) (w : Nat) (v6 : Bool) : Nat :=
  if v6 then ((c.w w * 2 ^ 32 + c.w (w + 1)) * 2 ^ 32 + c.w (w + 2)) * 2 ^ 32 + c.w (w + 3) else c.w w

/-- What LEG_CREATE's words give. -/
def legOfCmd (c : Cmd) (own : Own) : Leg :=
  let v6 := c.f 2 31 30 == 1
  {
    own, conf := c.f 2 10 0, port := c.f 2 26 24, v6, mux := c.b 2 29, srtp := c.b 2 28, cascade := c.b 2 27
    vlan := if c.b 13 31 then some (c.f 13 27 16) else none, localIp := ipOf c 4 v6, remoteIp := ipOf c 8 v6
    localUdp := c.f 3 31 16, remoteUdp := c.f 3 15 0, localRtcp := c.f 12 31 16, remoteRtcp := c.f 12 15 0, twId := c.f 2 23 16
    egressQ := c.f 13 15 0, rtcpDq := c.f 14 30 17, srtcpEnc := c.f 14 16 0, srtcpDec := c.f 15 16 0 }

/-- Fields of a leg out of range, reserved or inconsistent. -/
def legBad (c : Cmd) : Bool :=
  let v4 := c.f 2 31 30 == 0
  decide (16383 < c.h) || decide (1 < c.f 2 31 30) || c.f 2 15 11 != 0 || decide (49151 < c.f 13 15 0) || decide (12287 < c.f 14 30 17)
    || (v4 && [5, 6, 7, 9, 10, 11].any fun w => c.w w != 0) || (c.b 2 29 && c.w 12 != 0)

/-- The lookup keys of a leg (R48): the RTP port's, and the separate RTCP port's. -/
def Leg.keys (l : Leg) : List (Nat × Nat) :=
  (l.localUdp, l.remoteUdp) :: if l.mux then [] else [(l.localRtcp, l.remoteRtcp)]

/-- Do two legs share a lookup key? -/
def Leg.clash (a b : Leg) : Bool :=
  a.v6 == b.v6 && a.vlan == b.vlan && a.localIp == b.localIp && a.remoteIp == b.remoteIp && a.keys.any fun k => b.keys.contains k

/-- Is a key bound by a leg other than `i`? -/
def State.keyBound (s : State) (i : Nat) (l : Leg) : Bool := s.net.legs.any fun kv => kv.1 != i && kv.2.clash l

/-- A plane that the Test strip found bad cannot be fenced; LEG_CREATE is refused instead (R481). -/
def State.planeBad (s : State) : Bool := s.tst.fenced.contains 88 || s.tst.fenced.contains 89

/-- The queue and the slots that a leg names (R84, R296). -/
def legNames (c : Cmd) (s : State) (l : Leg) : List Nat :=
  [queueNamed c s l.egressQ, slotNamed c s l.srtp l.srtcpEnc, slotNamed c s l.srtp l.srtcpDec]

/-- LEG_CREATE. -/
def legCreateSpec : CmdSpec := {
    op := 0x0100
    used := [(2, 0xFFFF07FF), (13, 0x8FFFFFFF), (14, 0x7FFFFFFF), (15, 0x1FFFF)] }
def legCreateCheck (c : Cmd) (s : State) : Nat :=
  let l := legOfCmd c {}
  firstCode ([
    rejectIf (legBad c || (l.cascade && l.localUdp != s.rf .STRATA_CTRL 0 15 0)) BAD_PARAM,
    rejectIf (!Tbl.has s.mix.confs l.conf) BAD_STATE] ++ legNames c s l ++ [
    rejectIf ((s.conf l.conf).orphan || (s.conf l.conf).own.dying) BAD_STATE,
    rejectIf (Tbl.has s.net.legs c.h) LEG_IN_USE,
    rejectIf (s.keyBound 16384 l) ADDR_IN_USE,
    rejectIf s.planeBad NO_RESOURCE])
def legCreateApply (c : Cmd) (s : State) : Reply :=
  { st := s.updNet fun n => { n with legs := Tbl.set n.legs c.h (legOfCmd c (newOwn c s)) } }
/-- LEG_CREATE (R48, R75). -/
def execLegCreate (c : Cmd) (s : State) : Res := .next (runCmd legCreateSpec legCreateCheck legCreateApply c s)

/-- The leg with what LEG_MODIFY may change taken from another. -/
def Leg.modify (l n : Leg) : Leg :=
  { l with
    remoteIp := n.remoteIp, remoteUdp := n.remoteUdp, remoteRtcp := n.remoteRtcp, egressQ := n.egressQ, rtcpDq := n.rtcpDq
    srtcpEnc := n.srtcpEnc, srtcpDec := n.srtcpDec }

/-- The fields of a leg that LEG_MODIFY may not change. -/
def Leg.fixed (l : Leg) : Bool × Bool × Bool × Bool × Option Nat × List Nat :=
  (l.v6, l.mux, l.srtp, l.cascade, l.vlan, [l.conf, l.port, l.localIp, l.localUdp, l.localRtcp, l.twId])

/-- LEG_MODIFY. -/
def legModifySpec : CmdSpec := {
    op := 0x0101
    used := [(2, 0xFFFF07FF), (13, 0x8FFFFFFF), (14, 0x7FFFFFFF), (15, 0x1FFFF)] }
def legModifyCheck (c : Cmd) (s : State) : Nat :=
  let n := legOfCmd c {}
  let l := s.leg c.h
  firstCode ([
    rejectIf (legBad c) BAD_PARAM,
    rejectIf (!Tbl.has s.net.legs c.h) BAD_STATE,
    rejectIf (ownFail c l.own == NOT_OWNER) NOT_OWNER] ++ legNames c s n ++ [
    rejectIf l.own.dying BAD_STATE,
    rejectIf (s.keyBound c.h (l.modify n)) ADDR_IN_USE,
    rejectIf (l.fixed != n.fixed) BAD_STATE])
def legModifyApply (c : Cmd) (s : State) : Reply := { st := s.updLeg c.h fun l => l.modify (legOfCmd c {}) }
/-- LEG_MODIFY (R75). -/
def execLegModify (c : Cmd) (s : State) : Res := .next (runCmd legModifySpec legModifyCheck legModifyApply c s)

/-- A leg as a target. -/
def legTarget (c : Cmd) (s : State) (i : Nat) : Nat := if 16383 < i then BAD_PARAM else target c s.net.legs (·.own) i

/-- LEG_DESTROY. -/
def legDestroySpec : CmdSpec := { op := 0x0102 }
def legDestroyCheck (c : Cmd) (s : State) : Nat := legTarget c s c.h
def legDestroyApply (c : Cmd) (s : State) : Reply := { st := s.destroyLeg c.h }
/-- LEG_DESTROY (R58). -/
def execLegDestroy (c : Cmd) (s : State) : Res := .next (runCmd legDestroySpec legDestroyCheck legDestroyApply c s)

/-- LEG_QUERY. -/
def legQuerySpec : CmdSpec := { op := 0x0103, dma := true }
def legQueryApply (c : Cmd) (s : State) : Reply :=
  let l := s.leg c.h
  let ip (n : Nat) : List Nat := (List.range 4).map fun i => n / 2 ^ (32 * (3 - i)) % 2 ^ 32
  queryReply c s ([l.own.fn, l.conf, l.port, b2n l.v6 + 2 * b2n l.mux + 4 * b2n l.srtp + 8 * b2n l.cascade,
    (match l.vlan with | some v => 2 ^ 31 + v | none => 0)] ++ ip l.localIp ++ ip l.remoteIp
    ++ [l.localUdp * 65536 + l.remoteUdp, l.localRtcp * 65536 + l.remoteRtcp, l.twId, l.egressQ, 49152 + l.rtcpDq, l.srtcpEnc,
      l.srtcpDec, l.twNext, l.yDrops, l.rDrops])
/-- LEG_QUERY (R81). -/
def execLegQuery (c : Cmd) (s : State) : Res := .next (runCmd legQuerySpec legDestroyCheck legQueryApply c s)

/-! ### Streams -/

/-- What STREAM_CREATE's words give. -/
def streamOfCmd (c : Cmd) (own : Own) : Stream :=
  let sim := c.f 4 27 25 == 3
  {
    own, leg := c.f 2 15 0, ssrc := c.w 3, rtxSsrc := if c.b 2 31 then some (c.w 7) else none, kind := c.f 4 31 30, dest := c.f 4 29 28
    layerSrc := c.f 4 27 25, codec := c.f 4 24 22, pt := c.f 4 21 15, rtxPt := c.f 4 14 8, ddId := c.f 5 31 24, fmId := c.f 5 23 16
    decSlot := c.f 6 16 0, simGroup := if sim then c.f 8 31 16 else 65535, simIndex := if sim then c.f 8 15 8 else 0
    dispQ := c.f 9 15 0, clock := c.w 10 }

/-- The SSRCs of a stream. -/
def Stream.ssrcs (x : Stream) : List Nat := x.ssrc :: x.rtxSsrc.toList

/-- Does a leg use one of a stream's SSRCs already, or does the stream name one twice? -/
def State.ssrcUsed (s : State) (x : Stream) : Bool :=
  x.rtxSsrc == some x.ssrc
    || s.net.streams.any fun kv => !kv.2.device && kv.2.leg == x.leg && kv.2.ssrcs.any fun v => x.ssrcs.contains v

/-- A stream_id that is in use, or that a conference reserves for its derived classes. -/
def State.streamUsed (s : State) (i : Nat) : Bool := Tbl.has s.net.streams i || s.inReserve 4096 16384 0 i 1

/-- STREAM_CREATE. -/
def streamCreateSpec : CmdSpec := {
    op := 0x0200
    used := [(2, 0x8000FFFF), (4, 0xFFFFFF00), (5, 0xFFFF0000), (6, 0x1FFFF), (8, 0xFFFFFF00), (9, 0xFFFF)] }
def streamCreateCheck (c : Cmd) (s : State) : Nat :=
  let x := streamOfCmd c {}
  let l := s.leg x.leg
  firstCode [
    rejectIf (decide (262143 < c.h) || decide (16383 < x.leg) || decide (1 < x.kind) || decide (2 < x.dest) || decide (5 < x.layerSrc)
      || decide (6 < x.codec) || (x.dest != 0 && (decide (x.dispQ < 49152) || decide (61439 < x.dispQ)))
      || (x.layerSrc == 3 && (x.simGroup == 65535 || decide (3 < x.simIndex)))) BAD_PARAM,
    rejectIf (!Tbl.has s.net.legs x.leg) BAD_STATE,
    rejectIf (ownFail c l.own == NOT_OWNER) NOT_OWNER,
    slotNamed c s l.srtp x.decSlot,
    rejectIf l.own.dying BAD_STATE,
    rejectIf (s.streamUsed c.h) STREAM_IN_USE,
    rejectIf (s.ssrcUsed x) SSRC_IN_USE,
    rejectIf (x.layerSrc == 3 && (s.members x).any fun m => m.1 == x.simIndex) BAD_PARAM]
def streamCreateApply (c : Cmd) (s : State) : Reply :=
  { st := s.updNet fun n => { n with streams := Tbl.set n.streams c.h (streamOfCmd c (newOwn c s)) } }
/-- STREAM_CREATE (R48, R51, R75). -/
def execStreamCreate (c : Cmd) (s : State) : Res := .next (runCmd streamCreateSpec streamCreateCheck streamCreateApply c s)

/-- A stream as a target. -/
def streamTarget (c : Cmd) (s : State) (i : Nat) : Nat := if 262143 < i then BAD_PARAM else target c s.net.streams (·.own) i

/-- STREAM_DESTROY. -/
def streamDestroySpec : CmdSpec := { op := 0x0201 }
def streamDestroyCheck (c : Cmd) (s : State) : Nat := streamTarget c s c.h
def streamDestroyApply (c : Cmd) (s : State) : Reply := { st := s.destroyStream c.h }
/-- STREAM_DESTROY (R58). -/
def execStreamDestroy (c : Cmd) (s : State) : Res := .next (runCmd streamDestroySpec streamDestroyCheck streamDestroyApply c s)

/-- The conference that carries a stream: its leg's, or that of the class or rendition which makes it; a rendition belongs
to none, and any leg may receive it. -/
def State.streamConf (s : State) (i : Nat) : Option Nat :=
  let st := s.stream i
  if !st.device then some (s.leg st.leg).conf
  else (s.mix.classes.find? fun kv => kv.2.outStream == i).map (·.2.conf)

/-- What STREAM_SUBSCRIBE's words give. -/
def subOfCmd (c : Cmd) (own : Own) : Sub :=
  {
    own, st := if c.b 4 26 then .paused else .joinWait, src := c.f 2 17 0, rxLeg := c.f 3 15 0, maxS := c.f 4 31 30, maxT := c.f 4 29 27
    pause := c.b 4 26, relay := c.b 4 25, rtxSsrc := if c.b 4 24 then some (c.w 9) else none, encSlot := c.f 5 16 0, outQ := c.f 6 15 0
    outSsrc := c.w 7, lastOut := dist 16 (c.f 8 31 16) 1, rtxSeq := c.f 8 15 0, tsOff := c.w 10, member := c.f 2 17 0 }

/-- STREAM_SUBSCRIBE. -/
def streamSubscribeSpec : CmdSpec := {
    op := 0x0202
    used := [(2, 0x3FFFF), (3, 0xFFFF), (4, 0xFF000000), (5, 0x1FFFF), (6, 0xFFFF)] }
def streamSubscribeCheck (c : Cmd) (s : State) : Nat :=
  let x := subOfCmd c {}
  let l := s.leg x.rxLeg
  let st := s.stream x.src
  firstCode [
    rejectIf (decide (131071 < c.h) || decide (16383 < x.rxLeg) || decide (49151 < x.outQ)) BAD_PARAM,
    rejectIf (!Tbl.has s.net.legs x.rxLeg || !Tbl.has s.net.streams x.src) BAD_STATE,
    rejectIf (ownFail c l.own == NOT_OWNER) NOT_OWNER,
    slotNamed c s l.srtp x.encSlot,
    queueNamed c s x.outQ,
    rejectIf (l.own.dying || st.own.dying) BAD_STATE,
    rejectIf (Tbl.has s.net.subs c.h) SUB_IN_USE,
    (match s.streamConf x.src with
      | some k => rejectIf (k != l.conf) CONF_MISMATCH
      | none => 0),
    rejectIf (decide (16384 ≤ (s.net.subs.filter fun kv => s.follows kv.2 x.src st).length)) NO_RESOURCE]
def streamSubscribeApply (c : Cmd) (s : State) : Reply := { st := s.setSub c.h (subOfCmd c (newOwn c s)) }
/-- STREAM_SUBSCRIBE (R50, R58). -/
def execStreamSubscribe (c : Cmd) (s : State) : Res := .next (runCmd streamSubscribeSpec streamSubscribeCheck streamSubscribeApply c s)

/-- STREAM_MODIFY. -/
def streamModifySpec : CmdSpec := { op := 0x0203, used := [(2, 0xFE000000)] }
def streamModifyCheck (c : Cmd) (s : State) : Nat := subTarget c s c.h
/-- The context under new caps: paused, or out of PAUSED again (R58). -/
def Sub.modify (x : Sub) (c : Cmd) : Sub :=
  let y := { x with maxS := c.f 2 31 30, maxT := c.f 2 29 27, pause := c.b 2 26, relay := c.b 2 25 }
  if y.pause then { y with st := .paused, frame := none }
  else if y.st = .paused then { y with st := .joinWait, keyPosted := false }
  else y
def streamModifyApply (c : Cmd) (s : State) : Reply := { st := s.retarget c.h ((s.sub c.h).modify c) }
/-- STREAM_MODIFY (R58). -/
def execStreamModify (c : Cmd) (s : State) : Res := .next (runCmd streamModifySpec streamModifyCheck streamModifyApply c s)

/-- STREAM_UNSUBSCRIBE. -/
def streamUnsubscribeSpec : CmdSpec := { op := 0x0204 }
def streamUnsubscribeApply (c : Cmd) (s : State) : Reply := { st := s.dropSub c.h }
/-- STREAM_UNSUBSCRIBE (R58): the output context goes to IDLE. -/
def execStreamUnsubscribe (c : Cmd) (s : State) : Res :=
  .next (runCmd streamUnsubscribeSpec streamModifyCheck streamUnsubscribeApply c s)

/-- The words of an output context as R74 lays them out, from word 0x00 on. -/
def Sub.octx (x : Sub) : List Nat :=
  let w16 (a b : Nat) : Nat := a % 65536 + b % 65536 * 65536
  [x.st.code + x.curS % 4 * 16 + x.curT % 8 * 64 + x.tgtS % 4 * 512 + x.tgtT % 8 * 2048 + x.maxS % 4 * 16384 + x.maxT % 8 * 65536,
    x.src, x.rxLeg, x.outSsrc, x.rtxSsrc.getD 0, x.tsOff, w16 x.lastOut x.lastIn, w16 x.dropped x.rtxSeq,
    x.reserved.toNat % 2 ^ 32, x.reserved.toNat / 2 ^ 32, x.used.toNat % 2 ^ 32, x.used.toNat / 2 ^ 32, x.ahead.toNat % 2 ^ 32,
    x.ahead.toNat / 2 ^ 32, 0, 0]
    ++ (List.range 32).map fun k => w16 (Tbl.get x.window 0 (2 * k)) (Tbl.get x.window 0 (2 * k + 1))

/-- STREAM_QUERY. -/
def streamQuerySpec : CmdSpec := { op := 0x0205, dma := true, used := [(4, 0x1)] }
def streamQueryCheck (c : Cmd) (s : State) : Nat := if c.b 4 0 then subTarget c s c.h else streamTarget c s c.h
def streamQueryApply (c : Cmd) (s : State) : Reply :=
  if c.b 4 0 then queryReply c s (s.sub c.h).octx
  else
    let x := s.stream c.h
    queryReply c s [x.own.fn, x.leg + 2 ^ 31 * b2n x.device, x.ssrc, x.rtxSsrc.getD 0, x.kind, x.dest, x.layerSrc, x.codec, x.pt, x.rtxPt,
      x.ddId, x.fmId, x.decSlot, x.simGroup, x.simIndex, x.dispQ, x.clock]
/-- STREAM_QUERY (R74, R75). -/
def execStreamQuery (c : Cmd) (s : State) : Res := .next (runCmd streamQuerySpec streamQueryCheck streamQueryApply c s)

/-! ### Cascade peers -/

/-- CASCADE_PEER_ADD: the decrypt slot of the control stream, which no field gives, is a free value. -/
def cascadePeerAddSpec : CmdSpec := {
    op := 0x0B00, minor := 1
    used := [(2, 0x3FFFF), (3, 0xFFFF), (4, 0x3FFFF), (7, 0x1FFFF)] }
def cascadePeerAddCheck (c : Cmd) (s : State) : Nat :=
  let l := s.leg (c.f 3 15 0)
  let x : Stream := { leg := c.f 3 15 0, ssrc := c.w 5 }
  firstCode [
    rejectIf (decide (1023 < c.h) || decide (16383 < c.f 3 15 0)) BAD_PARAM,
    rejectIf (!Tbl.has s.net.legs (c.f 3 15 0)) BAD_STATE,
    rejectIf (ownFail c l.own == NOT_OWNER) NOT_OWNER,
    slotNamed c s l.srtp (c.f 7 16 0),
    rejectIf (l.own.dying || !l.cascade) BAD_STATE,
    rejectIf (s.streamUsed (c.f 4 17 0)) STREAM_IN_USE,
    rejectIf (s.ssrcUsed x) SSRC_IN_USE,
    rejectIf (!s.rb .STRATA_DEVID 0 31) DEV_ID_UNSET,
    rejectIf (decide (1024 ≤ s.net.peers.length)) PEER_LIMIT,
    rejectIf (Tbl.has s.net.peers c.h || s.net.peers.any fun kv => kv.2.dev == c.f 2 17 0 || kv.2.leg == c.f 3 15 0) PEER_IN_USE]
def cascadePeerAddApply (c : Cmd) (s : State) : Reply :=
  let own := newOwn c s
  let (w, s) := s.freeWord
  let st : Stream := { own, leg := c.f 3 15 0, ssrc := c.w 5, dest := 1, dispQ := s.disp.estQid, decSlot := fld w 16 0, kind := 1 }
  let p : Peer := {
    own, dev := c.f 2 17 0, leg := c.f 3 15 0, ctrlStream := c.f 4 17 0, ctrlSsrc := c.w 5, txSsrc := c.w 6, encSlot := c.f 7 16 0
    lastHeard := s.ela }
  { st := s.updNet fun n => { n with streams := Tbl.set n.streams (c.f 4 17 0) st, peers := Tbl.set n.peers c.h p } }
/-- CASCADE_PEER_ADD (R70, R75). -/
def execCascadePeerAdd (c : Cmd) (s : State) : Res := .next (runCmd cascadePeerAddSpec cascadePeerAddCheck cascadePeerAddApply c s)

/-- CASCADE_PEER_REMOVE. -/
def cascadePeerRemoveSpec : CmdSpec := { op := 0x0B01, minor := 1 }
def cascadePeerRemoveCheck (c : Cmd) (s : State) : Nat := if 1023 < c.h then BAD_PARAM else target c s.net.peers (·.own) c.h
def cascadePeerRemoveApply (c : Cmd) (s : State) : Reply :=
  let p := Tbl.get s.net.peers {} c.h
  { st := (s.destroyStream p.ctrlStream).updNet fun n => { n with peers := Tbl.del n.peers c.h } }
/-- CASCADE_PEER_REMOVE (R75): the leg stays. -/
def execCascadePeerRemove (c : Cmd) (s : State) : Res :=
  .next (runCmd cascadePeerRemoveSpec cascadePeerRemoveCheck cascadePeerRemoveApply c s)

/-- CASCADE_SET_DEVID. -/
def cascadeSetDevidSpec : CmdSpec := { op := 0x0B02, minor := 1, chan := .ch0, used := [(2, 0x3FFFF)] }
def cascadeSetDevidApply (c : Cmd) (s : State) : Reply :=
  { st := (s.setRf .STRATA_DEVID 0 17 0 (c.f 2 17 0)).setRb .STRATA_DEVID 0 31 true }
/-- CASCADE_SET_DEVID (R75): on channel 0 alone. -/
def execCascadeSetDevid (c : Cmd) (s : State) : Res := .next (runCmd cascadeSetDevidSpec (fun _ _ => 0) cascadeSetDevidApply c s)

end Sys2Proof.Machine
end

