-- ==== Sys2Proof/Machine/Qos.lean ====
section
/-! DEFINITION. The QOS commands, and the caps that firmware sets from estimates (R79 to R105, R108, R109). -/

namespace Sys2Proof.Machine

abbrev GATE_LIST_BAD : Nat := 0x0800
abbrev STR_WINDOW_BUSY : Nat := 0x0801
abbrev MIN_OVERCOMMIT : Nat := 0x0802
abbrev BURST_TOO_SMALL : Nat := 0x0803

/-- A size too small for its rate (R90). -/
def burstBad (rate size : Nat) : Bool := rate != 0 && decide (size < 9279)

/-! ### Policers (R79 to R83) -/

/-- QOS_POLICER_SET. -/
def qosPolicerSetSpec : CmdSpec := {
    op := 0x0800
    used := [(2, 0xFF830000), (3, 0xFFFFFF), (4, 0xFFFFFF), (5, 0xFFFFFF), (6, 0xFFFFFF)] }
def qosPolicerSetCheck (c : Cmd) (s : State) : Nat :=
  let mode := c.f 2 31 30
  let bad := mode == 3 || c.f 2 27 26 == 3 || c.f 2 25 24 == 3
    || (mode != 0 && (c.f 3 23 0 == 0 || decide (c.f 4 23 0 < 9216)))
    || (mode == 2 && (decide (c.f 5 23 0 < c.f 3 23 0) || decide (c.f 6 23 0 < 9216)))
  firstCode [rejectIf (decide (16383 < c.h) || bad) BAD_PARAM, target c s.net.legs (·.own) c.h]
/-- The policer's excess bucket: by EBS in mode 1 it has no rate of its own, in mode 2 it fills at PIR. -/
def qosPolicerSetApply (c : Cmd) (s : State) : Reply :=
  let mode := c.f 2 31 30
  let p := Tbl.get s.net.policers {} c.h
  let er := if mode = 2 then c.f 5 23 0 else 0
  let same := p.mode == mode && p.c.rate == c.f 3 23 0 && p.c.size == c.f 4 23 0 && p.e.rate == er && p.e.size == c.f 6 23 0
  let b (old : Bucket) (rate size : Nat) : Bucket := if same then old else Bucket.of rate size (c.b 2 28) s.ela
  let q : Policer := {
    mode, aware := c.b 2 29, yAct := c.f 2 27 26, rAct := c.f 2 25 24, exempt := c.b 2 23
    map := 4 * (s.leg c.h).own.tenant + c.f 2 17 16, c := b p.c (c.f 3 23 0) (c.f 4 23 0), e := b p.e er (c.f 6 23 0) }
  { st := s.updNet fun n => { n with policers := Tbl.set n.policers c.h q } }
/-- QOS_POLICER_SET (R79, R81, R83). -/
def execQosPolicerSet (c : Cmd) (s : State) : Res := .next (runCmd qosPolicerSetSpec qosPolicerSetCheck qosPolicerSetApply c s)

/-- QOS_DSCP_MAP_SET. -/
def qosDscpMapSetSpec : CmdSpec := { op := 0x0801 }
def qosDscpMapSetCheck (c : Cmd) (_ : State) : Nat := rejectIf (decide (3 < c.h)) BAD_PARAM
def qosDscpMapSetApply (c : Cmd) (s : State) : Reply :=
  let m := 4 * c.tenant + c.h
  { st := s.updNet fun n => { n with
      dscp := (List.range 64).foldl (fun t d =>
        let v := c.f (2 + d / 16) (2 * (d % 16) + 1) (2 * (d % 16))
        if v = 0 then Tbl.del t (64 * m + d) else Tbl.set t (64 * m + d) v) n.dscp } }
/-- QOS_DSCP_MAP_SET (R80). -/
def execQosDscpMapSet (c : Cmd) (s : State) : Res := .next (runCmd qosDscpMapSetSpec qosDscpMapSetCheck qosDscpMapSetApply c s)

/-! ### Flow queues and shapers (R84 to R86, R90, R91) -/

/-- A flow queue as a target. -/
def flowTarget (c : Cmd) (s : State) (q : Nat) : Nat := if 49151 < q then BAD_PARAM else target c s.net.flowqs (·.own) q

/-- QOS_QUEUE_CFG. -/
def qosQueueCfgSpec : CmdSpec := { op := 0x0802, used := [(2, 0xFC00FFFF), (3, 0xFFFFFF), (4, 0xFFFFFF), (5, 0xFFFF)] }
def qosQueueCfgCheck (c : Cmd) (s : State) : Nat :=
  let leg := c.f 2 15 0
  let f := Tbl.get s.net.flowqs {} c.h
  firstCode [
    rejectIf (decide (49151 < c.h) || (leg != 65535 && decide (16383 < leg))) BAD_PARAM,
    rejectIf (leg != 65535 && !Tbl.has s.net.legs leg) BAD_STATE,
    (if Tbl.has s.net.flowqs c.h then ownFail c f.own else 0),
    (if leg ≠ 65535 then ownFail c (s.leg leg).own else 0),
    rejectIf (!f.descs.isEmpty && (f.port != c.f 2 28 26 || f.cls != c.f 2 31 29)) BAD_STATE]
def qosQueueCfgApply (c : Cmd) (s : State) : Reply :=
  let f := Tbl.get s.net.flowqs { own := newOwn c s } c.h
  let s1 := s.loseOne f.port f.cls f.sh.b
  let b := if (s.gates f.port).testBit f.cls && f.port == c.f 2 28 26 && f.cls == c.f 2 31 29 then f.sh.b else f.sh.b.refill s.ela
  { st := s1.setFlowq c.h { f with
      sh := { f.sh with b }
      port := c.f 2 28 26, cls := c.f 2 31 29, leg := c.f 2 15 0, limBytes := c.f 3 23 0, deLimit := c.f 4 23 0, limPkts := c.f 5 15 0 } }
/-- QOS_QUEUE_CFG (R84, R86): the queue belongs to the tenant that first configures it. -/
def execQosQueueCfg (c : Cmd) (s : State) : Res := .next (runCmd qosQueueCfgSpec qosQueueCfgCheck qosQueueCfgApply c s)

/-- QOS_SHAPER_SET. -/
def qosShaperSetSpec : CmdSpec := {
    op := 0x0803
    used := [(2, 0xDFFFFFFF), (3, 0xFFFFF), (4, 0x1FFFFFFF), (5, 0x1FFFFFFF)] }
def qosShaperSetCheck (c : Cmd) (s : State) : Nat :=
  firstCode [
    rejectIf (c.b 2 30 && decide (c.f 5 28 0 < c.f 4 28 0)) BAD_PARAM,
    flowTarget c s c.h,
    rejectIf (burstBad (c.f 2 28 0) (c.f 3 19 0)) BURST_TOO_SMALL]
def qosShaperSetApply (c : Cmd) (s : State) : Reply :=
  let f := Tbl.get s.net.flowqs {} c.h
  { st := (s.loseOne f.port f.cls f.sh.b).setFlowq c.h { f with
      sh := {
        b := f.sh.b.write (c.f 2 28 0) (c.f 3 19 0) (c.b 2 31) s.ela, adaptive := c.b 2 30, minRate := c.f 4 28 0
        maxRate := c.f 5 28 0 } } }
/-- QOS_SHAPER_SET (R90, R91). -/
def execQosShaperSet (c : Cmd) (s : State) : Res := .next (runCmd qosShaperSetSpec qosShaperSetCheck qosShaperSetApply c s)

/-- QOS_QUEUE_RELEASE. -/
def qosQueueReleaseSpec : CmdSpec := { op := 0x080A }
def qosQueueReleaseCheck (c : Cmd) (s : State) : Nat :=
  firstCode [flowTarget c s c.h, rejectIf (!(Tbl.get s.net.flowqs {} c.h).descs.isEmpty) BAD_STATE]
def qosQueueReleaseApply (c : Cmd) (s : State) : Reply :=
  let f := Tbl.get s.net.flowqs {} c.h
  { st := (s.loseOne f.port f.cls f.sh.b).updNet fun n => { n with flowqs := Tbl.del n.flowqs c.h } }
/-- QOS_QUEUE_RELEASE (R84). -/
def execQosQueueRelease (c : Cmd) (s : State) : Res :=
  .next (runCmd qosQueueReleaseSpec qosQueueReleaseCheck qosQueueReleaseApply c s)

/-! ### Ports and tenants (R90 to R94, R108) -/

/-- QOS_CLASS_SET. -/
def qosClassSetSpec : CmdSpec := { op := 0x0804, chan := .ch0, used := [(2, 0x9FFFFFFF), (3, 0xFFFFF)] }
def qosClassSetCheck (c : Cmd) (_ : State) : Nat :=
  firstCode [rejectIf (decide (63 < c.h)) BAD_PARAM, rejectIf (burstBad (c.f 2 28 0) (c.f 3 19 0)) BURST_TOO_SMALL]
def qosClassSetApply (c : Cmd) (s : State) : Reply :=
  { st := (s.loseOne (c.h / 8) (c.h % 8) (s.classSh (c.h / 8) (c.h % 8))).updPort (c.h / 8) fun p => { p with
      classSh := Tbl.updD p.classSh {} (c.h % 8) fun b => b.write (c.f 2 28 0) (c.f 3 19 0) (c.b 2 31) s.ela } }
/-- QOS_CLASS_SET (R91). -/
def execQosClassSet (c : Cmd) (s : State) : Res := .next (runCmd qosClassSetSpec qosClassSetCheck qosClassSetApply c s)

/-- QOS_PORT_SET. -/
def qosPortSetSpec : CmdSpec := { op := 0x0805, chan := .ch0, used := [(2, 0x707F0000), (3, 0xFFFFF)] }
def qosPortSetCheck (c : Cmd) (s : State) : Nat :=
  firstCode [rejectIf (decide (7 < c.h)) BAD_PARAM, rejectIf (decide (1048576 < s.descMinSum + c.f 3 19 0)) MIN_OVERCOMMIT]
def qosPortSetApply (c : Cmd) (s : State) : Reply :=
  { st := ((s.setRf .EGS_PORT_CFG c.h 30 28 (c.f 2 30 28)).setRf .EGS_PORT_CFG c.h 22 16 (c.f 2 22 16)).updNet fun n =>
      { n with audioDescRsv := c.f 3 19 0 } }
/-- QOS_PORT_SET (R85, R108). -/
def execQosPortSet (c : Cmd) (s : State) : Res := .next (runCmd qosPortSetSpec qosPortSetCheck qosPortSetApply c s)

/-- QOS_TENANT_SET. -/
def qosTenantSetSpec : CmdSpec := {
    op := 0x0807, chan := .ch0
    used := [(2, 0x1FFFFFFF), (3, 0xFFFFF), (4, 0x1FFFFFFF), (5, 0xFFFFF), (6, 0x1FFFFF), (7, 0x80000000)] }
def qosTenantSetCheck (c : Cmd) (s : State) : Nat :=
  let n := c.h / 4
  let t := c.h % 4
  let others := (s.port n).cfgSum - (s.tenantPort n t).cfgMin
  firstCode [
    rejectIf (decide (31 < c.h) || (c.f 4 28 0 != 0 && decide (c.f 4 28 0 < c.f 2 28 0))) BAD_PARAM,
    rejectIf (burstBad (c.f 2 28 0) (c.f 3 19 0) || burstBad (c.f 4 28 0) (c.f 5 19 0)) BURST_TOO_SMALL,
    rejectIf (decide (s.minLimit n < others + c.f 2 28 0)
      || decide (1048576 < s.descMinSum - s.descMin t + c.f 6 20 0 + s.net.audioDescRsv)) MIN_OVERCOMMIT]
def qosTenantSetApply (c : Cmd) (s : State) : Reply :=
  let n := c.h / 4
  let t := c.h % 4
  let x := s.tenantPort n t
  let y : TenantPort := { x with
    cfgMin := c.f 2 28 0
    mn := Bucket.write x.mn (c.f 2 28 0) (c.f 3 19 0) (c.b 7 31) s.ela
    mx := Bucket.write x.mx (c.f 4 28 0) (c.f 5 19 0) (c.b 7 31) s.ela, missed := false }
  let s1 := (s.updPort n fun p => { p with tenants := Tbl.set p.tenants t y }).updNet fun x => { x with
    descMin := Tbl.set x.descMin t (c.f 6 20 0) }
  { st := if (s.port n).scaled then s1.scalePort n else s1 }
/-- QOS_TENANT_SET (R90 to R92, R94). -/
def execQosTenantSet (c : Cmd) (s : State) : Res := .next (runCmd qosTenantSetSpec qosTenantSetCheck qosTenantSetApply c s)

/-! ### Gates (R95 to R97) -/

/-- The entries that QOS_GATE_SET's host memory holds. -/
def gateEntries (c : Cmd) : List GateEntry :=
  (List.range (c.f 4 8 0)).map fun i => { gates := fld (nth c.host 0 (2 * i)) 7 0, interval := fld (nth c.host 0 (2 * i + 1)) 29 0 }

/-- Is the list valid (R95)? -/
def gateListOk (l : List GateEntry) (cycle audio : Nat) : Bool :=
  decide (sumN (l.map (·.interval)) = cycle) && decide (1000 ≤ cycle) && decide (cycle ≤ 1000000000)
    && l.all fun e => decide (8 ≤ e.interval) && e.gates.testBit audio

/-- QOS_GATE_SET. -/
def qosGateSetSpec : CmdSpec := {
    op := 0x0806, chan := .ch0, dma := true
    used := [(4, 0x1FF), (5, 0x3FFFFFFF), (6, 0xFFFF)] }
def qosGateSetCheck (c : Cmd) (s : State) : Nat :=
  firstCode [
    rejectIf (decide (7 < c.h) || decide (256 < c.f 4 8 0) || (c.f 6 15 0 != 0 && decide (c.f 6 15 0 < s.guardMin c.h))) BAD_PARAM,
    rejectIf (c.dmaOk && c.f 4 8 0 != 0 && !gateListOk (gateEntries c) (c.f 5 29 0) (s.audioTc c.h)) GATE_LIST_BAD]
def qosGateSetApply (c : Cmd) (s : State) : Reply :=
  let g := if c.f 6 15 0 = 0 then s.guardMin c.h else c.f 6 15 0
  let l : GateList := { entries := gateEntries c, cycle := c.f 5 29 0, change := c.q 7 }
  let s1 := ((s.setRf .EGS_PORT_CFG c.h 15 0 g).updPort c.h fun p => { p with pend := some l }).gateStat c.h
  { st := match s1.gateDue c.h with
      | some (q, t) => if (s1.port c.h).active.isNone then s1.gateSwitch c.h q t else s1
      | none => s1 }
/-- QOS_GATE_SET (R95 to R97). -/
def execQosGateSet (c : Cmd) (s : State) : Res := .next (runCmd qosGateSetSpec qosGateSetCheck qosGateSetApply c s)

/-! ### Windows, estimates and samplers (R99 to R105) -/

/-- QOS_EST_CFG. -/
def qosEstCfgSpec : CmdSpec := {
    op := 0x0808
    used := [(2, 0x8F00FFFF), (4, 0x1FFFFFFF), (5, 0x1FFFFFFF), (6, 0x1FFFFFFF), (7, 0xFFFF)] }
/-- Fields of QOS_EST_CFG out of range. -/
def estBad (c : Cmd) : Bool :=
  let k := c.f 2 27 24
  decide (k < 3) || decide (12 < k) || c.f 2 15 0 % 2 ^ k != 0 || decide (c.f 3 31 24 < 2) || decide (64 < c.f 3 31 24)
    || decide (c.f 3 23 16 < 1) || decide (16 < c.f 3 23 16) || decide (c.f 3 15 8 < 50) || decide (100 < c.f 3 15 8)
    || decide (c.f 3 7 0 < 100) || decide (250 < c.f 3 7 0) || decide (c.f 5 28 0 < c.f 4 28 0)
def qosEstCfgCheck (c : Cmd) (s : State) : Nat :=
  let lo := c.f 2 15 0
  let hi := lo + 2 ^ c.f 2 27 24
  firstCode [
    rejectIf (decide (16383 < c.h) || (c.b 2 31 && estBad c)) BAD_PARAM,
    target c s.net.legs (·.own) c.h,
    rejectIf (c.b 2 31 && s.net.est.any fun kv => kv.1 != c.h && kv.2.enable && decide (kv.2.base < hi) && decide (lo < kv.2.base + 2 ^ kv.2.log2))
      STR_WINDOW_BUSY]
def qosEstCfgApply (c : Cmd) (s : State) : Reply :=
  let old := Tbl.get s.net.est {} c.h
  let e : Est := {
    own := (s.leg c.h).own, enable := true, log2 := c.f 2 27 24, base := c.f 2 15 0, capWin := c.f 3 31 24, picMult := c.f 3 23 16
    mediaPct := c.f 3 15 8, pacePct := c.f 3 7 0, minK := c.f 4 28 0, maxK := c.f 5 28 0, startK := c.f 6 28 0, upHold := c.f 7 15 0
    b := c.f 6 28 0, updAt := old.updAt, shares := old.shares }
  { st := s.updNet fun n => { n with est := if c.b 2 31 then Tbl.set n.est c.h e else Tbl.del n.est c.h } }
/-- QOS_EST_CFG (R99, R100). -/
def execQosEstCfg (c : Cmd) (s : State) : Res := .next (runCmd qosEstCfgSpec qosEstCfgCheck qosEstCfgApply c s)

/-- The rendition whose output stream a context receives. -/
def State.rendFor (s : State) (i : Nat) : Option Nat :=
  match Tbl.find s.net.subs i with
  | none => none
  | some x => if x.st = .idle ∨ x.st = .srcGone then none else (s.video.rends.find? fun kv => kv.2.outStream == x.src).map (·.1)

/-- The shares of a rendition: the settings of each leg that receives it and is estimated, with the leg's share (R101). A share of
an output that has gone, or that receives another source by now, is none. -/
def State.sharesOf (s : State) (r : Nat) : List (Est × Nat) :=
  s.net.est.flatMap fun kv => (kv.2.shares.filter fun x => s.rendFor x.1 == some r && (s.sub x.1).rxLeg == kv.1).map fun x => (kv.2, x.2.cur)

/-- The leg with the lowest share of a rendition, and the share (R101). -/
def State.lowestShare (s : State) (r : Nat) : Option (Est × Nat) :=
  (s.sharesOf r).foldl (fun best x => match best with
    | some y => if x.2 < y.2 then some x else best
    | none => some x) none

/-- The share of an output after a run that finds `new` at elapsed time `t` (R101): a lower one applies at once, a higher one once
it has held for `hold` ns, at the least value that it has had in that time. -/
def EstShare.next (x : EstShare) (new hold t : Nat) : EstShare :=
  if new ≤ x.cur then { cur := new }
  else match x.up with
    | none => if hold = 0 then { cur := new } else { x with up := some (t, new) }
    | some (since, low) =>
      let m := min low new
      if t < since + hold then { x with up := some (since, m) }
      else { cur := m, up := if m < new then some (t, new) else none }

/-- The highest layer (S, T) whose rate fits a share (R101); the lowest one where none does. -/
def bestLayer (l : List (Nat × Nat × Nat)) (share : Nat) : Nat × Nat :=
  l.foldl (fun b x => if x.2.2 ≤ share ∧ 8 * b.1 + b.2 < 8 * x.1 + x.2.1 then (x.1, x.2.1) else b) (0, 0)

/-- The estimator kernel posts an item for a tenant, as any kernel does (R278, R102). -/
def State.estPost (s : State) (core tenant ev q : Nat) (w : List Nat) : State :=
  match s.dispQ q with
  | none => s.cntDisp 9
  | some d => match s.itemPool d with
    | none => s.cntDisp 9
    | some p => (s.drawItem (d.own.fn / 64) p).enqueue q core { mkItem ev false q 0 w with pool := p, src := tenant }

/-- B_video (R101): what the leg's media share leaves beside its audio. -/
def videoShare (e : EstRun) (b pct : Nat) : Nat := b * pct / 100 - e.audio

/-- The outputs of a run that are video outputs of its leg now. -/
def State.estOuts (s : State) (leg : Nat) (e : EstRun) : List EstOut :=
  e.outs.filter fun o => match Tbl.find s.net.subs o.sub with
    | some x => x.rxLeg == leg && (s.stream x.src).kind != 0 && x.st != .idle && x.st != .srcGone
    | none => false

/-- What a run derives and posts (R101, R102): a layer target for each output, and a shaper target for each adaptive flow queue
that carries some: ZERO where the rate falls, FULL where it rises. -/
def State.estTargets (s : State) (core leg : Nat) (e : Est) (outs : List EstOut) : State :=
  let t := (s.leg leg).own.fn / 64
  let share (i : Nat) : Nat := (Tbl.get e.shares {} i).cur
  let s1 := outs.foldl (fun s o =>
    let (ls, lt) := bestLayer o.layers (share o.sub)
    s.estPost core t 0x13 (s.rf .STRATA_TGT_QID 0 15 0) [o.sub, ls * 2 ^ 30 + lt * 2 ^ 27, leg]) s
  (outs.map fun o => (s.sub o.sub).outQ).eraseDups.foldl (fun s q =>
    let f := Tbl.get s.net.flowqs {} q
    if !f.sh.adaptive || f.cls == s.audioTc f.port then s
    else
      let rate := sumN ((outs.filter fun o => (s.sub o.sub).outQ == q).map fun o => share o.sub) * e.pacePct / 100 % 2 ^ 29
      s.estPost core t 0x14 (s.rf .EGS_TGT_QID 0 15 0) [q, b2n (decide (rate < f.sh.b.rate)) * 2 ^ 31 + rate, leg]) s1

/-- The caps of a rendition for a share of B kb/s at P pictures per second (R103). -/
def capsFor (e : Est) (b fps : Nat) : Caps :=
  let win := b * 1000 * e.capWin / (8 * fps)
  { pic := min (b * 1000 * e.picMult / (8 * fps)) win, win, pics := e.capWin }

/-- Firmware sets a rendition's caps from the lowest share of its legs (R103). -/
def State.setCaps (s : State) (r : Nat) : State :=
  match s.lowestShare r with
  | none => s
  | some (e, b) =>
    let x := s.rend r
    let b := if x.maxKbps = 0 then b else min b x.maxKbps
    if x.fixed then s else s.updRend r fun x => { x with est := some (capsFor e b (max 1 (s.group x.group).fps)) }

/-- The estimate of a leg and the share of each of its outputs after a run (R101): B within its bounds, and B_video in proportion
to the weights. -/
def Est.after (e : Est) (run : EstRun) (outs : List EstOut) (t : Nat) : Est :=
  let b := max e.minK (min e.maxK run.kbps)
  let v := videoShare run b e.mediaPct
  let total := sumN (outs.map (·.weight))
  { e with
    b
    shares := outs.map (fun o =>
      let new := if total = 0 then 0 else v * o.weight / total
      (o.sub, match Tbl.find e.shares o.sub with
        | some x => x.next new (e.upHold * 1000000) t
        | none => { cur := new })) |>.foldl (fun m x => Tbl.set m x.1 x.2) [] }

/-- ESTIMATE_APPLY (R101 to R103): the next estimate item, with the run of the estimator that made it. Shares, targets and the
caps of the renditions that the leg receives follow from it; the notification goes out at most once a second. -/
def execEstimateApply (core : Fin 512) (leg : Fin 16384) (run : EstRun) (el : Nat) (s : State) : Res :=
  let s := s.advance el
  let i := leg.val
  match s.popShared s.disp.estQid with
  | none => .next s
  | some (_, s) =>
    match Tbl.find s.net.est i with
    | none => .next s
    | some e =>
      let outs := s.estOuts i run
      let due := decide (e.updAt = 0 ∨ e.updAt - 1 + 1000000000 ≤ s.ela)
      let e1 := { e.after run outs s.ela with updAt := if due then s.ela + 1 else e.updAt }
      let s1 := (s.updNet fun n => { n with est := Tbl.set n.est i e1 }).estTargets core i e1 outs
      let s2 := if due then s1.notify (s.leg i).own.fn 0x0881 i [e1.b] else s1
      .next ((outs.filterMap fun o => s.rendFor o.sub).eraseDups.foldl State.setCaps s2)

/-- QOS_SAMPLER_SET. -/
def qosSamplerSetSpec : CmdSpec := { op := 0x0809, dma := true, used := [(2, 0xFFFF), (3, 0xFFFFFF), (6, 0x8000000F)] }
def qosSamplerSetCheck (c : Cmd) (s : State) : Nat :=
  let stop := c.f 3 23 0 == 0
  let id := 256 * c.tenant + c.h
  let n := c.f 6 3 0
  let bytes := 32 + 16 * 2 ^ n
  firstCode [
    rejectIf (decide (255 < c.h) || (!stop && (decide (c.f 3 23 0 < 100) || decide (1000000 < c.f 3 23 0) || decide (n < 6)
      || decide (49151 < c.f 2 15 0)))) BAD_PARAM,
    rejectIf (if stop then !Tbl.has s.net.samplers id else !Tbl.has s.net.flowqs (c.f 2 15 0)) BAD_STATE,
    (match Tbl.find s.net.samplers id with | some x => ownFail c x.own | none => 0),
    (if stop then 0 else ownFail c (Tbl.get s.net.flowqs {} (c.f 2 15 0)).own),
    rejectIf (!stop && c.b 6 31 && !s.windowOk c.tenant true (c.q 4) bytes) BAD_PARAM]
def qosSamplerSetApply (c : Cmd) (s : State) : Reply :=
  let id := 256 * c.tenant + c.h
  let own := (Tbl.get s.net.samplers { own := newOwn c s } id).own
  let x : Sampler := {
    own, qid := c.f 2 15 0, period := c.f 3 23 0 * 1000, nextAt := s.ela + c.f 3 23 0 * 1000
    ring := { hbm := c.b 6 31, addr := c.q 4, log2 := c.f 6 3 0 } }
  { st := if c.f 3 23 0 = 0 then s.updNet fun n => { n with samplers := Tbl.del n.samplers id }
      else (s.updNet fun n => { n with samplers := Tbl.set n.samplers id x }).loupeInit own.fn x.ring }
/-- QOS_SAMPLER_SET (R104, R105): a period of 0 stops the sampler. -/
def execQosSamplerSet (c : Cmd) (s : State) : Res := .next (runCmd qosSamplerSetSpec qosSamplerSetCheck qosSamplerSetApply c s)

/-- QOS_QUERY. -/
def qosQuerySpec : CmdSpec := { op := 0x080B, dma := true, used := [(4, 0x1)] }
def qosQueryCheck (c : Cmd) (s : State) : Nat := if c.b 4 0 then flowTarget c s c.h else legTarget c s c.h
def qosQueryApply (c : Cmd) (s : State) : Reply :=
  if c.b 4 0 then
    let f := Tbl.get s.net.flowqs {} c.h
    queryReply c s [f.own.fn, f.port, f.cls, f.leg, f.level, f.descs.length, f.sh.b.rate, f.sh.b.size, (f.sh.b.refill s.ela).lvl / unitsPerByte,
      f.sent, f.sentBytes, f.drops]
  else
    let l := s.leg c.h
    let p := Tbl.get s.net.policers {} c.h
    let e := Tbl.get s.net.est {} c.h
    queryReply c s [l.own.fn, p.mode, p.c.rate, p.c.size, p.e.rate, p.e.size, l.yDrops, l.rDrops, b2n e.enable, e.log2, e.base, e.b]
/-- QOS_QUERY (R109). -/
def execQosQuery (c : Cmd) (s : State) : Res := .next (runCmd qosQuerySpec qosQueryCheck qosQueryApply c s)

end Sys2Proof.Machine
end

