-- ==== Sys2Proof/Machine/Hbm.lean ====
section
/-! DEFINITION. The HBM memory controllers: address decoding, ports, pseudo-channels, refresh, the outer code, scrub,
self-refresh and window fences (R322 to R348). -/

namespace Sys2Proof.Machine

/-! ### Address decoding (R324) -/

/-- The stack that an HBM address selects, and its stack offset. -/
def stackOf (a : Nat) : Nat := if a < 0x600000000 then 0 else 1
def stackOff (a : Nat) : Nat := if a < 0x600000000 then a else a - 0x600000000
/-- Fields of a stack offset. -/
def hbmCol (o : Nat) : Nat := bits o 9 6
def hbmPc (o : Nat) : Nat := bits o 14 10 ^^^ bits o 23 19
def hbmBank (o : Nat) : Nat := bits o 18 15 ^^^ bits o 27 24
def hbmRow (o : Nat) : Nat := bits o 32 19
def hbmSid (o : Nat) : Nat := bits o 34 33
/-- The unit of an address (R323). -/
def unitOf (a : Nat) : Nat := a / 64 * 64

/-! ### The outer code (R338) -/

/-- Multiplication by α in GF(2^8) with the polynomial x^8 + x^4 + x^3 + x^2 + 1. -/
def gfDouble (a : Nat) : Nat := if 128 ≤ a then (2 * a) ^^^ 0x11D else 2 * a
/-- `a` times α to the power `n`. -/
def gfPow : Nat → Nat → Nat
  | 0, a => a
  | n + 1, a => gfPow n (gfDouble a)
/-- The product of two elements, over the low `k` bits of `b`. -/
def gfMulN : Nat → Nat → Nat → Nat
  | 0, _, _ => 0
  | k + 1, a, b => (if b % 2 = 1 then a else 0) ^^^ gfMulN k (gfDouble a) (b / 2)
def gfMul (a b : Nat) : Nat := gfMulN 8 a b
/-- A polynomial (highest coefficient first) times (x - α^i). -/
def polyRoot (p : List Nat) (i : Nat) : List Nat := List.zipWith (· ^^^ ·) (p ++ [0]) (0 :: p.map (gfPow i))
/-- The generator g(x), highest coefficient first. -/
def rsGen : List Nat := (List.range 8).foldl polyRoot [1]
/-- One step of the division by g(x): the remainder after the next data byte. -/
def rsStep (r : List Nat) (d : Nat) : List Nat :=
  let f := (r.headD 0) ^^^ d
  List.zipWith (fun a g => a ^^^ gfMul f g) (r.drop 1 ++ [0]) (rsGen.drop 1)
/-- The 8 check bytes of a unit's data. -/
def rsCheck (data : List Nat) : List Nat := data.foldl rsStep (List.replicate 8 0)

/-! ### Controllers -/

def State.hbmc (s : State) (n : Nat) : Hbm := Tbl.get s.hbm {} n
def State.updHbm (s : State) (n : Nat) (f : Hbm → Hbm) : State := { s with hbm := Tbl.updD s.hbm {} n f }
def Hbm.port (h : Hbm) (p : Nat) : HbmPort := Tbl.get h.ports {} p
def Hbm.pc (h : Hbm) (c : Nat) : HbmPc := Tbl.get h.pcs {} c
def State.updHport (s : State) (n p : Nat) (f : HbmPort → HbmPort) : State := s.updHbm n fun h => { h with ports := Tbl.updD h.ports {} p f }
def State.updHpc (s : State) (n c : Nat) (f : HbmPc → HbmPc) : State := s.updHbm n fun h => { h with pcs := Tbl.updD h.pcs {} c f }

abbrev HB_OFF : Nat := 0
abbrev HB_TRAINING : Nat := 1
abbrev HB_ACTIVE : Nat := 2
abbrev HB_SR_ENTRY : Nat := 3
abbrev HB_SELF_REFRESH : Nat := 4
abbrev HB_SR_EXIT : Nat := 5
abbrev HB_FAILED : Nat := 6

/-- `HBMC_STAT.STATE`. -/
def State.hbState (s : State) (n : Nat) : Nat := s.rf .HBMC_STAT n 31 29
def State.setHbState (s : State) (n st : Nat) : State := s.setRf .HBMC_STAT n 31 29 st
/-- Does the controller accept accesses (R325)? -/
def State.hbServes (s : State) (n : Nat) : Bool :=
  let st := s.hbState n
  st == HB_ACTIVE || st == HB_SR_ENTRY || st == HB_SELF_REFRESH || st == HB_SR_EXIT

/-- A counter of a controller. -/
def State.cntHbm (s : State) (n k : Nat) (by' : Nat := 1) : State := s.bump .HBMC_CNT_LO (16 * n + k) by'

abbrev H_READS : Nat := 0
abbrev H_WRITES : Nat := 1
abbrev H_RMW : Nat := 2
abbrev H_CE_UNITS : Nat := 3
abbrev H_CE_SYMBOLS : Nat := 4
abbrev H_UE : Nat := 5
abbrev H_INNER_CE : Nat := 6
abbrev H_INNER_UE : Nat := 7
abbrev H_INORDER : Nat := 8
abbrev H_RAW_WAITS : Nat := 9
abbrev H_REFRESH_FORCED : Nat := 10
abbrev H_PANIC_EVENTS : Nat := 11
abbrev H_SR_ENTRIES : Nat := 12
abbrev H_SCRUB_CE : Nat := 13
abbrev H_WRITEBACKS : Nat := 14
abbrev H_DISCARDED_WB : Nat := 15

/-! ### Classes and PANIC (R327 to R330) -/

/-- The rank of a port: 0, 1 and 7 act as 6. -/
def State.hbRank (s : State) (n p : Nat) : Nat :=
  let r := s.rf .HBMC_PORT_CFG (16 * n + p) 30 28
  if 2 ≤ r ∧ r ≤ 6 then r else 6

/-- Is a port in PANIC? PANIC is signalled to both controllers (R328). -/
def State.inPanic (s : State) (p : Nat) : Bool := s.rb .HBMC_PORT_STAT p 31 || s.rb .HBMC_PORT_STAT (16 + p) 31

/-- The port's reservation bucket now (R329). -/
def State.hbBucket (s : State) (n p : Nat) : Nat :=
  let x := (s.hbmc n).port p
  min 4096 (x.lvl + s.rf .HBMC_PORT_CFG (16 * n + p) 9 0 * (s.ela - x.last))

/-- The class of a port's requests (R330): 0 PANIC, 1 reserved, then the ranks. -/
def State.hbClass (s : State) (n p : Nat) : Nat :=
  if s.inPanic p then 0
  else if s.rf .HBMC_PORT_CFG (16 * n + p) 9 0 ≠ 0 ∧ 64 ≤ s.hbBucket n p then 1
  else s.hbRank n p

/-- Each unit granted deducts 64 bytes. -/
def State.hbSpend (s : State) (n p : Nat) : State :=
  let b := s.hbBucket n p
  s.updHport n p fun x => { x with lvl := b - 64, last := s.ela }

/-- A port's level after a change: `LEVEL`, and PANIC raised at `PANIC_ON` and kept until `PANIC_OFF` (R328). -/
def State.hbLevel (s : State) (n p : Nat) : State :=
  let i := 16 * n + p
  let lvl := ((s.hbmc n).port p).reads.length
  let rt := s.rb .HBMC_PORT_CFG i 31 && s.hbRank n p == 2
  let was := s.rb .HBMC_PORT_STAT i 31
  let now := if rt && decide (s.rf .HBMC_PORT_CFG i 27 22 ≤ lvl) then true
    else was && decide (s.rf .HBMC_PORT_CFG i 21 16 < lvl)
  let s1 := (s.setRf .HBMC_PORT_STAT i 6 0 lvl).setRb .HBMC_PORT_STAT i 31 now
  let s2 := if now && !was then s1.cntHbm n H_PANIC_EVENTS else s1
  s2.setRb .HBMC_STAT n 25 ((List.range 16).any fun q => s2.rb .HBMC_PORT_STAT (16 * n + q) 31)

/-- Among the ports that meet a condition: the highest class, then R29 with the pointer of the class (R30). -/
def State.hbArb (s : State) (n : Nat) (ptrs : Tbl Nat) (ok : Nat → Bool) : Option (Nat × Nat) :=
  arbitrate (Tbl.get ptrs 0) (((List.range 16).filter ok).map fun p => (p, s.hbClass n p))

/-! ### Requests -/

/-- An access split into units, in address order (R323). -/
def splitUnits : Nat → Nat → List Byte → List (Nat × List Byte)
  | 0, _, _ => []
  | _, _, [] => []
  | f + 1, a, l => (a, l.take (64 - a % 64)) :: splitUnits f (unitOf a + 64) (l.drop (64 - a % 64))

/-- A write of a whole unit. -/
def UnitReq.full (r : UnitReq) : Bool := r.data.length == 64
/-- Do two requests meet in one unit, or in one row of a bank (R332)? -/
def UnitReq.sameUnit (a b : UnitReq) : Bool := unitOf a.addr == unitOf b.addr
def UnitReq.sameRow (a b : UnitReq) : Bool :=
  let x := stackOff a.addr
  let y := stackOff b.addr
  hbmSid x == hbmSid y && hbmBank x == hbmBank y && hbmRow x == hbmRow y
def UnitReq.pc (a : UnitReq) : Nat := hbmPc (stackOff a.addr)

/-- What a request does to a controller's self-refresh (R344, R345): before step 4 of an entry it aborts it, later it waits
for the entry's end, and it starts an exit. -/
def State.srRequest (s : State) (n : Nat) : State :=
  if s.hbState n = HB_SR_ENTRY then
    if s.ela < (s.hbmc n).srAt + 150 then s.setHbState n HB_ACTIVE else s.updHbm n fun h => { h with srWait := true }
  else if s.hbState n = HB_SELF_REFRESH then s.setHbState n HB_SR_EXIT
  else s

/-- A unit's request enters its port: a write the posted-write buffer, a read the request queue; a read that meets a posted
write of its port there waits (R331). -/
def State.hbEnter (s : State) (n port : Nat) (write checked : Bool) (a : Nat) (data : List Byte) : State :=
  let h := s.hbmc n
  let r : UnitReq := { seq := h.seq, port, write, addr := a, data, checked, at' := s.ela }
  let s1 := s.updHbm n fun h => { h with seq := h.seq + 1 }
  if write then s1.updHport n port fun x => { x with posted := x.posted ++ [r] }
  else
    let s2 := s1.updHport n port fun x => { x with reads := x.reads ++ [r] }
    if (h.port port).posted.any r.sameUnit then s2.cntHbm n H_RAW_WAITS else s2

/-- HBM_REQUEST (R325, R331, R345, R346): an access to a controller that is off, to another stack, or outside the tenant's
windows is a bus error; one that finds its queue full waits outside. -/
def execHbmRequest (n : Fin 2) (port : Fin 16) (write : Bool) (addr : Nat) (tenant : Option (Fin 4)) (data : List Byte) (el : Nat)
    (s : State) : Res :=
  let s := s.advance el
  let us := if write then splitUnits data.length addr data else [(addr, [])]
  let len := if write then data.length else 1
  let x := (s.hbmc n.val).port port.val
  let denied := match tenant with | some t => !s.windowOk t.val write addr len | none => false
  let room := if write then decide (x.posted.length + us.length ≤ 64) else decide (x.reads.length + 1 ≤ 64)
  if us.isEmpty then .next s
  else if !inHbm addr || us.any (fun u => stackOf u.1 != n.val) || denied || !s.hbServes n.val then .next { s with bus := .busError }
  else if !room then .next s
  else
    let s1 := us.foldl (fun s u => s.hbEnter n.val port.val write tenant.isSome u.1 u.2) s
    .next { (s1.srRequest n.val).hbLevel n.val port.val with bus := .ok 0 }

/-- A posted write drains to its pseudo-channel: it is complete, and every later read returns its data (R333). Reads of the
unit that are not yet back lose their write-back (R340). -/
def State.hbDrain (s : State) (n p : Nat) : State :=
  match ((s.hbmc n).port p).posted with
  | [] => s
  | r :: rest =>
    let r1 := { r with old := Mem.read s.mem r.addr r.data.length }
    let mark (l : List UnitReq) : List UnitReq := l.map fun q => if !q.write && q.sameUnit r then { q with passed := true } else q
    let s1 := (s.updHport n p fun x => { x with posted := rest }).hbSpend n p
    let s2 := s1.updHbm n fun h => { h with flying := mark h.flying }
    (s2.updHpc n r.pc fun c => { c with queue := mark c.queue ++ [r1] }).memWrite r.addr r.data

/-- POSTED_WRITE_DRAIN (R330, R333): the front end's choice among the ports with posted writes. -/
def execPostedWriteDrain (n : Fin 2) (s : State) : Res :=
  if s.hbState n.val ≠ HB_ACTIVE then .next s
  else match s.hbArb n.val (s.hbmc n.val).ptrs fun p => !((s.hbmc n.val).port p).posted.isEmpty with
    | none => .next s
    | some (k, p) => .next ((s.updHbm n.val fun h => { h with ptrs := Tbl.set h.ptrs k ((p + 1) % 16) }).hbDrain n.val p)

/-! ### Issue (R326, R330, R332, R334) -/

/-- The oldest read of a port for a pseudo-channel, unless a posted write of the port holds it (R331). -/
def HbmPort.readFor (x : HbmPort) (c : Nat) : Option UnitReq :=
  match x.reads.find? fun r => r.pc == c with
  | some r => if x.posted.any fun w => w.seq < r.seq && w.sameUnit r then none else some r
  | none => none

/-- A read whose row an earlier write in the queue addresses (R332)? -/
def behindWrite : List UnitReq → List UnitReq → Bool
  | _, [] => false
  | ws, r :: l => if r.write then behindWrite (r :: ws) l else ws.any r.sameRow || behindWrite ws l

/-- The queue's mode follows its contents; each switch to in-order mode is counted. -/
def State.hbMode (s : State) (n c : Nat) : State :=
  let x := (s.hbmc n).pc c
  let now := behindWrite [] x.queue
  let s1 := s.updHpc n c fun x => { x with inorder := now }
  if now && !x.inorder then s1.cntHbm n H_INORDER else s1

/-- The front end passes the reads that wait for a pseudo-channel to its queue, in class order. -/
def State.hbGrant (s : State) (n c : Nat) : Nat → State
  | 0 => s
  | k + 1 =>
    match s.hbArb n (s.hbmc n).ptrs fun p => (((s.hbmc n).port p).readFor c).isSome with
    | none => s
    | some (cl, p) =>
      match ((s.hbmc n).port p).readFor c with
      | none => s
      | some r =>
        let s1 := (s.updHport n p fun x => { x with reads := x.reads.filter fun q => q.seq != r.seq }).hbSpend n p
        let s2 := s1.updHbm n fun h => { h with ptrs := Tbl.set h.ptrs cl ((p + 1) % 16) }
        let s3 := (s2.updHpc n c fun x => { x with queue := x.queue ++ [r] }).hbMode n c
        (s3.hbLevel n p).hbGrant n c k

/-- May a request of the queue issue now? Accesses to a unit that a partial write changes keep their order of arrival, and
wait while one is being done (R323, R334). -/
def UnitReq.free (r : UnitReq) (earlier flying : List UnitReq) : Bool :=
  !(flying.any fun f => f.write && f.sameUnit r)
    && !(earlier.any fun e => e.sameUnit r && ((e.write && !e.full) || (r.write && !r.full) || (e.write && r.write)))

/-- The requests that may issue. -/
def freeReqs (flying : List UnitReq) : List UnitReq → List UnitReq → List UnitReq
  | _, [] => []
  | earlier, r :: l => (if r.free earlier flying then [r] else []) ++ freeReqs flying (earlier ++ [r]) l

/-- The request that a pseudo-channel issues: in in-order mode its oldest, else by class. -/
def State.hbPick (s : State) (n c : Nat) : Option (UnitReq × Tbl Nat) :=
  let x := (s.hbmc n).pc c
  let l := freeReqs (s.hbmc n).flying [] x.queue
  if x.inorder then
    match x.queue, l with
    | r :: _, q :: _ => if r.seq = q.seq then some (r, x.ptrs) else none
    | _, _ => none
  else match s.hbArb n x.ptrs fun p => l.any fun r => r.port == p with
    | none => none
    | some (k, p) => (l.find? fun r => r.port == p).map fun r => (r, Tbl.set x.ptrs k ((p + 1) % 16))

/-- `HBMC_STAT.OWED`: the highest owed count. -/
def State.hbOwed (s : State) (n : Nat) : State :=
  s.setRf .HBMC_STAT n 15 8 (((s.hbmc n).pcs.map fun kv => kv.2.owed).foldl max 0)

/-- Owed refreshes are paid when the queue is empty, but not during a PANIC (R336). -/
def State.hbPay (s : State) (n c : Nat) : State :=
  if ((s.hbmc n).pc c).queue.isEmpty && !s.rb .HBMC_STAT n 25 then (s.updHpc n c fun x => { x with owed := 0 }).hbOwed n else s

/-- HBM_UNIT_ISSUE (R326, R330, R332). -/
def execHbmUnitIssue (n : Fin 2) (pc : Fin 64) (s : State) : Res :=
  let c := pc.val % 32
  if s.hbState n.val ≠ HB_ACTIVE then .next s
  else
    let s1 := s.hbGrant n.val c 1024
    match s1.hbPick n.val c with
    | none => .next (s1.hbPay n.val c)
    | some (r, ptrs) =>
      let s2 := (s1.updHpc n.val c fun x => { x with queue := x.queue.filter fun q => q.seq != r.seq, ptrs }).hbMode n.val c
      let s3 :=
        if r.write && r.full then s2.cntHbm n.val H_WRITES
        else
          let f := if r.write then r else { r with data := Mem.read s2.mem (unitOf r.addr) 64 }
          (s2.updHbm n.val fun h => { h with flying := h.flying ++ [f] }).cntHbm n.val (if r.write then H_RMW else H_READS)
      .next (s3.hbPay n.val c)

/-! ### Read data and uncorrectable units (R339 to R341) -/

/-- The tenant's object in which an address lies (R340): its owner, identifier and kind. -/
def State.memOwner (s : State) (a : Nat) : Option (Nat × Nat × Nat) :=
  match s.video.pool.ents.find? fun kv =>
      match s.regionOf kv.1 with | some r => decide (s.bufAddr kv.1 ≤ a) && decide (a < s.bufAddr kv.1 + s.rgnBytes r) | none => false with
  | some (b, e) => (match e.ctx with
    | some d => (Tbl.find s.video.decs d).map fun x => (x.own.fn, b, 0)
    | none => none)
  | none =>
    let base := s.rf .STRATA_OCTX_BASE 0 18 0 * 2 ^ 21
    let i := (a - base) / 192
    if base ≤ a ∧ Tbl.has s.net.subs i = true then some ((s.sub i).own.fn, i, 2)
    else (s.disp.kernels.find? fun kv => decide (kv.2.ro ≤ a) && decide (a < kv.2.ro + kv.2.roBytes) && decide (kv.2.own.fn < 256)).map
      fun kv => (kv.2.own.fn, kv.1, 3)

/-- An uncorrectable unit: the first is latched, later ones set `OVERFLOW`; firmware reports each latched one to the owner
of the object (R340). -/
def State.latchUe (s : State) (n a : Nat) (scrub rmw : Bool) (port : Nat) : State :=
  let s := s.cntHbm n H_UE
  if s.rb .HBMC_UE_INFO n 31 then s.setRb .HBMC_UE_INFO n 30 true
  else
    let u := unitOf a
    let w := putB (putB (putB (s.reg .HBMC_UE_INFO n) 31 true) 29 scrub) 28 rmw
    let s1 := ((s.setReg .HBMC_UE_INFO n (putF w 27 24 port)).setReg .HBMC_UE_ADDR_LO n (BitVec.ofNat 32 u)).setReg .HBMC_UE_ADDR_HI n
      (BitVec.ofNat 32 (u / 2 ^ 32))
    match s1.memOwner a with
    | some (f, id, kind) => s1.notify f 0x0082 0 [id, kind]
    | none => s1

/-- The inner code's severity is counted and changes nothing else (R339). -/
def State.innerCount (s : State) (n : Nat) (inner : Fin 3) : State :=
  if inner = 1 then s.cntHbm n H_INNER_CE else if inner = 2 then s.cntHbm n H_INNER_UE else s

/-- A corrected unit: counted, and written back unless a write came after the read. -/
def State.corrected (s : State) (n symbols : Nat) (passed : Bool) : State :=
  let s1 := (s.cntHbm n H_CE_UNITS).cntHbm n H_CE_SYMBOLS symbols
  s1.cntHbm n (if passed then H_DISCARDED_WB else H_WRITEBACKS)

/-- The word at an address in a unit's data. -/
def unitWord (a : Nat) (data : List Byte) : Word := BitVec.ofNat 32 (leNat ((data.drop (a % 64 / 4 * 4)).take 4))

/-- The later writes to a unit that its pseudo-channel still holds, applied again. -/
def State.reapply (s : State) (n : Nat) (r : UnitReq) : State :=
  (((s.hbmc n).pc r.pc).queue.filter fun q => q.write && q.sameUnit r).foldl (fun s q => s.memWrite q.addr q.data) s

/-- HBM_READ_COMPLETE (R338 to R341): the oldest read under way, a demand read or that of a partial write. -/
def execHbmReadComplete (n : Fin 2) (ecc : EccFact) (s : State) : Res :=
  match (s.hbmc n.val).flying with
  | [] => .next s
  | r :: rest =>
    let u := unitOf r.addr
    let s1 := (s.updHbm n.val fun h => { h with flying := rest }).innerCount n.val ecc.inner
    match ecc.outer with
    | .clean => .next { s1 with bus := if r.write then .ok 0 else .ok (unitWord r.addr r.data) }
    | .corrected k =>
      if r.write then .next { (s1.cntHbm n.val H_CE_UNITS).cntHbm n.val H_CE_SYMBOLS (k.val + 1) with bus := .ok 0 }
      else .next { s1.corrected n.val (k.val + 1) r.passed with bus := .ok (unitWord r.addr r.data) }
    | .miscorrected k d =>
      if r.write then
        let s2 := (s1.cntHbm n.val H_CE_UNITS).cntHbm n.val H_CE_SYMBOLS (k.val + 1)
        .next { (((s2.memWrite u (d.take 64)).memWrite r.addr r.data).reapply n.val r) with bus := .ok 0 }
      else
        let s2 := s1.corrected n.val (k.val + 1) r.passed
        .next { (if r.passed then s2 else s2.memWrite u (d.take 64)) with bus := .ok (unitWord r.addr d) }
    | .uncorrectable =>
      if r.write then .next { (((s1.memWrite r.addr r.old).reapply n.val r).latchUe n.val r.addr false true r.port) with bus := .busError }
      else .next { s1.latchUe n.val r.addr false false r.port with bus := .busError }

/-! ### Refresh, temperature and scrub (R335 to R337, R342, R343) -/

/-- REFRESH_DUE (R336). -/
def execRefreshDue (n : Fin 2) (pc : Fin 64) (s : State) : Res :=
  let c := pc.val % 32
  let x := (s.hbmc n.val).pc c
  let most := min 8 (s.rf .HBMC_THERM n.val 7 4)
  let busy := !x.queue.isEmpty || (s.hbmc n.val).ports.any fun kv => kv.2.reads.any fun r => r.pc == c
  if s.hbState n.val ≠ HB_ACTIVE then .next s
  else if s.rb .HBMC_STAT n.val 25 then .next s
  else if !busy then .next (s.hbPay n.val c)
  else if x.owed < most then .next ((s.updHpc n.val c fun x => { x with owed := x.owed + 1 }).hbOwed n.val)
  else .next (s.cntHbm n.val H_REFRESH_FORCED)

/-- HBM_TEMP_READ (R335, R337): a reading, or none when the read fails. -/
def execHbmTempRead (n : Fin 2) (temp : Option Byte) (s : State) : Res :=
  let i := n.val
  if s.hbState i ≠ HB_ACTIVE then .next s
  else match temp with
    | none => .next ((s.setRb .HBMC_STAT i 26 true).setRb .HBMC_STAT i 28 true)
    | some t =>
      let t := t.toNat
      let s1 := s.setRf .HBMC_STAT i 7 0 t
      let s2 := if s.rf .HBMC_THERM i 31 24 < t then s1.setRb .HBMC_STAT i 28 true
        else if t ≤ s.rf .HBMC_THERM i 23 16 then s1.setRb .HBMC_STAT i 28 false else s1
      .next (if s.rf .HBMC_THERM i 15 8 < t then (s2.setRb .HBMC_STAT i 27 true).chan2 S2_HBM_TEMP i else s2)

/-- Units of a stack. -/
abbrev stackUnits : Nat := 402653184

/-- SCRUB_READ (R342, R343): paused while the stack is in self-refresh. -/
def execScrubRead (n : Fin 2) (ecc : EccFact) (s : State) : Res :=
  let i := n.val
  if s.hbState i ≠ HB_ACTIVE ∨ s.rb .HBMC_SCRUB i 31 = false then .next s
  else
    let u := s.rf .HBMC_SCRUB_POS i 28 0
    let a := i * 0x600000000 + 64 * u
    let s1 := s.innerCount i ecc.inner
    let s2 := match ecc.outer with
      | .clean => s1
      | .corrected k => (s1.corrected i (k.val + 1) false).cntHbm i H_SCRUB_CE
      | .miscorrected k d => ((s1.corrected i (k.val + 1) false).cntHbm i H_SCRUB_CE).memWrite a (d.take 64)
      | .uncorrectable => s1.latchUe i a true false 0
    let wrap := decide (stackUnits ≤ u + 1)
    let s3 := s2.setRf .HBMC_SCRUB_POS i 28 0 (if wrap then 0 else u + 1)
    .next (if wrap then s3.setReg .HBMC_SCRUB_PASS i (s3.reg .HBMC_SCRUB_PASS i + 1) else s3)

/-! ### Enabling and self-refresh (R344, R345, R348) -/

/-- A write of `HBMC_CTRL`: a rising `ENABLE` trains the stack, or with `KEEP` leaves self-refresh; a falling one stops the
controller. Training disturbs the array. -/
def State.hbCtrl (s : State) (n : Nat) (v : Word) : State :=
  let was := s.rb .HBMC_CTRL n 31
  let s1 := s.setReg .HBMC_CTRL n (applyWrite (RegName.flds .HBMC_CTRL) (s.reg .HBMC_CTRL n) v)
  if !was && bit v 31 then
    if bit v 29 then s1.setHbState n HB_SR_EXIT
    else { s1.setHbState n HB_TRAINING with mem := Mem.clear s1.mem (n * 0x600000000) 0x600000000 }
  else if was && !bit v 31 then
    let s2 := (s1.hbmc n).held.foldl (fun s x => s.emit (.served x.who x.addr .busError)) s1
    { s2.setHbState n HB_OFF with hbm := Tbl.del s2.hbm n }
  else s1

/-- HBMC_ENABLE (R348). -/
def execHbmcEnable (n : Fin 2) (v : Word) (s : State) : Res :=
  if s.pdOn (28 + n.val) then .next { s.hbCtrl n.val v with bus := .ok 0 } else .next { s with bus := .busError }

/-- HBM_TRAINING_COMPLETE (R325). -/
def execHbmTrainingComplete (n : Fin 2) (ok : Bool) (s : State) : Res :=
  if s.hbState n.val = HB_TRAINING then .next (s.setHbState n.val (if ok then HB_ACTIVE else HB_FAILED)) else .next s

/-- Is every tile and every picture engine asleep? -/
def State.allAsleep (s : State) : Bool := (List.range 24).all fun i => let st := s.pdState (2 + i); st != 1 && st != 2 && st != 3

/-- Do no requests wait in the controller? -/
def State.hbQuiet (s : State) (n : Nat) : Bool :=
  (s.hbmc n).flying.isEmpty && (s.hbmc n).ports.all (fun kv => kv.2.reads.isEmpty) && (s.hbmc n).pcs.all fun kv => kv.2.queue.all (·.write)

/-- SR_IDLE_TIMEOUT (R344): the command says that no request has come for `SR_IDLE_US`. -/
def execSrIdleTimeout (n : Fin 2) (s : State) : Res :=
  if s.hbState n.val = HB_ACTIVE ∧ s.rb .HBMC_CTRL n.val 30 = true ∧ s.allAsleep = true ∧ s.hbQuiet n.val = true then
    .next ((s.setHbState n.val HB_SR_ENTRY).updHbm n.val fun h => { h with srAt := s.ela, srWait := false })
  else .next s

/-- Posted writes drained and issued, owed refreshes paid (R344 steps 2 to 4). -/
def State.hbSettle (s : State) (n : Nat) : State :=
  let h := s.hbmc n
  let s1 := (List.range 16).foldl (fun s p => (h.port p).posted.foldl (fun s _ => s.hbDrain n p) s) s
  let full := sumN ((s1.hbmc n).pcs.map fun kv => (kv.2.queue.filter fun q => q.write && q.full).length)
  let part := sumN ((s1.hbmc n).pcs.map fun kv => (kv.2.queue.filter fun q => q.write && !q.full).length)
  ((s1.updHbm n fun h => { h with pcs := Tbl.mapv h.pcs fun _ c => { c with queue := c.queue.filter fun q => !q.write, owed := 0, inorder := false } }).hbOwed n
    |>.cntHbm n H_WRITES full).cntHbm n H_RMW part

/-- SR_ENTRY_COMPLETE (R344): a request that came past step 4 starts the exit. -/
def execSrEntryComplete (n : Fin 2) (s : State) : Res :=
  let i := n.val
  if s.hbState i ≠ HB_SR_ENTRY then .next s
  else
    let s1 := (s.hbSettle i).cntHbm i H_SR_ENTRIES
    .next ((s1.setHbState i (if (s.hbmc i).srWait then HB_SR_EXIT else HB_SELF_REFRESH)).updHbm i fun h => { h with srWait := false })

/-! ### Window fences (R347) -/

/-- WIN_FENCE: the write of `HBMC_WIN_FENCE.FENCE`. -/
def State.winFence (s : State) : State :=
  if s.rb .HBMC_WIN_FENCE 0 0 then s
  else (s.setRb .HBMC_WIN_FENCE 0 0 true).updHbm 0 fun h => { h with fence := (h.seq, (s.hbmc 1).seq) }
def execWinFence (s : State) : Res := .next s.winFence

/-- Does the controller still hold an access that was checked before request number `f`? -/
def Hbm.holdsChecked (h : Hbm) (f : Nat) : Bool :=
  let old (r : UnitReq) : Bool := r.checked && decide (r.seq < f)
  h.flying.any old || h.ports.any (fun kv => kv.2.reads.any old || kv.2.posted.any old) || h.pcs.any fun kv => kv.2.queue.any old

/-- WIN_FENCE_CLEAR: `FENCE` clears once every access checked before it has completed. -/
def execWinFenceClear (s : State) : Res :=
  let f := (s.hbmc 0).fence
  if (s.hbmc 0).holdsChecked f.1 || (s.hbmc 1).holdsChecked f.2 then .next s else .next (s.setRb .HBMC_WIN_FENCE 0 0 false)

end Sys2Proof.Machine
end

