-- ==== Sys2Proof/Machine/Fence.lean ====
section
/-! DEFINITION. What a domain loses, the moves of its work, and the fences of test units (R24, R25, R146, R175, R209, R232,
R264, R291, R481). -/

namespace Sys2Proof.Machine

/-! ### Clocks of the cores (R263) -/

/-- The clock of cluster `k` (64 the control cluster) starts or stops. -/
def State.cycRun (s : State) (k : Nat) (on : Bool) : State :=
  let q := Tbl.get s.power.cyc {} k
  let rate := if k = 64 then 72 else 80
  let q' : Cyc := match q.since, on with
    | none, true => { q with since := some s.power.ticks }
    | some t, false => { acc := q.acc + rate * (s.power.ticks - t), since := none }
    | _, _ => q
  { s with power := { s.power with cyc := Tbl.set s.power.cyc k q' } }

/-! ### Clusters (R264, R291) -/

/-- The posts that wait on a ticket are given back. -/
def State.returnPosts (s : State) (l : List (Nat × Item)) : State :=
  l.foldl (fun s p => match s.dispQ p.1 with
    | some e => (s.setDispQ p.1 { e with resv := e.resv - 1 }).returnItem (e.own.fn / 64) p.2.pool
    | none => s) s

/-- The item that a core runs goes back to the head of its queue with its ticket (R291). -/
def State.retryRunning (s : State) (c : Nat) : State :=
  let k := s.core c
  if !k.running && k.faulted.isNone then s
  else
    let it := Tbl.get k.slots {} k.slot
    match s.dispQ k.qid with
    | none => s.releaseOpt it.payload
    | some d =>
      let mine (x : Staged) : Bool := d.typ == 2 && x.ticket == it.ticket
      let s1 := s.returnPosts ((d.staged.filter mine).flatMap (·.posts))
      let d1 := (s1.dispQ k.qid).getD d
      s1.setDispQ k.qid { d1 with items := it :: d1.items, staged := d1.staged.filter fun x => !mine x }

/-- A core loses everything; its items are retried elsewhere, its prefetched ones behind the running one (R264, R291). -/
def State.loseCore (s : State) (c : Nat) : State :=
  let s1 := (s.unplace c).retryRunning c
  let s2 := { s1 with cores := Tbl.del s1.cores c }
  s2.rstRegs fun n i => i == c && [RegName.CORE_STAT, .CORE_FAULT, .CORE_FAULT_PC, .CORE_FAULT_ADDR, .CORE_CYC_LO, .CORE_CYC_HI, .CORE_ECC].contains n

/-- A cluster loses its cores' state and its SRAM, and the affinity entries that name it. -/
def State.loseCluster (s : State) (c : Nat) : State :=
  let s1 := (List.range 8).foldl (fun s i => s.loseCore (8 * c + i)) s
  let s2 := { s1 with mem := Mem.clear s1.mem (0x1000000000 + c * 0x200000) 0x200000 }
  let s3 := { s2 with power := { s2.power with cyc := Tbl.set s2.power.cyc c { acc := 0, since := if s2.clOn c then some s2.power.ticks else none } } }
  s3.updDisp fun d => { d with aff := Tbl.keep d.aff fun _ k => k / 8 != c, draining := Tbl.del d.draining c }

/-! ### Tiles (R146) -/

/-- Another tile for work that leaves tile `t`. -/
def State.otherTile (s : State) (t : Nat) (ok : Nat → Bool) : Option Nat :=
  let l := ((List.range 15).map fun i => (t + 1 + i) % 16).filter fun n => !s.tileFenced n && ok n
  match l.find? s.sliceOn with
  | some n => some n
  | none => l.head?

/-- The words of an entry as a command would give them, written into another place. -/
def State.moveSource (s : State) (i : Nat) (ws : List Word) : State :=
  let x := s.source i
  match s.otherTile x.tile fun n => (s.freeRoute n).isSome && decide (s.tileLoad n + x.cost ≤ s.codecBudget n) with
  | none => s
  | some n =>
    let r := (s.freeRoute n).getD 0
    let s1 := s.updSource i fun x => { x with tile := n, route := r, cur := [], raw := [], good := false, hist := [], skip := true }
    (s1.updMix fun m => { m with params := Tbl.del m.params (entryKey n r) }).directEntry n r ws

/-- A class's encode moves to another tile and starts afresh. -/
def State.moveEncode (s : State) (i : Nat) (ws : List Word) : State :=
  let x := s.cls i
  let home := (s.conf x.conf).home
  match s.otherTile x.encTile fun n => (s.freeOut n).isSome && decide (s.tileLoad n + s.classCost x ≤ s.codecBudget n) with
  | none => s
  | some n =>
    let w2 := putF (nth ws 0 2) 31 28 n
    let w3 := putF (nth ws 0 3) 22 5 ((s.freeOut n).getD 0 / 32)
    (s.updCls i fun x => { x with encTile := n, encoded := false, copyOf := none }).directEntry home x.entry
      [nth ws 0 0, nth ws 0 1, w2, w3]

/-- A conference moves to another slice with room for it and for its class entries, and its classes restart their encoders; the
new slice's `FORKS` and `OUT_LATE` record each (R146, R147). -/
def State.moveConf (s : State) (i : Nat) (words : Nat → List Word) : State :=
  let l := s.mix.classes.filter fun kv => kv.2.conf == i
  match s.otherTile (s.conf i).home fun n =>
      decide (l.length + (s.mix.classes.filter fun kv => (s.conf kv.2.conf).home == n).length ≤ 1024)
        && decide ((s.mix.confs.filter fun kv => kv.2.home == n).length < 256) with
  | none => s
  | some n =>
    let s1 := s.updConf i fun x => { x with home := n }
    l.foldl (fun s kv =>
      let used := (s.mix.classes.filter fun y => y.1 != kv.1 && (s.conf y.2.conf).home == n).map fun y => y.2.entry
      let e := (((List.range 1024).map (1280 + ·)).find? fun e => !used.contains e).getD 1280
      let s2 := s.updCls kv.1 fun x => { x with entry := e, encoded := false, copyOf := none }
      (((s2.updMix fun m => { m with params := Tbl.del m.params (entryKey n e) }).directEntry n e (words kv.1)).cntMix n X_FORKS).cntMix n X_OUT_LATE) s1

/-- A tile's mix slice loses its parameters and shadows, and the tile's mix work moves to other tiles (R146). -/
def State.loseSlice (s : State) (t : Nat) : State :=
  let src := (s.mix.sources.filter fun kv => kv.2.tile == t).map fun kv => (kv.1, (s.entry t kv.2.route).words)
  let cls := s.mix.classes.map fun kv => (kv.1, (s.entry (s.conf kv.2.conf).home kv.2.entry).words)
  let words (i : Nat) : List Word := (Tbl.find cls i).getD []
  let s1 := s.updMix fun m => { m with
    params := Tbl.keep m.params fun k _ => k / 2304 != t
    shadow := Tbl.keep m.shadow fun k _ => k / 1024 != t
    tags := Tbl.keep m.tags fun k _ => k / 1024 != t
    written := Tbl.del m.written t, reached := Tbl.del m.reached t }
  let s2 := s1.rstRegs fun n i => i == t && [RegName.MIXF_SL_ARM, .MIXF_SL_AT_LO, .MIXF_SL_AT_HI].contains n
  let s3 := src.foldl (fun s p => s.moveSource p.1 p.2) s2
  let s4 := (Tbl.keysWhere s3.mix.confs fun _ x => x.home == t).foldl (fun s i => s.moveConf i words) s3
  (Tbl.keysWhere s4.mix.classes fun _ x => x.encTile == t).foldl (fun s i => s.moveEncode i (words i)) s4

/-- A tile loses its clusters and its slice. -/
def State.loseTile (s : State) (t : Nat) : State :=
  ((List.range 4).foldl (fun s i => s.loseCluster (4 * t + i)) s).loseSlice t

/-! ### Engines (R175, R209, R232) -/

/-- Another engine that fits. -/
def otherEngine (pe : Nat) (ok : Nat → Bool) : Option Nat := (List.range 8).find? fun e => e != pe && ok e

/-- Does a group fit an engine (R179): its analysis, each of its coders, and its renditions? -/
def State.groupFits (s : State) (i pe : Nat) : Bool :=
  let g := s.group i
  let mine := s.rendsOf i
  s.anFits i (g.w * g.h * g.fps) pe && decide ((s.rendsOn pe).length + mine.length ≤ 256)
    && (List.range 4).all fun c => decide (s.coderLoad (s.rendsOn pe) c + s.coderLoad mine c ≤ 600000000)

/-- The engine's work moves to other engines; work of a lost engine that fits none is broken off. -/
def State.moveEngine (s : State) (pe : Nat) (lost : Bool) : State :=
  let s1 := (Tbl.keysWhere s.video.layouts fun _ l => l.pe == pe).foldl (fun s i =>
    let l := Tbl.get s.video.layouts {} i
    match otherEngine pe (s.compFits i (s.layoutCharge i l)) with
    | some e => s.moveLayout i e
    | none => if lost then s.breakLayout i else s) s
  let s2 := (Tbl.keysWhere s1.video.groups fun _ g => g.pe == pe).foldl (fun s i =>
    match otherEngine pe (s.groupFits i) with
    | some e => s.moveGroup i e lost
    | none => if lost then s.moveGroup i pe lost else s) s1
  (Tbl.keysWhere s2.video.decs fun _ d => d.pe == pe).foldl (fun s i =>
    match otherEngine pe (s.decFits i (s.dec i).charge) with
    | some e => s.moveDec i e
    | none => s.moveDec i pe) s2

/-- The engine of an instance of a register of the PICT blocks. -/
def RegName.engineOf (n : RegName) (i : Nat) : Option Nat :=
  match n.base with
  | some b => if 0x2003000000 ≤ b ∧ b < 0x20030F0000 then some (i / (n.dims.drop 1).foldl (fun m d => m * d.2) 1) else none
  | none => none

/-- The FIFO instances of an engine. -/
def engineFifos (pe : Fin 8) : List FifoId :=
  [.decReq pe, .decDone pe, .encIn pe, .encDone pe, .encOut pe 0, .encOut pe 1, .encOut pe 2, .encOut pe 3]

/-- An engine loses its registers, FIFOs and pictures in progress, and its work moves. The completions of pictures that found no other
engine are posted when its pipe is on again (R37). -/
def State.loseEngine (s : State) (pe : Nat) : State :=
  let s1 := (s.rstRegs fun n i => n.engineOf i == some pe).moveEngine pe true
  let s2 := (engineFifos (Fin.ofNat 8 pe)).foldl State.rstFifo s1
  s2.updVideo fun v => { v with
    eng := Tbl.del v.eng pe, compLoad := Tbl.del v.compLoad pe, compPtr := Tbl.del v.compPtr pe
    enc := match (s2.encEng pe).owed with | [] => Tbl.del v.enc pe | l => Tbl.set v.enc pe { owed := l } }

/-! ### Domains -/

/-- A domain (or cluster, from 35) loses its state (R24): clusters, tiles and engines. The packet and crypto planes are
in `losePlane`. -/
def State.loseDomain (s : State) (d : Nat) : State :=
  if 35 ≤ d then s.loseCluster (d - 35)
  else if 2 ≤ d ∧ d ≤ 17 then s.loseTile (d - 2)
  else if 18 ≤ d ∧ d ≤ 25 then s.loseEngine (d - 18)
  else s

/-- Is a core of a cluster running an item? -/
def State.clusterBusy (s : State) (c : Nat) : Bool := (List.range 8).any fun i => let k := s.core (8 * c + i); k.running || k.faulted.isSome

/-- Sleep entry begins (R418). -/
def State.stopping (s : State) (d : Nat) : State :=
  let s1 := (s.setPd d 3).updDom d fun x => { x with entryAt := s.ela, wakeWait := false }
  if 35 ≤ d then (List.range 8).foldl (fun s i => s.unplace (8 * (d - 35) + i)) s1 else s1

/-- A domain that is ON goes to sleep, a cluster once its running items are done (R284). -/
def State.goDown (s : State) (d target : Nat) : State :=
  let s1 := s.updDom d fun x => { x with target }
  if 35 ≤ d then
    let s2 := s1.updDisp fun x => { x with draining := Tbl.set x.draining (d - 35) true }
    if s2.clusterBusy (d - 35) then s2 else s2.stopping d
  else s1.stopping d

/-- A cluster that drains and has no running item left begins its entry. -/
def State.drainCheck (s : State) (c : Nat) : State :=
  if Tbl.get s.disp.draining false c && s.clOn c && !s.clusterBusy c then s.stopping (35 + c) else s

/-- How deep a state is: 0 awake, 1 clock-stopped, 2 off. -/
def depthOf : Nat → Nat
  | 0 => 2 | 4 => 1 | 5 => 1 | 6 => 2 | _ => 0
/-- Is a tile's every cluster at least as deep? -/
def State.clustersDeep (s : State) (t depth : Nat) : Bool := (List.range 4).all fun i => decide (depth ≤ depthOf (s.pdState (35 + 4 * t + i)))

/-! ### Fences (R481) -/

/-- A domain is asked to go OFF and held there. -/
def State.holdOff (s : State) (d : Nat) : State :=
  let (n, i) := pdCtrl d
  let s1 := (s.setRf n i 31 30 2).setRb n i 28 true
  match s1.pdState d with
  | 2 => if 2 ≤ d ∧ d ≤ 17 ∧ s1.clustersDeep (d - 2) 2 = false then s1 else s1.goDown d 2
  | 3 => s1.updDom d fun x => { x with target := 2, wakeWait := false }
  | 4 => s1.setPd d 5
  | _ => s1

/-- A bit of `DISP_FENCE`. -/
def State.setFence (s : State) (c : Nat) (on : Bool) : State :=
  if c < 32 then s.setRb .DISP_FENCE_LO 0 c on else s.setRb .DISP_FENCE_HI 0 (c - 32) on

/-- A cluster is fenced. -/
def State.fenceCluster (s : State) (c : Nat) : State :=
  ((s.setFence c true).holdOff (35 + c)).updDisp fun d => { d with aff := Tbl.keep d.aff fun _ k => k / 8 != c }

/-- The fence of unit `u` takes its form and the unit's work moves. -/
def State.fenceUnit (s : State) (u : Nat) : State :=
  if u < 64 then s.fenceCluster u
  else if u < 80 then
    let t := u - 64
    let s1 := (List.range 4).foldl (fun s i => s.fenceCluster (4 * t + i)) s
    (s1.setRb .CLKPWR_PD_CTRL (2 + t) 28 true).loseSlice t |>.holdOff (2 + t)
  else if u < 88 then ((s.setRb .CLKPWR_PD_CTRL (u - 62) 28 true).moveEngine (u - 80) false).holdOff (u - 62)
  else s

/-- A unit is fenced, and every tenant and the journal hear of it. -/
def State.fence (s : State) (u : Nat) (runtime : Bool) : State :=
  if s.tst.fenced.contains u then s
  else
    let s1 := ({ s with tst := { s.tst with fenced := s.tst.fenced ++ [u] } }).fenceUnit u
    (s1.notifyAll 0x0C81 0 [u + 256 * b2n runtime]).audit A_FENCE [u, b2n runtime]

/-- A fence is lifted; a tile's clusters stay fenced where they are fenced themselves. -/
def State.unfence (s : State) (u : Nat) : State :=
  let s1 := { s with tst := { s.tst with fenced := s.tst.fenced.filter (· != u) } }
  let free (s : State) (c : Nat) : State :=
    if s.tst.fenced.contains c || s.tst.fenced.contains (64 + c / 4) then s else (s.setFence c false).setRb .CLKPWR_CL_CTRL c 28 false
  if u < 64 then free s1 u
  else if u < 80 then ((List.range 4).foldl (fun s i => free s (4 * (u - 64) + i)) (s1.setRb .CLKPWR_PD_CTRL (u - 62) 28 false))
  else if u < 88 then s1.setRb .CLKPWR_PD_CTRL (u - 62) 28 false
  else s1

/-- The test unit of a domain or cluster. -/
def testUnit (d : Nat) : Option Nat :=
  if 35 ≤ d then some (d - 35)
  else if 2 ≤ d ∧ d ≤ 17 then some (d + 62)
  else if 18 ≤ d ∧ d ≤ 25 then some (d + 62)
  else if d = 26 then some 88
  else if d = 27 then some 89
  else none

/-- A count of events within the last hour, by unit (R482). -/
def State.ueCount (s : State) (u : Nat) : State :=
  let l := s.ela :: (Tbl.get s.tst.ue [] u).filter fun t => decide (s.ela < t + 3600000000000)
  let s1 := { s with tst := { s.tst with ue := Tbl.set s.tst.ue u l } }
  if s.tst.ueLimit ≤ l.length then s1.fence u true else s1
/-- Corrections of a unit's cores within the last hour. -/
def State.ceCount (s : State) (u n : Nat) : State :=
  let l := (s.ela, n) :: (Tbl.get s.tst.ce [] u).filter fun x => decide (s.ela < x.1 + 3600000000000)
  let s1 := { s with tst := { s.tst with ce := Tbl.set s.tst.ce u l } }
  if s.tst.ceLimit ≤ sumN (l.map (·.2)) then s1.fence u true else s1

end Sys2Proof.Machine
end

