-- ==== Sys2Proof/Machine/TestStrip.lean ====
section
/-! DEFINITION. The Test strip: positions, slots, runs, yields, results and verdicts (R470 to R483). -/

namespace Sys2Proof.Machine

def State.updTst (s : State) (f : Tst → Tst) : State := { s with tst := f s.tst }
/-- A counter of the strip, saturating. -/
def State.cntTst (s : State) (k : Nat) : State :=
  let v := (s.reg .TSTRIP_CNT k).toNat
  s.setReg .TSTRIP_CNT k (BitVec.ofNat 32 (min 0xFFFFFFFF (v + 1)))

abbrev T_RUNS : Nat := 0
abbrev T_UNIT_FAILS : Nat := 1
abbrev T_YIELDS : Nat := 2
abbrev T_JRNL_LOST : Nat := 3

/-! ### Units (R470, R472) -/

/-- The domain or cluster of a unit. -/
def unitDomain (u : Nat) : Nat := if u < 64 then 35 + u else if u < 88 then u - 62 else u - 62
/-- The tile of a unit, when it has one. -/
def unitTile (u : Nat) : Option Nat := if u < 64 then some (u / 4) else if u < 80 then some (u - 64) else none
/-- The units of a slot, in the order of their positions. -/
def slotUnits (k : Nat) : List Nat :=
  if k < 8 then (List.range 8).map (8 * k + ·) ++ [64 + 2 * k, 65 + 2 * k, 80 + k] else [80 + k]
/-- Device power in W while units are under test (R471). -/
def testPower (l : List Nat) : Nat :=
  20 + 35 * (l.filterMap unitTile).eraseDups.length + sumN (l.map fun u => if u < 80 then 0 else if u < 88 then 55 else if u = 88 then 60 else 30)

/-! ### Positions (R471, R483) -/

/-- `TSTRIP_STAT.STATE` of a position. -/
def State.posState (s : State) (p : Nat) : Nat := s.rf .TSTRIP_STAT p 31 30

/-- `UNIT` of a position takes a value, and the position's golden registers show the fused value of the unit's kind. -/
def State.setUnit (s : State) (p u : Nat) : State :=
  ((s.setRf .TSTRIP_CTRL p 6 0 u).setReg .TSTRIP_GOLD_LO p (goldenHalf u false)).setReg .TSTRIP_GOLD_HI p (goldenHalf u true)

/-- A test of a unit starts at a position. -/
def State.testGo (s : State) (p u : Nat) : State :=
  (((s.setUnit p u).setRb .TSTRIP_CTRL p 31 true).setReg .TSTRIP_STAT p (putF 0 31 30 1)).updTst fun t => { t with pos := Tbl.set t.pos p u }

/-- A write of `TSTRIP_CTRL` with `GO`. -/
def State.tstripGo (s : State) (p : Nat) (v : Word) : State :=
  let s1 := s.setUnit p (fld v 6 0)
  let u := fld v 6 0
  if !bit v 31 || decide (89 < u) || Tbl.has s.tst.pos p || s.tst.pos.any (fun kv => kv.2 == u) then s1 else s1.testGo p u

/-- The test at a position stops within 50 µs, and the unit's domain is reset; its verdict stays (R471, R483). -/
def State.testAbort (s : State) (p : Nat) : State :=
  match Tbl.find s.tst.pos p with
  | none => s
  | some u =>
    let s1 := (s.setRf .TSTRIP_STAT p 31 30 3).setRb .TSTRIP_CTRL p 31 false
    (s1.updTst fun t => { t with pos := Tbl.del t.pos p }).loseDomain (unitDomain u)

/-! ### Fences of units under test (R476) -/

/-- A unit under test is fenced and held. -/
def State.testHold (s : State) (u : Nat) (on : Bool) : State :=
  if 88 ≤ u || s.tst.fenced.contains u then s
  else
    let s1 := if u < 64 then
        (if !on && s.tst.fenced.contains (64 + u / 4) then s else s.setFence u on)
      else s
    if u < 64 && !on && s.tst.fenced.contains (64 + u / 4) then s1
    else s1.setRb (pdCtrl (unitDomain u)).1 (pdCtrl (unitDomain u)).2 28 on

/-- May a scheduled run take the unit: its domain is OFF and holds no work (R474)? -/
def State.takeUnit (s : State) (u : Nat) : Bool :=
  s.pdState (unitDomain u) == 0
    && (match unitTile u with
      | some t => decide (u < 64) || (s.clustersDeep t 2 && !s.mix.sources.any (fun kv => kv.2.tile == t)
          && !s.mix.classes.any (fun kv => kv.2.encTile == t) && !s.mix.confs.any (fun kv => kv.2.home == t))
      | none => !s.video.decs.any (fun kv => kv.2.pe == u - 80) && !s.video.groups.any (fun kv => kv.2.pe == u - 80)
          && !s.video.layouts.any (fun kv => kv.2.pe == u - 80))

/-! ### The Test strip's part of a start (R478 to R480) -/

/-- Words 0 to 10 of the retention words as bytes. -/
def State.testBytes (s : State) (n : Nat) : List Byte := leWords ((List.range n).map fun i => (s.reg .SAFE_RET i).toNat)
/-- The units whose bits are set in three words laid out as words 1 to 3. -/
def unitsOf (a b c : Nat) : List Nat :=
  (List.range 32).filter a.testBit ++ ((List.range 32).filter b.testBit).map (32 + ·)
    ++ ((List.range 26).filter c.testBit).map (64 + ·)
/-- The three words of a set of units. -/
def wordsOfUnits (l : List Nat) : List Nat :=
  let w (lo n : Nat) : Nat := sumN (((List.range n).filter fun i => l.contains (lo + i)).map (2 ^ ·))
  [w 0 32, w 32 32, w 64 26]

/-- The current TEST_RESULT record (R479). -/
def State.currentResult (s : State) : Option JRec :=
  match s.trust.recs.find? fun r => r.typ == REC_TEST with
  | none => none
  | some r => if s.trust.recs.any fun x => x.typ == REC_AUDIT && leNat (x.payload.take 4) == A_BOOT && decide (r.seq < x.seq) then none else some r

/-- Firmware takes the verdicts (R480): the state, with the tested units. -/
def State.takeVerdicts (s : State) : State :=
  let ws : Option (List Nat) :=
    if crc32c (s.testBytes 11) = (s.reg .SAFE_RET 11).toNat ∧ s.rb .SAFE_RET 0 31 = true then
      some ((List.range 12).map fun i => (s.reg .SAFE_RET i).toNat)
    else s.currentResult.map fun r => (List.range 12).map fun i => leNat ((r.payload.drop (4 * i)).take 4)
  match ws with
  | none => { s with tst := { s.tst with failed := [], tested := [] } }
  | some w =>
    { s with tst := { s.tst with
        failed := unitsOf (nth w 0 1) (nth w 0 2) (nth w 0 3), tested := unitsOf (nth w 0 4) (nth w 0 5) (nth w 0 6), seq := nth w 0 0 % 65536 } }

/-- Words 4 to 6 are cleared once taken, and word 11 follows (R480). -/
def State.clearTested (s : State) : State :=
  let s1 := (((s.setReg .SAFE_RET 4 0).setReg .SAFE_RET 5 0).setReg .SAFE_RET 6 0)
  if crc32c (s.testBytes 11) = (s.reg .SAFE_RET 11).toNat then s1.setReg .SAFE_RET 11 (BitVec.ofNat 32 (crc32c (s1.testBytes 11))) else s1

/-! ### Runs (R474 to R479) -/

/-- Words 0 to 11 of the retention words at the end of a run (R478). -/
def State.writeResult (s : State) (r : TestRun) : State :=
  let f := wordsOfUnits s.tst.failed
  let t := wordsOfUnits s.tst.tested
  let ws := [2 ^ 31 + r.kind % 8 * 2 ^ 28 + s.tst.seq % 65536] ++ f ++ t
    ++ [min 65535 ((s.ela - r.began) / 1000000) * 65536 + min 65535 r.peak, s.dev % 2 ^ 32, s.dev / 2 ^ 32, min 255 r.yields]
  let s1 := (ws.zipIdx).foldl (fun s x => s.setReg .SAFE_RET x.2 (BitVec.ofNat 32 x.1)) s
  s1.setReg .SAFE_RET 11 (BitVec.ofNat 32 (crc32c (s1.testBytes 11)))

/-- The payload of a TEST_RESULT record (R479). -/
def State.resultBytes (s : State) : List Byte :=
  s.testBytes 12 ++ (List.range 90).flatMap fun u => toLe 8 (Tbl.get s.tst.sigs 0 u).toNat

/-- SYS_SHUTDOWN's `POWER_OFF` at the end of its steps (R375, R435, R475). -/
def State.powerDown (s : State) : State :=
  if s.power.powerOff && s.tst.run.isNone && s.tst.retry.isNone then
    { s with power := { s.power with powerOff := false } }.setReg .SAFE_PWRGD 0 0
  else s

/-- The units' positions that a run has started and that still run. -/
def State.underTest (s : State) : List Nat := s.tst.pos.map (·.2)

/-- A run ends: the words, the record, the notification, and the fences of the units that failed. -/
def State.endRun (s : State) (r : TestRun) : State :=
  let s1 := (s.updTst fun t => { t with run := none, seq := (t.seq + 1) % 65536 })
  let s2 := s1.writeResult r
  let p := s2.resultBytes
  let s3 := match s2.commitCmdRec REC_TEST 4 p with
    | (s, 3) => s.updTst fun t => { t with retry := some (s.ela, p) }
    | (s, _) => s
  let s4 := s3.notifyAll 0x0C80 0 [s3.tst.seq, s3.tst.failed.length]
  let s5 := if r.kind = 0 then s4 else s4.tst.failed.foldl (fun s u => s.fence u true) s4
  s5.powerDown

/-- The next slot of a run starts, or the run ends; while `WARN` is 1 it waits (R472, R477). -/
def State.nextSlot (s : State) : State :=
  match s.tst.run with
  | none => s
  | some r =>
    if !s.tst.pos.isEmpty then s
    else
      let ok (u : Nat) : Bool := r.left.contains u && (r.kind != 1 || s.takeUnit u)
      match (List.range 10).find? fun k => (slotUnits k).any ok with
      | none => s.endRun r
      | some k =>
        if s.rb .SAFE_THERM 0 23 then s
        else
          let us := (slotUnits k).filter ok
          let r' := { r with left := r.left.filter (fun u => !(slotUnits k).contains u), peak := max r.peak (testPower us) }
          let s1 := s.updTst fun t => { t with run := some r' }
          let s2 := if r.kind = 1 then us.foldl (fun s u => s.testHold u true) s1 else s1
          ((slotUnits k).zipIdx).foldl (fun s x => if us.contains x.1 then s.testGo x.2 x.1 else s) s2

/-- A run of a kind starts over a set of units. -/
def State.startRun (s : State) (kind : Nat) (units : List Nat) : State :=
  if units.isEmpty then s
  else ((s.cntTst T_RUNS).updTst fun t => { t with run := some { kind, left := units, began := s.ela } }).nextSlot

/-- A unit's test has ended with a verdict (R471): a failure counts, a pass lifts the fence. -/
def State.verdict (s : State) (u : Nat) (pass : Bool) : State :=
  let s1 := s.updTst fun t => { t with
    failed := if pass then t.failed.filter (· != u) else if t.failed.contains u then t.failed else t.failed ++ [u]
    tested := if t.tested.contains u then t.tested else t.tested ++ [u] }
  if pass then (if s1.tst.fenced.contains u then s1.unfence u else s1) else s1.cntTst T_UNIT_FAILS

/-- The units of a run leave their test: their fences and holds are lifted. -/
def State.lift (s : State) (l : List Nat) : State :=
  match s.tst.run with
  | some r => if r.kind = 1 then l.foldl (fun s u => s.testHold u false) s else s
  | none => s

/-- UNIT_TEST_DONE (R471). -/
def execUnitTestDone (pos : Fin 16) (sig : DWord) (memFail : Bool) (s : State) : Res :=
  let p := pos.val
  match Tbl.find s.tst.pos p with
  | none => .next s
  | some u =>
    let bad := sig != Config.golden (unitKind u)
    let s1 := (s.setReg .TSTRIP_STAT p (putB (putB (putF 0 31 30 2) 29 memFail) 28 bad)).setRb .TSTRIP_CTRL p 31 false
    let s2 := (s1.setReg .TSTRIP_SIG_LO p (sig.setWidth 32)).setReg .TSTRIP_SIG_HI p (BitVec.ofNat 32 (sig.toNat / 2 ^ 32))
    let s3 := s2.updTst fun t => { t with pos := Tbl.del t.pos p, sigs := Tbl.set t.sigs u sig }
    .next (((s3.lift [u]).verdict u (!memFail && !bad)).nextSlot)

/-- TSTRIP_GO (R471). -/
def execTstripGo (pos : Fin 16) (v : Word) (s : State) : Res := .next { s.tstripGo pos.val v with bus := .ok 0 }

/-- The test at a position is given up, and the run goes on. -/
def State.dropTest (s : State) (p : Nat) : State :=
  match Tbl.find s.tst.pos p with
  | some u => (s.testAbort p).lift [u]
  | none => s

/-- A write of `TSTRIP_CTRL`: `UNIT` takes its value (R10); `ABORT` stops the test at the position, else `GO` starts one. -/
def State.tstripWrite (s : State) (p : Nat) (v : Word) : State :=
  if bit v 30 then ((s.setUnit p (fld v 6 0)).dropTest p).nextSlot else s.tstripGo p v

/-- TSTRIP_ABORT (R483). -/
def execTstripAbort (pos : Fin 16) (s : State) : Res := .next { (s.dropTest pos.val).nextSlot with bus := .ok 0 }

/-- A run ends early: the units under test are reset and keep their verdicts; the words hold the units that have finished
(R477). -/
def State.cutRun (s : State) : State :=
  match s.tst.run with
  | none => s
  | some _ =>
    let s1 := (Tbl.keys s.tst.pos).foldl State.dropTest s
    match s1.tst.run with
    | some r => s1.endRun r
    | none => s1

/-- A cluster under test is yielded (R476). -/
def State.yieldCluster (s : State) (c : Nat) : State :=
  let t := c / 4
  let ps := Tbl.keysWhere s.tst.pos fun _ u => unitTile u == some t
  let s1 := ps.foldl State.dropTest s
  ((s1.cntTst T_YIELDS).updTst fun x => { x with run := x.run.map fun r => { r with yields := r.yields + 1 } }).nextSlot

/-- A rank-2 queue that needs a wake and finds every unfenced cluster of its mask awake makes firmware yield one. -/
def State.yieldCheck (s : State) (q : Nat) : State :=
  match s.dispQ q with
  | none => s
  | some d =>
    let under := (s.tst.pos.map (·.2)).filter fun u => decide (u < 64) && d.mask.toNat.testBit u
    if (match s.tst.run with | some r => r.kind == 1 | none => false) && d.rankNow == 2 && !d.items.isEmpty
        && !(List.range 512).any (s.eligible d) && (s.wakeTarget d).isNone then
      match under.min? with
      | some c => (s.yieldCluster c).wakeCheck q
      | none => s
    else s

/-- ITEM_PLACE (R274 to R276): the queue that R274 serves next; where none has an item to place, wakes and
yields follow (R283, R476). An item in an uncorrectable unit of the item store is discarded (R341). -/
def execItemPlace (reads : Reads) (s : State) : Res :=
  let s := s.advance reads.el
  match s.serve with
  | some (q, d, i, it, c, h) => .next (if reads.ue.isEmpty then s.place q d i it c h else s.discardItem q d i it c)
  | none => .next (s.disp.qs.foldl (fun s kv => (s.wakeCheck kv.1).yieldCheck kv.1) s)

/-- TEST_SCHEDULE_EXPIRY (R474): a run in progress is not joined. -/
def execTestScheduleExpiry (el : Nat) (s : State) : Res :=
  let s := s.advance el
  if s.tst.period = 0 ∨ s.ela < s.tst.nextAt then .next s
  else
    let p := s.tst.period * 3600000000000
    let s1 := s.updTst fun t => { t with nextAt := t.nextAt + ((s.ela - t.nextAt) / p + 1) * p }
    .next (if s1.tst.run.isSome then s1 else s1.startRun 1 (List.range 88))

/-- TEST_RESULT_RETRY (R479). -/
def execTestResultRetry (el : Nat) (s : State) : Res :=
  let s := s.advance el
  match s.tst.retry with
  | none => .next s
  | some (t0, p) =>
    if s.trust.job.isSome then .next s
    else match s.commitCmdRec REC_TEST 4 p with
      | (s, 0) => .next (s.updTst fun t => { t with retry := none }).powerDown
      | (s, _) =>
        if t0 + 1000000000 ≤ s.ela then .next ((s.cntTst T_JRNL_LOST).updTst fun t => { t with retry := none }).powerDown
        else .next s

/-! ### Events that meet a run (R463, R477) -/

/-- A failure of power ends a run in progress. -/
def State.pfailRun (s : State) : State := if s.rb .JRNL_STAT 0 31 && s.tst.run.isSome then s.cutRun else s

/-- PFAIL_ASSERT (R463, R477). -/
def execPfailAssert (s : State) : Res := .next s.pfailOn.pfailRun

/-- PFAIL_RELEASE (R463): commits are allowed again, and the AUDIT records that waited are committed. -/
def execPfailRelease (s : State) : Res :=
  if s.rb .JRNL_STAT 0 31 then
    .next ((s.setRb .JRNL_STAT 0 31 false).notifyAll 0x0D80 0 [0] |>.flushAudits s.trust.audits.length)
  else .next s

/-- THERMAL_SAMPLE (R437, R477): a run that waits for `WARN` goes on. -/
def execThermalSample (tj : Byte) (hbmCrit : Bool) (s : State) : Res := .next (s.thermal tj hbmCrit).nextSlot

/-! ### The TEST commands (R484) -/

abbrev TEST_RUNNING : Nat := 0x0C00
abbrev NOT_TESTABLE : Nat := 0x0C01

/-- TEST_RUN. -/
def testRunSpec : CmdSpec := { op := 0x0C00, minor := 3, chan := .ch0, used := [(4, 0xFFFFFF)] }
/-- The mask of words 2 to 4. -/
def testMask (c : Cmd) : Nat := c.q 2 + 2 ^ 64 * c.w 4
def testRunCheck (c : Cmd) (s : State) : Nat :=
  firstCode [rejectIf s.tst.run.isSome TEST_RUNNING, rejectIf (testMask c / 2 ^ 88 != 0) NOT_TESTABLE]
def testRunApply (c : Cmd) (s : State) : Reply :=
  { st := s.startRun 1 (if testMask c = 0 then List.range 88 else (List.range 88).filter (testMask c).testBit) }
/-- TEST_RUN (R474). -/
def execTestRun (c : Cmd) (s : State) : Res := .next (runCmd testRunSpec testRunCheck testRunApply c s)

/-- TEST_SCHEDULE. -/
def testScheduleSpec : CmdSpec := { op := 0x0C01, minor := 3, chan := .ch0 }
def testScheduleCheck (c : Cmd) (_ : State) : Nat := rejectIf (decide (8760 < c.w 2)) BAD_PARAM
def testScheduleApply (c : Cmd) (s : State) : Reply :=
  { st := s.updTst fun t => { t with period := c.w 2, nextAt := s.ela + c.w 2 * 3600000000000 } }
/-- TEST_SCHEDULE (R474). -/
def execTestSchedule (c : Cmd) (s : State) : Res := .next (runCmd testScheduleSpec testScheduleCheck testScheduleApply c s)

/-- TEST_RESULT. -/
def testResultSpec : CmdSpec := { op := 0x0C02, minor := 3, chan := .any, dma := true }
def testResultApply (c : Cmd) (s : State) : Reply :=
  { st := s.dma c.fnN (c.q 2) (((List.range 12).map fun i => (s.reg .SAFE_RET i).toNat)
      ++ (List.range 90).flatMap fun u => let v := (Tbl.get s.tst.sigs 0 u).toNat; [v % 2 ^ 32, v / 2 ^ 32]) }
/-- TEST_RESULT (R478). -/
def execTestResult (c : Cmd) (s : State) : Res := .next (runCmd testResultSpec (fun _ _ => 0) testResultApply c s)

/-- TEST_FENCE. -/
def testFenceSpec : CmdSpec := { op := 0x0C03, minor := 3, chan := .ch0, used := [(2, 0x7F)] }
def testFenceCheck (c : Cmd) (_ : State) : Nat := rejectIf (decide (89 < c.f 2 6 0)) BAD_PARAM
def testFenceApply (c : Cmd) (s : State) : Reply := { st := s.fence (c.f 2 6 0) true }
/-- TEST_FENCE (R481). -/
def execTestFence (c : Cmd) (s : State) : Res := .next (runCmd testFenceSpec testFenceCheck testFenceApply c s)

/-- TEST_UNFENCE. -/
def testUnfenceSpec : CmdSpec := { op := 0x0C04, minor := 3, chan := .ch0, used := [(2, 0x7F)] }
def testUnfenceCheck (c : Cmd) (s : State) : Nat :=
  firstCode [rejectIf (decide (89 < c.f 2 6 0)) BAD_PARAM, rejectIf (s.tst.failed.contains (c.f 2 6 0)) BAD_STATE]
def testUnfenceApply (c : Cmd) (s : State) : Reply :=
  { st := if s.tst.fenced.contains (c.f 2 6 0) then s.unfence (c.f 2 6 0) else s }
/-- TEST_UNFENCE (R481). -/
def execTestUnfence (c : Cmd) (s : State) : Res := .next (runCmd testUnfenceSpec testUnfenceCheck testUnfenceApply c s)

/-- TEST_POLICY. -/
def testPolicySpec : CmdSpec := { op := 0x0C05, minor := 3, chan := .ch0, used := [(2, 0xFFFF)] }
def testPolicyApply (c : Cmd) (s : State) : Reply :=
  { st := s.updTst fun t => { t with ueLimit := c.f 2 15 0, ceLimit := c.w 3 } }
/-- TEST_POLICY (R482). -/
def execTestPolicy (c : Cmd) (s : State) : Res := .next (runCmd testPolicySpec (fun _ _ => 0) testPolicyApply c s)

end Sys2Proof.Machine
end

