-- ==== Sys2Proof/Machine/Boot.lean ====
section
/-! DEFINITION. The boot ROM, the start of firmware, and what a warm reset leaves (R23, R76, R110, R146, R175, R209, R232,
R264, R291, R320, R349, R362, R363, R383, R412, R423, R445 to R451, R468, R477, R480). -/

namespace Sys2Proof.Machine

/-! ### What a warm reset leaves of the objects -/

/-- A bucket full at a time. -/
def Bucket.full (b : Bucket) (t : Nat) : Bucket := { b with lvl := b.size * unitsPerByte, last := t }

/-- A tenant's buckets full. -/
def TenantPort.full (x : TenantPort) (t : Nat) : TenantPort := { x with mn := x.mn.full t, mx := x.mx.full t, missed := false }

/-- The first boundary of a list's own cycles that is not past (R110): entry `e` of the list began at `at'`. -/
def GateList.nextCycle (g : GateList) (e at' dev : Nat) : Nat :=
  let start := at' - sumN ((g.entries.take e).map (·.interval))
  if g.cycle = 0 then dev else start + cdiv (dev - start) g.cycle * g.cycle

/-- A port restored: buckets full, its gate list restarting at its next cycle boundary (R110). -/
def Port.warm (p : Port) (ela dev : Nat) : Port :=
  { p with
    trainFails := 0, ptrs := [], classSh := Tbl.mapv p.classSh fun _ b => b.full ela
    tenants := Tbl.mapv p.tenants fun _ x => x.full ela
    entry := 0, waitStart := p.active.isSome
    entryAt := match p.active with | some g => g.nextCycle p.entry p.entryAt dev | none => 0 }

/-- An output context restarts (R58, R76); its numbering goes on, since contexts in HBM are kept. -/
def Sub.warm (x : Sub) : Sub :=
  if x.st = .idle then x
  else { x with
    st := if x.pause then .paused else .joinWait
    next := none, frame := none, tu := none, downTo := none, keyPosted := false }

/-- The packet plane after a warm reset (R76, R110): contexts kept, payloads and descriptors discarded. -/
def Net.warm (n : Net) (ela dev : Nat) : Net :=
  { n with
    dec := [], strata := [], enc := [], payloads := [], freeCells := 262144, spillUsed := 0, waveReq := [], descUsed := []
    subs := Tbl.mapv n.subs fun _ x => x.warm
    peers := Tbl.mapv n.peers fun _ x => { x with lastHeard := ela }
    ports := Tbl.mapv n.ports fun _ p => p.warm ela dev
    policers := Tbl.mapv n.policers fun _ p => { p with c := p.c.full ela, e := p.e.full ela }
    flowqs := Tbl.mapv n.flowqs fun _ q => { q with descs := [], sh := { q.sh with b := q.sh.b.full ela } }
    samplers := Tbl.mapv n.samplers fun _ x => { x with nextAt := ela + x.period, sojourn := 0, sent := 0, drops := 0 } }

/-- The send-time records are invalidated (R110). -/
def State.dropRecords (s : State) : State :=
  { s with mem := s.net.est.foldl (fun m kv => Mem.clear m (s.rf .EGS_STR_BASE 0 19 0 * 2 ^ 20 + 16 * kv.2.base) (16 * 2 ^ kv.2.log2)) s.mem }

/-- The mix fabric after a warm reset (R146): objects restored, everything in progress lost. -/
def Mix.warm (m : Mix) : Mix :=
  { m with
    confs := Tbl.mapv m.confs fun _ x => { x with members := [], meter := {}, ptr := 0 }
    sources := Tbl.mapv (Tbl.keep m.sources fun _ x => !x.removed) fun _ x =>
      { x with cur := [], raw := [], good := false, prev := [], hist := [], conc := 0, jbDelay := x.jbMin, skip := false, absent := 0, fade := { g0 := 32768, g1 := 32768 }, lastAct := 0, meter := {} }
    classes := Tbl.mapv m.classes fun _ x => { x with encoded := false, copyOf := none, meter := {} }
    params := m.params.map fun kv => (kv.1, ({} : Entry).become (decide (1280 ≤ kv.1 % 2304)) kv.2.words 480 false)
    shadow := [], tags := [], nextAt := 0, boundAt := 0, srcDone := false, written := [], late := [], reached := [] }

/-- The dispatcher after a warm reset (R291): configuration restored, items discarded. -/
def Disp.warm (d : Disp) : Disp :=
  { d with
    qs := Tbl.mapv d.qs fun _ q => { q with items := [], resv := 0, nextT := 0, oldT := 0, staged := [], wakeOut := false, ptr := 0 }
    kernels := Tbl.mapv d.kernels fun _ k => { k with faults := [] }
    used := [], aff := [], ptrs := [], draining := [] }

/-- A pool entry after a warm reset (R175): of the marks only `HOST` stays. -/
def PoolEnt.warm (e : PoolEnt) : PoolEnt := { e with marks := 0, comp := 0, busy := false }

/-- The pool is rebuilt (R175): buffers left without a mark are free, with the next generation. -/
def State.poolWarm (s : State) : State :=
  s.video.pool.ents.foldl (fun s kv => s.settle kv.1 kv.2.warm) s

/-- An image is loaded again from firmware's copy in HBM (R232): a buffer of its region is allocated and takes the copy. -/
def State.reloadImage (s : State) (i : Nat) (copy : List Byte) : State :=
  match Tbl.find s.video.images i with
  | none => s
  | some im => match s.poolAlloc ((s.regionOf im.buf.fbh).getD 0) with
    | none => s.updVideo fun v => { v with images := Tbl.del v.images i }
    | some (b, s1) =>
      let s2 := (s1.memWrite (s1.bufAddr b.fbh) copy).poolDone b [M_COMP] fun e => { e with width := im.w, height := im.h, p010 := im.p010, time := s1.dev }
      s2.updVideo fun v => { v with images := Tbl.set v.images i { im with buf := b } }

/-- Every image is loaded again. -/
def State.reloadImages (s : State) : State :=
  (s.video.images.map fun kv => (kv.1, Mem.read s.mem (s.bufAddr kv.2.buf.fbh) (frameBytes kv.2.w kv.2.h kv.2.p010))).foldl
    (fun s x => s.reloadImage x.1 x.2) s

/-- The first picture of a layout whose tick is not past. -/
def Layout.resume (l : Layout) (now : Nat) : Nat :=
  if now ≤ l.t0 then max l.next 0 else max l.next (cdiv ((now - l.t0) * l.sheet.fps) 1000000000)

/-- The picture engines after a warm reset (R175, R209, R232). -/
def Video.warm (v : Video) (now : Nat) : Video :=
  { v with
    decs := Tbl.mapv v.decs fun _ d => { d with
      st := .waitRp, slots := [], hold := [], layers := [], disp := {}, lost := [], conc := [], prevConc := [], reported := none
      timer := none, recEnd := none, cra := false, tu := none, tuTimes := [] }
    eng := [], enc := [], compLoad := [], compPtr := []
    groups := Tbl.mapv (Tbl.keep v.groups fun _ g => !g.removed) fun _ g => { g with
      pics := [], since := none, asked := false, anRefs := [], decs := [], last := [], hist := [], starved := false, hit := false
      raise := 0, peak := 0 }
    rends := Tbl.mapv (Tbl.keep v.rends fun _ r => !r.removed) fun _ r => {
      r.restart with refs := [], queue := [], window := [], stale := [], ratio := 0 }
    layouts := Tbl.mapv (Tbl.keep v.layouts fun _ l => !l.removed) fun _ l => { l with
      next := l.resume now, job := none, lastSheet := none, shown := [], held := [], canvas := [], srcs := [], disp := {} } }

/-- Each decode context raises `REFRESH_REQ` (R175). -/
def State.refreshAll (s : State) : State := s.video.decs.foldl (fun s kv => s.refreshReq kv.1) s

/-- Every slot is erased; owners stay (R320). -/
def State.keysWarm (s : State) : State :=
  { s with keys := { s.keys with slots := Tbl.mapv s.keys.slots fun _ k => k.erase, pend := none, bleaching := false } }

/-! ### The mailboxes and functions -/

/-- The receiver of a channel is reset (R362): an unread message is lost, and the registers that lie in its domain return
to reset values. -/
def State.lostOnReset (s : State) (ch : Nat) (bank : Bool) : State :=
  let seq := s.rf .MBX_MSG (16 * ch) 7 0
  let s1 := if bank then
      ((List.range 16).foldl (fun s i => s.rstReg .MBX_MSG (16 * ch + i)) ((List.range 4).foldl (fun s i => s.rstReg .MBX_RESP (4 * ch + i)) s)).rstReg .MBX_ACK ch
    else s
  if s.full ch then
    let s2 := (s1.freeChan ch).setRb .MBX_STAT ch 27 true
    if 4 ≤ ch then s2.setReg .MBX_ACK ch (putF (putF 0 31 16 RECEIVER_RESET) 7 0 seq) else s2
  else s1

/-- `RX_ON` of the channels that meet a condition. -/
def State.setRxOn (s : State) (p : Nat → Bool) (on : Bool) : State :=
  (List.range 64).foldl (fun s ch => if p ch then s.setRb .MBX_STAT ch 29 on else s) s

/-- Channels whose receiver is firmware. -/
def toFirmware (ch : Nat) : Bool := isCmdCh ch || ch == 2

/-- Mailboxes, functions and rings after a warm reset (R363, R383, R412). -/
def State.vustaWarm (s : State) : State :=
  let s1 := (List.range 64).foldl (fun s ch => if ch = 3 then s else s.lostOnReset ch true) s
  let s2 := (List.range 64).foldl (fun s ch => if ch = 3 ∨ isNoteCh ch = true then s.setRf .MBX_STAT ch 15 8 (s.txEpoch ch + 1) else s) s1
  let s3 := s2.setRxOn (fun ch => ch != 3) false
  { s3 with vusta := { s3.vusta with
      posted := [], shutdown := false, sriov := [], rings := [], notes := []
      fns := Tbl.mapv s3.vusta.fns fun _ f => { f with ver := 0, bme := false } } }

/-! ### Registers -/

/-- Does a register keep its value through a warm reset: those of Safelight, the window table (R349), the pool's, which
firmware rebuilds (R175), the tamper record (R320), and those that the boot sets. -/
def keptWarm (n : RegName) : Bool :=
  let b := n.base.getD 0
  decide (0x2000000000 ≤ b ∧ b < 0x2000020000) || decide (0x2005000000 ≤ b ∧ b < 0x2006000000)
    || decide (0x2009000000 ≤ b ∧ b < 0x2009010000) || decide (0x20030F0000 ≤ b ∧ b < 0x2003100000)
    || [RegName.HBMC_WIN_BASE, .HBMC_WIN_SIZE, .HBMC_WIN_CTL, .CRYPT_STAT, .CRYPT_TAMPER_EN, .CRYPT_TAMPER_STAT, .TRUST_STAT, .JRNL_STAT].contains n

/-- The registers whose values firmware restores after a warm reset: Strata's (R76), Sieve's and the scheduler's (R110), the
dispatcher's (R291), the mix fabric's (R146), the picture engines', whose contexts it restores (R175, R209, R232), and the HBM controllers'
(R349). -/
def restoredWarm (n : RegName) : Bool :=
  [RegName.STRATA_CTRL, .STRATA_DEVID, .STRATA_TGT_QID, .STRATA_OCTX_BASE, .STRATA_SPILL_BASE, .STRATA_SPILL_CFG, .STRATA_AUDIO_RSV,
    .SIEVE_CTRL, .EGS_TGT_QID, .EGS_STR_BASE, .EGS_PORT_CFG, .DISP_CTRL, .DISP_STORE_BASE, .DISP_POOL, .DISP_AFF, .DISP_WAKE_THRESH,
    .PICT_DEC_CTRL, .PICT_ENC_CTRL, .PICT_ENC_CTX_BASE, .PICT_COMP_CTRL, .PICT_COMP_MAP_BASE, .PICT_COMP_COEF, .MIXF_CTRL, .MIXF_MTR_BASE, .MIXF_SCHED, .HBMC_TREFI, .HBMC_PORT_CFG, .HBMC_SCRUB].contains n

/-- The mix-frame counter is loaded with ⌊device time / 10,000,000⌋, and the boundaries start (R112). -/
def State.mixReload (s : State) : State :=
  { s with cnts := Tbl.set s.cnts (regKey .MIXF_FRAME_LO 0) (BitVec.ofNat 64 (s.dev / 10000000)) }.mixStart

/-- Firmware writes the configuration registers again as they stood before the reset, and the status registers that follow from
them show it; it reloads the mix-frame counter (R146). -/
def State.restoreCfg (s old : State) : State :=
  let is (k : Nat) : Bool := match RegName.all[k / 2 ^ 20]? with | some n => restoredWarm n | none => false
  let s1 : State := { s with regs := old.regs.foldl (fun t kv => if is kv.1 then Tbl.set t kv.1 kv.2 else t) s.regs }
  ((List.range 8).foldl State.gateStat s1.mixReload).bufStat.dispStat.reloadImages

/-! ### The ROM (R445, R447, R449) -/

/-- The hold-up words are loaded from the governing header (R445). -/
def State.loadHup (s : State) : State :=
  match s.hdr with
  | none => s
  | some h =>
    let w (i : Nat) : Word := BitVec.ofNat 32 (nth h.hup 0 i)
    (((s.setReg .JRNL_HUP_CFG 0 (w 0)).setReg .JRNL_HUP_LOAD 0 (w 1 &&& 0xFFFFF)).setReg .JRNL_HUP_TIME 0 (w 2)).setReg .JRNL_HUP_RSV 0 (w 3)

/-- TRIAL slots that have had their three trial boots are marked BAD (R449). -/
def State.expireTrials (s : State) : State :=
  [0, 1].foldl (fun s i => if s.slotFw i = .trial ∧ 3 ≤ s.slotTrials i then (s.markBad i).1 else s) s

/-- The slots that may boot, in the order of R449. -/
def State.bootOrder (s : State) : List Nat :=
  ([0, 1].filter fun i => s.slotFw i == .trial && decide (s.slotTrials i < 3))
    ++ ([0, 1].filter fun i => s.slotFw i == .active) ++ [0, 1].filter fun i => s.slotFw i == .staged

/-- `TRUST_STAT.BOOT`. -/
def State.setBoot (s : State) (code : Nat) : State := s.setRf .TRUST_STAT 0 7 0 code

/-- The image of a slot is entered: what the ROM reports of it (R451), the firmware in control SRAM, the cores at its
start. -/
def State.enterImage (s : State) (i : Nat) : State :=
  let w := s.reg .TRUST_STAT
  let w := putF (putF (putF (putF (putB (putB w 29 false) 28 (i == 1)) 27 24 (s.imgKey i)) 23 16 (s.imgSvn i)) 15 8 (otpCount s.trust.otp)) 7 0 0
  let s1 := s.setReg .TRUST_STAT 0 w
  let s2 := ((s1.setReg .SAFE_RET 16 (BitVec.ofNat 32 (i * 65536 + s.imgSvn i))).setReg .SAFE_RET 17 (nth (s.imgFact i).meas 0 0)).setReg .SAFE_RET 18 0
  let s3 := { s2 with
    csram := Mem.write [] 0 (Flash.read s.trust.flash (slotAddr i + 64) (s.imgWord i 0x10))
    vusta := { s2.vusta with fwVer := BitVec.ofNat 32 (s.imgWord i 8) } }
  s3.updTrust fun t => { t with fmt := s.imgFmt i, runSlot := i }

/-- The ROM halts (R449): only channel 1 is served. -/
def State.haltRom (s : State) : State :=
  let code := if s.hdr.isNone then 2 else if s.rf .TRUST_STAT 0 7 0 = 0 then 9 else s.rf .TRUST_STAT 0 7 0
  ((((s.setBoot code).setRb .TRUST_STAT 0 29 true).setReg .SAFE_RET 16 (BitVec.ofNat 32 (code * 2 ^ 24))).setReg .SAFE_RET 18 0).setRxOn (· == 1) true

/-- The ROM tries the slots in order; the Boolean says that one was entered. -/
def State.trySlots (s : State) : List Nat → State × Bool
  | [] => (s, false)
  | i :: r =>
    -- a trial boot is counted in the header before the slot is read
    let (s1, e) := if s.slotFw i = .trial then s.setSlotWord i (slotWordOf .trial (s.slotTrials i + 1) (s.slotSvn i)) else (s, 0)
    if e ≠ 0 then State.trySlots s1 r
    else match s1.verify i with
      | (0, _) => (s1.enterImage i, true)
      | (_, code) => State.trySlots ((s1.markBad i).1.setBoot code) r

/-! ### The start -/

/-- The domains that every start wakes (R419, R448). -/
def bootDomains : List Nat := [1, 34, 28, 29, 30, 31, 32, 33]

/-- They are ON. -/
def State.bootPower (s : State) : State :=
  let s1 := bootDomains.foldl (fun s d =>
    let w := s.reg .CLKPWR_PD_STAT d
    s.setReg .CLKPWR_PD_STAT d (putF (putB (putF w 31 29 2) 28 true) 15 0 (min 65535 (fld w 15 0 + 1)))) s
  (s1.setRb .TIME_STAT 0 30 true).cycRun 64 true

/-- The newest TRUST_PINS record's pins: each is 4 × tenant + slot and 12 words. -/
def pinsOf : Nat → List Byte → Tbl (List Word)
  | 0, _ => []
  | n + 1, l => if l.length < 52 then [] else Tbl.set (pinsOf n (l.drop 52)) (leNat (l.take 4)) (bytesToWords 12 ((l.drop 4).take 48))

/-- Firmware starts: host ports and HBM enabled, mailboxes served, verdicts taken, failed units fenced, the boot AUDIT
record due before any other (R448, R450, R479, R480). -/
def State.startFirmware (s : State) (warm : Bool) : State :=
  let s1 := (List.range 4).foldl (fun s p => s.setRb .HP_CTRL p 31 true) s
  let keep := if warm then 2 ^ 29 else 0
  let s2 := (List.range 2).foldl (fun s n => s.hbCtrl n (s.reg .HBMC_CTRL n ||| BitVec.ofNat 32 (2 ^ 31 + keep))) s1
  let s3 := s2.setRxOn (fun ch => toFirmware ch || isNoteCh ch) true
  let s4 := s3.updTrust fun t => { t with
    refused := 0
    pins := match t.recs.find? fun r => r.typ == REC_PINS with | some r => pinsOf 16 r.payload | none => [] }
  let s5 := s4.takeVerdicts
  -- fences that stand are restored, and every failed unit is fenced
  let s6 := (s5.tst.fenced.filter (· < 80)).foldl State.fenceUnit s5
  let s7 := { s6 with trust := { s6.trust with audits := leWords [A_BOOT, s6.trust.runSlot] :: s6.trust.audits } }
  let s8 := s7.tst.failed.foldl (fun s u => s.fence u false) s7
  let s9 := (s8.flushAudits s8.trust.audits.length).clearTested
  -- a BOOT run over the units not tested since the last start (R480)
  (s9.updTst fun t => { t with tested := [] }).startRun 2 ((List.range 90).filter fun u => !s8.tst.tested.contains u)

/-- The ROM runs (R448 to R450): hold-up words, the choice of slot, the image, or a halt. -/
def State.boot (s : State) (warm : Bool) : State :=
  let s1 := ((s.loadHup.scanJournal).otpShow.expireTrials).setBoot 0
  match s1.trySlots s1.bootOrder with
  | (s2, true) => s2.startFirmware warm
  | (s2, false) => s2.haltRom

/-- Every fast domain is powered off, without a start: what R423 takes from them. -/
def State.dropFast (s : State) : State :=
  let s0 := s.dropRecords.poolWarm
  let s1 := { s0 with
    net := s0.net.warm s0.ela s0.dev, mix := s0.mix.warm, video := s0.video.warm s0.dev, disp := s0.disp.warm
    cores := [], csram := [], fifos := [], hbm := []
    mem := s0.mem.filter fun c => inHbm c.1 }
  let s2 := (s1.keysWarm.vustaWarm).rstRegs fun n _ => !keptWarm n
  let s3 := (List.range 34).foldl (fun s d => (s.setPd (d + 1) 0).setRb (pdStat (d + 1)).1 (d + 1) 28 false) s2
  let s4 := (List.range 64).foldl (fun s c => s.setPd (35 + c) 0) s3
  { s4.setRb .TIME_STAT 0 30 false with power := { s4.power with doms := [], wakeQ := [], cyc := [], powerOff := false } }

/-- A commit in progress ends as the operation does when it succeeds (R462). -/
def State.endCommit (s : State) (ok : Bool) : State :=
  match s.trust.job with
  | none => s
  | some j =>
    let s1 := s.updTrust fun t => { t with job := none }
    let noise (n : Nat) : List Byte := (List.range n).map (Config.freeByte s.freeCtr)
    if ok then
      (if j.op = 1 then s1.updTrust fun t => { t with flash := Flash.progAll t.flash j.addr j.page }
        else if j.op = 2 then s1.updTrust fun t => { t with flash := Flash.erase t.flash j.addr 4096 }
        else s1.burnStep j.addr).jrnlResult J_DONE
    else
      let s2 := { s1 with freeCtr := s1.freeCtr + 1 }
      -- what a failed operation leaves, the spec does not state
      (if j.op = 1 then s2.updTrust fun t => { t with flash := Flash.progAll t.flash j.addr (noise 256) }
        else if j.op = 2 then s2.updTrust fun t => { t with flash := Flash.progAll (Flash.erase t.flash j.addr 4096) j.addr (noise 4096) }
        else if Config.freeBit s.freeCtr then s2.burnStep j.addr else s2).jrnlResult J_FLASH_ERR

/-- A warm reset (R423): 1 by firmware, 2 by the watchdog. After a thermal trip nothing starts again (R437). -/
def State.warmReset (s : State) (cause : Nat) : State :=
  let cut := (Tbl.keys s.tst.pos).foldl State.dropTest (s.endCommit true)
  let s0 := match cut.tst.run with | some r => cut.writeResult r | none => cut
  let w := s0.reg .CLKPWR_RST_CAUSE
  let s1 := s0.setReg .CLKPWR_RST_CAUSE 0 (putF (putF w 31 28 cause) 15 0 (min 65535 (fld w 15 0 + 1)))
  let ready (n : Nat) : Bool := s1.hbState n == HB_ACTIVE || s1.hbState n == HB_SR_ENTRY || s1.hbState n == HB_SELF_REFRESH || s1.hbState n == HB_SR_EXIT
  let s2 := (List.range 2).foldl (fun s n => if s.hbState n = HB_ACTIVE then s.hbSettle n else s) s1
  -- a stack that was not served keeps nothing
  let s3 := { s2 with mem := (List.range 2).foldl (fun m n => if ready n then m else Mem.clear m (n * 0x600000000) 0x600000000) s2.mem }
  let s4 := s3.dropFast
  let s5 := { s4 with
    tst := { s4.tst with run := none, retry := none, pos := [] }
    power := { s4.power with kickAt := s4.ela } }
  if s5.rb .SAFE_THERM 0 22 then s5
  else
    let s6 := (List.range 2).foldl (fun s n => if ready n then s.setHbState n HB_SELF_REFRESH else s) s5.bootPower
    let s7 := s6.boot true
    let s8 := if s7.rb .TRUST_STAT 0 29 then s7
      else ((((s7.restoreCfg s).notifyAll 0x0984 0).refreshAll).audit A_WARM [cause])
    -- a domain whose `REQ` asks for it powers up again (R415)
    (List.range 99).foldl (fun s d =>
      if s.pdState d = 0 ∧ s.rf (pdCtrl d).1 (pdCtrl d).2 31 30 ≠ 2 ∧ (s.rb .TRUST_STAT 0 29) = false then s.startUp d else s) s8

/-- The reset of the whole device (R422, R491). The flash, OTP and what the journal holds are no state of the device's
supply; a commit in progress is cut short. -/
def State.powerOn (s : State) : State :=
  let s1 := s.endCommit false
  { State.reset with
    pending := s.pending, out := s.out, freeCtr := s1.freeCtr
    trust := {
      flash := s1.trust.flash, imgs := s1.trust.imgs, sense := s1.trust.sense, otp := s1.trust.otp, revoked := s1.trust.revoked
      snaps := s1.trust.snaps } }

/-- Bytes that a board's maker has programmed outside the device. -/
def Flash.place (f : List (Nat × Byte)) : List (Nat × List Byte) → List (Nat × Byte)
  | [] => f
  | (a, l) :: r => Flash.place (Flash.progAll (Flash.erase f a l.length) a l) r

/-- PORST_RELEASE (R448, R449, R497): PORST_N rises, straps are sampled and the device starts; with TEST_EN high it stays
in reset. -/
def execPorstRelease (straps : BitVec 4) (sysref : Bool) (testEn : Bool) (board : Option Board) (s : State) : Res :=
  if testEn || !s.power.porst then .next s
  else
    let s1 := match board with
      | some b => s.updTrust fun t => { t with
          flash := Flash.place t.flash b.flash, sense := b.sense
          imgs := b.imgs.foldl (fun (m : Tbl ImgFact) (x : Nat × ImgFact) => Tbl.set m x.1 x.2) t.imgs }
      | none => s
    let s2 := { s1.setReg .SAFE_STRAP 0 (straps.setWidth 32) with power := { s1.power with porst := false } }
    let s3 := if sysref then (s2.setRb .SAFE_CLK 0 31 true).setRb .SAFE_CLK 0 30 true else s2
    .next ((s3.setRb .MBX_STAT 3 29 true).bootPower.boot false)

/-- POWER_ON_RESET (R491). -/
def execPowerOnReset (s : State) : Res := .next s.powerOn
/-- BROWN_OUT (R491). -/
def execBrownOut (s : State) : Res := .next s.powerOn
/-- WARM_RESET (R423). -/
def execWarmReset (wdog : Bool) (s : State) : Res := .next (s.warmReset (if wdog then 2 else 1))

end Sys2Proof.Machine
end

