-- ==== Sys2Proof/Machine/Power.lean ====
section
/-! DEFINITION. Requests, sleep, wake and reset of domains, the watchdog and the thermal trip (R24, R415 to R424,
R437). -/

namespace Sys2Proof.Machine

/-! ### What a domain holds -/

/-- The domain of a register, by its block (R23). -/
def RegName.domain (n : RegName) (i : Nat) : Nat :=
  match n.base with
  | none => 30 + i / 1024
  | some b =>
    let cell := match n.dims with | (_, c) :: _ => i / ((n.dims.drop 1).foldl (fun m d => m * d.2) 1) % c | [] => 0
    if b < 0x2000020000 then 0
    else if b < 0x2000100000 then 30 + cell
    else if b < 0x2000200000 then 26
    else if b < 0x2000300000 then 27
    else if b < 0x2001000000 then 34
    else if b < 0x2002000000 then 2 + cell
    else if b < 0x2003000000 then 34
    else if 0x20030F0000 ≤ b ∧ b < 0x2004000000 then 34
    else if b < 0x2004000000 then 18 + cell
    else if 0x2004080000 ≤ b ∧ b < 0x2005000000 then 28
    else if b < 0x2005000000 then 28 + cell
    else if b < 0x2006000000 then 0
    else if b < 0x2007000000 then 1
    else if b < 0x2008000000 then 34
    else if b < 0x2009000000 then 1
    else 0

/-- The packet plane or the crypto plane loses its state (R24): queues and buffers, registers; every key slot. The rings
belong to the host ports (R399). -/
def State.losePlane (s : State) (d : Nat) : State :=
  if d = 26 then
    let s1 := s.rstRegs fun n i => n.domain i == 26
    { s1 with
      net := s1.net.warm s1.ela s1.dev
      mem := Mem.clear s1.mem 0x1008000000 0x4000000 }
  else if d = 27 then
    s.keysWarm.rstRegs fun n i => n.domain i == 27 && !(([.CRYPT_STAT, .CRYPT_TAMPER_EN, .CRYPT_TAMPER_STAT] : List RegName).contains n)
  else s

/-! ### Requests (R415, R416) -/

/-- Is a request refused (R416)? -/
def State.pdRefused (s : State) (d req : Nat) : Bool :=
  req != 0 && (
    d == 0 || (decide (28 ≤ d) && decide (d ≤ 33))
    || (d == 1 && req == 2)
    || (d == 26 && (List.range 8).any fun p => s.rb .ETH_PSTAT p 31)
    || (d == 27 && s.pdState 26 != 0)
    || (d == 34 && (List.range 33).any fun i => s.pdState (i + 1) != 0)
    || (decide (2 ≤ d) && decide (d ≤ 17) && !s.clustersDeep (d - 2) req))

/-- Does a domain or cluster wait for a wake that has been asked for (R420)? -/
def State.wakeAsked (s : State) (d : Nat) : Bool := s.power.wakeQ.contains d || (Tbl.get s.power.doms {} d).wakeWait

/-- A domain that is ON goes towards a request; a tile only when its clusters are as deep and none of them is to wake. -/
def State.goDownOk (s : State) (d req : Nat) : State :=
  if 2 ≤ d ∧ d ≤ 17 ∧ (s.clustersDeep (d - 2) req = false ∨ (List.range 4).any (fun i => s.wakeAsked (35 + 4 * (d - 2) + i)) = true) then s
  else s.goDown d req

/-- The event of `REQ` at a value (R415). -/
def State.pdRequest (s : State) (d req : Nat) : State :=
  let held := s.rb (pdCtrl d).1 (pdCtrl d).2 28
  match s.pdState d with
  | 0 => if req = 2 ∨ held = true then s else if req = 0 then s.wakeUp d else s.startUp d
  | 2 => if req = 0 then s.wake d else s.goDownOk d req
  | 3 => if req = 0 then s.wake d else s.updDom d fun x => { x with target := req, wakeWait := false }
  | 4 => if req = 0 then (if held = true then s else s.wakeUp d)
    else if req = 2 then (s.setPd d 5).updDom d fun x => { x with wakeWait := false } else s
  | 5 => if req = 2 ∨ held = true then s else s.wake d
  | _ => s

/-- `DOM_RESET` returns to 0 when the domain is in its `REQ` state. -/
def State.settleReset (s : State) (d : Nat) : State :=
  let (n, i) := pdCtrl d
  let want := match s.rf n i 31 30 with | 1 => 4 | 2 => 0 | _ => 2
  if s.rb n i 27 && s.pdState d == want then s.setRb n i 27 false else s

/-- `DOM_RESET` (R415, R422): one tile, cluster or engine loses its state; a domain that has FAILED powers up. -/
def State.domReset (s : State) (d : Nat) : State :=
  let (n, i) := pdCtrl d
  match s.pdState d with
  | 6 => if s.rb n i 28 then s.setRb n i 27 true else (s.setRb n i 27 true).startUp d
  | 0 => s
  | 1 => s
  | _ => if 35 ≤ d ∨ (2 ≤ d ∧ d ≤ 25) then ((s.setRb n i 27 true).loseDomain d).settleReset d else s

/-- A write of a domain's control register (R415, R416). -/
def State.pdWrite (s : State) (d : Nat) (v : Word) : State :=
  let (n, i) := pdCtrl d
  let req := fld v 31 30
  let s1 := s.setReg n i (putB (putB (s.reg n i) 29 (bit v 29)) 28 (bit v 28))
  let s2 := if req = 3 then s1
    else if s1.pdRefused d req then s1.setRb (pdStat d).1 (pdStat d).2 27 true
    else (s1.setRf n i 31 30 req).pdRequest d req
  if bit v 27 then s2.domReset d else s2

/-- PD_REQ_WRITE (R415 to R417). -/
def execPdReqWrite (d : Fin 99) (v : Word) (s : State) : Res := .next { s.pdWrite d.val v with bus := .ok 0 }

/-- DOMAIN_RESET (R422): the write of `DOM_RESET` alone. -/
def execDomainReset (d : Fin 99) (s : State) : Res := .next { s.domReset d.val with bus := .ok 0 }

/-! ### Entry and wake (R418 to R421) -/

/-- The next wake that waits for one of the four places starts (R420); a cluster not before its tile (R415). -/
def State.startNext (s : State) : State :=
  if 4 ≤ s.powering then s
  else
    let q := s.power.wakeQ.filter fun d => s.pdState d == 0 || s.pdState d == 6
    match q.find? fun d => decide (d < 35) || !q.contains (2 + (d - 35) / 4) with
    | none => { s with power := { s.power with wakeQ := q } }
    | some d => { s with power := { s.power with wakeQ := q.filter (· != d) } }.startUp d

/-- The clock of a domain starts or stops: the cycle counters of its cores, and what the control domain serves. -/
def State.clockOf (s : State) (d : Nat) (on : Bool) : State :=
  if 35 ≤ d then s.cycRun (d - 35) on
  else if d = 1 then (s.cycRun 64 on).setRxOn toFirmware on
  else if d = 34 then s.setRb .TIME_STAT 0 30 on
  else s

/-- `PLL_LOCK` of a domain; a cluster has its tile's. -/
def State.setPll (s : State) (d : Nat) (on : Bool) : State := if 35 ≤ d then s else s.setRb .CLKPWR_PD_STAT d 28 on

/-- The switches are open: the domain is OFF and has lost its state (R24). A tile that a fence holds follows its clusters;
a wake that came late starts. -/
def State.nowOff (s : State) (d : Nat) : State :=
  let w := (Tbl.get s.power.doms {} d).wakeWait
  let s1 := (((s.setPd d 0).setPll d false).loseDomain d).losePlane d
  let s2 := (s1.updDom d fun x => { x with wakeWait := false }).settleReset d
  if w then s2.startUp d
  else if 35 ≤ d then
    let t := 2 + (d - 35) / 4
    if s2.rf .CLKPWR_PD_CTRL t 31 30 = 2 ∧ s2.rb .CLKPWR_PD_CTRL t 28 = true ∧ s2.pdOn t = true then s2.goDownOk t 2 else s2
  else s2

/-- SLEEP_ENTRY_COMPLETE (R418). -/
def execSleepEntryComplete (d : Fin 99) (s : State) : Res :=
  let d := d.val
  match s.pdState d with
  | 3 =>
    let s1 := s.clockOf d false
    let s2 := s1.updDisp fun x => { x with draining := Tbl.del x.draining (d - 35) }
    let s3 := if 35 ≤ d then s2 else s1
    if (Tbl.get s.power.doms {} d).target = 2 then .next (s3.nowOff d) else .next ((s3.setPd d 4).settleReset d)
  | 5 => .next (s.nowOff d)
  | _ => .next s

/-- A domain becomes ON (R419). -/
def State.nowOn (s : State) (d : Nat) : State :=
  let (m, j) := pdStat d
  let s1 := ((s.setPd d 2).setRf m j 15 0 (min 65535 (s.rf m j 15 0 + 1))).setPll d true
  let s2 := (s1.updDom d fun x => { x with wakeWait := false }).clockOf d true
  let s3 := if 35 ≤ d then
      s2.updDisp fun x => { x with qs := Tbl.mapv x.qs fun _ q => if q.mask.toNat.testBit (d - 35) then { q with wakeOut := false } else q }
    else s2
  let s4 := if d = 34 then s3.postDueTimers else s3
  let req := s4.rf (pdCtrl d).1 (pdCtrl d).2 31 30
  (if req = 1 ∨ req = 2 then s4.goDownOk d req else s4).settleReset d

/-- Is a cluster's tile ON? -/
def State.tileReady (s : State) (d : Nat) : Bool := decide (d < 35) || s.pdOn (2 + (d - 35) / 4)

/-- WAKE_COMPLETE (R419, R420); a cluster waits for its tile. -/
def execWakeComplete (d : Fin 99) (s : State) : Res :=
  let d := d.val
  if !s.tileReady d then .next s
  else match s.pdState d with
    | 1 => .next (s.nowOn d).startNext
    | 4 => .next (if (Tbl.get s.power.doms {} d).wakeWait then s.nowOn d else s)
    | _ => .next s

/-- POWER_GOOD_TIMEOUT (R415, R421): the domain fails, and firmware fences it. -/
def execPowerGoodTimeout (d : Fin 99) (s : State) : Res :=
  let d := d.val
  if s.pdState d ≠ 1 then .next s
  else
    let s1 := ((s.setPd d 6).chan2 S2_DOMAIN d).startNext
    .next (match testUnit d with | some u => s1.fence u true | none => s1)

/-! ### The watchdog (R424) -/

/-- A write of `CLKPWR_WDOG`. -/
def State.wdogWrite (s : State) (v : Word) : State :=
  let on := s.rb .CLKPWR_WDOG 0 31
  let t := fld v 15 0
  let s1 := if !on && decide (10 ≤ t) then s.setRf .CLKPWR_WDOG 0 15 0 t else s
  let s2 := if bit v 31 then s1.setRb .CLKPWR_WDOG 0 31 true else s1
  if bit v 30 || (bit v 31 && !on) then { s2 with power := { s2.power with kickAt := s2.ela } } else s2

/-- WDOG_ENABLE (R424). -/
def execWdogEnable (v : Word) (el : Nat) (s : State) : Res := .next { (s.advance el).wdogWrite v with bus := .ok 0 }
/-- WDOG_KICK (R424). -/
def execWdogKick (v : Word) (el : Nat) (s : State) : Res := .next { (s.advance el).wdogWrite v with bus := .ok 0 }

/-- WATCHDOG_EXPIRY (R424). -/
def execWatchdogExpiry (el : Nat) (s : State) : Res :=
  let s := s.advance el
  if s.rb .CLKPWR_WDOG 0 31 && decide (s.power.kickAt + s.rf .CLKPWR_WDOG 0 15 0 * 1000000 ≤ s.ela) then .next (s.warmReset 2)
  else .next s

/-! ### The thermal trip (R437) -/

/-- THERMAL_TRIP (R437): Tj has been at `TRIP_C` or above for 1 ms. -/
def execThermalTrip (tj : Byte) (s : State) : Res :=
  if sx tj.toNat 8 < sx (s.rf .SAFE_THERM 0 7 0) 8 then .next s
  else
    let s1 := (Tbl.keys s.tst.pos).foldl State.dropTest ((s.thermal tj false).endCommit false)
    let s2 := s1.dropFast
    let s3 := { s2 with mem := [], tst := { s2.tst with run := none, retry := none, pos := [] } }
    .next ((s3.setReg .SAFE_PWRGD 0 0).setRb .SAFE_THERM 0 22 true).fanUpdate

end Sys2Proof.Machine
end

