-- ==== Sys2Proof/Machine/Jrnl.lean ====
section
/-! DEFINITION. The JRNL block's commits, `TRUST_SIGN`, and the JRNL commands (R452 to R466). -/

namespace Sys2Proof.Machine

abbrev NOT_STAGED : Nat := 0x0D00
abbrev FW_IMAGE_BAD : Nat := 0x0D01
abbrev ROLLBACK : Nat := 0x0D02
abbrev LIVE_INCOMPAT : Nat := 0x0D03
abbrev SLOT_BUSY : Nat := 0x0D04
abbrev ROOT_LOCKED : Nat := 0x0D05
abbrev JOURNAL_FULL : Nat := 0x0D06
abbrev NO_SNAPSHOT : Nat := 0x0D07

/-! ### JRNL_CMD (R462) -/

/-- The bytes of `JRNL_BUF`. -/
def State.jrnlBuf (s : State) : List Byte := (List.range 64).flatMap fun i => toLe 4 (s.reg .JRNL_BUF i).toNat

/-- A write of `JRNL_CMD`: 1 PROGRAM, 2 ERASE, 3 FUSE. -/
def State.jrnlCmd (s : State) (op addr : Nat) : State :=
  if op = 0 then s
  else if s.trust.job.isSome then s.jrnlResult J_BUSY
  else if (op = 1 ∧ addr % 256 ≠ 0) ∨ (op = 2 ∧ addr % 4096 ≠ 0) ∨ (op = 3 ∧ 63 < addr) then s.jrnlResult J_BAD_PARAM
  else match s.mayCommit (op != 1) with
    | (s1, 0) => (s1.updTrust fun t => { t with job := some { op, addr, page := if op = 1 then s.jrnlBuf else [] } }).jrnlResult J_BUSY
    | (s1, _) => s1

/-- The same with the conversion of HUP_SNS that its check takes. -/
def State.jrnlCmdAt (s : State) (op : Nat) (v : Word) (sense : Nat) : State :=
  ((s.updTrust fun t => { t with senses := [sense] }).jrnlCmd op (fld v 27 0)).endPower

/-- JRNL_PROGRAM (R462). -/
def execJrnlProgram (v : Word) (sense : Nat) (s : State) : Res := .next { s.jrnlCmdAt 1 v sense with bus := .ok 0 }
/-- JRNL_ERASE (R462). -/
def execJrnlErase (v : Word) (sense : Nat) (s : State) : Res := .next { s.jrnlCmdAt 2 v sense with bus := .ok 0 }
/-- JRNL_FUSE (R452). -/
def execJrnlFuse (v : Word) (sense : Nat) (s : State) : Res := .next { s.jrnlCmdAt 3 v sense with bus := .ok 0 }

/-- COMMIT_COMPLETE (R462): the AUDIT records that waited for the block follow. -/
def execCommitComplete (ok : Bool) (s : State) : Res :=
  if s.trust.job.isSome then .next ((s.endCommit ok).flushAudits s.trust.audits.length) else .next s

/-! ### TRUST_SIGN (R453, R454) -/

/-- A write of `TRUST_SIGN`. -/
def State.trustSign (s : State) (v : Word) : State :=
  if s.rf .TRUST_SIGN 0 31 30 = 1 then s
  else
    let s1 := s.setRf .TRUST_SIGN 0 25 0 (fld v 25 0)
    if !bit v 29 then s1
    else if s.rb .TRUST_STAT 0 30 then s1.setRf .TRUST_SIGN 0 31 30 3
    else (s1.setRf .TRUST_SIGN 0 31 30 1).setRb .TRUST_SIGN 0 29 true

/-- TRUST_SIGN (R453, R454). -/
def execTrustSign (v : Word) (s : State) : Res := .next { s.trustSign v with bus := .ok 0 }

/-- SIGN_COMPLETE (R453): both signatures are written after the body; a root locked meanwhile signs nothing (R454). -/
def execSignComplete (s : State) : Res :=
  if s.rf .TRUST_SIGN 0 31 30 ≠ 1 then .next s
  else if s.rb .TRUST_STAT 0 30 then .next ((s.setRf .TRUST_SIGN 0 31 30 3).setRb .TRUST_SIGN 0 29 false)
  else
    let a := s.rf .TRUST_SIGN 0 25 0 * 2 ^ 14
    let body := Mem.read s.mem a 256
    let s1 := (s.memWrite (a + 256) (identitySign false body)).memWrite (a + 320) (identitySign true body)
    .next ((s1.setRf .TRUST_SIGN 0 31 30 2).setRb .TRUST_SIGN 0 29 false)

/-! ### The frame of a JRNL command -/

/-- A command whose commits the JRNL block runs: it waits while another commit runs (R462), and the power that its commits
meet is that of the operand; a failure of power is then met as ever (R477). -/
def runJrnl (k : CmdSpec) (check : Cmd → State → Nat) (apply : Cmd → State → Reply) (c : Cmd) (s : State) : State :=
  if s.trust.job.isSome then s.advance c.el
  else
    let power (c : Cmd) (s : State) : Reply :=
      let r := apply c (s.withPower c)
      { r with st := r.st.endPower.pfailRun }
    runCmd k check power c s

/-- The answer to a command whose commit was refused with a JRNL result (R462, R463); the check itself leaves its marks. -/
def heldUp (s : State) (res : List Nat) : Reply := { st := s, code := NO_HOLDUP, res, keep := true }

/-- A record committed for a command, and what follows when its seal is programmed. A record that PFAIL_N cuts short stays
torn. -/
def State.recordFor (s : State) (typ tenant : Nat) (payload : List Byte) (k : State → Reply) : Reply :=
  let s1 := s.flushAudits s.trust.audits.length
  match s1.commitRec typ tenant payload with
  | (s2, 0) => k s2
  | (s2, e) => heldUp s2 (if e = J_PFAIL ∧ s2.trust.next ≠ s1.trust.next then [1] else [0])

/-- The header changed for a command. -/
def State.headerFor (s : State) (slots : List Nat) (k : State → Reply) : Reply :=
  match s.writeHdr slots with
  | (s1, 0) => k s1
  | (s1, _) => heldUp s1 [0]

/-- An AUDIT record of a command; while the ROM is halted no firmware writes the journal, and it waits. -/
def State.auditCmd (s : State) (code : Nat) (fields : List Nat) : State :=
  if s.rb .TRUST_STAT 0 29 then s.updTrust fun t => { t with audits := t.audits ++ [leWords (code :: fields)] } else s.audit code fields

/-! ### Attestation and identity (R453 to R455) -/

/-- The contents of OTP key entries 0 to 3, which the part's maker fuses: two digests each. -/
def otpKeys : List Byte := fixLen 384 (Config.byteTransform 12 [] [])
/-- SHA-384 over the OTP key entries with their revoke fuses. -/
def State.otpDigest (s : State) : List Word := sha384 (bytesToWords 97 (otpKeys ++ [s.trust.revoked.setWidth 8]))

/-- The kernel measurement for a tenant: Damilo's images are the bundle's. -/
def State.kernelDigest (s : State) (t : Nat) : List Word :=
  let entry (k : Nat) (d : List Byte) : List Byte := toLe 2 k ++ d
  let damilo := (List.range 256).flatMap fun k => entry k (fixLen 48 (Config.byteTransform 13 [k] []))
  let own := (s.disp.kernels.filter fun kv => decide (256 ≤ kv.1) && kv.2.own.tenant == t).flatMap fun kv =>
    entry kv.1 (wordsToBytes (sha384 kv.2.image))
  let l := damilo ++ own
  sha384 (bytesToWords (cdiv l.length 4) l)

/-- The body of an attestation report (R455). -/
def State.attestBody (s : State) (c : Cmd) : List Byte :=
  let head := leWords [0x50554154, 0x10000 + c.tenant % 4 * 256 + c.fnN % 256, s.dev % 2 ^ 32, s.dev / 2 ^ 32]
  let nonce := leWords ((List.range 8).map fun i => c.w (4 + i))
  let id := leWords [(s.reg .SAFE_DEVID).toNat, s.vusta.fwVer.toNat,
    s.rf .TRUST_STAT 0 23 16 * 2 ^ 24 + s.rf .TRUST_STAT 0 15 8 * 2 ^ 16 + s.trust.runSlot * 256 + s.rf .SAFE_RET 18 7 0,
    (s.reg .TRUST_STAT).toNat]
  let meas := (List.range 12).map fun i => nth (s.imgFact s.trust.runSlot).meas 0 i
  head ++ nonce ++ id ++ wordsToBytes meas ++ wordsToBytes s.otpDigest ++ wordsToBytes (s.kernelDigest c.tenant)
    ++ identityKey false ++ List.replicate 16 0

/-- JRNL_ATTEST. -/
def jrnlAttestSpec : CmdSpec := { op := 0x0D00, minor := 3, dma := true }
def jrnlAttestCheck (_ : Cmd) (s : State) : Nat := rejectIf (s.rb .TRUST_STAT 0 30) ROOT_LOCKED
def jrnlAttestApply (c : Cmd) (s : State) : Reply :=
  let body := s.attestBody c
  { st := s.dmaBytes c.fnN (c.q 2) (body ++ identitySign false body ++ identitySign true body) }
/-- JRNL_ATTEST (R455). -/
def execJrnlAttest (c : Cmd) (s : State) : Res := .next (runCmd jrnlAttestSpec jrnlAttestCheck jrnlAttestApply c s)

/-- JRNL_IDENTITY. -/
def jrnlIdentitySpec : CmdSpec := { op := 0x0D01, minor := 3, dma := true, used := [(4, 0xFFFF)] }
def jrnlIdentityCheck (c : Cmd) (_ : State) : Nat := rejectIf (decide (c.f 4 15 0 < 8192)) BAD_PARAM
def jrnlIdentityApply (c : Cmd) (s : State) : Reply :=
  { st := s.dmaBytes c.fnN (c.q 2) (identityKey false ++ identityKey true ++ Flash.read s.trust.flash 0x10000 (c.f 4 15 0 - 1984)) }
/-- JRNL_IDENTITY (R453). -/
def execJrnlIdentity (c : Cmd) (s : State) : Res := .next (runCmd jrnlIdentitySpec jrnlIdentityCheck jrnlIdentityApply c s)

/-- JRNL_READ. -/
def jrnlReadSpec : CmdSpec := { op := 0x0D02, minor := 3, chan := .any, dma := true, used := [(6, 0xFFFF)] }
def jrnlReadApply (c : Cmd) (s : State) : Reply :=
  let mine (r : JRec) : Bool := decide (c.q 4 ≤ r.seq) && (c.fn.isNone || r.tenant == c.tenant)
  { st := s.dmaBytes c.fnN (c.q 2) (((s.trust.recs.reverse.filter mine).take (c.f 6 15 0)).flatMap JRec.bytes) }
/-- JRNL_READ (R460): the records from a sequence on, oldest first. -/
def execJrnlRead (c : Cmd) (s : State) : Res := .next (runCmd jrnlReadSpec (fun _ _ => 0) jrnlReadApply c s)

/-- JRNL_STATUS. -/
def jrnlStatusSpec : CmdSpec := { op := 0x0D05, minor := 3, chan := .any }
def jrnlStatusApply (_ : Cmd) (s : State) : Reply :=
  { st := s, res := [s.trust.recs.length, s.erasedAhead / 256, s.rf .JRNL_STAT 0 15 0,
      b2n (s.rb .JRNL_STAT 0 31) * 2 ^ 31 + b2n (s.rb .JRNL_STAT 0 30) * 2 ^ 30 + s.trust.refused] }
/-- JRNL_STATUS (R461 to R463). -/
def execJrnlStatus (c : Cmd) (s : State) : Res := .next (runCmd jrnlStatusSpec (fun _ _ => 0) jrnlStatusApply c s)

/-! ### Snapshots (R460, R464) -/

/-- Does a live object of the tenant stand here? -/
def keptBy (t : Nat) (o : Own) : Bool := o.tenant == t && !o.dying

/-- The configuration of a tenant's objects. -/
def State.takeSnap (s : State) (t : Nat) : Snap :=
  let net : Net := {
    legs := Tbl.keep s.net.legs fun _ x => keptBy t x.own
    streams := Tbl.keep s.net.streams fun _ x => keptBy t x.own
    subs := Tbl.keep s.net.subs fun _ x => keptBy t x.own
    peers := Tbl.keep s.net.peers fun _ x => keptBy t x.own
    flowqs := Tbl.keep s.net.flowqs fun _ x => keptBy t x.own
    est := Tbl.keep s.net.est fun _ x => keptBy t x.own
    samplers := Tbl.keep s.net.samplers fun _ x => keptBy t x.own
    policers := Tbl.keep s.net.policers fun l _ => match Tbl.find s.net.legs l with | some x => keptBy t x.own | none => false }
  let mix : Mix := {
    confs := Tbl.keep s.mix.confs fun _ x => keptBy t x.own
    sources := Tbl.keep s.mix.sources fun _ x => keptBy t x.own
    classes := Tbl.keep s.mix.classes fun _ x => keptBy t x.own
    taps := Tbl.keep s.mix.taps fun _ x => keptBy t x.own
    joins := Tbl.keep s.mix.joins fun i _ => Tbl.has net.subs i }
  { net, mix
    disp := {
      qs := Tbl.keep s.disp.qs fun _ x => keptBy t x.own
      kernels := Tbl.keep s.disp.kernels fun _ x => keptBy t x.own && !x.damilo
      chains := Tbl.keep s.disp.chains fun _ x => keptBy t x.own }
    video := {
      decs := Tbl.keep s.video.decs fun _ x => keptBy t x.own
      groups := Tbl.keep s.video.groups fun _ x => keptBy t x.own
      rends := Tbl.keep s.video.rends fun _ x => keptBy t x.own
      layouts := Tbl.keep s.video.layouts fun _ x => keptBy t x.own }
    timers := Tbl.keep s.time.timers fun _ x => keptBy t x.own
    meters := Tbl.keep s.vusta.meters fun _ x => keptBy t x.own
    routes := mix.sources.map fun kv => (kv.1, (s.entry kv.2.tile kv.2.route).words)
    entries := mix.classes.map fun kv => (kv.1, (s.entry (s.conf kv.2.conf).home kv.2.entry).words)
    slots := (s.keys.slots.filter fun kv => match kv.2.own with | some o => keptBy t o | none => false).map (·.1) }

/-- The identifiers that a snapshot names, kind by kind. -/
def Snap.ids (x : Snap) : List (List Nat) :=
  [Tbl.keys x.net.legs, Tbl.keys x.net.streams, Tbl.keys x.net.subs, Tbl.keys x.net.peers, Tbl.keys x.net.flowqs, Tbl.keys x.net.est,
    Tbl.keys x.net.samplers, Tbl.keys x.mix.confs, Tbl.keys x.mix.sources, Tbl.keys x.mix.classes, Tbl.keys x.mix.taps,
    Tbl.keys x.disp.qs, Tbl.keys x.disp.kernels, Tbl.keys x.disp.chains, Tbl.keys x.video.decs, Tbl.keys x.video.groups,
    Tbl.keys x.video.rends, Tbl.keys x.video.layouts, Tbl.keys x.timers, Tbl.keys x.meters, x.slots]

/-- The identifiers in use, in the same order. -/
def State.usedIds (s : State) : List (List Nat) :=
  [Tbl.keys s.net.legs, Tbl.keys s.net.streams, Tbl.keys s.net.subs, Tbl.keys s.net.peers, Tbl.keys s.net.flowqs, Tbl.keys s.net.est,
    Tbl.keys s.net.samplers, Tbl.keys s.mix.confs, Tbl.keys s.mix.sources, Tbl.keys s.mix.classes, Tbl.keys s.mix.taps,
    Tbl.keys s.disp.qs, Tbl.keysWhere s.disp.kernels (fun _ k => !k.damilo), Tbl.keys s.disp.chains, Tbl.keys s.video.decs,
    Tbl.keys s.video.groups, Tbl.keys s.video.rends, Tbl.keys s.video.layouts, Tbl.keys s.time.timers, Tbl.keys s.vusta.meters,
    Tbl.keysWhere s.keys.slots fun _ k => k.own.isSome]

/-- The payload of a SNAPSHOT record, whose format is firmware's: the tenant, then each kind's identifiers. -/
def snapBytes (t : Nat) (x : Snap) : List Byte := leWords (t :: x.ids.flatMap fun l => l.length :: l)

/-- The records that must be kept, with their sizes, less the tenant's own snapshot. -/
def State.keptSpan (s : State) (t : Nat) : Nat :=
  sumN ((s.trust.recs.filter fun r => s.isNewest r && !(r.typ == REC_SNAP && r.tenant == t)).map JRec.span)

/-- JRNL_SNAPSHOT. -/
def jrnlSnapshotSpec : CmdSpec := { op := 0x0D03, minor := 3, chan := .pf }
def jrnlSnapshotCheck (c : Cmd) (s : State) : Nat :=
  let n := (snapBytes c.tenant (s.takeSnap c.tenant)).length
  rejectIf (decide (2 ^ 20 < n) || decide (jrnlBytes < s.keptSpan c.tenant + recPages n * 256 + 2 ^ 20)) JOURNAL_FULL
def jrnlSnapshotApply (c : Cmd) (s : State) : Reply :=
  let x := s.takeSnap c.tenant
  s.recordFor REC_SNAP c.tenant (snapBytes c.tenant x) fun s =>
    { st := s.updTrust fun t => { t with snaps := Tbl.set t.snaps c.tenant x } }
/-- JRNL_SNAPSHOT (R460 to R463). -/
def execJrnlSnapshot (c : Cmd) (s : State) : Res := .next (runJrnl jrnlSnapshotSpec jrnlSnapshotCheck jrnlSnapshotApply c s)

/-- The entries of one table put into another. -/
def Tbl.into {α : Type} (t : Tbl α) (l : Tbl α) : Tbl α := l.foldl (fun (m : Tbl α) (x : Nat × α) => Tbl.set m x.1 x.2) t

/-- The objects come back, as after a restart, with a new creating function. -/
def State.putSnap (s : State) (x : Snap) (o : Own) : State :=
  let net := x.net.warm s.ela s.dev
  let mix := x.mix.warm
  let disp := x.disp.warm
  let video := x.video.warm s.dev
  { s with
    net := { s.net with
      legs := Tbl.into s.net.legs (Tbl.mapv net.legs fun _ y => { y with own := o })
      streams := Tbl.into s.net.streams (Tbl.mapv net.streams fun _ y => { y with own := o, holds := [], seen := [] })
      subs := Tbl.into s.net.subs (Tbl.mapv net.subs fun _ y => { y with own := o })
      peers := Tbl.into s.net.peers (Tbl.mapv net.peers fun _ y => { y with own := o })
      flowqs := Tbl.into s.net.flowqs (Tbl.mapv net.flowqs fun _ y => { y with own := o })
      est := Tbl.into s.net.est (Tbl.mapv net.est fun _ y => { y with own := o })
      samplers := Tbl.into s.net.samplers (Tbl.mapv net.samplers fun _ y => { y with own := o })
      policers := Tbl.into s.net.policers net.policers }
    mix := { s.mix with
      confs := Tbl.into s.mix.confs (Tbl.mapv mix.confs fun _ y => { y with own := o })
      sources := Tbl.into s.mix.sources (Tbl.mapv mix.sources fun _ y => { y with own := o })
      classes := Tbl.into s.mix.classes (Tbl.mapv mix.classes fun _ y => { y with own := o })
      taps := Tbl.into s.mix.taps (Tbl.mapv mix.taps fun _ y => { y with own := o })
      joins := Tbl.into s.mix.joins mix.joins }
    disp := { s.disp with
      qs := Tbl.into s.disp.qs (Tbl.mapv disp.qs fun _ y => { y with own := o })
      kernels := Tbl.into s.disp.kernels (Tbl.mapv disp.kernels fun i y => { y with own := o, load := s.disp.loads + i + 1 })
      loads := s.disp.loads + 1024
      chains := Tbl.into s.disp.chains (Tbl.mapv disp.chains fun _ y => { y with own := o }) }
    video := { s.video with
      decs := Tbl.into s.video.decs (Tbl.mapv video.decs fun _ y => { y with own := o })
      groups := Tbl.into s.video.groups (Tbl.mapv video.groups fun _ y => { y with own := o })
      rends := Tbl.into s.video.rends (Tbl.mapv video.rends fun _ y => { y with own := o })
      layouts := Tbl.into s.video.layouts (Tbl.mapv video.layouts fun _ y => { y with own := o }) }
    time := { s.time with timers := Tbl.into s.time.timers (Tbl.mapv x.timers fun _ y => { y with own := o, next := s.ela + y.period, due := false }) }
    vusta := { s.vusta with meters := Tbl.into s.vusta.meters (Tbl.mapv x.meters fun _ y => { y with own := o }) }
    keys := { s.keys with slots := x.slots.foldl (fun (m : Tbl KeySlot) (k : Nat) => Tbl.updD m {} k fun y => { y.erase with own := some o }) s.keys.slots } }

/-- The entries of the mix slices are written again, on other tiles where another tenant has taken the place. -/
def State.putEntries (s0 s : State) (x : Snap) : State :=
  let s1 := x.mix.sources.foldl (fun s kv =>
    let ws := (Tbl.find x.routes kv.1).getD []
    if (s0.entry kv.2.tile kv.2.route).valid then s.moveSource kv.1 ws else s.directEntry kv.2.tile kv.2.route ws) s
  let words (i : Nat) : List Word := (Tbl.find x.entries i).getD []
  x.mix.confs.foldl (fun s kv =>
    let l := x.mix.classes.filter fun y => y.2.conf == kv.1
    if l.any fun y => (s0.entry kv.2.home y.2.entry).valid then s.moveConf kv.1 words
    else l.foldl (fun s y => s.directEntry kv.2.home y.2.entry (words y.1)) s) s1

/-- JRNL_RESTORE. -/
def jrnlRestoreSpec : CmdSpec := { op := 0x0D04, minor := 3, chan := .pf }
def jrnlRestoreCheck (c : Cmd) (s : State) : Nat :=
  match Tbl.find s.trust.snaps c.tenant with
  | none => NO_SNAPSHOT
  | some x => rejectIf ((x.ids.zip s.usedIds).any fun p => p.1.any p.2.contains) BAD_STATE
def jrnlRestoreApply (c : Cmd) (s : State) : Reply :=
  match Tbl.find s.trust.snaps c.tenant with
  | none => { st := s, code := NO_SNAPSHOT }
  | some x =>
    let s1 := s.putEntries (s.putSnap x (newOwn c s)) x
    { st := (Tbl.keys x.video.decs).foldl State.refreshReq s1 }
/-- JRNL_RESTORE (R464). -/
def execJrnlRestore (c : Cmd) (s : State) : Res := .next (runCmd jrnlRestoreSpec jrnlRestoreCheck jrnlRestoreApply c s)

/-! ### Staging and activation (R456, R457, R459) -/

/-- The slot that a staging writes: neither ACTIVE nor TRIAL; one in STAGING first, then one that does not run. -/
def State.stageSlot (s : State) : Option Nat :=
  let ok := [0, 1].filter fun i => s.slotFw i != .active && s.slotFw i != .trial
  match ok.find? fun i => s.slotFw i == .staging with
  | some i => some i
  | none => match ok.find? fun i => s.rb .TRUST_STAT 0 29 || i != s.trust.runSlot with
    | some i => some i
    | none => ok.head?

/-- JRNL_FW_STAGE. -/
def jrnlFwStageSpec : CmdSpec := { op := 0x0D10, minor := 3, chan := .ch1, used := [(3, 0x1)] }
def jrnlFwStageCheck (c : Cmd) (s : State) : Nat :=
  if c.w 2 % 64 ≠ 0 ∨ 0x2000000 < c.w 2 + 48 then BAD_PARAM
  else match s.stageSlot with
    | none => SLOT_BUSY
    | some i =>
      if s.slotFw (1 - i) = .staging ∨ s.slotFw (1 - i) = .trial then SLOT_BUSY
      else rejectIf (decide (c.w 2 ≠ 0) && s.slotFw i != .staging) BAD_STATE

/-- The commits of one message: the header for the first, the sector's erase at its start, the bytes. -/
def State.stageWrite (s : State) (i off : Nat) (bytes : List Byte) (k : State → Reply) : Reply :=
  let body (s : State) : Reply :=
    match (if off % 4096 = 0 then s.eraseSector (slotAddr i + off) else (s, 0)) with
    | (s1, 0) => (match s1.progPage (slotAddr i + off) bytes with
      | (s2, 0) => k s2
      | (s2, _) => heldUp s2 [0])
    | (s1, _) => heldUp s1 [0]
  if off = 0 ∧ s.slotFw i ≠ .staging then
    s.headerFor ([s.slotWord 0, s.slotWord 1].set i (slotWordOf .staging 0 0)) body
  else body s

/-- `FINAL`: the slot verified (R447). -/
def State.stageFinal (s : State) (i : Nat) (f : ImgFact) : Reply :=
  let s1 := s.updTrust fun t => { t with imgs := Tbl.set t.imgs i f }
  let (e, _) := s1.verify i
  let st : SlotFw := if e = 0 then .staged else .bad
  s1.headerFor ([s1.slotWord 0, s1.slotWord 1].set i (slotWordOf st 0 (s1.imgSvn i))) fun s2 =>
    let s3 := s2.auditCmd A_STAGE [i, e]
    if e = 0 then { st := s3 } else { st := s3, code := FW_IMAGE_BAD, res := [e], keep := true }

def jrnlFwStageApply (c : Cmd) (s : State) : Reply :=
  let i := s.stageSlot.getD 0
  s.stageWrite i (c.w 2) (leWords ((List.range 12).map fun j => c.w (4 + j))) fun s =>
    if c.b 3 0 then s.stageFinal i c.img else { st := s }
/-- JRNL_FW_STAGE (R456). -/
def execJrnlFwStage (c : Cmd) (s : State) : Res := .next (runJrnl jrnlFwStageSpec jrnlFwStageCheck jrnlFwStageApply c s)

/-- The STAGED slot. -/
def State.stagedSlot (s : State) : Option Nat := [0, 1].find? fun i => s.slotFw i == .staged

/-- May a slot's image take over live (R457)? -/
def State.liveOk (s : State) (i : Nat) : Bool :=
  s.rb .TRUST_STAT 0 29 == false && (s.imgWord i 0x18).testBit 31 && decide (s.imgWord i 0x1C % 65536 ≤ s.trust.fmt)
    && decide (s.trust.fmt ≤ s.imgFmt i) && decide (s.rf .TRUST_STAT 0 23 16 ≤ s.imgSvn i)

/-- JRNL_FW_ACTIVATE. -/
def jrnlFwActivateSpec : CmdSpec := { op := 0x0D11, minor := 3, chan := .ch1, used := [(2, 0x1)] }
def jrnlFwActivateCheck (c : Cmd) (s : State) : Nat :=
  match s.stagedSlot with
  | none => NOT_STAGED
  | some i => rejectIf (c.b 2 0 && !s.liveOk i) LIVE_INCOMPAT

/-- The new firmware runs: the control cores at its start, its image in control SRAM (R457 steps 3 and 4). -/
def State.swapFirmware (s : State) (i : Nat) : State :=
  let t := s.reg .TRUST_STAT
  let s1 := s.setReg .TRUST_STAT 0 (putF (putF t 27 24 (s.imgKey i)) 23 16 (s.imgSvn i))
  let s2 := s1.setReg .SAFE_RET 18 (s1.reg .SAFE_RET 18 + 1)
  { s2 with
    csram := Mem.write [] 0 (Flash.read s.trust.flash (slotAddr i + 64) (s.imgWord i 0x10))
    cores := Tbl.keep s2.cores fun k _ => decide (k < 512)
    vusta := { s2.vusta with fwVer := BitVec.ofNat 32 (s.imgWord i 8) }
    power := { s2.power with kickAt := s2.ela }
    trust := { s2.trust with fmt := s.imgFmt i, runSlot := i } }

/-- The ROM resumes the old firmware: its cores leave the SWAP service (R458). -/
def State.resumeOld (s : State) : State :=
  { s with cores := Tbl.mapv s.cores fun k x => if 512 ≤ k then { x with inRom := false } else x }

/-- A live replacement of the running firmware. -/
def State.goLive (s : State) (c : Cmd) (i : Nat) : Reply :=
  let (e, _) := s.verify i
  if e ≠ 0 ∨ c.authOk = false then { st := (s.resumeOld.markBad i).1, code := FW_IMAGE_BAD, res := [e], keep := true }
  else
    let s1 := s.swapFirmware i
    let (s2, h) := s1.setSlotWord i (slotWordOf .trial 0 (s1.imgSvn i))
    let s3 := (s2.notifyAll 0x0083 0 [s2.vusta.fwVer.toNat]).audit A_LIVE [i]
    if h = 0 then { st := s3 } else heldUp s3 [0]

def jrnlFwActivateApply (c : Cmd) (s : State) : Reply :=
  let i := s.stagedSlot.getD 0
  if c.b 2 0 then s.goLive c i
  else s.headerFor ([s.slotWord 0, s.slotWord 1].set i (slotWordOf .trial 0 (s.slotSvn i))) fun s =>
    { st := s.auditCmd A_ACTIVATE [i, 0] }
/-- JRNL_FW_ACTIVATE (R457, R458): the comparison of step 3 fails where the command's image is not authentic. -/
def execJrnlFwActivate (c : Cmd) (s : State) : Res :=
  .next (runJrnl jrnlFwActivateSpec jrnlFwActivateCheck jrnlFwActivateApply c s)

/-- JRNL_FW_CONFIRM. -/
def jrnlFwConfirmSpec : CmdSpec := { op := 0x0D12, minor := 3, chan := .ch1 }
/-- The TRIAL slot. -/
def State.trialSlot (s : State) : Option Nat := [0, 1].find? fun i => s.slotFw i == .trial
def jrnlFwConfirmCheck (_ : Cmd) (s : State) : Nat := rejectIf s.trialSlot.isNone BAD_STATE
def jrnlFwConfirmApply (_ : Cmd) (s : State) : Reply :=
  let i := s.trialSlot.getD 0
  let o := 1 - i
  let w := if s.slotFw o = .active then slotWordOf .staged 0 (s.slotSvn o) else s.slotWord o
  s.headerFor (([s.slotWord 0, s.slotWord 1].set i (slotWordOf .active 0 (s.slotSvn i))).set o w) fun s => { st := s.audit A_CONFIRM [i] }
/-- JRNL_FW_CONFIRM (R459). -/
def execJrnlFwConfirm (c : Cmd) (s : State) : Res :=
  .next (runJrnl jrnlFwConfirmSpec jrnlFwConfirmCheck jrnlFwConfirmApply c s)

/-! ### Fuses and pins (R452, R466) -/

/-- Slots that meet a condition are marked BAD. -/
def State.badSlots (s : State) (p : Nat → Bool) : State :=
  let w (i : Nat) : Nat :=
    if s.slotFw i ≠ .empty ∧ s.slotFw i ≠ .bad ∧ p i = true then slotWordOf .bad (s.slotTrials i) (s.slotSvn i) else s.slotWord i
  if w 0 = s.slotWord 0 ∧ w 1 = s.slotWord 1 then s else (s.writeHdr [w 0, w 1]).1

/-- Steps burned one after another; the result that stopped them. -/
def State.burn (s : State) : Nat → State × Nat
  | 0 => (s, 0)
  | n + 1 => match s.fuseStep with
    | (s, 0) => State.burn s n
    | r => r

/-- JRNL_ROLLBACK_SET. -/
def jrnlRollbackSetSpec : CmdSpec := { op := 0x0D13, minor := 3, chan := .ch1, used := [(2, 0x7F)] }
def jrnlRollbackSetCheck (c : Cmd) (s : State) : Nat :=
  firstCode [rejectIf (decide (c.f 2 6 0 < otpCount s.trust.otp)) BAD_PARAM,
    rejectIf (decide (s.rf .TRUST_STAT 0 23 16 < c.f 2 6 0) || s.slotFw s.trust.runSlot != .active) ROLLBACK]
def jrnlRollbackSetApply (c : Cmd) (s : State) : Reply :=
  let (s1, e) := s.burn (c.f 2 6 0 - otpCount s.trust.otp)
  let n := otpCount s1.trust.otp
  let s2 := s1.badSlots fun i => decide (s1.slotSvn i < n)
  if e ≠ 0 then heldUp s2 [n] else { st := s2.audit A_ROLLBACK [n], res := [n] }
/-- JRNL_ROLLBACK_SET (R452). -/
def execJrnlRollbackSet (c : Cmd) (s : State) : Res :=
  .next (runJrnl jrnlRollbackSetSpec jrnlRollbackSetCheck jrnlRollbackSetApply c s)

/-- JRNL_KEY_REVOKE. -/
def jrnlKeyRevokeSpec : CmdSpec := { op := 0x0D14, minor := 3, chan := .ch1, used := [(2, 0x3)] }
def jrnlKeyRevokeCheck (c : Cmd) (s : State) : Nat := rejectIf (s.rf .TRUST_STAT 0 25 24 == c.f 2 1 0) BAD_STATE
def jrnlKeyRevokeApply (c : Cmd) (s : State) : Reply :=
  match s.mayCommit true with
  | (s1, 0) =>
    let s2 := (s1.updTrust fun t => { t with revoked := t.revoked ||| BitVec.ofNat 4 (2 ^ c.f 2 1 0) }).jrnlResult J_DONE
    { st := (s2.badSlots fun i => s2.imgKey i == c.f 2 1 0).audit A_REVOKE [c.f 2 1 0] }
  | (s1, _) => heldUp s1 [0]
/-- JRNL_KEY_REVOKE (R447, R466). -/
def execJrnlKeyRevoke (c : Cmd) (s : State) : Res :=
  .next (runJrnl jrnlKeyRevokeSpec jrnlKeyRevokeCheck jrnlKeyRevokeApply c s)

/-- The payload of a TRUST_PINS record. -/
def pinBytes (t : Tbl (List Word)) : List Byte := t.flatMap fun kv => toLe 4 kv.1 ++ wordsToBytes kv.2

/-- JRNL_TENANT_PIN. -/
def jrnlTenantPinSpec : CmdSpec := { op := 0x0D15, minor := 3, chan := .ch1, used := [(2, 0xF)] }
def jrnlTenantPinApply (c : Cmd) (s : State) : Reply :=
  let d := (List.range 12).map fun i => BitVec.ofNat 32 (c.w (4 + i))
  let k := c.f 2 3 0
  let pins := if d.all (· == 0) then Tbl.del s.trust.pins k else Tbl.set s.trust.pins k d
  s.recordFor REC_PINS 4 (pinBytes pins) fun s =>
    { st := (s.updTrust fun t => { t with pins }).audit A_PIN [k] }
/-- JRNL_TENANT_PIN (R466). -/
def execJrnlTenantPin (c : Cmd) (s : State) : Res :=
  .next (runJrnl jrnlTenantPinSpec (fun _ _ => 0) jrnlTenantPinApply c s)

end Sys2Proof.Machine
end

