-- ==== Sys2Proof/Machine/Bleach.lean ====
section
/-! DEFINITION. The tamper monitor and Bleach (R314 to R317, R454, R477). -/

namespace Sys2Proof.Machine

/-- The sensors that are armed: 0 to 2 always, 3 to 5 by `ARM`. -/
def State.armedSensors (s : State) : Nat := s.rf .CRYPT_TAMPER_EN 0 5 3 * 8 + 7

/-- Bleach begins (R315): the window abandons its command, the lanes stop, and a test of the crypto plane is dropped. -/
def State.bleachStart (s : State) : State :=
  if s.keys.bleaching then s
  else
    let s1 := match s.keys.pend with
      | some v => s.kwResult R_ABORTED 0 (fld v 16 0)
      | none => s
    let s2 := s1.kwZero.kwFree
    let s3 := { s2 with keys := { s2.keys with pend := none, bleaching := true } }
    ((Tbl.keysWhere s3.tst.pos fun _ u => u == 89).foldl State.dropTest s3).nextSlot

/-- Alarms are latched, and Bleach runs. -/
def State.alarm (s : State) (latched : Nat) : State :=
  if latched = 0 then s
  else (s.setReg .CRYPT_TAMPER_STAT 0 (s.reg .CRYPT_TAMPER_STAT ||| BitVec.ofNat 32 latched)).bleachStart

/-- TAMPER_ARM (R314): arming a sensor that is in alarm is an alarm. -/
def execTamperArm (v : Word) (active : BitVec 6) (s : State) : Res :=
  let old := s.armedSensors
  let s1 := s.setReg .CRYPT_TAMPER_EN 0 (applyWrite (RegName.flds .CRYPT_TAMPER_EN) (s.reg .CRYPT_TAMPER_EN) v)
  let s2 := s1.setRf .CRYPT_TAMPER_STAT 0 15 10 active.toNat
  .next { s2.alarm ((s2.armedSensors - old) &&& active.toNat) with bus := .ok 0 }

/-- TAMPER_ALARM (R314, R315): a sensor that is not armed shows in `ACTIVE` alone. -/
def execTamperAlarm (sensor : Fin 6) (s : State) : Res :=
  let s1 := s.setRb .CRYPT_TAMPER_STAT 0 (10 + sensor.val) true
  .next (if s.armedSensors.testBit sensor.val then s1.alarm (2 ^ sensor.val) else s1)

/-- A write of `CRYPT_CTRL.BLEACH`. -/
def State.fwBleach (s : State) : State := (s.setRb .CRYPT_CTRL 0 30 true).alarm 64

/-- CRYPT_BLEACH (R314). -/
def execCryptBleach (s : State) : Res := .next { s.fwBleach with bus := .ok 0 }

/-- BLEACH_COMPLETE (R315, R454): every slot EMPTY, the root locked, firmware told. -/
def execBleachComplete (s : State) : Res :=
  if s.keys.bleaching then
    let s1 := { s with keys := { s.keys with bleaching := false, slots := Tbl.mapv s.keys.slots fun _ k => k.erase } }
    let s2 := ((s1.setRb .TRUST_STAT 0 31 true).setRb .TRUST_STAT 0 30 true).setRb .CRYPT_STAT 0 31 true
    .next ((s2.setRb .CRYPT_CTRL 0 30 false).chan2 S2_BLEACH 0)
  else .next s

/-- `BLEACHED` is cleared when no armed sensor is in alarm; firmware then tells every tenant and the journal (R316). -/
def State.clearBleached (s : State) (active : BitVec 6) : State :=
  let s1 := s.setRf .CRYPT_TAMPER_STAT 0 15 10 active.toNat
  if s1.rb .CRYPT_STAT 0 31 && (s1.armedSensors &&& active.toNat) == 0 then
    ((s1.setRb .CRYPT_STAT 0 31 false).notifyAll 0x0984 0).audit A_BLEACH [s1.rf .CRYPT_TAMPER_STAT 0 6 0]
  else s1

/-- BLEACH_POLL (R316). -/
def execBleachPoll (active : BitVec 6) (s : State) : Res := .next (s.clearBleached active)
/-- BLEACHED_CLEAR (R316). -/
def execBleachedClear (active : BitVec 6) (s : State) : Res := .next { s.clearBleached active with bus := .ok 0 }

end Sys2Proof.Machine
end

