-- ==== Sys2Proof/Machine/HostPort.lean ====
section
/-! DEFINITION. PCIe links and configuration space, function reset, and the end of destruction (R385 to R412, R512). -/

namespace Sys2Proof.Machine

/-! ### Function reset: the function's own state (R362, R363, R408) -/

/-- A function's bit of `HP_FLR`. -/
def State.setFlr (s : State) (f : Nat) (on : Bool) : State :=
  if f % 64 < 32 then s.setRb .HP_FLR_LO (f / 64) (f % 64) on else s.setRb .HP_FLR_HI (f / 64) (f % 64 - 32) on

/-- The rings of a function return to reset values, and their waiting commands go. -/
def State.resetRings (s : State) (f : Nat) : State :=
  let mine (r : Nat) : Bool := ringFn r == f
  let s1 := s.rstRegs fun n i => mine i && [RegName.RING_CTRL, .RING_WB_LO, .RING_WB_HI].contains n
  { s1 with
    fifos := Tbl.keep s1.fifos fun k _ => decide (k < 4096) || !mine (k - 4096)
    vusta := { s1.vusta with
      rings := Tbl.keep s1.vusta.rings fun r _ => !mine r
      posted := s1.vusta.posted.filter fun p => match p with | .ring r => !mine r.val | .mbx _ => true } }

/-- The mailbox channels of a PF: notifications unread are lost, and commands keep their old epoch. -/
def State.resetChannels (s : State) (t : Nat) : State :=
  (List.range 15).foldl (fun s l =>
    let ch := 4 + 15 * t + l
    if l < 12 then s.setRf .MBX_STAT ch 15 8 (s.txEpoch ch + 1)
    else (s.lostOnReset ch false).setRb .MBX_STAT ch 29 false) s

/-- The notifications and routes of a function go. -/
def State.dropNotes (s : State) (f : Nat) : State :=
  let mine (k : Nat) : Bool :=
    k == noteKeyFn f || (decide (64 ≤ k) && decide (k < 4160) && ringFn (k - 64) == f)
      || (f % 64 == 0 && decide (k < 64) && decide (4 ≤ k) && isNoteCh k && chTenant k == f / 64)
  { s with vusta := { s.vusta with notes := Tbl.keep s.vusta.notes fun k _ => !mine k } }

/-- Steps 1 and 2 of R408 for one function. -/
def State.stopFn (s : State) (f : Nat) : State :=
  let s1 := (s.setFlr f true).resetRings f
  let s2 := if f % 64 = 0 then s1.resetChannels (f / 64) else s1
  (s2.updFn f fun x => { ver := 0, epoch := (x.epoch + 1) % 256, bme := false, routes := [] }).dropNotes f |> fun s =>
    { s with vusta := { s.vusta with
      cleaning := Tbl.set s.vusta.cleaning f s.ela
      sriov := if f % 64 = 0 then Tbl.del s.vusta.sriov (f / 64) else s.vusta.sriov } }

/-! ### Function reset: the objects (R409, R410) -/

/-- An owner's object begins to die when its function is one of those reset. -/
def Own.die (o : Own) (p : Nat → Bool) : Own := if p o.fn then { o with dying := true } else o

/-- Every object that the functions created is marked dying (step 3). -/
def State.markDying (s : State) (p : Nat → Bool) : State :=
  { s with
    net := { s.net with
      legs := Tbl.mapv s.net.legs fun _ x => { x with own := x.own.die p }
      streams := Tbl.mapv s.net.streams fun _ x => { x with own := x.own.die p }
      subs := Tbl.mapv s.net.subs fun _ x => { x with own := x.own.die p }
      peers := Tbl.mapv s.net.peers fun _ x => { x with own := x.own.die p }
      flowqs := Tbl.mapv s.net.flowqs fun _ x => { x with own := x.own.die p }
      est := Tbl.mapv s.net.est fun _ x => { x with own := x.own.die p }
      samplers := Tbl.mapv s.net.samplers fun _ x => { x with own := x.own.die p } }
    mix := { s.mix with
      confs := Tbl.mapv s.mix.confs fun _ x => { x with own := x.own.die p }
      sources := Tbl.mapv s.mix.sources fun _ x => { x with own := x.own.die p }
      classes := Tbl.mapv s.mix.classes fun _ x => { x with own := x.own.die p }
      taps := Tbl.mapv s.mix.taps fun _ x => { x with own := x.own.die p } }
    disp := { s.disp with
      qs := Tbl.mapv s.disp.qs fun _ x => { x with own := x.own.die p }
      kernels := Tbl.mapv s.disp.kernels fun _ x => { x with own := x.own.die p }
      chains := Tbl.mapv s.disp.chains fun _ x => { x with own := x.own.die p } }
    video := { s.video with
      decs := Tbl.mapv s.video.decs fun _ x => { x with own := x.own.die p }
      groups := Tbl.mapv s.video.groups fun _ x => { x with own := x.own.die p }
      rends := Tbl.mapv s.video.rends fun _ x => { x with own := x.own.die p }
      layouts := Tbl.mapv s.video.layouts fun _ x => { x with own := x.own.die p }
      images := Tbl.mapv s.video.images fun _ x => { x with own := x.own.die p } }
    time := { s.time with timers := Tbl.mapv s.time.timers fun _ x => { x with own := x.own.die p } }
    vusta := { s.vusta with meters := Tbl.mapv s.vusta.meters fun _ x => { x with own := x.own.die p } }
    keys := { s.keys with slots := Tbl.mapv s.keys.slots fun _ x => { x with own := x.own.map fun o => o.die p } } }

/-- Snapshots in progress of the functions end, and their marks go. -/
def State.dropSnapshots (s : State) (p : Nat → Bool) : State :=
  (s.video.snaps.filter fun x => p x.own.fn).foldl (fun s x =>
    (s.unmark x.buf M_HOST).updVideo fun v => { v with snaps := v.snaps.erase x }) s

/-- Order 1 of R409, with the meter streams and timers of the functions. -/
def State.dieTaps (s : State) (p : Nat → Bool) : State :=
  let s1 := s.updMix fun m => { m with taps := Tbl.keep m.taps fun _ x => !p x.own.fn }
  let s2 := (s1.mix.sources.keysWhere fun _ x => x.kind == 1 && p x.own.fn).foldl State.removeSource s1
  let s3 := s2.updNet fun n => { n with samplers := Tbl.keep n.samplers fun _ x => !p x.own.fn }
  let s4 := s3.dropSnapshots p
  { s4 with
    time := { s4.time with timers := Tbl.keep s4.time.timers fun _ x => !p x.own.fn }
    vusta := { s4.vusta with meters := Tbl.keep s4.vusta.meters fun _ x => !p x.own.fn } }

/-- Orders 2 to 4: output contexts, sources, then classes, groups, renditions, layouts and images. -/
def State.dieMedia (s : State) (p : Nat → Bool) : State :=
  let s1 := (s.net.subs.keysWhere fun _ x => p x.own.fn).foldl State.dropSub s
  let s2 := (s1.mix.sources.keysWhere fun _ x => p x.own.fn).foldl State.removeSource s1
  let s3 := (s2.mix.classes.keysWhere fun _ x => p x.own.fn).foldl State.destroyClass s2
  let s4 := (s3.video.groups.keysWhere fun _ x => p x.own.fn).foldl State.removeGroup s3
  let s5 := (s4.video.rends.keysWhere fun _ x => p x.own.fn && !x.removed).foldl State.removeRend s4
  let s6 := (s5.video.layouts.keysWhere fun _ x => p x.own.fn).foldl State.destroyLayout s5
  (s6.video.images.keysWhere fun _ x => p x.own.fn).foldl State.freeImage s6

/-- Orders 5 and 6: decode contexts, streams, legs and peers. -/
def State.dieLegs (s : State) (p : Nat → Bool) : State :=
  let s1 := (s.video.decs.keysWhere fun _ x => p x.own.fn).foldl State.destroyDec s
  let s2 := (s1.net.streams.keysWhere fun _ x => p x.own.fn).foldl State.destroyStream s1
  let s3 := (s2.net.legs.keysWhere fun _ x => p x.own.fn).foldl State.destroyLeg s2
  s3.updNet fun n => { n with peers := Tbl.keep n.peers fun _ x => !p x.own.fn }

/-- Order 7 (R410): a conference goes with its creator's reset unless legs of other functions carry it; it then passes to
the PF, or is orphaned. -/
def State.dieConf (s : State) (i : Nat) : State :=
  let own := (s.conf i).own
  let legs := (s.confLegs i).map fun kv => kv.2.own.fn
  if legs.isEmpty then s.destroyConf i
  else if legs.any (fun f => f / 64 == own.tenant) then s.updConf i fun x => { x with own := { fn := 64 * own.tenant } }
  else
    let s1 := s.updConf i fun x => { x with own := { fn := 256 }, orphan := true, closing := true }
    legs.eraseDups.foldl (fun s f => s.notify f 0x0381 i) s1

/-- Order 8: queues, kernels, key slots. -/
def State.dieQueues (s : State) (p : Nat → Bool) : State :=
  let qs := s.net.flowqs.keysWhere fun _ x => p x.own.fn
  let lose (s : State) (q : Nat) : State := let f := Tbl.get s.net.flowqs {} q; s.loseOne f.port f.cls f.sh.b
  let s1 := (qs.foldl (fun s q => (lose s q).flushFlowq q) s).updNet fun n => { n with flowqs := Tbl.keep n.flowqs fun _ x => !p x.own.fn }
  let s2 := (s1.disp.qs.keysWhere fun _ x => p x.own.fn).foldl State.flushQ s1
  let busy (k : Nat) : Bool := s2.cores.any fun kv => kv.2.running && kv.2.kern == k
  let s3 := s2.updDisp fun d => { d with
    qs := Tbl.keep d.qs fun _ x => !p x.own.fn
    chains := Tbl.keep d.chains fun _ x => !p x.own.fn
    kernels := Tbl.keep d.kernels fun k x => x.damilo || !p x.own.fn || busy k }
  (s3.keys.slots.keysWhere fun _ k => match k.own with | some o => p o.fn | none => false).foldl State.releaseSlot s3

/-- What a PF's reset adds: green DSCP maps, kernel key slots cleared, the tenant's windows disabled. -/
def State.diePf (s : State) (t : Nat) : State :=
  let s1 := s.updNet fun n => { n with dscp := Tbl.keep n.dscp fun k _ => k / 256 != t }
  let s2 := s1.updDisp fun d => { d with keys := Tbl.keep d.keys fun k _ => k / 4 != t }
  (List.range 32).foldl (fun s i => s.setReg .HBMC_WIN_CTL (32 * t + i) 0) s2

/-- The functions of a list are reset (R408); one whose cleanup runs goes on with it (R411). -/
def State.resetFns (s : State) (l : List Nat) : State :=
  let l := l.filter fun f => !s.inFlr f
  let p (f : Nat) : Bool := l.contains f
  let s1 := ((l.foldl State.stopFn s).markDying p).dieTaps p
  let s2 := (s1.dieMedia p).dieLegs p
  let s3 := (s2.mix.confs.keysWhere fun _ x => !x.orphan && p x.own.fn).foldl State.dieConf s2
  (l.filter fun f => f % 64 == 0).foldl (fun s f => s.diePf (f / 64)) (s3.dieQueues p)

/-- The functions of a tenant that exist. -/
def State.fnsOf (s : State) (t : Nat) : List Nat := ((List.range 64).map (64 * t + ·)).filter s.fnExists

/-- FUNCTION_LEVEL_RESET (R408); a PF's resets every function of the tenant. -/
def execFunctionLevelReset (fn : Fin 256) (s : State) : Res :=
  if !s.fnExists fn.val then .next s
  else .next (s.resetFns (if fn.val % 64 = 0 then s.fnsOf (fn.val / 64) else [fn.val]))

/-- VF_ENABLE_CLEAR (R408). -/
def execVfEnableClear (tenant : Fin 4) (s : State) : Res :=
  let s1 := s.resetFns ((s.fnsOf tenant.val).filter (· % 64 != 0))
  let x := Tbl.get s1.vusta.sriov {} tenant.val
  .next { s1 with vusta := { s1.vusta with sriov := Tbl.set s1.vusta.sriov tenant.val { x with enable := false } } }

/-- FLR_READY (R408 step 5): cleanup has ended; the function accepts requests. -/
def execFlrReady (fn : Fin 256) (s : State) : Res :=
  let f := fn.val
  if !s.inFlr f then .next s
  else
    let s1 := s.setFlr f false
    let s2 := { s1 with vusta := { s1.vusta with cleaning := Tbl.del s1.vusta.cleaning f } }
    .next (if f % 64 = 0 then (List.range 3).foldl (fun s l => s.setRb .MBX_STAT (16 + 15 * (f / 64) + l) 29 true) s2 else s2)

/-! ### The end of destruction (R409) -/

/-- A dying conference with no leg left goes. -/
def State.endConf (s : State) (i : Nat) : State :=
  if (s.conf i).own.dying && (s.confLegs i).isEmpty then s.destroyConf i else s.sweepConf i

/-- OBJECT_DESTRUCTION_END (R408, R409): what destruction took time of its own — a source's ramp, a rendition's or a
layout's picture, a kernel's running item — is freed once that is over; every other kind of object has gone at once. -/
def execObjectDestructionEnd (obj : ObjId) (s : State) : Res :=
  let i := obj.num
  match obj.kind with
  | .source => .next (if (s.source i).own.dying then s.endRamp i else s)
  | .inject => .next (if (s.source i).own.dying then s.endRamp i else s)
  | .rend => .next (if (s.rend i).own.dying then s.sweepRend i else s)
  | .group => .next (if (s.group i).own.dying then s.sweepGroup i else s)
  | .layout => .next (if (s.layout i).own.dying && (s.layout i).job.isNone && Tbl.has s.video.layouts i then s.freeLayout i else s)
  | .stream => .next s.sweepStreams
  | .conf => .next (if Tbl.has s.mix.confs i then s.endConf i else s)
  | .kernel =>
    match s.kernel i with
    | some k =>
      if k.own.dying && !s.cores.any (fun kv => kv.2.running && kv.2.kern == i) then
        .next (s.updDisp fun d => { d with kernels := Tbl.del d.kernels i })
      else .next s
    | none => .next s
  | .tap => .next s
  | .sampler => .next s
  | .snapshot => .next s
  | .sub => .next s
  | .mixClass => .next s
  | .image => .next s
  | .dec => .next s
  | .leg => .next s
  | .peer => .next s
  | .flowq => .next s
  | .policer => .next s
  | .dispq => .next s
  | .key => .next s
  | .window => .next s
  | .timer => .next s
  | .meter => .next s

/-! ### Links and configuration space (R385 to R388, R405) -/

/-- `MAX_SPEED` as it acts: 0, 6 and 7 are 5. -/
def State.maxSpeed (s : State) (p : Nat) : Nat :=
  let v := s.rf .HP_CTRL p 30 28
  if v = 0 ∨ 5 < v then 5 else v

/-- The link of a port is down, and every function of the port is reset. -/
def State.portReset (s : State) (p : Nat) (down : Bool) : State :=
  let s1 := s.resetFns (s.fnsOf p)
  let w := putF (s1.reg .HP_LINK_STAT p) 15 8 0
  if down then
    let chg := bit w 31
    let v := putB (putF (putF (putB w 31 false) 30 26 0) 25 24 0) 23 (bit w 23 || chg)
    s1.setReg .HP_LINK_STAT p v
  else s1.setReg .HP_LINK_STAT p w

/-- PCIE_LINK_CHANGE (R385, R386): a link settles within the port's limits; a loss of link resets the port's functions. -/
def execPcieLinkChange (port : Fin 4) (up : Bool) (speed : BitVec 3) (width : BitVec 2) (reversed : Bool) (s : State) : Res :=
  let p := port.val
  let w := s.reg .HP_LINK_STAT p
  if !up then .next (if bit w 31 then s.portReset p true else s)
  else if !s.rb .HP_CTRL p 31 || !s.pdOn (30 + p) then .next s
  else
    let sp := min (if speed = 0 ∨ 5 < speed.toNat then 5 else speed.toNat) (s.maxSpeed p)
    let wd := min width.toNat (s.rf .HP_CTRL p 27 26)
    let chg := !bit w 31 || fld w 30 28 != sp || fld w 27 26 != wd
    let n := if bit w 31 then min 255 (fld w 15 8 + 1) else fld w 15 8
    let v := putF (putF (putF (putB 0 31 true) 30 28 sp) 27 26 wd) 15 8 n
    let v := putB (putB (putB v 25 (decide (sp < s.maxSpeed p) || decide (wd < s.rf .HP_CTRL p 27 26))) 24 reversed) 23 (bit w 23 || chg)
    .next (s.setReg .HP_LINK_STAT p v)

/-- HOT_RESET (R408). -/
def execHotReset (port : Fin 4) (s : State) : Res := .next (s.portReset port.val false)
/-- PERST_ASSERT (R408). -/
def execPerstAssert (port : Fin 4) (s : State) : Res := .next (s.portReset port.val true)

/-- The SR-IOV capability of a PF changes. -/
def State.setSrIov (s : State) (t : Nat) (f : SrIov → SrIov) : State :=
  { s with vusta := { s.vusta with sriov := Tbl.updD s.vusta.sriov {} t f } }

/-- PCIE_CONFIG_WRITE (R388, R405, R512): while a function is in reset its configuration space stays at reset values. -/
def execPcieConfigWrite (fn : Fin 256) (w : CfgWrite) (s : State) : Res :=
  let f := fn.val
  if !s.fnExists f then .next { s with bus := .unsupported }
  else if s.inFlr f then .next { s with bus := .ok 0 }
  else match w with
    | .busMaster on => .next { s.updFn f (fun x => { x with bme := on }) with bus := .ok 0 }
    | .numVfs n =>
      if f % 64 = 0 ∧ (Tbl.get s.vusta.sriov {} (f / 64)).enable = false then
        .next { s.setSrIov (f / 64) (fun x => { x with numVfs := n.val }) with bus := .ok 0 }
      else .next { s with bus := .ok 0 }
    | .vfEnable =>
      if f % 64 = 0 then .next { s.setSrIov (f / 64) (fun x => { x with enable := true }) with bus := .ok 0 }
      else .next { s with bus := .ok 0 }

/-- UNCLAIMED_REQUEST (R512): a read ends as Unsupported Request, and a write is discarded. -/
def execUnclaimedRequest (fn : Fin 256) (write : Bool) (s : State) : Res :=
  if s.fnExists fn.val && !s.inFlr fn.val then .next s
  else .next { s with bus := if write then .ok 0 else .unsupported }

end Sys2Proof.Machine
end

