-- ==== Sys2Proof/Machine/Sys.lean ====
section
/-! DEFINITION. The SYS and TELEM commands and the meter streams (R369 to R379, R475, R511). -/

namespace Sys2Proof.Machine

/-! ### SYS -/

/-- SYS_NOP. -/
def sysNopSpec : CmdSpec := { op := 0x0000, chan := .any }
/-- SYS_NOP (R373). -/
def execSysNop (c : Cmd) (s : State) : Res := .next (runCmd sysNopSpec (fun _ _ => 0) (fun _ s => { st := s }) c s)

/-- SYS_HELLO. -/
def sysHelloSpec : CmdSpec := { op := 0x0001, chan := .any }
def sysHelloCheck (c : Cmd) (_ : State) : Nat := rejectIf (decide (c.f 2 15 0 < c.f 2 31 16)) BAD_PARAM
def sysHelloApply (c : Cmd) (s : State) : Reply :=
  let lo := c.f 2 31 16
  let hi := c.f 2 15 0
  let cur := match c.fn with | some f => (s.fn f).ver | none => 0
  let who := match c.fn with | some f => f + 256 * (f / 64) | none => 0
  let no : Reply := { st := s, code := VERSION, res := [verLo * 65536 + verHi, cur * 65536] }
  if cur ≠ 0 then (if lo ≤ cur ∧ cur ≤ hi then { st := s, res := [cur, who] } else no)
  else if max lo verLo ≤ min hi verHi then
    { st := (match c.fn with | some f => s.updFn f fun x => { x with ver := min hi verHi } | none => s), res := [min hi verHi, who] }
  else no
/-- SYS_HELLO (R370). -/
def execSysHello (c : Cmd) (s : State) : Res := .next (runCmd sysHelloSpec sysHelloCheck sysHelloApply c s)

/-- The capability record (R374). -/
def State.capsRecord (s : State) : List Nat :=
  [verLo * 65536 + verHi, s.vusta.fwVer.toNat, (s.reg .SAFE_DEVID).toNat, 1024 * 65536 + 64, 16384, 262144, 131072, 2048, 4096, 2048, 1024,
    131072, 192, 0, 0, 0, 0xFF, 0xFF, 52 * 65536 + 51 * 256 + 51, 0x6D, 52 * 65536 + 51 * 256 + 51, 3840 * 65536 + 2160, 0x0F]
    ++ List.replicate 41 0

/-- SYS_CAPS. -/
def sysCapsSpec : CmdSpec := { op := 0x0002, chan := .any, dma := true, used := [(4, 0xFFFF)] }
def sysCapsCheck (c : Cmd) (_ : State) : Nat := rejectIf (decide (c.f 4 15 0 < 256)) BAD_PARAM
def sysCapsApply (c : Cmd) (s : State) : Reply := { st := s.dma c.fnN (c.q 2) s.capsRecord }
/-- SYS_CAPS (R374). -/
def execSysCaps (c : Cmd) (s : State) : Res := .next (runCmd sysCapsSpec sysCapsCheck sysCapsApply c s)

/-- The information record (R511). -/
def State.infoRecord (s : State) : List Nat :=
  [(s.reg .SAFE_DEVID).toNat] ++ (List.range 8).map (fun i => (s.reg .ETH_PSTAT i).toNat)
    ++ (List.range 4).map (fun i => (s.reg .HP_LINK_STAT i).toNat) ++ [(s.reg .STRATA_DEVID).toNat, s.vusta.fwVer.toNat, 0]

/-- SYS_INFO. -/
def sysInfoSpec : CmdSpec := { op := 0x0003, chan := .any, dma := true }
def sysInfoApply (c : Cmd) (s : State) : Reply := { st := s.dma c.fnN (c.q 2) s.infoRecord }
/-- SYS_INFO (R511). -/
def execSysInfo (c : Cmd) (s : State) : Res := .next (runCmd sysInfoSpec (fun _ _ => 0) sysInfoApply c s)

/-- Media stops: the mix fabric and the picture engines run no more. -/
def State.stopMedia (s : State) : State :=
  (List.range 8).foldl (fun s e =>
    ((s.setRb .PICT_DEC_CTRL e 31 false).setRb .PICT_ENC_CTRL e 31 false).setRb .PICT_COMP_CTRL e 31 false) (s.setRb .MIXF_CTRL 0 31 false)

/-- Step 2 of R475: Ethernet links down, every key slot erased. -/
def State.quiesce (s : State) : State :=
  let s1 := (List.range 8).foldl (fun s p => ((s.setRb .ETH_PCFG p 31 false).setLink p false)) s
  { s1 with keys := { s1.keys with slots := Tbl.mapv s1.keys.slots fun _ k => k.erase } }

/-- SYS_SHUTDOWN. -/
def sysShutdownSpec : CmdSpec := { op := 0x0004, chan := .ch0, used := [(2, 0x3)] }
def sysShutdownApply (c : Cmd) (s : State) : Reply :=
  let s1 := { s with vusta := { s.vusta with shutdown := true } }.stopMedia
  let s2 := { s1 with power := { s1.power with powerOff := s1.power.powerOff || c.b 2 1 } }
  { st := (if c.b 2 0 then (s2.cutRun.quiesce).startRun 0 (List.range 90) else s2).powerDown }
/-- SYS_SHUTDOWN (R375, R475). -/
def execSysShutdown (c : Cmd) (s : State) : Res := .next (runCmd sysShutdownSpec (fun _ _ => 0) sysShutdownApply c s)

/-- SYS_NOTIFY_CFG. -/
def sysNotifyCfgSpec : CmdSpec := { op := 0x0005, used := [(2, 0x8000FFFF)] }
def sysNotifyCfgCheck (c : Cmd) (s : State) : Nat :=
  let n := c.f 2 15 0
  let r := n - 61440
  if 15 < c.h then BAD_PARAM
  else if c.b 2 31 then firstFail [
    (decide (n < 61440), BAD_PARAM),
    (!c.isVf && decide (r / 1024 = c.tenant) && ringFn r != c.fnN, BAD_PARAM),
    (decide (r / 1024 ≠ c.tenant) || ringFn r != c.fnN, NOT_OWNER),
    (!(s.ringOn r && s.ringType r == 2), BAD_STATE)]
  else rejectIf (c.isVf || decide (n < 12) || decide (14 < n)) BAD_PARAM
def sysNotifyCfgApply (c : Cmd) (s : State) : Reply :=
  let r : Route := if c.b 2 31 then .ring (c.f 2 15 0 - 61440) else .local (c.f 2 15 0)
  { st := s.updFn c.fnN fun x => { x with routes := Tbl.set x.routes c.h r } }
/-- SYS_NOTIFY_CFG (R369). -/
def execSysNotifyCfg (c : Cmd) (s : State) : Res := .next (runCmd sysNotifyCfgSpec sysNotifyCfgCheck sysNotifyCfgApply c s)

/-! ### TELEM -/

abbrev RING_SMALL : Nat := 0x0F00

/-- The meter indices of a list of `n` in the host words. -/
def meterList (c : Cmd) (n : Nat) : List Nat := (List.range n).map fun i => fld (nth c.host 0 (i / 2)) (16 * (i % 2) + 15) (16 * (i % 2))

/-- May the tenant name the meter (R377)? -/
def State.meterOk (s : State) (t m : Nat) : Bool :=
  if m < 20480 then (match Tbl.find s.mix.sources m with | some x => x.own.tenant == t | none => false)
  else if m < 22528 then (match Tbl.find s.mix.confs (m - 20480) with
    | some x => (!x.orphan && x.own.tenant == t) || (s.confLegs (m - 20480)).any fun kv => kv.2.own.tenant == t
    | none => false)
  else match Tbl.find s.mix.classes (m - 22528) with | some x => x.self.isNone && x.own.tenant == t | none => false

/-- The object of a meter that a tenant's stream lists is still there; a later object of another tenant is another one. -/
def State.meterLive (s : State) (t m : Nat) : Bool :=
  if 20480 ≤ m ∧ m < 22528 then Tbl.has s.mix.confs (m - 20480) else s.meterOk t m

/-- Word `w` of a meter's entry in the table at `MIXF_MTR_BASE` (R123). -/
def State.meterWord (s : State) (m w : Nat) : Nat := (Mem.word s.mem (s.rf .MIXF_MTR_BASE 0 19 0 * 2 ^ 20 + 16 * m + 4 * w)).toNat

/-- The number of a command's meter stream. -/
def meterOf (c : Cmd) : Nat := 64 * c.tenant + c.h

/-- TELEM_METER_SET. -/
def telemMeterSetSpec : CmdSpec := { op := 0x0F00, dma := true, used := [(2, 0x8000000F), (5, 0x1FFF), (8, 0x1FF)] }
def telemMeterSetCheck (c : Cmd) (s : State) : Nat :=
  let n := c.f 2 3 0
  let k := c.f 8 8 0
  firstCode [
    rejectIf (decide (63 < c.h) || decide (n < 6) || c.w 3 % 64 != 0 || c.f 5 12 0 == 0 || decide (6000 < c.f 5 12 0) || k == 0
      || decide (256 < k) || (c.b 2 31 && !s.windowOk c.tenant true (c.q 3) (32 + 16 * 2 ^ n))) BAD_PARAM,
    (match Tbl.find s.vusta.meters (meterOf c) with | some x => ownFail c x.own | none => 0),
    rejectIf (c.dmaOk && (meterList c k).any fun m => !s.meterOk c.tenant m) NOT_OWNER,
    rejectIf (decide (2 ^ n < k)) RING_SMALL]
def telemMeterSetApply (c : Cmd) (s : State) : Reply :=
  let old := Tbl.get s.vusta.meters { own := newOwn c s } (meterOf c)
  let x : Meter := { old with
    ring := { hbm := c.b 2 31, addr := c.q 3, log2 := c.f 2 3 0 }, period := c.f 5 12 0, list := meterList c (c.f 8 8 0) }
  { st := ({ s with vusta := { s.vusta with meters := Tbl.set s.vusta.meters (meterOf c) x } }).loupeInit c.fnN x.ring }
/-- TELEM_METER_SET (R377, R378). -/
def execTelemMeterSet (c : Cmd) (s : State) : Res := .next (runCmd telemMeterSetSpec telemMeterSetCheck telemMeterSetApply c s)

/-- TELEM_METER_STOP. -/
def telemMeterStopSpec : CmdSpec := { op := 0x0F01 }
def telemMeterStopCheck (c : Cmd) (s : State) : Nat := if 63 < c.h then BAD_PARAM else target c s.vusta.meters (·.own) (meterOf c)
def telemMeterStopApply (c : Cmd) (s : State) : Reply :=
  { st := { s with vusta := { s.vusta with meters := Tbl.del s.vusta.meters (meterOf c) } } }
/-- TELEM_METER_STOP (R378). -/
def execTelemMeterStop (c : Cmd) (s : State) : Res := .next (runCmd telemMeterStopSpec telemMeterStopCheck telemMeterStopApply c s)

/-- TELEM_METER_READ. -/
def telemMeterReadSpec : CmdSpec := { op := 0x0F02, dma := true, used := [(6, 0x1FF)] }
def telemMeterReadCheck (c : Cmd) (s : State) : Nat :=
  let k := c.f 6 8 0
  firstCode [rejectIf (k == 0 || decide (256 < k)) BAD_PARAM,
    rejectIf (c.dmaOk && (meterList c k).any fun m => !s.meterOk c.tenant m) NOT_OWNER]
def telemMeterReadApply (c : Cmd) (s : State) : Reply :=
  { st := s.dma c.fnN (c.q 2) ((meterList c (c.f 6 8 0)).flatMap fun m => (List.range 4).map (s.meterWord m)) }
/-- TELEM_METER_READ (R123, R376). -/
def execTelemMeterRead (c : Cmd) (s : State) : Res := .next (runCmd telemMeterReadSpec telemMeterReadCheck telemMeterReadApply c s)

/-- The counters of a selector (R379), as the low register of each kind and how many of them. -/
def counterBlock (k : Nat) : Option (RegName × Nat) :=
  match k with
  | 0 => some (.STRATA_CNT_LO, 16) | 1 => some (.EGS_CNT_LO, 64) | 2 => some (.DISP_CNT_LO, 10) | 3 => some (.CRYPT_CNT_LO, 8)
  | 4 => some (.MIXF_CNT_LO, 128) | 5 => some (.PICT_DEC_CNT_LO, 64) | 6 => some (.PICT_ENC_CNT_LO, 96)
  | 7 => some (.PICT_COMP_CNT_LO, 64) | 8 => some (.HBMC_CNT_LO, 32) | 9 => some (.TSTRIP_CNT, 4) | _ => none

/-- A counter's value; those of the Test strip are 32-bit registers. -/
def State.counterValue (s : State) (n : RegName) (i : Nat) : Nat :=
  if n = .TSTRIP_CNT then (s.reg .TSTRIP_CNT i).toNat else (s.cnt n i).toNat

/-- TELEM_COUNTERS. -/
def telemCountersSpec : CmdSpec := { op := 0x0F03, chan := .ch0, dma := true, used := [(4, 0xFFFF)] }
def telemCountersCheck (c : Cmd) (_ : State) : Nat :=
  match counterBlock c.h with
  | none => BAD_PARAM
  | some (_, n) => rejectIf (decide (c.f 4 15 0 < 16 + 8 * n)) BAD_PARAM
def telemCountersApply (c : Cmd) (s : State) : Reply :=
  let (n, k) := (counterBlock c.h).getD (.STRATA_CNT_LO, 0)
  let vals := (List.range k).flatMap fun i => let v := s.counterValue n i; [v % 2 ^ 32, v / 2 ^ 32]
  { st := s.dma c.fnN (c.q 2) ([c.h % 256, k, s.dev % 2 ^ 32, s.dev / 2 ^ 32] ++ vals) }
/-- TELEM_COUNTERS (R379). -/
def execTelemCounters (c : Cmd) (s : State) : Res := .next (runCmd telemCountersSpec telemCountersCheck telemCountersApply c s)

/-- One entry of a meter stream (R377). -/
def State.meterEntry (s : State) (tenant m : Nat) : List Nat :=
  let t := loupeTime (if s.mix.boundAt = 0 then s.dev else s.dev - (s.ela - s.mix.boundAt))
  if s.meterLive tenant m then
    let w3 := s.meterWord m 3
    [t, m * 65536 + s.meterWord m 1 % 65536, bits w3 31 16 * 65536 + w3 % 65536, s.mixFrame % 2 ^ 32]
  else [t, m * 65536 + 0x8000, 0x80008000, s.mixFrame % 2 ^ 32]

/-- The entries of one sample, in list order; the number lost. -/
def State.streamWrite (s : State) (fn cons : Nat) (r : Loupe) : List Nat → State × Loupe × Nat
  | [] => (s, r, 0)
  | m :: l =>
    let (s1, r1, ok) := s.loupeWrite fn r cons (s.meterEntry (fn / 64) m)
    let (s2, r2, n) := State.streamWrite s1 fn cons r1 l
    (s2, r2, if ok then n else n + 1)

/-- METER_SAMPLE (R377): due at a frame that is a multiple of the period; the loss is told at most once a second. -/
def execMeterSample (stream : Fin 256) (cons : Nat) (el : Nat) (s : State) : Res :=
  let s := s.advance el
  match Tbl.find s.vusta.meters stream.val with
  | none => .next s
  | some x =>
    if x.period = 0 ∨ s.mixFrame % x.period ≠ 0 ∨ x.seen = s.mixFrame + 1 then .next s
    else
      let (s1, r, n) := s.streamWrite x.own.fn cons x.ring x.list
      let lost := x.lostNew + n
      let tell := decide (0 < lost) && (x.lostAt == 0 || decide (x.lostAt + 1000000000 ≤ s.ela + 1))
      let x' : Meter := { x with ring := r, seen := s.mixFrame + 1, lostNew := if tell then 0 else lost, lostAt := if tell then s.ela + 1 else x.lostAt }
      let s2 := { s1 with vusta := { s1.vusta with meters := Tbl.set s1.vusta.meters stream.val x' } }
      .next (if tell then s2.notify x.own.fn 0x0F80 (stream.val % 64) [lost] else s2)

end Sys2Proof.Machine
end

