-- ==== Sys2Proof/Machine/Reach.lean ====
section
/-! DEFINITION. Where a word address of the bridge space or of a BAR0 leads, who may go there, and what a read returns (R10,
R16, R22, R26 to R28, R73, R74, R134, R172, R206, R263, R289, R317, R356, R382, R390 to R396, R434, R439, R465, R512). -/

namespace Sys2Proof.Machine

/-- Where a word address leads. -/
inductive Loc where
  /-- Memory. -/
  | mem (a : Nat)
  /-- A register of the map. -/
  | reg (n : RegName) (i : Nat)
  /-- A register of a FIFO instance of an engine, at its offset. -/
  | fifo (f : FifoId) (off : Nat)
  /-- A register of a host ring's window, as the agent sees it. -/
  | ring (who : Agent) (r : Fin 4096) (off : Nat)
  /-- A register of a decode request port. -/
  | req (pe : Nat) (core : Nat) (off : Nat)
  /-- A word of a slice's parameter memory, of its shadow, and a tag. -/
  | param (slice entry w : Nat)
  | shadow (slice p w : Nat)
  | tag (slice p : Nat)
  /-- A reserved offset of a block in domain `d`, at address `a` of the bridge space (0 in a BAR0). -/
  | reserved (d a : Nat)
  /-- No region and no block. -/
  | outside
  deriving DecidableEq, Repr

/-- The instance at an offset from instance 0, by the strides and counts of the dimensions. -/
def dimIndex : List (Nat × Nat) → Nat → Option Nat
  | [], o => if o = 0 then some 0 else none
  | (st, n) :: r, o =>
    if n ≤ o / st then none
    else (dimIndex r (o % st)).map fun i => o / st * (r.foldl (fun m d => m * d.2) 1) + i

/-- The instance of a register that lies at an address. -/
def RegName.at' (n : RegName) (a : Nat) : Option Nat :=
  match n.base with
  | none => none
  | some b => if a < b then none else dimIndex n.dims (a - b)

/-- The register at an address. -/
def regAt (a : Nat) : Option (RegName × Nat) := RegName.all.findSome? fun n => (n.at' a).map fun i => (n, i)

/-- The domain of the register block that holds an address (R23, R26). -/
def blockDomain (a : Nat) : Option Nat :=
  if a < 0x2000000000 then none
  else if a < 0x2000020000 then some 0
  else if a < 0x2000060000 then some (30 + (a - 0x2000020000) / 0x10000)
  else if 0x2000100000 ≤ a ∧ a < 0x20001C0000 then some 26
  else if 0x2000200000 ≤ a ∧ a < 0x2000220000 then some 27
  else if 0x2000300000 ≤ a ∧ a < 0x2000310000 then some 34
  else if 0x2001000000 ≤ a ∧ a < 0x2002000000 then some (2 + (a - 0x2001000000) / 0x100000)
  else if 0x2002000000 ≤ a ∧ a < 0x2002010000 then some 34
  else if 0x20030F0000 ≤ a ∧ a < 0x2003100000 then some 34
  else if 0x2003000000 ≤ a ∧ a < 0x2003800000 then some (18 + (a - 0x2003000000) / 0x100000)
  else if 0x2004000000 ≤ a ∧ a < 0x2004200000 then some (28 + (a - 0x2004000000) / 0x100000)
  else if 0x2005000000 ≤ a ∧ a < 0x2005010000 then some 0
  else if 0x2006000000 ≤ a ∧ a < 0x2006010000 then some 1
  else if 0x2007000000 ≤ a ∧ a < 0x2007010000 then some 34
  else if 0x2008000000 ≤ a ∧ a < 0x2008010000 then some 1
  else if 0x2009000000 ≤ a ∧ a < 0x2009010000 then some 0
  else none

/-- FIFO instances and request ports of an engine, by the offset in its block (R161, R172, R206). -/
def pictLoc (pe o : Nat) : Option Loc :=
  let p := Fin.ofNat 8 pe
  if 0x100 ≤ o ∧ o < 0x120 then some (.fifo (.decReq p) (o - 0x100))
  else if 0x120 ≤ o ∧ o < 0x140 then some (.fifo (.decDone p) (o - 0x120))
  else if 0x1100 ≤ o ∧ o < 0x1120 then some (.fifo (.encIn p) (o - 0x1100))
  else if 0x1120 ≤ o ∧ o < 0x11A0 then some (.fifo (.encOut p (Fin.ofNat 4 ((o - 0x1120) / 0x20))) ((o - 0x1120) % 0x20))
  else if 0x11A0 ≤ o ∧ o < 0x11C0 then some (.fifo (.encDone p) (o - 0x11A0))
  else if 0x8000 ≤ o ∧ o < 0x10000 then some (.req pe ((o - 0x8000) / 0x40) ((o - 0x8000) % 0x40))
  else none

/-- The parameter memory, shadow and tags of a tile's slice, by the offset in the tile's block (R133, R134). -/
def tileLoc (t o : Nat) : Option Loc :=
  if 0x88000 ≤ o ∧ o < 0x88000 + 16 * 2304 then some (.param t ((o - 0x88000) / 16) (o % 16 / 4))
  else if 0x80000 ≤ o ∧ o < 0x84000 then some (.shadow t ((o - 0x80000) / 16) (o % 16 / 4))
  else if 0x84000 ≤ o ∧ o < 0x85000 then some (.tag t ((o - 0x84000) / 4))
  else none

/-- What lies at an address of the bridge space (R26). -/
def State.locate (s : State) (a : Nat) : Loc :=
  if inMem a then .mem a
  else match blockDomain a with
    | none => .outside
    | some d =>
      match regAt a with
      | some (n, i) => .reg n i
      | none =>
        let special : Option Loc :=
          if 0x2000101000 ≤ a ∧ a < 0x2000101400 then
            let c := (a - 0x2000101000) / 0x100
            some (.ring (.fw (Fin.ofNat 4 c)) (Fin.ofNat 4096 (s.rf .QMGR_RING_SEL c 11 0)) (a % 0x100))
          else if 0x2003000000 ≤ a ∧ a < 0x2003800000 then pictLoc ((a - 0x2003000000) / 0x100000) (a % 0x100000)
          else if 0x2001000000 ≤ a ∧ a < 0x2002000000 then tileLoc ((a - 0x2001000000) / 0x100000) (a % 0x100000)
          else none
        special.getD (.reserved d a)

/-- What lies at an offset of a function's BAR0 (R390). -/
def hostLocate (fn : Fin 256) (o : Nat) : Loc :=
  let t := fn.val / 64
  let ring (r off : Nat) : Loc := .ring (.host fn) (Fin.ofNat 4096 (t * 1024 + fn.val % 64 * 16 + r)) off
  if fn.val % 64 = 0 then
    if o < 0xF000 then
      let ch := 4 + 15 * t + o / 0x1000
      let p := o % 0x1000
      if p < 0x40 then .reg .MBX_MSG (16 * ch + p / 4)
      else if p < 0x50 then .reg .MBX_RESP (4 * ch + (p - 0x40) / 4)
      else if p / 4 = 0x14 then .reg .MBX_ACK ch
      else if p / 4 = 0x20 then .reg .MBX_STAT ch
      else .reserved 0 0
    else if o < 0xF000 + 60 then .reg .MBX_DB (4 + 15 * t + (o - 0xF000) / 4)
    else if 0xF400 ≤ o ∧ o < 0xF800 then ring ((o - 0xF400) / 0x40) (o % 0x40)
    else .reserved 0 0
  else if o < 0x4000 ∧ o % 0x400 < 0x40 then ring (o / 0x400) (o % 0x400)
  else .reserved 0 0

/-! ### Power (R22) -/

/-- The domain of a place, or none for HBM, which its controller answers for. -/
def Loc.domain : Loc → Option Nat
  | .mem a => if inHbm a then none else if inTile a then some (2 + (a - 0x1000000000) / 0x800000) else some 26
  | .reg n i => some (n.domain i)
  | .fifo f _ => some (match f with
    | .decReq p => 18 + p.val | .decDone p => 18 + p.val | .encIn p => 18 + p.val | .encDone p => 18 + p.val
    | .encOut p _ => 18 + p.val | .ring r => 30 + r.val / 1024)
  | .ring _ r _ => some (30 + r.val / 1024)
  | .req pe _ _ => some (18 + pe)
  | .param t _ _ => some (2 + t)
  | .shadow t _ _ => some (2 + t)
  | .tag t _ => some (2 + t)
  | .reserved d _ => some d
  | .outside => none

/-- Does the place answer (R22)? A tile's SRAM needs its cluster as well. -/
def State.answers (s : State) (l : Loc) : Bool :=
  (match l.domain with | some d => s.pdOn d | none => true) && match l with
    | .mem a => !inTile a || s.clOn ((a - 0x1000000000) / 0x200000)
    | _ => true

/-! ### Who may go where (R26 to R28) -/

/-- The kernel's core runs an item. -/
def State.kernelRuns (s : State) (c : Nat) : Bool := (s.core c).running && (s.core c).faulted.isNone

/-- Is the address in a block that kernels on a tile reach, by the block table of R26 (STRATA, EGS, DISP, the tile's own
block, MIXF, TIME)? -/
def kernelBlock (tile a : Nat) : Bool :=
  decide (0x2000110000 ≤ a ∧ a < 0x2000120000) || decide (0x20001B0000 ≤ a ∧ a < 0x20001C0000)
    || decide (0x2000300000 ≤ a ∧ a < 0x2000310000) || decide ((a - 0x2001000000) / 0x100000 = tile ∧ 0x2001000000 ≤ a)
    || decide (0x2002000000 ≤ a ∧ a < 0x2002010000) || decide (0x2005000000 ≤ a ∧ a < 0x2005010000)

/-- May a kernel on core `c` make the access? A reserved offset of a block it reaches raises no error (R16). -/
def State.kernelMay (s : State) (c : Nat) (write : Bool) : Loc → Bool
  | .mem a =>
    if inHbm a then
      let k := s.core c
      let ro := match s.kernel k.kern with | some x => decide (x.ro ≤ a) && decide (a + 4 ≤ x.ro + x.roBytes) | none => false
      s.windowOk k.tenant write a 4 || (!write && ro)
    else if inTile a then (a - 0x1000000000) / 0x800000 == c / 32
    else !write
  | .reg n i => (match n.vis with
    | .fw => false
    | .kernel => !write
    | .tile => !write && i / 32 == c / 32
    | .port => s.kernelRuns c && (if n = .DISP_POST_W then i / 8 == c else i == c && !write))
  | .fifo f off => (match f with
    | .decReq _ => !write && (off == 0x0C || off == 0x14)
    | .encOut _ _ => s.reaches (.kernel (Fin.ofNat 512 c)) f && (off == 0x14 || off == 0x10 || off == 0x18 || off == 0x1C)
    | _ => false)
  | .req _ core off => core == c && s.kernelRuns c && (if write then decide (off < 0x24) else off == 0x24)
  | .reserved _ a => kernelBlock (c / 32) a
  | _ => false

/-- May the Safelight management controller make the access (R317, R382, R423, R439, R465)? -/
def State.smcMay (s : State) : Loc → Bool
  | .reg n i =>
    let b := n.base.getD 0
    decide (0x2000000000 ≤ b ∧ b < 0x2000010000) || n == .CLKPWR_RESET
      || decide (0x2000210000 ≤ b ∧ b < 0x2000220000)
      || (decide (0x2008000000 ≤ b ∧ b < 0x2008010000) && s.rb .TRUST_STAT 0 29)
      || (match n with
        | .MBX_MSG => decide (i < 64) | .MBX_RESP => decide (i < 16) | .MBX_ACK => decide (i < 4)
        | .MBX_STAT => decide (i < 4) | .MBX_DB => decide (i < 4) | _ => false)
  | .reserved _ a =>
    decide (0x2000000000 ≤ a ∧ a < 0x2000020000) || decide (0x2000210000 ≤ a ∧ a < 0x2000220000)
      || (decide (0x2008000000 ≤ a ∧ a < 0x2008010000) && s.rb .TRUST_STAT 0 29)
  | _ => false

/-- May the agent make the access? -/
def State.may (s : State) (a : Agent) (write : Bool) (l : Loc) : Bool :=
  match a with
  | .fw _ => (match l with | .mem m => !(write && inPkt m) | _ => true)
  | .kernel c => s.kernelMay c.val write l
  | .smc => s.smcMay l
  | .host _ => true

/-! ### What registers read (R10, R73) -/

/-- The register that holds the latched upper half of a 64-bit value, by its LO register (R73, R144, R263, R434). -/
def hiOf : RegName → Option RegName
  | .STRATA_CNT_LO => some .STRATA_CNT_HI | .EGS_CNT_LO => some .EGS_CNT_HI | .CRYPT_CNT_LO => some .CRYPT_CNT_HI
  | .DISP_CNT_LO => some .DISP_CNT_HI | .CORE_CYC_LO => some .CORE_CYC_HI | .MIXF_FRAME_LO => some .MIXF_FRAME_HI
  | .MIXF_CNT_LO => some .MIXF_CNT_HI | .PICT_DEC_CNT_LO => some .PICT_DEC_CNT_HI | .PICT_ENC_CNT_LO => some .PICT_ENC_CNT_HI
  | .PICT_COMP_CNT_LO => some .PICT_COMP_CNT_HI | .HBMC_CNT_LO => some .HBMC_CNT_HI | .TIME_NOW_LO => some .TIME_NOW_HI
  | .TIME_ELAPSED_LO => some .TIME_ELAPSED_HI | .TIME_PPS_IN_LO => some .TIME_PPS_IN_HI | _ => none

/-- The 64-bit value of a LO register. -/
def State.wide (s : State) (n : RegName) (i : Nat) : Nat :=
  match n with
  | .TIME_NOW_LO => s.dev
  | .TIME_ELAPSED_LO => s.ela
  | .CORE_CYC_LO => s.cyc i
  -- `GATE_LOST_BYTES` shows what closed gates have cost by now (R98)
  | .EGS_CNT_LO => (s.cnt n i).toNat
      + (if i % 8 = E_GATE_LOST then ((s.port (i / 8)).lostRem + s.gatePending (i / 8)) / unitsPerByte else 0)
  | _ => (s.cnt n i).toNat

/-- A read of a LO register: its half, the upper half latched (R73). -/
def State.latchRead (s : State) (lo hi : RegName) (i : Nat) : State :=
  let v := s.wide lo i
  { s.setReg hi i (BitVec.ofNat 32 (v / 2 ^ 32)) with bus := .ok (BitVec.ofNat 32 v) }

/-- Samples of the last 100 ms in Mpixel/s, saturating. -/
def State.loadMpx (s : State) (l : List (Nat × Nat)) : Nat :=
  min 4095 (sumN ((l.filter fun x => decide (s.ela < x.1 + 100000000)).map (·.2)) / 100000)

/-- `MIXF_SL_STAT`. -/
def State.slStat (s : State) (n : Nat) : Word :=
  putB (putF 0 11 0 ((s.mix.params.filter fun kv => kv.1 / 2304 == n && decide (kv.1 % 2304 < 1280) && kv.2.valid).length)) 31 (s.sliceOn n)

/-- `PICT_DEC_STAT`. -/
def State.decStat (s : State) (pe : Nat) : Word :=
  let e := s.eng pe
  putF (putF (putB 0 31 (match e.job with | some j => j.buf.isSome | none => false)) 27 16 (s.loadMpx e.load)) 9 0 (s.video.decs.filter fun kv => kv.2.pe == pe).length

/-- `PICT_ENC_STAT`. -/
def State.encStat (s : State) (pe : Nat) : Word :=
  let e := Tbl.get s.video.enc {} pe
  let w := putF (putF (putB 0 31 e.an.isSome) 23 12 (s.loadMpx e.anLoad)) 11 0 (s.loadMpx e.outLoad)
  putB (putF w 30 27 (sumN ((List.range 4).map fun c => if Tbl.has e.coders c then 2 ^ c else 0))) 26
    (s.video.groups.any fun kv => kv.2.pe == pe && kv.2.starved)

/-- `PICT_COMP_STAT`. -/
def State.compStat (s : State) (pe : Nat) : Word :=
  let l := s.video.layouts.filter fun kv => kv.2.pe == pe
  putF (putF (putB 0 31 (l.any fun kv => kv.2.job.isSome)) 23 12 (s.loadMpx (Tbl.get s.video.compLoad [] pe))) 7 0 l.length

/-- The value that a register shows, for those that follow other state. -/
def State.regShown (s : State) (a : Agent) (n : RegName) (i : Nat) : Word :=
  match n with
  | .CRYPT_SLOT_INFO => (s.slot (s.rf .CRYPT_SLOT_SEL i 16 0)).info
  | .MIXF_SL_STAT => s.slStat i
  | .PICT_DEC_STAT => s.decStat i
  | .PICT_ENC_STAT => s.encStat i
  | .PICT_COMP_STAT => s.compStat i
  | .POOL_OP_RES => (match a with | .fw c => Tbl.get s.video.pool.res 0 c.val | _ => 0)
  | .POOL_RGN_FREE => BitVec.ofNat 32 (s.rgnFree i % 2 ^ 20)
  | .CLKPWR_CL_STAT => putB (s.reg n i) 28 (s.rb .CLKPWR_PD_STAT (2 + i / 4) 28)
  | _ => s.reg n i

/-- A read of a mailbox register (R356, R358, R360, R382). -/
def State.mbxRead (s : State) (a : Agent) (n : RegName) (i : Nat) : State :=
  let ch := Fin.ofNat 64 (match n with | .MBX_MSG => i / 16 | .MBX_RESP => i / 4 | _ => i)
  if n = .MBX_MSG ∧ i % 16 = 15 then (match execMbxWord15Read a ch s with | .next t => t | _ => s)
  else if !sees s a ch.val then { s with bus := .ok 0 }
  else if n = .MBX_STAT then { s with bus := .ok (s.reg n i) }
  else if n = .MBX_DB then { s with bus := .ok 0 }
  else if s.rxOn ch.val then { s with bus := .ok (s.reg n i) }
  else { s with bus := errResp a }

/-- The owner ID of an agent (R302). -/
def ownerId : Agent → Nat
  | .fw c => c.val + 1
  | .smc => 5
  | _ => 0

/-- Is the register one of the mailboxes'? -/
def RegName.isMbx (n : RegName) : Bool := [RegName.MBX_MSG, .MBX_RESP, .MBX_ACK, .MBX_STAT, .MBX_DB].contains n

/-- A read of a register. -/
def State.regRead (s : State) (a : Agent) (n : RegName) (i : Nat) : State :=
  if n.isMbx then s.mbxRead a n i
  else if n = .KEYWIN_LOCK then (match execKeywinLockAcquire (ownerId a) 0 s with | .next t => t | _ => s)
  else match hiOf n with
    | some hi => s.latchRead n hi i
    | none => { s with bus := .ok (readMask n.flds (s.regShown a n i)) }

/-! ### FIFO instances and rings (R35, R396, R397) -/

/-- `FIFO_CFG` as it reads. -/
def Fifo.cfg (ev : Bool) (f : Fifo) : Word := putF (putF (putF 0 31 28 f.itemSize) 27 24 f.log2) 15 0 (if ev then 0 else f.ct)

/-- Does the instance's storage address read as written? That of the engines' own SRAM reads zero. -/
def hasBase : FifoId → Bool
  | .ring _ => true
  | .encOut _ _ => true
  | _ => false

/-- A read of a FIFO register. -/
def State.fifoRead (s : State) (a : Agent) (f : FifoId) (off : Nat) : State :=
  let x := s.fifo f
  let ev := s.fifoEv f
  let w (v : Word) : State := { s with bus := .ok v }
  match off / 4 with
  | 0 => w (if hasBase f then BitVec.ofNat 32 (x.base / 64 * 64) else 0)
  | 1 => w (if hasBase f then BitVec.ofNat 32 (x.base / 2 ^ 32) else 0)
  | 2 => w (x.cfg ev)
  | 3 => w (BitVec.ofNat 32 x.pidx)
  | 4 => w (BitVec.ofNat 32 x.cidx)
  | 5 => w (x.stat ev)
  | 6 => w 0
  | _ => match execFifoDataRead a f s with | .next t => t | _ => s

/-- A read of a ring window. -/
def State.ringRead (s : State) (a : Agent) (r : Fin 4096) (off : Nat) : State :=
  let w (n : RegName) : State := { s with bus := .ok (readMask n.flds (s.reg n r.val)) }
  if off < 0x20 then s.fifoRead a (.ring r) off
  else match (off - 0x20) / 4 with
    | 0 => w .RING_CTRL
    | 1 => w .RING_INFO
    | 2 => w .RING_WB_LO
    | 3 => w .RING_WB_HI
    | _ => { s with bus := .ok 0 }

/-! ### Memory (R26, R74, R153, R317) -/

/-- The words of a pool entry (R153). -/
def PoolEnt.words (e : PoolEnt) : List Word :=
  let w2 := putF (putF (putB 0 31 e.p010) 30 29 e.s) 28 26 e.t
  let w2 := putB (putB (putB (putB w2 25 e.concealed) 24 e.recovering) 23 e.grey) 22 e.grain
  let w2 := putF (putB (putF w2 19 16 e.region) 12 e.ctx.isSome) 11 0 (e.ctx.getD 0)
  [e.word0, putF (putF 0 31 16 e.width) 15 0 e.height, w2, BitVec.ofNat 32 e.ts, BitVec.ofNat 32 e.time,
    BitVec.ofNat 32 (e.time / 2 ^ 32), 0, 0]

/-- The word at an HBM address that belongs to a table which a block keeps: output contexts, pool entries, the counts of
owned key slots. -/
def State.tableWord (s : State) (a : Nat) : Option Word :=
  let oct := s.rf .STRATA_OCTX_BASE 0 18 0 * 2 ^ 21
  let pool := s.rf .POOL_TBL_BASE 0 14 0 * 2 ^ 25
  let cnt := s.rf .CRYPT_SLOTCNT_BASE 0 18 0 * 2 ^ 21
  let o := if oct ≤ a then (Tbl.find s.net.subs ((a - oct) / 192)).map fun x => BitVec.ofNat 32 (nth x.octx 0 ((a - oct) % 192 / 4)) else none
  let p := if pool ≤ a then (Tbl.find s.video.pool.ents ((a - pool) / 32)).map fun e => nth e.words 0 ((a - pool) % 32 / 4) else none
  let k := if cnt ≤ a then (match Tbl.find s.keys.slots ((a - cnt) / 16) with
      | some x => if x.own.isSome then some (BitVec.ofNat 32 (nth [x.refused, x.authFail, x.replay, x.erased] 0 ((a - cnt) % 16 / 4))) else none
      | none => none) else none
  match o, p, k with
  | some w, _, _ => some w
  | _, some w, _ => some w
  | _, _, some w => some w
  | _, _, _ => none

/-- The word at a memory address. -/
def State.memWord (s : State) (a : Nat) : Word := ((if inHbm a then s.tableWord a else none)).getD (Mem.word s.mem a)

/-- What a controller answers to an HBM access: 0 served, 1 the access waits while the stack sleeps (R22), 2 an error. -/
def State.hbAnswer (s : State) (a : Nat) : Nat :=
  let n := stackOf a
  if s.hbState n = HB_ACTIVE then 0 else if s.hbServes n then 1 else 2

/-! ### Reads -/

/-- A read that a place answers. -/
def State.locRead (s : State) (a : Agent) : Loc → State
  | .mem m => { s with bus := .ok (s.memWord m) }
  | .reg n i => s.regRead a n i
  | .fifo f off => s.fifoRead a f off
  | .ring who r off => s.ringRead who r off
  | .req pe core off =>
    { s with bus := .ok (if off / 4 = 9 then (Tbl.get (s.eng pe).ports {} core).word else 0) }
  | .param t i w => { s with bus := .ok ((s.entry t i).w w) }
  | .shadow t p w => { s with bus := .ok (nth (Tbl.get s.mix.shadow [] (t * 1024 + p)) 0 w) }
  | .tag t p => { s with bus := .ok (BitVec.ofNat 32 (Tbl.get s.mix.tags 0 (t * 1024 + p))) }
  | .reserved _ _ => { s with bus := .ok 0 }
  | .outside => { s with bus := .busError }

/-- An access: the place, if the agent reaches it and it answers; the bus shows none while HBM makes the access wait. -/
def State.access (s : State) (a : Agent) (addr : Nat) (write : Bool) (go : Loc → State) : State :=
  match a with
  | .host fn =>
    if !s.fnExists fn.val || s.inFlr fn.val then { s with bus := if write then .ok 0 else .unsupported }
    else go (hostLocate fn (addr / 4 * 4))
  | _ =>
    let l := s.locate (addr / 4 * 4)
    if l = .outside ∨ s.may a write l = false ∨ s.answers l = false then { s with bus := .busError }
    else match l with
      | .mem m =>
        if !inHbm m then go l
        else match s.hbAnswer m with
          | 0 => go l
          | 1 => { s.srRequest (stackOf m) with bus := .none }
          | _ => { s with bus := .busError }
      | _ => go l

/-- A read of one word. -/
def State.busRead (s : State) (a : Agent) (addr : Nat) : State := s.access a addr false (s.locRead a)

end Sys2Proof.Machine
end

