-- ==== Sys2Proof/Machine/Bus.lean ====
section
/-! DEFINITION. Writes of registers and memory over the bridge fabric and through BAR0 (R10 to R16, R26, R35, R134 to R137,
R151, R161, R278, R356 to R361, R396 to R398, R429, R424). -/

namespace Sys2Proof.Machine

/-- The state after a meaning that answers a next state. -/
def afterRes (s : State) : Res → State
  | .next t => t
  | _ => s

/-! ### FIFO instances and rings (R35, R396, R397) -/

/-- A write of `FIFO_BASE_LO`, `FIFO_BASE_HI` or `FIFO_CFG`, with the fields that the instance's owner fixes. -/
def Fifo.setup (f : Fifo) (id : FifoId) (ev : Bool) (off : Nat) (v : Word) : Fifo :=
  match off / 4 with
  | 0 => if hasBase id then { f with base := f.base / 2 ^ 32 * 2 ^ 32 + v.toNat / 64 * 64 } else f
  | 1 =>
    match id with
    | .ring _ => { f with base := v.toNat * 2 ^ 32 + f.base % 2 ^ 32 }
    | .encOut _ _ => { f with base := fld v 7 0 * 2 ^ 32 + f.base % 2 ^ 32 }
    | _ => f
  | _ =>
    match id with
    | .ring _ => { f with itemSize := fld v 31 28, log2 := fld v 27 24, ct := if ev then f.ct else fld v 15 0 }
    | .encOut _ _ => { f with log2 := fld v 27 24, ct := fld v 15 0 }
    | .encIn _ => f
    | _ => { f with log2 := fld v 27 24 }

/-- `OVERFLOW` and `UNDERRUN` are cleared by writing 1. -/
def Fifo.clearStat (f : Fifo) (v : Word) : Fifo :=
  { f with overflow := f.overflow && !bit v 3, underrun := f.underrun && !bit v 2 }

/-- The items that a producer has put into storage, whose words no operand of a register write gives. -/
def State.storedItems (s : State) (f : Fifo) (new : Nat) : List (List Word) :=
  (List.range (min (dist 16 new f.pidx) f.depth)).map fun i => (List.range 16).map fun w => Config.freeWord (s.freeCtr + 16 * i + w)

/-- A write of `FIFO_CMD`: `DROP_REST`, then `FLUSH`; either way the word position returns to 0. -/
def State.fifoCmd (s : State) (a : Agent) (f : FifoId) (v : Word) : State :=
  if s.consumes a f then
    let s0 := s.setFifo f { s.fifo f with wpos := 0 }
    let s1 := if bit v 0 then afterRes s0 (execDropRest a f s0) else s0
    let s2 := if bit v 1 then afterRes s1 (execFifoFlush a f s1) else s1
    { s2 with bus := .ok 0 }
  else s.denied a f 0x18

/-- A write of a FIFO register. -/
def State.fifoWrite (s : State) (a : Agent) (f : FifoId) (off : Nat) (v : Word) : State :=
  let x := s.fifo f
  match off / 4 with
  | 3 =>
    let s1 := afterRes s (execFifoPidxWrite a f v (s.storedItems x (fld v 15 0)) s)
    if s.produces a f then { s1 with freeCtr := s1.freeCtr + 16 * x.depth } else s1
  | 4 => afterRes s (execFifoCidxWrite a f v s)
  | 5 => { s.setFifo f (x.clearStat v) with bus := .ok 0 }
  | 6 => s.fifoCmd a f v
  | 7 => { s with bus := .ok 0 }
  | _ => { s.setFifo f (x.setup f (s.fifoEv f) off v) with bus := .ok 0 }

/-- A write of a ring window: the storage and `FIFO_CFG` only while the ring is disabled (R396). -/
def State.ringWrite (s : State) (a : Agent) (r : Fin 4096) (off : Nat) (v : Word) : State :=
  let put (n : RegName) : State := { s.setReg n r.val (applyWrite n.flds (s.reg n r.val) v) with bus := .ok 0 }
  if off < 0x0C then (if s.ringOn r.val then { s with bus := .ok 0 } else s.fifoWrite a (.ring r) off v)
  else if off < 0x20 then s.fifoWrite a (.ring r) off v
  else match (off - 0x20) / 4 with
    | 0 => afterRes s (if bit v 31 then execRingEnable r v s else execRingDisable r v s)
    | 2 => put .RING_WB_LO
    | 3 => put .RING_WB_HI
    | _ => { s with bus := .ok 0 }

/-! ### Mailboxes (R356 to R361) -/

/-- A write of a mailbox register. -/
def State.mbxWrite (s : State) (a : Agent) (n : RegName) (i : Nat) (v : Word) : State :=
  let ch := Fin.ofNat 64 (match n with | .MBX_MSG => i / 16 | .MBX_RESP => i / 4 | _ => i)
  match n with
  | .MBX_MSG => afterRes s (execMbxMsgWrite a ch (Fin.ofNat 16 i) v s)
  | .MBX_ACK => afterRes s (execMbxAckWrite a ch v s)
  | .MBX_DB => afterRes s (if bit v 0 then execMbxPost a ch s else execMbxWake a ch s)
  | .MBX_RESP =>
    if !sees s a ch.val then { s with bus := .ok 0 }
    else if !s.rxOn ch.val then { s with bus := errResp a }
    else if isReceiver a ch.val then { s.setReg .MBX_RESP i v with bus := .ok 0 }
    else { s with bus := .ok 0 }
  | _ =>
    -- only the sender clears COLLIDE and LOST_ON_RESET
    if sees s a ch.val && isSender a ch.val then
      { s.setReg n i (applyWrite n.flds (s.reg n i) v) with bus := .ok 0 }
    else { s with bus := .ok 0 }

/-! ### Registers whose write does more than its access codes say -/

/-- A write of a key-window register (R303, R305). -/
def State.keywinWrite (s : State) (a : Agent) (n : RegName) (i : Nat) (v : Word) : State :=
  let o := ownerId a
  match n with
  | .KEYWIN_RELEASE => afterRes s (execKeywinRelease o v s)
  | .KEYWIN_CMD =>
    if fld v 31 30 = 1 ∨ fld v 31 30 = 2 then s.kwCommit o v
    else { s with bus := if o = s.kwOwner ∧ o ≠ 0 then .ok 0 else .busError }
  | .KEYWIN_LOCK_STAT => { s.setReg n i (applyWrite n.flds (s.reg n i) v) with bus := .ok 0 }
  | .KEYWIN_LOCK => { s with bus := .ok 0 }
  | .KEYWIN_RESULT => { s with bus := .ok 0 }
  | _ => if o = s.kwOwner ∧ o ≠ 0 then { s.setReg n i v with bus := .ok 0 } else { s with bus := .busError }

/-- A write of a post-port word: word 7 commits the post of the core's running item (R278). -/
def State.postWrite (s : State) (i : Nat) (v : Word) : State :=
  let c := i / 8
  let s1 := { s.setReg .DISP_POST_W i v with bus := .ok 0 }
  if i % 8 = 7 ∧ s.kernelRuns c = true then s1.kernelPost c ((List.range 8).map fun w => s1.reg .DISP_POST_W (8 * c + w)) else s1

/-- A write of `MIXF_CTRL`: at a rising `ENABLE` the first boundary is the next multiple of 10 ms of device time (R112); a change of
`ENABLE` leaves no frame in progress. -/
def State.mixCtrl (s : State) (v : Word) : State :=
  let s1 := s.setReg .MIXF_CTRL 0 (applyWrite (RegName.flds .MIXF_CTRL) (s.reg .MIXF_CTRL 0) v)
  if bit v 31 != s.rb .MIXF_CTRL 0 31 then s1.mixStart else s1

/-- A write of half of the mix-frame counter, only while the fabric is disabled (R144). -/
def State.frameWrite (s : State) (hi : Bool) (v : Word) : State :=
  if s.rb .MIXF_CTRL 0 31 then s
  else
    let old := s.mixFrame
    let new := if hi then v.toNat * 2 ^ 32 + old % 2 ^ 32 else old / 2 ^ 32 * 2 ^ 32 + v.toNat
    let s1 := { s with cnts := Tbl.set s.cnts (regKey .MIXF_FRAME_LO 0) (BitVec.ofNat 64 new) }
    if hi then s1.setReg .MIXF_FRAME_HI 0 v else s1

/-- A write of a region's size or first handle, ignored where the handles would pass the last one (R157); one of the size
while a buffer of the region is not free is ignored too (R172). The free list starts afresh when every buffer is free. -/
def State.rgnWrite (s : State) (n : RegName) (r : Nat) (v : Word) : State :=
  let s1 := s.setReg n r (applyWrite n.flds (s.reg n r) v)
  let used := decide (s.rgnFree r < s.rgnCount r)
  if (used && n == .POOL_RGN_CFG) || decide (0xFFFFF < s1.rgnFirst r + s1.rgnCount r) then s
  else if used then s1
  else s1.updPool fun p => { p with regions := Tbl.del p.regions r }

/-- A write of `TIME_STAT`: with `VALID` 0 no PPS_OUT runs (R430). -/
def State.timeStat (s : State) (v : Word) : State :=
  let s1 := s.setReg .TIME_STAT 0 (applyWrite (RegName.flds .TIME_STAT) (s.reg .TIME_STAT) v)
  if bit v 31 then s1 else s1.setPps false

/-- The power-good outputs follow `SAFE_PWRGD`. -/
def State.pwrgd (s : State) (v : Word) : State :=
  (s.setReg .SAFE_PWRGD 0 (applyWrite (RegName.flds .SAFE_PWRGD) (s.reg .SAFE_PWRGD) v)).emit (.pin 1 (fld v 3 0))

/-- A write by the access codes alone (R10 to R13). -/
def State.plainWrite (s : State) (n : RegName) (i : Nat) (v : Word) : State := s.setReg n i (applyWrite n.flds (s.reg n i) v)

/-- A write of a register that is no mailbox register and none of the key window. -/
def State.ownWrite (s : State) (a : Agent) (n : RegName) (i : Nat) (v : Word) : State :=
  match n with
  | .SAFE_PWRGD => s.pwrgd v
  | .SAFE_FAN => s.fanWrite i v
  | .STRATA_SPILL_CFG => (s.plainWrite n i v).bufStat
  | .STRATA_AUDIO_RSV => (s.plainWrite n i v).bufStat
  | .ETH_PCFG => afterRes s (execEthPcfgWrite (Fin.ofNat 8 i) v s)
  | .CRYPT_CTRL =>
    let s1 := s.setRb n i 31 (bit v 31)
    if bit v 30 then s1.fwBleach else s1
  | .CRYPT_STAT => if bit v 31 then s.clearBleached (BitVec.ofNat 6 (s.rf .CRYPT_TAMPER_STAT 0 15 10)) else s
  | .CRYPT_TAMPER_EN => afterRes s (execTamperArm v (BitVec.ofNat 6 (s.rf .CRYPT_TAMPER_STAT 0 15 10)) s)
  | .DISP_POST_W => s.postWrite i v
  | .MIXF_CTRL => s.mixCtrl v
  | .MIXF_FRAME_LO => s.frameWrite false v
  | .MIXF_FRAME_HI => s.frameWrite true v
  | .MIXF_SL_ARM => afterRes s (execSafeLoadArm (Fin.ofNat 16 i) v s)
  | .POOL_OP => (match a with | .fw c => s.poolOp c.val (fld v 31 29) v | _ => s)
  | .POOL_RGN_CFG => s.rgnWrite n i v
  | .POOL_RGN_FIRST => s.rgnWrite n i v
  | .HBMC_CTRL => s.hbCtrl i v
  | .HBMC_WIN_FENCE => if bit v 0 then s.winFence else s
  | .TIME_STEP_HI =>
    let s1 := s.setReg n i v
    s1.commitStep (off64 (s1.reg .TIME_STEP_LO).toNat v.toNat) false
  | .TIME_STAT => s.timeStat v
  | .TRUST_SIGN => s.trustSign v
  | .JRNL_CMD => s.jrnlCmdAt (fld v 31 30) v s.trust.sense
  | .TSTRIP_CTRL => s.tstripWrite i v
  | .CLKPWR_PD_CTRL => s.pdWrite i v
  | .CLKPWR_CL_CTRL => s.pdWrite (35 + i) v
  | .CLKPWR_RESET => if bit v 31 then s.warmReset 1 else s
  | .CLKPWR_WDOG => s.wdogWrite v
  | _ => s.plainWrite n i v

/-- A write of a register. -/
def State.regWrite (s : State) (a : Agent) (n : RegName) (i : Nat) (v : Word) : State :=
  if n.isMbx then s.mbxWrite a n i v
  else if decide (0x2000210000 ≤ n.base.getD 0) && decide (n.base.getD 0 < 0x2000220000) then s.keywinWrite a n i v
  else { s.ownWrite a n i v with bus := .ok 0 }

/-! ### Request ports, parameter memory, memory -/

/-- A write of a request port: `REQ_W7` appends the item; `REQ_COMMIT` bit 0 commits and bit 1 discards (R161). -/
def State.reqWrite (s : State) (pe core off : Nat) (v : Word) : State :=
  let p := Tbl.get (s.eng pe).ports {} core
  let s1 :=
    if off / 4 < 7 then s.updReqPort pe core fun p => { p with w := Tbl.set p.w (off / 4) v }
    else if off / 4 = 7 then
      afterRes s (execReqAppend (Fin.ofNat 8 pe) (Fin.ofNat 512 core) ((List.range 7).map (fun i => Tbl.get p.w 0 i) ++ [v]) s)
    else if off / 4 = 8 then
      let s2 := if bit v 0 then s.reqCommit pe core else s
      if bit v 1 then s2.updReqPort pe core fun p => { p with staged := [] } else s2
    else s
  { s1 with bus := .ok 0 }

/-- The bits of word `w` of entry `i` that are fields (R133). -/
def entryMask (i w : Nat) : Word :=
  if i < 1280 then nth [0xF000FFFF, 0xFFFFFFFF, 0x7FF, 0] 0 w else nth [0xE000FFFF, 0xFFFFFFFF, 0xF00007FF, 0x7FFFE0] 0 w

/-- A direct write of a word of an entry (R136, R137). -/
def State.paramWrite (s : State) (t i w : Nat) (v : Word) : State :=
  s.directWords t i ((List.range 4).map fun j => if j = w then v &&& entryMask i w else (s.entry t i).w j) 1

/-- A write of a word of an image in a slice's shadow (R134). -/
def State.shadowWrite (s : State) (t p w : Nat) (v : Word) : State :=
  s.updMix fun m => { m with
    shadow := Tbl.updD m.shadow [] (t * 1024 + p) fun l => (List.range 4).map fun j => if j = w then v else nth l 0 j }

/-- A write that a place takes. -/
def State.locWrite (s : State) (a : Agent) (v : Word) : Loc → State
  | .mem m => { s.memWrite m (toLe 4 v.toNat) with bus := .ok 0 }
  | .reg n i => s.regWrite a n i v
  | .fifo f off => s.fifoWrite a f off v
  | .ring who r off => s.ringWrite who r off v
  | .req pe core off => s.reqWrite pe core off v
  | .param t i w => { s.paramWrite t i w v with bus := .ok 0 }
  | .shadow t p w => { s.shadowWrite t p w v with bus := .ok 0 }
  | .tag t p => { s.updMix (fun m => { m with tags := Tbl.set m.tags (t * 1024 + p) (fld v 11 0) }) with bus := .ok 0 }
  | .reserved _ _ => { s with bus := .ok 0 }
  | .outside => { s with bus := .busError }

/-- A write of one word. -/
def State.busWrite (s : State) (a : Agent) (addr : Nat) (v : Word) : State := s.access a addr true (s.locWrite a v)

/-! ### The commands -/

/-- An access that the bus has not answered waits in its port while the stack sleeps (R22, R345). -/
def State.holdAcc (s : State) (a : Agent) (addr : Nat) (w : Option Word) : State :=
  if s.bus = .none ∧ inHbm addr = true ∧ (∀ f, a ≠ .host f) then s.updHbm (stackOf addr) fun h => { h with held := h.held ++ [⟨a, addr / 4 * 4, w⟩] } else s

/-- An access that has waited is served: a write takes effect, a read's word is its answer. -/
def State.serveHeld (s : State) (x : Held) : State :=
  let t := match x.data with
    | some v => { s.memWrite x.addr (toLe 4 v.toNat) with bus := .ok 0 }
    | none => { s with bus := .ok (s.memWord x.addr) }
  t.emit (.served x.who x.addr t.bus)

/-- SR_EXIT_COMPLETE (R345): the accesses that waited are served in their order (R22); the hot interval is in force until the
first reading. -/
def execSrExitComplete (n : Fin 2) (s : State) : Res :=
  if s.hbState n.val = HB_SR_EXIT then
    let s1 := (s.setHbState n.val HB_ACTIVE).setRb .HBMC_STAT n.val 28 true
    .next ((s.hbmc n.val).held.foldl State.serveHeld (s1.updHbm n.val fun h => { h with held := [] }))
  else .next s

/-- REGISTER_WRITE (R10): a write by an agent over the bridge fabric, or by a function through its BAR0. -/
def execRegisterWrite (a : Agent) (addr : Nat) (v : Word) (s : State) : Res :=
  .next (((s.busWrite a addr v).holdAcc a addr (some v)).kernelErr a addr)

/-- COUNTER_LATCH_READ (R73): a read, which of a LO register latches the upper half. -/
def execCounterLatchRead (a : Agent) (addr : Nat) (s : State) : Res :=
  .next (((s.busRead a addr).holdAcc a addr none).kernelErr a addr)

end Sys2Proof.Machine
end

