-- ==== Sys2Proof/Machine/CoreSys.lean ====
section
/-! DEFINITION. Far access, DMA, the end of work items, and the control cores' privileged instructions (R250 to R252, R258,
R261, R281, R288, R442, R457, R482). -/

namespace Sys2Proof.Machine

/-- A core as a master on the bridge fabric. -/
def coreAgent (c : Nat) : Agent := if isCtl c then .fw (Fin.ofNat 4 (c - 512)) else .kernel (Fin.ofNat 512 c)

/-- The bridge address {g(p + 1)[7:0], g(p)} (R250). -/
def Core.far (k : Core) (p : BitVec 5) : Nat := fld (k.gr (p + 1)) 7 0 * 2 ^ 32 + (k.gr p).toNat

/-! ### ldf and stf (R250) -/

/-- ldf (R250, R341). -/
def execLdf (c : Fin 516) (d x : BitVec 5) (s : State) : Res :=
  s.issue c (.ldf c d x) fun s =>
    .next (s.runCore c.val fun s k =>
      let a := k.far x
      if oddPair x then (s, .fault F_ILLEGAL 0)
      else if a % 4 ≠ 0 then (s, .fault F_ALIGN a)
      else if k.memErr.contains (a / 64) then (s, .fault F_BUS_ERROR a)
      else
        let t := s.busRead (coreAgent c.val) a
        match t.bus with
        | .ok v => (t, .seq (k.setg d v))
        | .none => (t, .stay)
        | _ => (t, .fault F_BUS_ERROR a))

/-- stf (R250): a write that resets the device leaves no core to go on. -/
def execStf (c : Fin 516) (y x : BitVec 5) (s : State) : Res :=
  s.issue c (.stf c y x) fun s =>
    .next (s.runCore c.val fun s k =>
      let a := k.far x
      if oddPair x then (s, .fault F_ILLEGAL 0)
      else if a % 4 ≠ 0 then (s, .fault F_ALIGN a)
      else
        let t := s.busWrite (coreAgent c.val) a (k.gr y)
        match t.bus with
        | .ok _ =>
          if isCtl c.val && s.locate a == .reg .CLKPWR_RESET 0 && bit (k.gr y) 31 then (t, .stay)
          else (t, .seq { t.core c.val with waiting := false })
        | .none => (t, .stay)
        | _ => (t, .fault F_BUS_ERROR a))

/-! ### DMA (R251, R252) -/

/-- A core's tag. -/
def Core.tag (k : Core) (n : Nat) : Tag := Tbl.get k.tags {} n

/-- A failed transfer's DMA_FAULT is raised, and the tag is free again. -/
def State.raiseDma (s : State) (c n a : Nat) : State :=
  let k := s.core c
  (s.setCore c { k with tags := Tbl.upd k.tags n fun t => { t with fail := none } }).coreFault c F_DMA_FAULT a

/-- An instruction that waits for a tag: once it is not in flight, its failure is raised, or the instruction goes on. -/
def State.onTag (s : State) (c n : Nat) (f : State → Core → State × Eff) : State :=
  if s.coreRuns c && !s.fetchFails c && !((s.core c).tag n).inFlight then
    match ((s.core c).tag n).fail with
    | some a => s.raiseDma c n a
    | none => s.runCore c f
  else s.runCore c fun s _ => (s, .stay)

/-- dmai or dmao: the operands are checked, then the tag is waited for, then the transfer starts. -/
def State.startDma (s : State) (c : Nat) (out : Bool) (d x y sh : BitVec 5) : State :=
  if 8 ≤ d.toNat ∨ oddPair x = true then s.runCore c fun s _ => (s, .fault F_ILLEGAL 0)
  else s.onTag c d.toNat fun s k =>
    let a := k.far x
    let m := fld (k.gr y) 15 0
    let n := fld (k.gr sh) 15 0
    if a % 8 ≠ 0 then (s, .fault F_ALIGN a)
    else if m % 8 ≠ 0 then (s, .fault F_ALIGN m)
    else if n % 8 ≠ 0 ∨ n = 0 then (s, .fault F_ALIGN a)
    else (s, .seq { k with tags := Tbl.set k.tags d.toNat { inFlight := true, out, bridge := a, ldm := m, len := n } })

/-- dmai (R251). -/
def execDmai (c : Fin 516) (d x y sh : BitVec 5) (s : State) : Res :=
  s.issue c (.dmai c d x y sh) fun s => .next (s.startDma c.val false d x y sh)
/-- dmao (R251). -/
def execDmao (c : Fin 516) (d x y sh : BitVec 5) (s : State) : Res :=
  s.issue c (.dmao c d x y sh) fun s => .next (s.startDma c.val true d x y sh)

/-- dmaw (R251, R252). -/
def execDmaw (c : Fin 516) (tag : BitVec 5) (s : State) : Res :=
  s.issue c (.dmaw c tag) fun s =>
    if 8 ≤ tag.toNat then .next (s.runCore c.val fun s _ => (s, .fault F_ILLEGAL 0))
    else .next (s.onTag c.val tag.toNat fun s k => (s, .seq k))

/-- The bitmap of the tags in flight. -/
def Core.inFlight (k : Core) : Nat := sumN ((List.range 8).map fun n => if (k.tag n).inFlight then 2 ^ n else 0)

/-- dmas (R251). -/
def execDmas (c : Fin 516) (d : BitVec 5) (s : State) : Res :=
  s.issue c (.dmas c d) fun s => .next (s.alu c.val d fun k => BitVec.ofNat 32 k.inFlight)

/-- How a block of a transfer ends: done, held while HBM sleeps, or failed. -/
inductive BlkEnd where
  | ok | wait | fail
  deriving DecidableEq, Repr

/-- The words of a block read over the fabric. -/
def State.dmaRead (s : State) (who : Agent) (a : Nat) : Nat → State × List Word × BlkEnd
  | 0 => (s, [], .ok)
  | n + 1 =>
    let t := s.busRead who a
    match t.bus with
    | .ok v =>
      match t.dmaRead who (a + 4) n with
      | (u, l, e) => (u, v :: l, e)
    | .none => (t, [], .wait)
    | _ => (s, [], .fail)

/-- The words of a block written over the fabric. -/
def State.dmaWrite (s : State) (who : Agent) (a : Nat) : List Word → State × BlkEnd
  | [] => (s, .ok)
  | w :: l =>
    let t := s.busWrite who a w
    match t.bus with
    | .ok _ => t.dmaWrite who (a + 4) l
    | .none => (t, .wait)
    | _ => (s, .fail)

/-- Bytes stored in a core's LDM, 8 at a time. -/
def State.ldmStore (s : State) (c m : Nat) : List (List Byte) → State
  | [] => s
  | b :: l =>
    let (t, k) := s.stN c (s.core c) (m % 65536) b.length (leNat b)
    (t.setCore c k).ldmStore c (m + 8) l

/-- A list in pieces of `k`. -/
def piecesOf {α : Type} (k : Nat) : Nat → List α → List (List α)
  | 0, _ => []
  | _, [] => []
  | n + 1, l => l.take k :: piecesOf k n (l.drop k)

/-- One block of a transfer: nothing of a block that fails is written (R252). -/
def State.dmaBlock (s : State) (c : Nat) (out : Bool) (a m n : Nat) : State × BlkEnd :=
  let who := coreAgent c
  if out then
    let k := s.core c
    let us := (List.range (n / 8)).map fun i => (m % 65536 + 8 * i) % 65536 / 8
    if !isCtl c && us.any (fun u => Tbl.find k.ldmErr u == some true) then (s, .fail)
    else
      let (s1, k1) := us.foldl (fun (p : State × Core) u => p.1.scrubLdm c p.2 (8 * u) 8) (s, k)
      let s2 := s1.setCore c k1
      let ws := (List.range (n / 4)).map fun i => BitVec.ofNat 32 (s2.ldN c k1 (m + 4 * i) 4)
      match s2.dmaWrite who a ws with
      | (t, .ok) => (t, .ok)
      | (t, .wait) => (t, .wait)
      | (_, .fail) => (s2, .fail)
  else
    match s.dmaRead who a (n / 4) with
    | (t, ws, .ok) => (t.ldmStore c m (piecesOf 8 (n / 8) (wordsToBytes ws)), .ok)
    | (t, _, .wait) => (t, .wait)
    | (_, _, .fail) => (s, .fail)

/-- The blocks of a transfer from offset `o` on, to the one that fails. `failAt` is the offset of a unit that the memory
could not deliver. -/
def State.dmaRun (s : State) (c n : Nat) (t : Tag) (failAt : Option Nat) : Nat → Nat → State
  | 0, _ => s
  | f + 1, o =>
    let put (s : State) (g : Tag) : State := let k := s.core c; s.setCore c { k with tags := Tbl.set k.tags n g }
    if t.len ≤ o then put s { t with inFlight := false }
    else
      let a := t.bridge + o
      let len := min (64 - a % 64) (t.len - o)
      let hit := match failAt with | some x => decide (o ≤ x) && decide (x < o + len) | none => false
      if hit then put s { t with inFlight := false, fail := some a }
      else match s.dmaBlock c t.out a (t.ldm + o) len with
        | (u, .ok) => u.dmaRun c n t failAt f (o + len)
        | (u, .wait) => put u { t with bridge := a, ldm := (t.ldm + o) % 65536, len := t.len - o }
        | (u, .fail) => put u { t with inFlight := false, fail := some a }

/-- DMA_COMPLETE (R251, R252): a transfer ends, or stops at the block that fails. -/
def execDmaComplete (core : Fin 516) (tag : Fin 8) (failAt : Option Nat) (s : State) : Res :=
  let t := (s.core core.val).tag tag.val
  if t.inFlight then .next (s.dmaRun core.val tag.val t failAt 1030 0) else .next s

/-! ### The end of a work item (R261, R281, R482) -/

/-- What follows the end of an item, completed or faulted: staged requests go, corrections are counted, and a cluster that
drains may stop. -/
def State.afterItem (s : State) (c : Nat) : State :=
  let k := s.core c
  let n := s.rf .CORE_ECC c 31 16
  let s1 := (s.setCore c { k with ceSeen := n }).dropStaged c
  let s2 := if k.ceSeen < n then s1.ceCount (c / 8) (n - k.ceSeen) else s1
  s2.drainCheck (c / 8)

/-- MIX_TONE (R118): firmware tells the owner of the source of a telephone event that Damilo's kernel on core `c` handed to it;
a kernel reaches the sources of the tenant that it runs for. -/
def State.mixTone (s : State) (c : Nat) (tone : Option Tone) : State :=
  match tone with
  | none => s
  | some t => match Tbl.find s.mix.sources t.src with
    | none => s
    | some x =>
      if (s.core c).kern < 256 ∧ x.own.tenant = (s.core c).tenant then s.notify x.own.fn 0x0481 t.src [t.event.toNat + 65536 * t.ms.toNat]
      else s

/-- done (R251, R252, R261): waits for every DMA tag, then ends the item with g2[15:0]; a control core runs no item, and
its `done` only goes on. -/
def execDone (core : Fin 516) (tone : Option Tone) (s : State) : Res :=
  s.issue core (.done core tone) fun s =>
    let c := core.val
    let k := s.core c
    if k.tags.any fun t => t.2.inFlight then .next (s.runCore c fun s _ => (s, .stay))
    else match (if s.coreRuns c && !s.fetchFails c then k.tags.findSome? fun t => t.2.fail.map fun a => (t.1, a) else none) with
      | some (n, a) => .next (s.raiseDma c n a)
      | none =>
        if isCtl c || !s.coreRuns c || s.fetchFails c then .next (s.runCore c fun s k => (s, .seq k))
        else
          let it := Tbl.get k.slots {} k.slot
          let st := fld (k.gr 2) 15 0
          let s1 := (s.mixTone c tone).complete c st
          let s2 := if st = 2 ∧ it.retries < 3 then s1 else s1.chainNext it
          .next (s2.afterItem c)

/-- KERNEL_FAULT_REPORT (R258, R281, R282): once the core's DMA tags have finished, the faulted item completes without
its posts. -/
def execKernelFaultReport (core : Fin 512) (el : Nat) (s : State) : Res :=
  let s := s.advance el
  let c := core.val
  let k := s.core c
  match k.faulted with
  | none => .next s
  | some cause =>
    if k.tags.any fun t => t.2.inFlight then .next s
    else
      let it := Tbl.get k.slots {} k.slot
      let s1 := (s.endItem c false).cntDisp 3
      let s1 := s1.setCore c { s1.core c with tags := [] }
      let s2 := match s1.dispQ k.qid with
        | none => s1.releaseOpt it.payload
        | some d =>
          let s2 := (s1.releaseOpt it.payload).returnItem (d.own.fn / 64) it.pool
          let s3 := if d.typ = 2 then s2.finishTicket k.qid it.ticket c false else s2
          let s4 := if d.own.fn < 256 then s3.notify d.own.fn 0x0A80 k.qid [k.kern * 65536 + cause, k.pc.toNat] else s3
          (s4.countFault k.kern).chainNext it
      let s3 := if cause = F_LDM_ECC then s2.ueCount (c / 8) else s2
      .next (s3.afterItem c)

/-! ### The control cores' instructions (R442, R457) -/

/-- An instruction of group 0x1C: PRIVILEGED on a media core (R258). -/
def State.runCtl (s : State) (c : Nat) (f : State → Core → State × Eff) : State :=
  s.runCore c fun s k => if isCtl c then f s k else (s, .fault F_PRIVILEGED 0)

/-- The value that `mfp` reads. -/
def Core.priv (k : Core) (n : Nat) : Word :=
  match n with
  | 0 => k.win
  | 1 => k.epc
  | 2 => k.ie
  | 3 => k.ip
  | 4 => k.vbase
  | _ => 0

/-- mfp (R442). -/
def execMfp (c : Fin 516) (d : BitVec 5) (n : Nat) (s : State) : Res :=
  s.issue c (.mfp c d n) fun s => .next (s.runCtl c.val fun s k => (s, .seq (k.setg d (k.priv n))))

/-- mtp (R442): `ip` and numbers that are not listed are ILLEGAL. -/
def execMtp (c : Fin 516) (n : Nat) (x : BitVec 5) (s : State) : Res :=
  s.issue c (.mtp c n x) fun s =>
    .next (s.runCtl c.val fun s k =>
      let v := k.gr x
      (s, match n with
        | 0 => .seq { k with win := v }
        | 1 => .seq { k with epc := v }
        | 2 => .seq { k with ie := v }
        | 4 => .seq { k with vbase := v }
        | _ => .fault F_ILLEGAL 0))

/-- wfi (R442): the core waits until an enabled interrupt is pending. -/
def execWfi (c : Fin 516) (s : State) : Res :=
  s.issue c (.wfi c) fun s =>
    .next (s.runCtl c.val fun s k =>
      if k.ip &&& k.ie = 0 then (s.setCore c.val { k with waiting := true }, .stay) else (s, .seq k))

/-- iret (R442). -/
def execIret (c : Fin 516) (s : State) : Res :=
  s.issue c (.iret c) fun s => .next (s.runCtl c.val fun s k => (s, .jump { k with intOn := true } k.epc))

/-- fencef (R442): an `stf` is complete when it has executed, so what is waited for is the core's DMA writes. -/
def execFencef (c : Fin 516) (s : State) : Res :=
  s.issue c (.fencef c) fun s =>
    .next (s.runCtl c.val fun s k =>
      if k.tags.any (fun t => t.2.inFlight && t.2.out) then (s, .stay) else (s, .seq k))

/-- romcall (R442, R457): service 0 holds the core in the ROM until the live replacement's swap; when all four are there,
the ROM kicks the watchdog. -/
def execRomcall (c : Fin 516) (n : Nat) (s : State) : Res :=
  s.issue c (.romcall c n) fun s =>
    .next (s.runCtl c.val fun s k =>
      if n ≠ 0 then (s, .fault F_ILLEGAL 0)
      else
        let all := (List.range 4).all fun i => 512 + i == c.val || (s.core (512 + i)).inRom
        ((if all then { s with power := { s.power with kickAt := s.ela } } else s), .seq { k with inRom := true }))

end Sys2Proof.Machine
end

