-- ==== Sys2Proof/Machine/Dispatch.lean ====
section
/-! DEFINITION. The meaning of every command: one arm for each constructor of `Instr`. -/

namespace Sys2Proof.Machine

def exec (i : Instr) (s : State) : Host.Outcome State Fault Refusal :=
  match i with
  | .registerWrite a addr v => Sys2Proof.Machine.execRegisterWrite a addr v s
  | .counterLatchRead a addr => Sys2Proof.Machine.execCounterLatchRead a addr s
  | .fifoPidxWrite a f v items => Sys2Proof.Machine.execFifoPidxWrite a f v items s
  | .fifoCidxWrite a f v => Sys2Proof.Machine.execFifoCidxWrite a f v s
  | .fifoDataRead a f => Sys2Proof.Machine.execFifoDataRead a f s
  | .fifoFlush a f => Sys2Proof.Machine.execFifoFlush a f s
  | .dropRest a f => Sys2Proof.Machine.execDropRest a f s
  | .fifoHwPublish f items eop => Sys2Proof.Machine.execFifoHwPublish f items eop s
  | .ethPcfgWrite port v => Sys2Proof.Machine.execEthPcfgWrite port v s
  | .anResolved port rates fecs trained => Sys2Proof.Machine.execAnResolved port rates fecs trained s
  | .anRestartTimeout port => Sys2Proof.Machine.execAnRestartTimeout port s
  | .linkChange port up => Sys2Proof.Machine.execLinkChange port up s
  | .effectiveMinApply port => Sys2Proof.Machine.execEffectiveMinApply port s
  | .frameReceived port macOk bytes facts el => Sys2Proof.Machine.execFrameReceived port macOk bytes facts el s
  | .srtpDecrypt lane authOk plain facts el => Sys2Proof.Machine.execSrtpDecrypt lane authOk plain facts el s
  | .strataForward dev el => Sys2Proof.Machine.execStrataForward dev el s
  | .egressSelect port reads => Sys2Proof.Machine.execEgressSelect port reads s
  | .srtpEncrypt lane reads => Sys2Proof.Machine.execSrtpEncrypt lane reads s
  | .tenantBucketFull port tenant el => Sys2Proof.Machine.execTenantBucketFull port tenant el s
  | .gateEntryAdvance port el => Sys2Proof.Machine.execGateEntryAdvance port el s
  | .gateListSwitch port el => Sys2Proof.Machine.execGateListSwitch port el s
  | .layerTargetApply => Sys2Proof.Machine.execLayerTargetApply s
  | .shaperTargetApply el => Sys2Proof.Machine.execShaperTargetApply el s
  | .estimateApply core leg run el => Sys2Proof.Machine.execEstimateApply core leg run el s
  | .loupeSample sampler cons el => Sys2Proof.Machine.execLoupeSample sampler cons el s
  | .tolkuKeepalive el => Sys2Proof.Machine.execTolkuKeepalive el s
  | .cascadePeerTimeout peer el => Sys2Proof.Machine.execCascadePeerTimeout peer el s
  | .legCreate c => Sys2Proof.Machine.execLegCreate c s
  | .legModify c => Sys2Proof.Machine.execLegModify c s
  | .legDestroy c => Sys2Proof.Machine.execLegDestroy c s
  | .legQuery c => Sys2Proof.Machine.execLegQuery c s
  | .streamCreate c => Sys2Proof.Machine.execStreamCreate c s
  | .streamDestroy c => Sys2Proof.Machine.execStreamDestroy c s
  | .streamSubscribe c => Sys2Proof.Machine.execStreamSubscribe c s
  | .streamModify c => Sys2Proof.Machine.execStreamModify c s
  | .streamUnsubscribe c => Sys2Proof.Machine.execStreamUnsubscribe c s
  | .streamQuery c => Sys2Proof.Machine.execStreamQuery c s
  | .cascadePeerAdd c => Sys2Proof.Machine.execCascadePeerAdd c s
  | .cascadePeerRemove c => Sys2Proof.Machine.execCascadePeerRemove c s
  | .cascadeSetDevid c => Sys2Proof.Machine.execCascadeSetDevid c s
  | .qosPolicerSet c => Sys2Proof.Machine.execQosPolicerSet c s
  | .qosDscpMapSet c => Sys2Proof.Machine.execQosDscpMapSet c s
  | .qosQueueCfg c => Sys2Proof.Machine.execQosQueueCfg c s
  | .qosShaperSet c => Sys2Proof.Machine.execQosShaperSet c s
  | .qosClassSet c => Sys2Proof.Machine.execQosClassSet c s
  | .qosPortSet c => Sys2Proof.Machine.execQosPortSet c s
  | .qosGateSet c => Sys2Proof.Machine.execQosGateSet c s
  | .qosTenantSet c => Sys2Proof.Machine.execQosTenantSet c s
  | .qosEstCfg c => Sys2Proof.Machine.execQosEstCfg c s
  | .qosSamplerSet c => Sys2Proof.Machine.execQosSamplerSet c s
  | .qosQueueRelease c => Sys2Proof.Machine.execQosQueueRelease c s
  | .qosQuery c => Sys2Proof.Machine.execQosQuery c s
  | .mixFrameBoundary el => Sys2Proof.Machine.execMixFrameBoundary el s
  | .safeLoadArm slice v => Sys2Proof.Machine.execSafeLoadArm slice v s
  | .safeLoadSwap slice => Sys2Proof.Machine.execSafeLoadSwap slice s
  | .sourceDeadline frames el => Sys2Proof.Machine.execSourceDeadline frames el s
  | .memberRampEnd source => Sys2Proof.Machine.execMemberRampEnd source s
  | .classOutputWrite slice el => Sys2Proof.Machine.execClassOutputWrite slice el s
  | .outDeadlineExpiry slice el => Sys2Proof.Machine.execOutDeadlineExpiry slice el s
  | .confCreate c => Sys2Proof.Machine.execConfCreate c s
  | .confModify c => Sys2Proof.Machine.execConfModify c s
  | .confDestroy c => Sys2Proof.Machine.execConfDestroy c s
  | .confPin c => Sys2Proof.Machine.execConfPin c s
  | .confQuery c => Sys2Proof.Machine.execConfQuery c s
  | .mixSourceAdd c => Sys2Proof.Machine.execMixSourceAdd c s
  | .mixSourceModify c => Sys2Proof.Machine.execMixSourceModify c s
  | .mixSourceRemove c => Sys2Proof.Machine.execMixSourceRemove c s
  | .mixClassCreate c => Sys2Proof.Machine.execMixClassCreate c s
  | .mixClassModify c => Sys2Proof.Machine.execMixClassModify c s
  | .mixClassDestroy c => Sys2Proof.Machine.execMixClassDestroy c s
  | .mixLegJoin c => Sys2Proof.Machine.execMixLegJoin c s
  | .mixLegLeave c => Sys2Proof.Machine.execMixLegLeave c s
  | .mixBatch c => Sys2Proof.Machine.execMixBatch c s
  | .mixTapSet c => Sys2Proof.Machine.execMixTapSet c s
  | .mixQuery c => Sys2Proof.Machine.execMixQuery c s
  | .reqAppend pe core words => Sys2Proof.Machine.execReqAppend pe core words s
  | .reqCommit pe core => Sys2Proof.Machine.execReqCommit pe core s
  | .reqDiscard pe core => Sys2Proof.Machine.execReqDiscard pe core s
  | .decodeStart pe facts el => Sys2Proof.Machine.execDecodeStart pe facts el s
  | .allocWaitTimeout pe el => Sys2Proof.Machine.execAllocWaitTimeout pe el s
  | .decodeComplete pe facts el => Sys2Proof.Machine.execDecodeComplete pe facts el s
  | .refreshTimerExpiry ctx el => Sys2Proof.Machine.execRefreshTimerExpiry ctx el s
  | .poolSet core v => Sys2Proof.Machine.execPoolSet core v s
  | .poolClear core v => Sys2Proof.Machine.execPoolClear core v s
  | .poolQuery core v => Sys2Proof.Machine.execPoolQuery core v s
  | .slotQuery core v => Sys2Proof.Machine.execSlotQuery core v s
  | .decCreate c => Sys2Proof.Machine.execDecCreate c s
  | .decModify c => Sys2Proof.Machine.execDecModify c s
  | .decDestroy c => Sys2Proof.Machine.execDecDestroy c s
  | .decQuery c => Sys2Proof.Machine.execDecQuery c s
  | .decSnapshot c => Sys2Proof.Machine.execDecSnapshot c s
  | .snapshotCopyDone tenant ok el => Sys2Proof.Machine.execSnapshotCopyDone tenant ok el s
  | .layoutTick layout el => Sys2Proof.Machine.execLayoutTick layout el s
  | .composeComplete pe reads => Sys2Proof.Machine.execComposeComplete pe reads s
  | .layoutCreate c => Sys2Proof.Machine.execLayoutCreate c s
  | .layoutSet c => Sys2Proof.Machine.execLayoutSet c s
  | .layoutCellSet c => Sys2Proof.Machine.execLayoutCellSet c s
  | .layoutDestroy c => Sys2Proof.Machine.execLayoutDestroy c s
  | .layoutImageLoad c => Sys2Proof.Machine.execLayoutImageLoad c s
  | .layoutImageFree c => Sys2Proof.Machine.execLayoutImageFree c s
  | .layoutQuery c => Sys2Proof.Machine.execLayoutQuery c s
  | .encInputAccept pe el => Sys2Proof.Machine.execEncInputAccept pe el s
  | .analysisStart pe el => Sys2Proof.Machine.execAnalysisStart pe el s
  | .analysisComplete pe unread el => Sys2Proof.Machine.execAnalysisComplete pe unread el s
  | .coderStart pe coder header el => Sys2Proof.Machine.execCoderStart pe coder header el s
  | .headerWaitTimeout pe coder el => Sys2Proof.Machine.execHeaderWaitTimeout pe coder el s
  | .reconAllocTimeout pe coder el => Sys2Proof.Machine.execReconAllocTimeout pe coder el s
  | .coderRowCommit pe coder bytes unread el => Sys2Proof.Machine.execCoderRowCommit pe coder bytes unread el s
  | .pictureCoded pe coder el => Sys2Proof.Machine.execPictureCoded pe coder el s
  | .starvedRaise group el => Sys2Proof.Machine.execStarvedRaise group el s
  | .encGroupCreate c => Sys2Proof.Machine.execEncGroupCreate c s
  | .encGroupModify c => Sys2Proof.Machine.execEncGroupModify c s
  | .encGroupDestroy c => Sys2Proof.Machine.execEncGroupDestroy c s
  | .encRendAdd c => Sys2Proof.Machine.execEncRendAdd c s
  | .encRendModify c => Sys2Proof.Machine.execEncRendModify c s
  | .encRendRemove c => Sys2Proof.Machine.execEncRendRemove c s
  | .encRefresh c => Sys2Proof.Machine.execEncRefresh c s
  | .encQuery c => Sys2Proof.Machine.execEncQuery c s
  | .workItemStart core start => Sys2Proof.Machine.execWorkItemStart core start s
  | .itemPlace reads => Sys2Proof.Machine.execItemPlace reads s
  | .affWaitTimeout qid el => Sys2Proof.Machine.execAffWaitTimeout qid el s
  | .itemWatchdog core el => Sys2Proof.Machine.execItemWatchdog core el s
  | .kernelFaultReport core el => Sys2Proof.Machine.execKernelFaultReport core el s
  | .kernelPost core words el => Sys2Proof.Machine.execKernelPost core words el s
  | .dmaComplete core tag failAt => Sys2Proof.Machine.execDmaComplete core tag failAt s
  | .add core d x y => Sys2Proof.Machine.execAdd core d x y s
  | .sub core d x y => Sys2Proof.Machine.execSub core d x y s
  | .and core d x y => Sys2Proof.Machine.execAnd core d x y s
  | .or core d x y => Sys2Proof.Machine.execOr core d x y s
  | .xor core d x y => Sys2Proof.Machine.execXor core d x y s
  | .shl core d x sh => Sys2Proof.Machine.execShl core d x sh s
  | .shr core d x sh => Sys2Proof.Machine.execShr core d x sh s
  | .sar core d x sh => Sys2Proof.Machine.execSar core d x sh s
  | .shlv core d x y => Sys2Proof.Machine.execShlv core d x y s
  | .shrv core d x y => Sys2Proof.Machine.execShrv core d x y s
  | .sarv core d x y => Sys2Proof.Machine.execSarv core d x y s
  | .cmplt core d x y => Sys2Proof.Machine.execCmplt core d x y s
  | .cmpltu core d x y => Sys2Proof.Machine.execCmpltu core d x y s
  | .min core d x y => Sys2Proof.Machine.execMin core d x y s
  | .max core d x y => Sys2Proof.Machine.execMax core d x y s
  | .abs core d x => Sys2Proof.Machine.execAbs core d x s
  | .mul core d x y => Sys2Proof.Machine.execMul core d x y s
  | .mulhi core d x y => Sys2Proof.Machine.execMulhi core d x y s
  | .addk core d x imm => Sys2Proof.Machine.execAddk core d x imm s
  | .ork core d x imm => Sys2Proof.Machine.execOrk core d x imm s
  | .andk core d x imm => Sys2Proof.Machine.execAndk core d x imm s
  | .brEq core x y ofs => Sys2Proof.Machine.execBrEq core x y ofs s
  | .brNe core x y ofs => Sys2Proof.Machine.execBrNe core x y ofs s
  | .brLt core x y u ofs => Sys2Proof.Machine.execBrLt core x y u ofs s
  | .brGe core x y u ofs => Sys2Proof.Machine.execBrGe core x y u ofs s
  | .cmpltk core d x imm => Sys2Proof.Machine.execCmpltk core d x imm s
  | .movh core d imm => Sys2Proof.Machine.execMovh core d imm s
  | .call core ofs => Sys2Proof.Machine.execCall core ofs s
  | .done core tone => Sys2Proof.Machine.execDone core tone s
  | .mfs core d n => Sys2Proof.Machine.execMfs core d n s
  | .mts core n x => Sys2Proof.Machine.execMts core n x s
  | .lbrk core k => Sys2Proof.Machine.execLbrk core k s
  | .dmaw core tag => Sys2Proof.Machine.execDmaw core tag s
  | .dmas core d => Sys2Proof.Machine.execDmas core d s
  | .loop core k src count x stop => Sys2Proof.Machine.execLoop core k src count x stop s
  | .setx core n imm => Sys2Proof.Machine.execSetx core n imm s
  | .seto core n imm => Sys2Proof.Machine.execSeto core n imm s
  | .setcb core n imm => Sys2Proof.Machine.execSetcb core n imm s
  | .setcl core n imm => Sys2Proof.Machine.execSetcl core n imm s
  | .addx core n imm => Sys2Proof.Machine.execAddx core n imm s
  | .movx core n x => Sys2Proof.Machine.execMovx core n x s
  | .ldf core d x => Sys2Proof.Machine.execLdf core d x s
  | .stf core y x => Sys2Proof.Machine.execStf core y x s
  | .dmai core d x y sh => Sys2Proof.Machine.execDmai core d x y sh s
  | .dmao core d x y sh => Sys2Proof.Machine.execDmao core d x y sh s
  | .jmpr core x => Sys2Proof.Machine.execJmpr core x s
  | .ldH core r n pm disp => Sys2Proof.Machine.execLdH core r n pm disp s
  | .ldHu core r n pm disp => Sys2Proof.Machine.execLdHu core r n pm disp s
  | .ldW core r n pm disp => Sys2Proof.Machine.execLdW core r n pm disp s
  | .ldD core r n pm disp => Sys2Proof.Machine.execLdD core r n pm disp s
  | .stH core r n pm disp => Sys2Proof.Machine.execStH core r n pm disp s
  | .stW core r n pm disp => Sys2Proof.Machine.execStW core r n pm disp s
  | .stD core r n pm disp => Sys2Proof.Machine.execStD core r n pm disp s
  | .vclr core acc => Sys2Proof.Machine.execVclr core acc s
  | .vmpy core acc s1 => Sys2Proof.Machine.execVmpy core acc s1 s
  | .vmac core acc s1 => Sys2Proof.Machine.execVmac core acc s1 s
  | .vmsu core acc s1 => Sys2Proof.Machine.execVmsu core acc s1 s
  | .vld core acc s1 sh => Sys2Proof.Machine.execVld core acc s1 sh s
  | .vst core acc s1 sh => Sys2Proof.Machine.execVst core acc s1 sh s
  | .vred core acc d sh => Sys2Proof.Machine.execVred core acc d sh s
  | .vext core acc d ln sh => Sys2Proof.Machine.execVext core acc d ln sh s
  | .vadd core d s1 t => Sys2Proof.Machine.execVadd core d s1 t s
  | .vsub core d s1 t => Sys2Proof.Machine.execVsub core d s1 t s
  | .vacsx core d s1 t b => Sys2Proof.Machine.execVacsx core d s1 t b s
  | .vacsn core d s1 t b => Sys2Proof.Machine.execVacsn core d s1 t b s
  | .mfp core d n => Sys2Proof.Machine.execMfp core d n s
  | .mtp core n x => Sys2Proof.Machine.execMtp core n x s
  | .wfi core => Sys2Proof.Machine.execWfi core s
  | .iret core => Sys2Proof.Machine.execIret core s
  | .fencef core => Sys2Proof.Machine.execFencef core s
  | .romcall core n => Sys2Proof.Machine.execRomcall core n s
  | .kernelKeySet c => Sys2Proof.Machine.execKernelKeySet c s
  | .kernelLoad c => Sys2Proof.Machine.execKernelLoad c s
  | .kernelUnload c => Sys2Proof.Machine.execKernelUnload c s
  | .kernelQueueCfg c => Sys2Proof.Machine.execKernelQueueCfg c s
  | .kernelQueueRelease c => Sys2Proof.Machine.execKernelQueueRelease c s
  | .kernelChainSet c => Sys2Proof.Machine.execKernelChainSet c s
  | .kernelQuery c => Sys2Proof.Machine.execKernelQuery c s
  | .kernelResume c => Sys2Proof.Machine.execKernelResume c s
  | .kernelTenantSet c => Sys2Proof.Machine.execKernelTenantSet c s
  | .keywinLockAcquire owner el => Sys2Proof.Machine.execKeywinLockAcquire owner el s
  | .keywinRelease owner v => Sys2Proof.Machine.execKeywinRelease owner v s
  | .keywinLockTimeout el => Sys2Proof.Machine.execKeywinLockTimeout el s
  | .keywinLoad owner v el => Sys2Proof.Machine.execKeywinLoad owner v el s
  | .keywinErase owner v el => Sys2Proof.Machine.execKeywinErase owner v el s
  | .keyLoad c => Sys2Proof.Machine.execKeyLoad c s
  | .keyLoadDtls c => Sys2Proof.Machine.execKeyLoadDtls c s
  | .keyErase c => Sys2Proof.Machine.execKeyErase c s
  | .keyRelease c => Sys2Proof.Machine.execKeyRelease c s
  | .keyQuery c => Sys2Proof.Machine.execKeyQuery c s
  | .tamperArm v active => Sys2Proof.Machine.execTamperArm v active s
  | .tamperAlarm sensor => Sys2Proof.Machine.execTamperAlarm sensor s
  | .cryptBleach => Sys2Proof.Machine.execCryptBleach s
  | .bleachComplete => Sys2Proof.Machine.execBleachComplete s
  | .bleachPoll active => Sys2Proof.Machine.execBleachPoll active s
  | .bleachedClear active => Sys2Proof.Machine.execBleachedClear active s
  | .hbmcEnable n v => Sys2Proof.Machine.execHbmcEnable n v s
  | .hbmTrainingComplete n ok => Sys2Proof.Machine.execHbmTrainingComplete n ok s
  | .hbmRequest n port write addr tenant data el => Sys2Proof.Machine.execHbmRequest n port write addr tenant data el s
  | .postedWriteDrain n => Sys2Proof.Machine.execPostedWriteDrain n s
  | .hbmUnitIssue n pc => Sys2Proof.Machine.execHbmUnitIssue n pc s
  | .hbmReadComplete n ecc => Sys2Proof.Machine.execHbmReadComplete n ecc s
  | .refreshDue n pc => Sys2Proof.Machine.execRefreshDue n pc s
  | .hbmTempRead n temp => Sys2Proof.Machine.execHbmTempRead n temp s
  | .scrubRead n ecc => Sys2Proof.Machine.execScrubRead n ecc s
  | .srIdleTimeout n => Sys2Proof.Machine.execSrIdleTimeout n s
  | .srEntryComplete n => Sys2Proof.Machine.execSrEntryComplete n s
  | .srExitComplete n => Sys2Proof.Machine.execSrExitComplete n s
  | .winFence => Sys2Proof.Machine.execWinFence s
  | .winFenceClear => Sys2Proof.Machine.execWinFenceClear s
  | .mbxPost a ch => Sys2Proof.Machine.execMbxPost a ch s
  | .mbxWake a ch => Sys2Proof.Machine.execMbxWake a ch s
  | .mbxMsgWrite a ch w v => Sys2Proof.Machine.execMbxMsgWrite a ch w v s
  | .mbxAckWrite a ch v => Sys2Proof.Machine.execMbxAckWrite a ch v s
  | .mbxWord15Read a ch => Sys2Proof.Machine.execMbxWord15Read a ch s
  | .commandStale c => Sys2Proof.Machine.execCommandStale c s
  | .notificationPost dest => Sys2Proof.Machine.execNotificationPost dest s
  | .mctpEndpointReassign => Sys2Proof.Machine.execMctpEndpointReassign s
  | .sidebandMctpMessage typ body => Sys2Proof.Machine.execSidebandMctpMessage typ body s
  | .sysNop c => Sys2Proof.Machine.execSysNop c s
  | .sysHello c => Sys2Proof.Machine.execSysHello c s
  | .sysCaps c => Sys2Proof.Machine.execSysCaps c s
  | .sysInfo c => Sys2Proof.Machine.execSysInfo c s
  | .sysShutdown c => Sys2Proof.Machine.execSysShutdown c s
  | .sysNotifyCfg c => Sys2Proof.Machine.execSysNotifyCfg c s
  | .telemMeterSet c => Sys2Proof.Machine.execTelemMeterSet c s
  | .telemMeterStop c => Sys2Proof.Machine.execTelemMeterStop c s
  | .telemMeterRead c => Sys2Proof.Machine.execTelemMeterRead c s
  | .telemCounters c => Sys2Proof.Machine.execTelemCounters c s
  | .meterSample stream cons el => Sys2Proof.Machine.execMeterSample stream cons el s
  | .pcieLinkChange port up speed width reversed => Sys2Proof.Machine.execPcieLinkChange port up speed width reversed s
  | .pcieConfigWrite fn w => Sys2Proof.Machine.execPcieConfigWrite fn w s
  | .functionLevelReset fn => Sys2Proof.Machine.execFunctionLevelReset fn s
  | .vfEnableClear tenant => Sys2Proof.Machine.execVfEnableClear tenant s
  | .hotReset port => Sys2Proof.Machine.execHotReset port s
  | .perstAssert port => Sys2Proof.Machine.execPerstAssert port s
  | .objectDestructionEnd obj => Sys2Proof.Machine.execObjectDestructionEnd obj s
  | .flrReady fn => Sys2Proof.Machine.execFlrReady fn s
  | .unclaimedRequest fn write => Sys2Proof.Machine.execUnclaimedRequest fn write s
  | .ringEnable r v => Sys2Proof.Machine.execRingEnable r v s
  | .ringDisable r v => Sys2Proof.Machine.execRingDisable r v s
  | .ringDmaFail r moved => Sys2Proof.Machine.execRingDmaFail r moved s
  | .ringIntModExpiry r el => Sys2Proof.Machine.execRingIntModExpiry r el s
  | .pdReqWrite d v => Sys2Proof.Machine.execPdReqWrite d v s
  | .sleepEntryComplete d => Sys2Proof.Machine.execSleepEntryComplete d s
  | .wakeComplete d => Sys2Proof.Machine.execWakeComplete d s
  | .powerGoodTimeout d => Sys2Proof.Machine.execPowerGoodTimeout d s
  | .domainReset d => Sys2Proof.Machine.execDomainReset d s
  | .warmReset wdog => Sys2Proof.Machine.execWarmReset wdog s
  | .wdogEnable v el => Sys2Proof.Machine.execWdogEnable v el s
  | .wdogKick v el => Sys2Proof.Machine.execWdogKick v el s
  | .watchdogExpiry el => Sys2Proof.Machine.execWatchdogExpiry el s
  | .powerOnReset => Sys2Proof.Machine.execPowerOnReset s
  | .brownOut => Sys2Proof.Machine.execBrownOut s
  | .porstRelease straps sysref testEn board => Sys2Proof.Machine.execPorstRelease straps sysref testEn board s
  | .xtalFail => Sys2Proof.Machine.execXtalFail s
  | .xtalReturn => Sys2Proof.Machine.execXtalReturn s
  | .timeStepCommit lo hi => Sys2Proof.Machine.execTimeStepCommit lo hi s
  | .timeStepApply => Sys2Proof.Machine.execTimeStepApply s
  | .ppsInEdge el => Sys2Proof.Machine.execPpsInEdge el s
  | .ppsOutPulse rise el => Sys2Proof.Machine.execPpsOutPulse rise el s
  | .servoHoldover el => Sys2Proof.Machine.execServoHoldover el s
  | .safelightTimerExpiry timer el => Sys2Proof.Machine.execSafelightTimerExpiry timer el s
  | .thermalSample tj hbmCrit => Sys2Proof.Machine.execThermalSample tj hbmCrit s
  | .thermalTrip tj => Sys2Proof.Machine.execThermalTrip tj s
  | .fanWriteTimeout el => Sys2Proof.Machine.execFanWriteTimeout el s
  | .timeGet c => Sys2Proof.Machine.execTimeGet c s
  | .timeSourceSet c => Sys2Proof.Machine.execTimeSourceSet c s
  | .timeTod c => Sys2Proof.Machine.execTimeTod c s
  | .timeOffset c => Sys2Proof.Machine.execTimeOffset c s
  | .timePpsOutSet c => Sys2Proof.Machine.execTimePpsOutSet c s
  | .timeTimerSet c => Sys2Proof.Machine.execTimeTimerSet c s
  | .timeQuery c => Sys2Proof.Machine.execTimeQuery c s
  | .jrnlProgram v sense => Sys2Proof.Machine.execJrnlProgram v sense s
  | .jrnlErase v sense => Sys2Proof.Machine.execJrnlErase v sense s
  | .jrnlFuse v sense => Sys2Proof.Machine.execJrnlFuse v sense s
  | .commitComplete ok => Sys2Proof.Machine.execCommitComplete ok s
  | .pfailAssert => Sys2Proof.Machine.execPfailAssert s
  | .pfailRelease => Sys2Proof.Machine.execPfailRelease s
  | .trustSign v => Sys2Proof.Machine.execTrustSign v s
  | .signComplete => Sys2Proof.Machine.execSignComplete s
  | .jrnlAttest c => Sys2Proof.Machine.execJrnlAttest c s
  | .jrnlIdentity c => Sys2Proof.Machine.execJrnlIdentity c s
  | .jrnlRead c => Sys2Proof.Machine.execJrnlRead c s
  | .jrnlSnapshot c => Sys2Proof.Machine.execJrnlSnapshot c s
  | .jrnlRestore c => Sys2Proof.Machine.execJrnlRestore c s
  | .jrnlStatus c => Sys2Proof.Machine.execJrnlStatus c s
  | .jrnlFwStage c => Sys2Proof.Machine.execJrnlFwStage c s
  | .jrnlFwActivate c => Sys2Proof.Machine.execJrnlFwActivate c s
  | .jrnlFwConfirm c => Sys2Proof.Machine.execJrnlFwConfirm c s
  | .jrnlRollbackSet c => Sys2Proof.Machine.execJrnlRollbackSet c s
  | .jrnlKeyRevoke c => Sys2Proof.Machine.execJrnlKeyRevoke c s
  | .jrnlTenantPin c => Sys2Proof.Machine.execJrnlTenantPin c s
  | .tstripGo pos v => Sys2Proof.Machine.execTstripGo pos v s
  | .tstripAbort pos => Sys2Proof.Machine.execTstripAbort pos s
  | .unitTestDone pos sig memFail => Sys2Proof.Machine.execUnitTestDone pos sig memFail s
  | .testScheduleExpiry el => Sys2Proof.Machine.execTestScheduleExpiry el s
  | .testResultRetry el => Sys2Proof.Machine.execTestResultRetry el s
  | .testRun c => Sys2Proof.Machine.execTestRun c s
  | .testSchedule c => Sys2Proof.Machine.execTestSchedule c s
  | .testResult c => Sys2Proof.Machine.execTestResult c s
  | .testFence c => Sys2Proof.Machine.execTestFence c s
  | .testUnfence c => Sys2Proof.Machine.execTestUnfence c s
  | .testPolicy c => Sys2Proof.Machine.execTestPolicy c s
  | .sysrefSwitch => Sys2Proof.Machine.execSysrefSwitch s
  | .keywinCommitDone => Sys2Proof.Machine.execKeywinCommitDone s

end Sys2Proof.Machine
end

