-- ==== Sys2Proof/Safety.lean ====
section
/-! DEFINITION. What the claims call a well-formed state, a safe run, an accepted command and a running core. -/

namespace Sys2Proof.Machine

/-- The canonical form of the state's sparse stores: memory, the control cluster's SRAM, the registers and the counters
list their keys strictly rising, and no listed byte of a memory reads as an unlisted one: equal memories are equal data. -/
structure State.Canon (s : State) : Prop where
  mem : Mem.wf s.mem = true
  csram : Mem.wf s.csram = true
  regs : Tbl.wf s.regs = true
  cnts : Tbl.wf s.cnts = true

/-- The states that `n` steps lead to, as long as no step stops. -/
def run : Nat → State → Host.Outcome State Fault Refusal
  | 0, s => .next s
  | n + 1, s => match step s with
    | .next t => run n t
    | o => o

/-- A run is safe when no step of it stops. -/
def SafeRun (n : Nat) (s : State) : Prop := ∃ t, run n s = .next t

/-! ### Vusta commands (R366, R509) -/

/-- Firmware takes the command in `s`, none of the checks of R509 refuses it, and it is no dry run (R352). -/
structure Accepted (k : CmdSpec) (check : Cmd → State → Nat) (c : Cmd) (s : State) : Prop where
  taken : (s.advance c.el).takeable c = true
  passes : statusOf k check c (s.advance c.el) = 0
  real : c.dry = false

/-- Every accepted command of a row has exactly this effect and is then answered OK with these result words. -/
def Completes (i : Cmd → Instr) (k : CmdSpec) (check : Cmd → State → Nat) (eff : Cmd → State → State)
    (res : Cmd → State → List Nat) : Prop :=
  ∀ c s, Accepted k check c s →
    exec (i c) s = .next ((eff c (s.advance c.el)).answer k c 0 (res c (s.advance c.el)))

/-- The same for a KEY command, whose words firmware zeroes as it reads them (R306). -/
def CompletesKey (i : Cmd → Instr) (k : CmdSpec) (check : Cmd → State → Nat) (eff : Cmd → State → State) : Prop :=
  ∀ c s, Accepted k check c (s.wipeKey c) →
    exec (i c) s = .next ((eff c ((s.wipeKey c).advance c.el)).answer k c 0 [])

/-- The same for a command whose commits the JRNL block runs (R462): while another commit runs the command waits; a part of
the work that a refused commit leaves behind stands. -/
def CompletesJrnl (i : Cmd → Instr) (k : CmdSpec) (check : Cmd → State → Nat) (apply : Cmd → State → Reply) : Prop :=
  ∀ c s, Accepted k check c s →
    let r := apply c ((s.advance c.el).withPower c)
    let t := r.st.endPower.pfailRun
    (s.trust.job.isSome = true → exec (i c) s = .next (s.advance c.el)) ∧
    (s.trust.job = none → r.code = 0 → exec (i c) s = .next (t.answer k c 0 r.res)) ∧
    (s.trust.job = none → r.code ≠ 0 →
      exec (i c) s = .next ((if r.keep then t else s.advance c.el).answer k c r.code r.res))

/-- No result words. -/
def noRes : Cmd → State → List Nat := fun _ _ => []

/-- The commands that firmware takes, checks, executes and answers by the one path of R366 and R509, with the row's
specification and checks. JRNL commands that wait for the commit engine, the mix commands that can be late, KEY commands and
CONF_DESTROY add to that path and are stated apart. -/
def pathOf : Instr → Option (CmdSpec × (Cmd → State → Nat) × Cmd)
  | .legCreate c => some (legCreateSpec, legCreateCheck, c)
  | .legModify c => some (legModifySpec, legModifyCheck, c)
  | .legDestroy c => some (legDestroySpec, legDestroyCheck, c)
  | .legQuery c => some (legQuerySpec, legDestroyCheck, c)
  | .streamCreate c => some (streamCreateSpec, streamCreateCheck, c)
  | .streamDestroy c => some (streamDestroySpec, streamDestroyCheck, c)
  | .streamSubscribe c => some (streamSubscribeSpec, streamSubscribeCheck, c)
  | .streamModify c => some (streamModifySpec, streamModifyCheck, c)
  | .streamUnsubscribe c => some (streamUnsubscribeSpec, streamModifyCheck, c)
  | .streamQuery c => some (streamQuerySpec, streamQueryCheck, c)
  | .cascadePeerAdd c => some (cascadePeerAddSpec, cascadePeerAddCheck, c)
  | .cascadePeerRemove c => some (cascadePeerRemoveSpec, cascadePeerRemoveCheck, c)
  | .cascadeSetDevid c => some (cascadeSetDevidSpec, (fun _ _ => 0), c)
  | .qosPolicerSet c => some (qosPolicerSetSpec, qosPolicerSetCheck, c)
  | .qosDscpMapSet c => some (qosDscpMapSetSpec, qosDscpMapSetCheck, c)
  | .qosQueueCfg c => some (qosQueueCfgSpec, qosQueueCfgCheck, c)
  | .qosShaperSet c => some (qosShaperSetSpec, qosShaperSetCheck, c)
  | .qosClassSet c => some (qosClassSetSpec, qosClassSetCheck, c)
  | .qosPortSet c => some (qosPortSetSpec, qosPortSetCheck, c)
  | .qosGateSet c => some (qosGateSetSpec, qosGateSetCheck, c)
  | .qosTenantSet c => some (qosTenantSetSpec, qosTenantSetCheck, c)
  | .qosEstCfg c => some (qosEstCfgSpec, qosEstCfgCheck, c)
  | .qosSamplerSet c => some (qosSamplerSetSpec, qosSamplerSetCheck, c)
  | .qosQueueRelease c => some (qosQueueReleaseSpec, qosQueueReleaseCheck, c)
  | .qosQuery c => some (qosQuerySpec, qosQueryCheck, c)
  | .confCreate c => some (confCreateSpec, confCreateCheck, c)
  | .confModify c => some (confModifySpec, confModifyCheck, c)
  | .confPin c => some (confPinSpec, confPinCheck, c)
  | .confQuery c => some (confQuerySpec, confQueryCheck, c)
  | .mixSourceRemove c => some (mixSourceRemoveSpec, mixSourceRemoveCheck, c)
  | .mixClassCreate c => some (mixClassCreateSpec, mixClassCreateCheck, c)
  | .mixClassDestroy c => some (mixClassDestroySpec, mixClassDestroyCheck, c)
  | .mixLegJoin c => some (mixLegJoinSpec, mixLegJoinCheck, c)
  | .mixLegLeave c => some (mixLegLeaveSpec, mixLegLeaveCheck, c)
  | .mixTapSet c => some (mixTapSetSpec, mixTapSetCheck, c)
  | .mixQuery c => some (mixQuerySpec, mixQueryCheck, c)
  | .decCreate c => some (decCreateSpec, decCreateCheck, c)
  | .decModify c => some (decModifySpec, decModifyCheck, c)
  | .decDestroy c => some (decDestroySpec, decDestroyCheck, c)
  | .decQuery c => some (decQuerySpec, decQueryCheck, c)
  | .decSnapshot c => some (decSnapshotSpec, decSnapshotCheck, c)
  | .layoutCreate c => some (layoutCreateSpec, layoutCreateCheck, c)
  | .layoutSet c => some (layoutSetSpec, layoutSetCheck, c)
  | .layoutCellSet c => some (layoutCellSetSpec, layoutCellSetCheck, c)
  | .layoutDestroy c => some (layoutDestroySpec, layoutDestroyCheck, c)
  | .layoutImageLoad c => some (layoutImageLoadSpec, layoutImageLoadCheck, c)
  | .layoutImageFree c => some (layoutImageFreeSpec, layoutImageFreeCheck, c)
  | .layoutQuery c => some (layoutQuerySpec, layoutQueryCheck, c)
  | .encGroupCreate c => some (encGroupCreateSpec, encGroupCreateCheck, c)
  | .encGroupModify c => some (encGroupModifySpec, encGroupModifyCheck, c)
  | .encGroupDestroy c => some (encGroupDestroySpec, encGroupDestroyCheck, c)
  | .encRendAdd c => some (encRendAddSpec, encRendAddCheck, c)
  | .encRendModify c => some (encRendModifySpec, encRendModifyCheck, c)
  | .encRendRemove c => some (encRendRemoveSpec, encRendRemoveCheck, c)
  | .encRefresh c => some (encRefreshSpec, encRefreshCheck, c)
  | .encQuery c => some (encQuerySpec, encQueryCheck, c)
  | .kernelKeySet c => some (kernelKeySetSpec, kernelKeySetCheck, c)
  | .kernelLoad c => some (kernelLoadSpec, kernelLoadCheck, c)
  | .kernelUnload c => some (kernelUnloadSpec, kernelUnloadCheck, c)
  | .kernelQueueCfg c => some (kernelQueueCfgSpec, kernelQueueCfgCheck, c)
  | .kernelQueueRelease c => some (kernelQueueReleaseSpec, dispTarget, c)
  | .kernelChainSet c => some (kernelChainSetSpec, kernelChainSetCheck, c)
  | .kernelQuery c => some (kernelQuerySpec, kernelQueryCheck, c)
  | .kernelResume c => some (kernelResumeSpec, kernelTarget, c)
  | .kernelTenantSet c => some (kernelTenantSetSpec, kernelTenantSetCheck, c)
  | .sysNop c => some (sysNopSpec, (fun _ _ => 0), c)
  | .sysHello c => some (sysHelloSpec, sysHelloCheck, c)
  | .sysCaps c => some (sysCapsSpec, sysCapsCheck, c)
  | .sysInfo c => some (sysInfoSpec, (fun _ _ => 0), c)
  | .sysShutdown c => some (sysShutdownSpec, (fun _ _ => 0), c)
  | .sysNotifyCfg c => some (sysNotifyCfgSpec, sysNotifyCfgCheck, c)
  | .telemMeterSet c => some (telemMeterSetSpec, telemMeterSetCheck, c)
  | .telemMeterStop c => some (telemMeterStopSpec, telemMeterStopCheck, c)
  | .telemMeterRead c => some (telemMeterReadSpec, telemMeterReadCheck, c)
  | .telemCounters c => some (telemCountersSpec, telemCountersCheck, c)
  | .timeGet c => some (timeGetSpec, (fun _ _ => 0), c)
  | .timeSourceSet c => some (timeSourceSetSpec, timeSourceSetCheck, c)
  | .timeTod c => some (timeTodSpec, timeTodCheck, c)
  | .timeOffset c => some (timeOffsetSpec, timeOffsetCheck, c)
  | .timePpsOutSet c => some (timePpsOutSetSpec, timePpsOutSetCheck, c)
  | .timeTimerSet c => some (timeTimerSetSpec, timeTimerSetCheck, c)
  | .timeQuery c => some (timeQuerySpec, (fun _ _ => 0), c)
  | .jrnlAttest c => some (jrnlAttestSpec, jrnlAttestCheck, c)
  | .jrnlIdentity c => some (jrnlIdentitySpec, jrnlIdentityCheck, c)
  | .jrnlRead c => some (jrnlReadSpec, (fun _ _ => 0), c)
  | .jrnlRestore c => some (jrnlRestoreSpec, jrnlRestoreCheck, c)
  | .jrnlStatus c => some (jrnlStatusSpec, (fun _ _ => 0), c)
  | .testRun c => some (testRunSpec, testRunCheck, c)
  | .testSchedule c => some (testScheduleSpec, testScheduleCheck, c)
  | .testResult c => some (testResultSpec, (fun _ _ => 0), c)
  | .testFence c => some (testFenceSpec, testFenceCheck, c)
  | .testUnfence c => some (testUnfenceSpec, testUnfenceCheck, c)
  | .testPolicy c => some (testPolicySpec, (fun _ _ => 0), c)
  | _ => none

/-! ### Cores (R241, R257, R258) -/

/-- Core `c` runs instructions in `s` and its fetch at `pc` succeeds. -/
def State.runs (s : State) (c : Nat) : Prop := s.coreRuns c = true ∧ s.fetchFails c = false

/-- Core `c` issues `i` in `s`: it runs, its fetch succeeds from a clean line of the instruction cache, and the word at its
pc, where the model holds the image, spells `i`. -/
def State.issues (s : State) (c : Fin 516) (i : Instr) : Prop :=
  s.runs c.val ∧ (c.val < 512 → (s.core c.val).icErr.contains (s.core c.val).line = false) ∧
    ∀ w, s.wordAt c.val = some w → decodeCore (isCtl c.val) c w = .run (plain i)

/-- Where core `c` issues `i`, `exec` answers the next state `t`. -/
def Does (s : State) (c : Fin 516) (i : Instr) (t : State) : Prop := s.issues c i → exec i s = .next t

/-- The core that an instruction runs on; none for a command that is no core instruction. -/
def coreOf : Instr → Option Nat
  | .add c _ _ _ | .sub c _ _ _ | .and c _ _ _ | .or c _ _ _ | .xor c _ _ _ | .shl c _ _ _ | .shr c _ _ _
  | .sar c _ _ _ | .shlv c _ _ _ | .shrv c _ _ _ | .sarv c _ _ _ | .cmplt c _ _ _ | .cmpltu c _ _ _ | .min c _ _ _
  | .max c _ _ _ | .abs c _ _ | .mul c _ _ _ | .mulhi c _ _ _ | .addk c _ _ _ | .ork c _ _ _ | .andk c _ _ _
  | .brEq c _ _ _ | .brNe c _ _ _ | .brLt c _ _ _ _ | .brGe c _ _ _ _ | .cmpltk c _ _ _ | .movh c _ _ | .call c _
  | .done c _ | .mfs c _ _ | .mts c _ _ | .lbrk c _ | .dmaw c _ | .dmas c _ | .loop c _ _ _ _ _ | .setx c _ _
  | .seto c _ _ | .setcb c _ _ | .setcl c _ _ | .addx c _ _ | .movx c _ _ | .ldf c _ _ | .stf c _ _
  | .dmai c _ _ _ _ | .dmao c _ _ _ _ | .jmpr c _ | .ldH c _ _ _ _ | .ldHu c _ _ _ _ | .ldW c _ _ _ _
  | .ldD c _ _ _ _ | .stH c _ _ _ _ | .stW c _ _ _ _ | .stD c _ _ _ _ | .vclr c _ | .vmpy c _ _ | .vmac c _ _
  | .vmsu c _ _ | .vld c _ _ _ | .vst c _ _ _ | .vred c _ _ _ | .vext c _ _ _ _ | .vadd c _ _ _ | .vsub c _ _ _
  | .vacsx c _ _ _ _ | .vacsn c _ _ _ _ | .mfp c _ _ | .mtp c _ _ | .wfi c | .iret c | .fencef c | .romcall c _ => some c.val
  | _ => none

/-- Core `c` as an instruction finds it: no longer waiting. -/
def State.awake (s : State) (c : Nat) : Core := { s.core c with waiting := false }

/-- The state after an instruction of core `c` that leaves the core as `k` and takes no branch: `pc` moves on by the rule of
loop ends (R257). -/
def State.retire (s : State) (c : Nat) (k : Core) : State := s.setCore c (Core.loopEnd (s.core c).pc 3 [] k)

/-- The state after an instruction of core `c` that leaves the core as `k` and continues at `t`. -/
def State.jumpTo (s : State) (c : Nat) (k : Core) (t : Word) : State := s.setCore c { k with pc := t }

/-- Does no active loop level of a core end at its `pc`? -/
def Core.noLoopEnd (k : Core) : Bool := (k.loopAt k.pc []).isNone

end Sys2Proof.Machine
end

