-- ==== Sys2Proof/Certificates/Slice0/Obligations.lean ====
section
/-! DEFINITION. The statements for the provers. -/

open Sys2Proof Sys2Proof.Machine

/-- A step runs the command at the front of the queue on the queue's rest. -/
def Obligations.StepRunsFront : Prop :=
  ∀ (c : Instr) (r : List Instr) (s : State), step { s with pending := c :: r } = exec c { s with pending := r }

/-- On an empty queue one SAFE_SLOW tick passes and nothing else happens (the model's choice, log entry 1): both accumulators
grow by 40 ns times 2^32 plus `TIME_RATE` (R426). -/
def Obligations.IdleStepTicks : Prop :=
  ∀ (s : State), s.pending = [] →
    ∃ t, step s = .next t ∧
      t.time.acc = (s.time.acc + (40 * 2 ^ 32 + (s.reg .TIME_RATE).toInt).toNat) % 2 ^ 96 ∧
      t.time.eacc = (s.time.eacc + (40 * 2 ^ 32 + (s.reg .TIME_RATE).toInt).toNat) % 2 ^ 96 ∧
      { t with time := { t.time with acc := s.time.acc, eacc := s.time.eacc }, power := { t.power with ticks := s.power.ticks } } = s

/-- Reset values that the register tables give (R15, and the chapters' tables), one or more of each group of registers. -/
def Obligations.ResetValues : Prop :=
  let s := State.reset
  (∀ ch : Fin 64, s.reg .MBX_STAT ch.val = 0x40000000 ∧ s.reg .MBX_ACK ch.val = 0) ∧
  (∀ p : Fin 4, s.rf .HP_CTRL p.val 30 28 = 5 ∧ s.rf .HP_CTRL p.val 27 26 = 3) ∧
  s.rf .STRATA_SPILL_CFG 0 18 0 = 0x4000 ∧ s.rf .STRATA_AUDIO_RSV 0 18 0 = 0x8000 ∧ s.rf .STRATA_BUF_STAT 0 18 0 = 0x40000 ∧
  s.rf .STRATA_TGT_QID 0 15 0 = 0xC000 ∧
  (∀ p : Fin 8, s.rf .ETH_PCFG p.val 27 26 = 3 ∧ s.rf .ETH_PCFG p.val 25 22 = 0xF ∧ s.rf .EGS_PORT_CFG p.val 30 28 = 7 ∧
    s.rf .EGS_PORT_CFG p.val 22 16 = 0x14) ∧
  s.rf .CRYPT_TAMPER_EN 0 2 0 = 7 ∧
  s.rf .DISP_POOL 0 20 0 = 0x20000 ∧ s.rf .DISP_STAT 0 20 0 = 0x100000 ∧ s.rf .DISP_AFF 0 15 0 = 500 ∧
  (∀ c : Fin 512, s.reg .CORE_STAT c.val = BitVec.ofNat 32 c.val) ∧
  s.rf .MIXF_SCHED 0 31 16 = 4000 ∧ s.rf .MIXF_SCHED 0 15 0 = 5000 ∧
  (∀ p : Fin 8, s.rf .PICT_DEC_CTRL p.val 15 0 = 2000 ∧ s.rf .PICT_ENC_CTRL p.val 15 0 = 500) ∧
  (∀ n : Fin 2, s.rf .HBMC_CTRL n.val 15 0 = 100 ∧ s.rf .HBMC_THERM n.val 31 24 = 85 ∧ s.rf .HBMC_THERM n.val 23 16 = 80 ∧
    s.rf .HBMC_THERM n.val 15 8 = 105 ∧ s.rf .HBMC_TREFI n.val 11 0 = 390) ∧
  (∀ p : Fin 16, s.rb .HBMC_PORT_CFG p.val 31 = (p.val == 13 || p.val == 14) ∧ s.rf .HBMC_PORT_CFG p.val 27 22 = 48) ∧
  (∀ f : Fin 4, s.rf .SAFE_FAN f.val 31 24 = 255 ∧ s.rb .SAFE_FAN f.val 23 = true) ∧
  s.rf .TIME_PPS_OUT 0 19 0 = 100000 ∧ s.rf .CLKPWR_WDOG 0 15 0 = 1000 ∧
  (∀ d : Fin 35, s.pdState d.val = if d.val ≤ 1 ∨ d.val = 34 then 2 else 0) ∧ (∀ c : Fin 64, s.pdState (35 + c.val) = 0) ∧
  (∀ r : Fin 4096, s.rf .RING_INFO r.val 31 16 = 61440 + r.val ∧ s.ringOn r.val = false) ∧
  s.mem = [] ∧ s.csram = [] ∧ s.pending = []

/-- The sparse stores are in canonical form at reset.
The model's choices in it: log entry 9. -/
def Obligations.CanonicalAtReset : Prop := State.reset.Canon

/-- Every step from a state in canonical form answers a next state in canonical form: the memory, the control SRAM, the registers
and the counters.
The model's choices in it: log entry 9. -/
def Obligations.StepKeepsCanonical : Prop := ∀ s, s.Canon → ∃ t, step s = .next t ∧ t.Canon

/-- Every command answers a next state and leaves the queue of waiting commands alone; what it does, it does to the rest of the
device.
The model's choices in it: log entry 5. -/
def Obligations.ExecKeepsQueue : Prop := ∀ i s, ∃ t, exec i s = .next t ∧ t.pending = s.pending

/-- The path of every command that firmware takes (R352, R366, R400, R509): not taken, it stays posted and only time passes; refused,
it is answered with the first status that fails, and its effect does not happen; a dry run is answered and changes nothing
else. A command that has waited 100 ms is answered BUSY, or BAD_STATE where its epoch is stale (R367).
The model's choices in it: log entries 118, 121. -/
def Obligations.CommandPath : Prop :=
  (∀ i k check c s, pathOf i = some (k, check, c) →
    let b := s.advance c.el
    (b.takeable c = false → exec i s = .next b) ∧
    (b.takeable c = true → statusOf k check c b ≠ 0 → ∃ res, exec i s = .next (b.answer k c (statusOf k check c b) res) ∧
      (c.dmaOk = true → res = [])) ∧
    (b.takeable c = true → statusOf k check c b = 0 → c.dry = true → ∃ code, exec i s = .next (b.answer k c code []))) ∧
  (∀ (c : Cmd) (s : State), let b := s.advance c.el
    let k : CmdSpec := { op := 0, chan := .any }
    (b.takeable c = false → exec (.commandStale c) s = .next b) ∧
    (b.takeable c = true →
      (∀ r, c.via = .ring r → exec (.commandStale c) s = .next (b.answer k c BUSY [])) ∧
      (∀ ch : Fin 64, c.via = .mbx ch →
        (b.msgEpoch ch.val = b.txEpoch ch.val → exec (.commandStale c) s = .next (b.answer k c BUSY [])) ∧
        (b.msgEpoch ch.val ≠ b.txEpoch ch.val → exec (.commandStale c) s = .next (b.answer k c BAD_STATE [])))))

/-- The order of the checks that every command shares (R509): stale epoch, collision, lateness, shutdown, halted ROM, reserved
flags, version, minor version, channel, and then the command's own.
The model's choices in it: log entry 119. -/
def Obligations.CheckOrder : Prop :=
  ∀ (k : CmdSpec) (check : Cmd → State → Nat) (c : Cmd) (s : State) (ch : Fin 64), c.via = .mbx ch →
    let st := statusOf k check c s
    let exempt := k.op = 0 ∨ k.op = 1 ∨ k.op = 2
    (s.msgEpoch ch.val ≠ s.txEpoch ch.val → st = BAD_STATE) ∧
    (s.msgEpoch ch.val = s.txEpoch ch.val →
      (s.rb .MBX_STAT ch.val 26 = true → st = BUSY) ∧
      (s.rb .MBX_STAT ch.val 26 = false →
        (c.late = true → st = BUSY) ∧
        (c.late = false → s.vusta.shutdown = true → 4 ≤ ch.val → st = BUSY) ∧
        (c.late = false → s.vusta.shutdown = false → s.rb .TRUST_STAT 0 29 = false →
          (8 ≤ c.flags.toNat → st = BAD_PARAM) ∧
          (c.flags.toNat < 8 → 4 ≤ ch.val → ¬exempt →
            ((s.fn (64 * chTenant ch.val)).ver = 0 → st = VERSION) ∧
            ((s.fn (64 * chTenant ch.val)).ver ≠ 0 → (s.fn (64 * chTenant ch.val)).ver < 0x100 + k.minor → st = UNSUPPORTED) ∧
            ((s.fn (64 * chTenant ch.val)).ver ≠ 0 → 0x100 + k.minor ≤ (s.fn (64 * chTenant ch.val)).ver →
              ((k.chan = .ch0 ∨ k.chan = .ch1) → st = NOT_OWNER) ∧
              ((k.chan = .any ∨ k.chan = .fn ∨ k.chan = .pf) → k.rsvSet c = false →
                (check c s ≠ 0 → st = check c s) ∧
                (check c s = 0 → k.dma = true → (s.fn (64 * chTenant ch.val)).bme = false → st = BAD_STATE) ∧
                (check c s = 0 → k.dma = false → st = 0)))))))

/-- A command on an object of another tenant, or for a VF of another function, is answered NOT_OWNER and has no effect (R371); a
conference that has been orphaned belongs to nobody (R410). -/
def Obligations.ForeignObjects : Prop :=
  ∀ (c : Cmd) (s : State) (f : Nat) (o : Own), c.fn = some f → (o.fn / 64 ≠ c.tenant ∨ (c.isVf = true ∧ o.fn ≠ c.fnN)) →
    let b := s.advance c.el
    let refused (i : Instr) (k : CmdSpec) : Prop := generic k c b = 0 → exec i s = .next (b.answer k c NOT_OWNER [])
    b.takeable c = true →
    (∀ x, c.h < 16384 → Tbl.find b.net.legs c.h = some x → x.own = o → refused (.legDestroy c) legDestroySpec) ∧
    (∀ x, c.h < 262144 → Tbl.find b.net.streams c.h = some x → x.own = o → refused (.streamDestroy c) streamDestroySpec) ∧
    (∀ x, c.h < 49152 → Tbl.find b.net.flowqs c.h = some x → x.own = o → refused (.qosQueueRelease c) qosQueueReleaseSpec) ∧
    (∀ x, c.h < 2048 → Tbl.find b.mix.confs c.h = some x → (x.own = o ∨ x.orphan = true) → refused (.confDestroy c) confDestroySpec) ∧
    (∀ x, c.h < 20480 → Tbl.find b.mix.sources c.h = some x → x.own = o → refused (.mixSourceRemove c) mixSourceRemoveSpec) ∧
    (∀ x, c.h < 16384 → Tbl.find b.mix.classes c.h = some x → x.own = o → refused (.mixClassDestroy c) mixClassDestroySpec) ∧
    (∀ x, c.h < 4096 → Tbl.find b.video.decs c.h = some x → x.own = o → refused (.decDestroy c) decDestroySpec) ∧
    (∀ x, c.h < 1024 → Tbl.find b.video.layouts c.h = some x → x.own = o → refused (.layoutDestroy c) layoutDestroySpec) ∧
    (∀ x, c.h < 4096 → Tbl.find b.video.images c.h = some x → x.own = o → refused (.layoutImageFree c) layoutImageFreeSpec) ∧
    (∀ x, c.h < 2048 → Tbl.find b.video.groups c.h = some x → x.own = o → refused (.encGroupDestroy c) encGroupDestroySpec) ∧
    (∀ x, c.h < 2048 → Tbl.find b.video.rends c.h = some x → x.own = o → refused (.encRendRemove c) encRendRemoveSpec) ∧
    (∀ x, c.h < 1024 → Tbl.find b.disp.kernels c.h = some x → x.own = o → refused (.kernelUnload c) kernelUnloadSpec) ∧
    (∀ x, 49152 ≤ c.h → c.h < 61440 → Tbl.find b.disp.qs c.h = some x → x.own = o →
      refused (.kernelQueueRelease c) kernelQueueReleaseSpec)

/-- The answer on a mailbox (R359, R360, R366): result words and `MBX_ACK` on a tenant's channel, the reply on the same path on
channels 0 and 1; the channel is free and the command is no longer posted. -/
def Obligations.AnswerOnMailbox : Prop :=
  ∀ (k : CmdSpec) (c : Cmd) (code : Nat) (res : List Nat) (s : State) (ch : Fin 64), c.via = .mbx ch → code < 65536 →
    c.event = false →
    let t := s.answer k c code res
    t.vusta.posted = s.vusta.posted.erase (.mbx ch) ∧ t.full ch.val = false ∧ t.rb .MBX_STAT ch.val 30 = true ∧
    (4 ≤ ch.val → t.rf .MBX_ACK ch.val 31 16 = code ∧ t.rf .MBX_ACK ch.val 7 0 = c.seq.toNat ∧
      (∀ i, i < 4 → t.reg .MBX_RESP (4 * ch.val + i) = BitVec.ofNat 32 (nth res 0 i))) ∧
    (ch.val < 4 → t.regs = (s.freeChan ch.val).regs ∧ t.out = .sideReply ch.val ([BitVec.ofNat 32 (code * 65536 + c.seq.toNat),
      BitVec.ofNat 32 c.h] ++ (List.range 4).map fun i => BitVec.ofNat 32 (nth res 0 i)) :: s.out) ∧
    t.mem = s.mem ∧ t.cnts = s.cnts ∧ t.fifos = s.fifos

/-- The answer on a completion ring (R368). -/
def Obligations.AnswerOnRing : Prop :=
  ∀ (k : CmdSpec) (c : Cmd) (code : Nat) (res : List Nat) (s : State) (r : Fin 4096), c.via = .ring r → c.event = false →
    s.ringType r.val = 0 → s.pairOf r.val ≠ r.val → s.ringType (s.pairOf r.val) = 1 →
    let p := s.pairOf r.val
    let f := s.fifo (ringId p)
    let t := s.answer k c code res
    let w (n : Nat) : Word := BitVec.ofNat 32 n
    (f.discard = false → (t.fifo (ringId p)).items = f.items ++ [[w (code * 65536 + c.seq.toNat), w c.h, w (nth res 0 0),
      w (nth res 0 1), w (nth res 0 2), w (nth res 0 3), w (k.op * 65536 + (s.fn (ringFn r.val)).epoch * 256), 0]]) ∧
    (t.fifo (ringId p)).pidx = (f.pidx + 1) % 65536 ∧
    t.fifo (ringId r.val) = (s.fifo (ringId r.val)).consume 1 ∧ t.vusta.posted = s.vusta.posted.erase (.ring r) ∧
    t.regs = s.regs ∧ t.mem = s.mem

/-- The register instructions of R242: the results wrap modulo 2^32, compares and halves are signed where R242 says so, and the
result goes to d.
The model's choices in it: log entry 234. -/
def Obligations.AluResults : Prop :=
  ∀ (c : Fin 516) (d x y sh : BitVec 5) (imm : Half) (s : State),
    let k := s.awake c.val
    let a := k.gr x
    let b := k.gr y
    let gives (i : Instr) (v : Word) : Prop := Does s c i (s.retire c.val (k.setg d v))
    gives (.add c d x y) (BitVec.ofInt 32 (a.toInt + b.toInt)) ∧ gives (.sub c d x y) (BitVec.ofInt 32 (a.toInt - b.toInt)) ∧
    gives (.and c d x y) (a &&& b) ∧ gives (.or c d x y) (a ||| b) ∧ gives (.xor c d x y) (a ^^^ b) ∧
    gives (.shl c d x sh) (BitVec.ofNat 32 (a.toNat * 2 ^ sh.toNat)) ∧
    gives (.shr c d x sh) (BitVec.ofNat 32 (a.toNat / 2 ^ sh.toNat)) ∧
    gives (.sar c d x sh) (BitVec.ofInt 32 (a.toInt / 2 ^ sh.toNat)) ∧
    gives (.shlv c d x y) (BitVec.ofNat 32 (a.toNat * 2 ^ (b.toNat % 32))) ∧
    gives (.shrv c d x y) (BitVec.ofNat 32 (a.toNat / 2 ^ (b.toNat % 32))) ∧
    gives (.sarv c d x y) (BitVec.ofInt 32 (a.toInt / 2 ^ (b.toNat % 32))) ∧
    gives (.cmplt c d x y) (if a.toInt < b.toInt then 1 else 0) ∧ gives (.cmpltu c d x y) (if a.toNat < b.toNat then 1 else 0) ∧
    gives (.min c d x y) (BitVec.ofInt 32 (min a.toInt b.toInt)) ∧ gives (.max c d x y) (BitVec.ofInt 32 (max a.toInt b.toInt)) ∧
    gives (.abs c d x) (BitVec.ofNat 32 a.toInt.natAbs) ∧
    gives (.mul c d x y) (BitVec.ofInt 32 (a.toInt * b.toInt)) ∧
    gives (.mulhi c d x y) (BitVec.ofInt 32 (a.toInt * b.toInt / 2 ^ 32)) ∧
    gives (.addk c d x imm) (BitVec.ofInt 32 (a.toInt + imm.toInt)) ∧ gives (.ork c d x imm) (a ||| BitVec.ofNat 32 imm.toNat) ∧
    gives (.andk c d x imm) (BitVec.ofNat 32 (a.toNat % 65536) &&& BitVec.ofNat 32 imm.toNat) ∧
    gives (.cmpltk c d x imm) (if a.toInt < imm.toInt then 1 else 0) ∧ gives (.movh c d imm) (BitVec.ofNat 32 (imm.toNat * 65536))

/-- Register g0, register pairs and their lanes (R239). -/
def Obligations.RegisterRules : Prop :=
  (∀ (k : Core) (v : Word), k.gr 0 = 0 ∧ k.setg 0 v = k) ∧
  (∀ (k : Core) (r q : BitVec 5) (v : Word), r ≠ 0 → (k.setg r v).gr r = v ∧ (q ≠ r → (k.setg r v).gr q = k.gr q)) ∧
  (∀ (k : Core) (p : BitVec 5), oddPair p = false →
    k.lane p 0 = (k.gr p).extractLsb' 0 16 ∧ k.lane p 1 = (k.gr p).extractLsb' 16 16 ∧
    k.lane p 2 = (k.gr (p + 1)).extractLsb' 0 16 ∧ k.lane p 3 = (k.gr (p + 1)).extractLsb' 16 16) ∧
  (∀ (s : State) (c : Nat) (k : Core) (a i : Nat), s.lanesAt c k a i = (BitVec.ofNat 16
    ((s.ldByte c k (a + 2 * i)).toNat + 256 * (s.ldByte c k (a + 2 * i + 1)).toNat)).toInt) ∧
  (∀ (c : Fin 516) (p q r t : BitVec 5) (n : BitVec 3) (pm m : BitVec 2) (disp : Half) (sh : BitVec 5) (s : State),
    oddPair p = true →
    ∀ i ∈ ([.ldD c p n pm disp, .stD c p n pm disp, .ldf c q p, .stf c q p, .dmai c q p r sh, .dmao c q p r sh,
      .vmpy c m (.vr p q), .vmpy c m (.vr q p), .vmac c m (.vr p q), .vmac c m (.vr q p), .vmsu c m (.vr p q),
      .vmsu c m (.vr q p), .vld c m (.vr p) sh, .vst c m (.vr p) sh, .vadd c p q r, .vadd c q p r, .vadd c q r p,
      .vsub c p q r, .vsub c q p r, .vsub c q r p, .vacsx c p q r t, .vacsx c q p r t, .vacsx c q r p t, .vacsx c q r t p,
      .vacsn c p q r t, .vacsn c q p r t, .vacsn c q r p t, .vacsn c q r t p] : List Instr),
    Does s c i (s.coreFault c.val 1 0))

/-- Branches, `call` and `jmpr` (R241, R242): offsets count instructions from the branch; a branch that is not taken goes on.
`loop` and `lbrk` (R256), and what happens at the end of a body (R257).
The model's choices in it: log entry 88. -/
def Obligations.BranchAndLoopResults : Prop :=
  (∀ (c : Fin 516) (x y : BitVec 5) (u : Bool) (ofs : Half) (o27 : BitVec 27) (s : State),
    let k := s.awake c.val
    let a := k.gr x
    let b := k.gr y
    let goes (i : Instr) (p : Prop) : Prop :=
      (p → Does s c i (s.jumpTo c.val k (BitVec.ofInt 32 (k.pc.toInt + 4 * ofs.toInt)))) ∧
      (¬p → Does s c i (s.retire c.val k))
    goes (.brEq c x y ofs) (a = b) ∧ goes (.brNe c x y ofs) (a ≠ b) ∧
    goes (.brLt c x y u ofs) (if u then a.toNat < b.toNat else a.toInt < b.toInt) ∧
    goes (.brGe c x y u ofs) (if u then b.toNat ≤ a.toNat else b.toInt ≤ a.toInt) ∧
    Does s c (.call c o27) (s.jumpTo c.val (k.setg 30 (k.pc + 4)) (BitVec.ofInt 32 (k.pc.toInt + 4 * o27.toInt))) ∧
    Does s c (.jmpr c x) (s.jumpTo c.val k a)) ∧
  (∀ (c : Fin 516) (l : BitVec 2) (src : Bool) (count : BitVec 11) (x : BitVec 5) (stop : BitVec 12) (s : State),
    let k := s.awake c.val
    let a := k.pc + 4
    let b := k.pc + BitVec.ofNat 32 (4 * stop.toNat)
    let n := if src then (k.gr x).toNat % 65536 else count.toNat
    let k' := { k with
      lc := Tbl.set k.lc l.toNat (BitVec.ofNat 16 n), ls := Tbl.set k.ls l.toNat a, le := Tbl.set k.le l.toNat b }
    ((l = 3 ∨ stop = 0) → Does s c (.loop c l src count x stop) (s.coreFault c.val 1 0)) ∧
    (l ≠ 3 → stop ≠ 0 → (Tbl.get k.act false l.toNat = true ∨ (∃ j, j < 3 ∧ Tbl.get k.act false j = true ∧
        (a.toNat < (Tbl.get k.ls 0 j).toNat ∨ (Tbl.get k.le 0 j).toNat < b.toNat))) →
      Does s c (.loop c l src count x stop) (s.coreFault c.val 8 0)) ∧
    (l ≠ 3 → stop ≠ 0 → Tbl.get k.act false l.toNat = false → (∀ j, j < 3 → Tbl.get k.act false j = true →
        (Tbl.get k.ls 0 j).toNat ≤ a.toNat ∧ b.toNat ≤ (Tbl.get k.le 0 j).toNat) →
      Does s c (.loop c l src count x stop) (if n = 0 then s.jumpTo c.val k' (b + 4)
        else s.jumpTo c.val { k' with act := Tbl.set k.act l.toNat true } a))) ∧
  (∀ (c : Fin 516) (l : BitVec 5) (s : State),
    Does s c (.lbrk c l) (if 3 ≤ l.toNat then s.coreFault c.val 1 0
      else s.retire c.val { s.awake c.val with act := Tbl.set (s.awake c.val).act l.toNat false })) ∧
  (∀ (s : State) (c : Nat) (k : Core), k.loopAt (s.core c).pc [] = none →
    (s.retire c k).core c = { k with pc := (s.core c).pc + 4 }) ∧
  (∀ (s : State) (c : Nat) (k : Core) (l : Nat), k.loopAt (s.core c).pc [] = some l → 1 < (Tbl.get k.lc 0 l).toNat →
    (s.retire c k).core c = { k with
      lc := Tbl.set k.lc l (Tbl.get k.lc 0 l - 1)
      pc := Tbl.get k.ls 0 l }) ∧
  (∀ (s : State) (c : Nat) (k : Core) (l : Nat), k.loopAt (s.core c).pc [] = some l → (Tbl.get k.lc 0 l).toNat ≤ 1 →
    k.loopAt (s.core c).pc [l] = none →
    (s.retire c k).core c = { k with
      lc := Tbl.set k.lc l 0
      act := Tbl.set k.act l false
      pc := (s.core c).pc + 4 })

/-- `mfs` and `mts` over every number of the special-register table (R240). -/
def Obligations.SpecialRegisters : Prop :=
  ∀ (c : Fin 516) (d x : BitVec 5) (n : BitVec 6) (s : State),
    let k := s.awake c.val
    let cyc := s.cyc c.val
    let v := k.gr x
    let h : Half := v.extractLsb' 0 16
    let reads (w : Word) : Prop := Does s c (.mfs c d n) (s.retire c.val (k.setg d w))
    let writes (k' : Core) : Prop := Does s c (.mts c n x) (s.retire c.val k')
    (n = 0 → reads k.st ∧ writes { k with st := k.st &&& ~~~(v &&& 7) }) ∧
    (n = 1 → reads k.sv ∧ writes { k with sv := v }) ∧
    (n = 2 → reads (BitVec.ofNat 32 (k.tenant % 4 * 2 ^ 30 + c.val % 512)) ∧ writes k) ∧
    (n = 4 → Does s c (.mfs c d n) (s.retire c.val
      ({ k with cycHi := BitVec.ofNat 32 (cyc / 2 ^ 32) }.setg d (BitVec.ofNat 32 cyc))) ∧ writes k) ∧
    (n = 5 → reads k.cycHi ∧ writes k) ∧
    (0x10 ≤ n.toNat → n.toNat ≤ 0x17 → reads ((k.xr (n.toNat - 0x10)).zeroExtend 32) ∧ writes (k.setx (n.toNat - 0x10) h)) ∧
    (0x18 ≤ n.toNat → n.toNat ≤ 0x1F → reads ((Tbl.get k.o 0 (n.toNat - 0x18)).signExtend 32) ∧
      writes { k with o := Tbl.set k.o (n.toNat - 0x18) h }) ∧
    (0x20 ≤ n.toNat → n.toNat ≤ 0x27 → reads ((Tbl.get k.cb 0 (n.toNat - 0x20)).zeroExtend 32) ∧
      writes { k with cb := Tbl.set k.cb (n.toNat - 0x20) h }) ∧
    (0x28 ≤ n.toNat → n.toNat ≤ 0x2F → reads ((Tbl.get k.cl 0 (n.toNat - 0x28)).zeroExtend 32) ∧
      writes { k with cl := Tbl.set k.cl (n.toNat - 0x28) h }) ∧
    (0x30 ≤ n.toNat → n.toNat ≤ 0x32 → reads ((Tbl.get k.lc 0 (n.toNat - 0x30)).zeroExtend 32) ∧
      writes { k with lc := Tbl.set k.lc (n.toNat - 0x30) h }) ∧
    (0x34 ≤ n.toNat → n.toNat ≤ 0x36 → reads (Tbl.get k.ls 0 (n.toNat - 0x34)) ∧ writes k) ∧
    (0x38 ≤ n.toNat → n.toNat ≤ 0x3A → reads (Tbl.get k.le 0 (n.toNat - 0x38)) ∧ writes k) ∧
    (n.toNat = 3 ∨ (6 ≤ n.toNat ∧ n.toNat < 0x10) ∨ n.toNat = 0x33 ∨ n.toNat = 0x37 ∨ 0x3B ≤ n.toNat →
      reads 0 ∧ Does s c (.mts c n x) (s.coreFault c.val 1 0))

/-- The X-format instructions (R248) and the step they share (R247). -/
def Obligations.AddressRegisters : Prop :=
  (∀ (c : Fin 516) (n : BitVec 3) (imm : Half) (x : BitVec 5) (s : State),
    let k := s.awake c.val
    let i := n.toNat
    Does s c (.setx c n imm) (s.retire c.val { k with x := Tbl.set k.x i imm }) ∧
    Does s c (.seto c n imm) (s.retire c.val { k with o := Tbl.set k.o i imm }) ∧
    Does s c (.setcb c n imm) (s.retire c.val { k with cb := Tbl.set k.cb i imm }) ∧
    Does s c (.setcl c n imm) (s.retire c.val { k with cl := Tbl.set k.cl i imm }) ∧
    Does s c (.addx c n imm) (s.retire c.val { k with x := Tbl.set k.x i (k.step i imm.toInt) }) ∧
    Does s c (.movx c n x) (s.retire c.val { k with x := Tbl.set k.x i ((k.gr x).extractLsb' 0 16) })) ∧
  (∀ (k : Core) (n : Nat) (m : Int), Tbl.get k.cl 0 n = 0 → k.step n m = BitVec.ofInt 16 ((k.xr n).toNat + m)) ∧
  (∀ (k : Core) (n : Nat) (m : Int), let cb : Int := (Tbl.get k.cb 0 n).toNat
    let cl : Int := (Tbl.get k.cl 0 n).toNat
    let x : Int := (k.xr n).toNat
    cl ≠ 0 → cb ≤ x → x < cb + cl → cb + cl ≤ 65536 → m ≤ cl → -cl ≤ m →
      cb ≤ (k.step n m).toNat ∧ ((k.step n m).toNat : Int) < cb + cl ∧ ∃ j : Int, ((k.step n m).toNat : Int) = x + m + j * cl)

/-- The loads of R246 where no fault of R236, R237 or R249 stops them: the value, little-endian, and the address register
afterwards. A displacement is reserved where `pm` post-modifies, and an odd pair is no operand of `ld.d` (R239).
The model's choices in it: log entry 84. -/
def Obligations.LoadResults : Prop :=
  ∀ (c : Fin 516) (r : BitVec 5) (n : BitVec 3) (pm : BitVec 2) (disp : Half) (s : State),
    let k := s.awake c.val
    let gives (i : Instr) (size : Nat) (put : Core → Nat → Core) : Prop :=
      let q := k.addr n.toNat pm.toNat disp.toInt size
      let t := s.scrubLdm c.val q.2 q.1 size
      s.ldmFault c.val k n.toNat q.1 size size true = 0 →
        Does s c i (t.1.retire c.val (put t.2 (s.ldN c.val k q.1 size)))
    ((pm = 0 ∨ disp = 0) →
      gives (.ldH c r n pm disp) 2 (fun k v => k.setg r ((BitVec.ofNat 16 v).signExtend 32)) ∧
      gives (.ldHu c r n pm disp) 2 (fun k v => k.setg r (BitVec.ofNat 32 v)) ∧
      gives (.ldW c r n pm disp) 4 (fun k v => k.setg r (BitVec.ofNat 32 v)) ∧
      (oddPair r = false → gives (.ldD c r n pm disp) 8
        (fun k v => (k.setg r (BitVec.ofNat 32 (v % 2 ^ 32))).setg (r + 1) (BitVec.ofNat 32 (v / 2 ^ 32))))) ∧
    (pm = 0 → ∀ size, k.addr n.toNat pm.toNat disp.toInt size = (((k.xr n.toNat).toNat + disp.toNat) % 65536, k)) ∧
    (pm ≠ 0 → ∀ size : Nat, k.addr n.toNat pm.toNat disp.toInt size = ((k.xr n.toNat).toNat, k.setx n.toNat (k.step n.toNat
      (if pm = 1 then (Tbl.get k.o 0 n.toNat).toInt else if pm = 2 then (size : Int) else -(size : Int)))))

/-- The stores of R246 where no fault stops them, byte by byte: the bytes stored hold the value, little-endian, and every other
byte of the LDM, the prefetch slots among them (R235), reads as before; the address register is stepped, and nothing else
of the core changes but `pc` and loop counts.
The model's choices in it: log entry 84. -/
def Obligations.StoreResults : Prop :=
  ∀ (c : Fin 516) (r : BitVec 5) (n : BitVec 3) (pm : BitVec 2) (disp : Half) (s : State),
    (pm = 0 ∨ disp = 0) →
    let k := s.awake c.val
    let stores (i : Instr) (size v : Nat) : Prop :=
      let q := k.addr n.toNat pm.toNat disp.toInt size
      s.issues c i → s.ldmFault c.val k n.toNat q.1 size size false = 0 →
      ∃ t, exec i s = .next t ∧
        (∀ j, j < size → (512 ≤ c.val ∨ q.1 + j < 0xFF00) →
          t.ldByte c.val (t.core c.val) (q.1 + j) = BitVec.ofNat 8 (v / 2 ^ (8 * j))) ∧
        (∀ b, b < 65536 → (b < q.1 ∨ q.1 + size ≤ b ∨ (c.val < 512 ∧ 0xFF00 ≤ b)) →
          t.ldByte c.val (t.core c.val) b = s.ldByte c.val (s.core c.val) b) ∧
        (∀ c', c' ≠ c.val → t.core c' = s.core c') ∧
        (∀ a, (c.val < 512 ∨ a < k.win.toNat * 65536 + q.1 ∨ k.win.toNat * 65536 + q.1 + size ≤ a) →
          Mem.get t.csram a = Mem.get s.csram a) ∧
        { t with cores := s.cores, csram := s.csram } = s ∧
        { t.core c.val with
          ldm := k.ldm, ldmErr := k.ldmErr, pc := k.pc, lc := k.lc, act := k.act } = q.2
    stores (.stH c r n pm disp) 2 ((k.gr r).toNat % 65536) ∧ stores (.stW c r n pm disp) 4 (k.gr r).toNat ∧
    (oddPair r = false → stores (.stD c r n pm disp) 8 ((k.gr r).toNat + 2 ^ 32 * (k.gr (r + 1)).toNat))

/-- The faults of an LDM access (R236, R237, R249): a misaligned address is ALIGN, an access through x7 outside the stack is
STACK, a double-bit error on a media core's read is LDM_ECC, and the instruction then has no other effect (R245).
The model's choices in it: log entries 84, 89. -/
def Obligations.LdmFaults : Prop :=
  ∀ (c : Fin 516) (r : BitVec 5) (n : BitVec 3) (pm : BitVec 2) (disp : Half) (s : State),
    (pm = 0 ∨ disp = 0) →
    let k := s.awake c.val
    let faults (i : Instr) (size : Nat) (rd : Bool) : Prop :=
      let a := (k.addr n.toNat pm.toNat disp.toInt size).1
      (a % size ≠ 0 → Does s c i (s.coreFault c.val 3 a)) ∧
      (a % size = 0 → n = 7 → (a < 0xE000 ∨ 0xFF00 ≤ a) → Does s c i (s.coreFault c.val 4 a)) ∧
      (a % size = 0 → ¬(n = 7 ∧ (a < 0xE000 ∨ 0xFF00 ≤ a)) → rd = true → c.val < 512 →
        Tbl.find k.ldmErr (a / 8) = some true → Does s c i (s.coreFault c.val 7 a))
    faults (.ldH c r n pm disp) 2 true ∧ faults (.ldHu c r n pm disp) 2 true ∧ faults (.ldW c r n pm disp) 4 true ∧
    faults (.stH c r n pm disp) 2 false ∧ faults (.stW c r n pm disp) 4 false ∧
    (oddPair r = false → faults (.ldD c r n pm disp) 8 true ∧ faults (.stD c r n pm disp) 8 false)

/-- The vector instructions over accumulators (R253, R254): products and sums are exact and an accumulator lane keeps them
modulo 2^40; a result that leaves the accumulators is rounded, clamped and sets st.`SAT` when a lane is clamped. -/
def Obligations.VectorAccumulators : Prop :=
  ∀ (c : Fin 516) (acc : BitVec 2) (p q d sh : BitVec 5) (ln m1 m2 : BitVec 2) (xA xB : BitVec 3) (s : State),
    let k := s.awake c.val
    let A := k.accL acc.toNat
    let S := fun i => (k.lane p i).toInt
    let T := fun i => (k.lane q i).toInt
    let rnd (v : Int) : Int := (v + (if sh = 0 then 0 else 2 ^ (sh.toNat - 1))) / 2 ^ sh.toNat
    let clip (n : Nat) (v : Int) : Int := max (-2 ^ (n - 1)) (min (2 ^ (n - 1) - 1) v)
    let wrapped (v : Nat → Int) : Bool := (List.range 4).any fun i => decide (v i < -2 ^ 39 ∨ 2 ^ 39 ≤ v i)
    let clipped := (List.range 4).any fun i => decide (clip 16 (rnd (A i)) ≠ rnd (A i))
    let aw := k.addr xA.toNat m1.toNat 0 8
    let rA := s.vmRead c.val k xA.toNat m1.toNat
    let rB := s.vmRead c.val rA.2.2 xB.toNat m2.toNat
    let u := s.scrubLdm c.val rB.2.2 rA.2.1 8
    let u' := u.1.scrubLdm c.val u.2 rB.2.1 8
    let Sm := s.lanesAt c.val k rA.2.1
    let Tm := s.lanesAt c.val k rB.2.1
    Does s c (.vclr c acc) (s.retire c.val (k.setAcc acc.toNat fun _ => 0)) ∧
    (oddPair p = false → oddPair q = false →
      Does s c (.vmpy c acc (.vr p q)) (s.retire c.val (k.setAcc acc.toNat fun i => S i * T i)) ∧
      Does s c (.vmac c acc (.vr p q)) (s.retire c.val ((k.setAcc acc.toNat fun i => A i + S i * T i).flag 2
        (wrapped fun i => A i + S i * T i))) ∧
      Does s c (.vmsu c acc (.vr p q)) (s.retire c.val ((k.setAcc acc.toNat fun i => A i - S i * T i).flag 2
        (wrapped fun i => A i - S i * T i)))) ∧
    (rA.1 = 0 → rB.1 = 0 →
      Does s c (.vmpy c acc (.vm xA m1 xB m2)) (u'.1.retire c.val (u'.2.setAcc acc.toNat fun i => Sm i * Tm i)) ∧
      Does s c (.vmac c acc (.vm xA m1 xB m2)) (u'.1.retire c.val ((u'.2.setAcc acc.toNat fun i => A i + Sm i * Tm i).flag 2
        (wrapped fun i => A i + Sm i * Tm i))) ∧
      Does s c (.vmsu c acc (.vm xA m1 xB m2)) (u'.1.retire c.val ((u'.2.setAcc acc.toNat fun i => A i - Sm i * Tm i).flag 2
        (wrapped fun i => A i - Sm i * Tm i)))) ∧
    (sh.toNat ≤ 23 → oddPair p = false →
      Does s c (.vld c acc (.vr p) sh) (s.retire c.val (k.setAcc acc.toNat fun i => S i * 2 ^ sh.toNat))) ∧
    (sh.toNat ≤ 23 → rA.1 = 0 → let w := s.scrubLdm c.val rA.2.2 rA.2.1 8
      Does s c (.vld c acc (.vm xA m1) sh) (w.1.retire c.val (w.2.setAcc acc.toNat fun i => Sm i * 2 ^ sh.toNat))) ∧
    (23 < sh.toNat → ∀ src, Does s c (.vld c acc src sh) (s.coreFault c.val 1 0)) ∧
    (oddPair p = false → Does s c (.vst c acc (.vr p) sh) (s.retire c.val
      ((k.setLanes p fun i => BitVec.ofInt 16 (clip 16 (rnd (A i)))).flag 0 clipped))) ∧
    (s.ldmFault c.val k xA.toNat aw.1 2 8 false = 0 →
      s.issues c (.vst c acc (.vm xA m1) sh) → ∃ t, exec (.vst c acc (.vm xA m1) sh) s = .next t ∧
        (∀ j, j < 8 → (512 ≤ c.val ∨ (aw.1 + j) % 65536 < 0xFF00) → t.ldByte c.val (t.core c.val) (aw.1 + j)
          = BitVec.ofNat 8 ((BitVec.ofInt 16 (clip 16 (rnd (A (j / 2))))).toNat / 256 ^ (j % 2))) ∧
        (∀ b, b < 65536 → ((∀ j, j < 8 → b ≠ (aw.1 + j) % 65536) ∨ (c.val < 512 ∧ 0xFF00 ≤ b)) →
          t.ldByte c.val (t.core c.val) b = s.ldByte c.val k b) ∧
        (∀ c', c' ≠ c.val → t.core c' = s.core c') ∧
        (∀ a, (c.val < 512 ∨ ∀ j, j < 8 → a ≠ k.win.toNat * 65536 + (aw.1 + j) % 65536) →
          Mem.get t.csram a = Mem.get s.csram a) ∧
        { t with cores := s.cores, csram := s.csram } = s ∧
        { t.core c.val with
          ldm := k.ldm, ldmErr := k.ldmErr, pc := k.pc, lc := k.lc, act := k.act } = aw.2.flag 0 clipped) ∧
    Does s c (.vred c acc d sh) (s.retire c.val ((k.setg d (BitVec.ofInt 32 (clip 32 (rnd (A 0 + A 1 + A 2 + A 3))))).flag 0
      (decide (clip 32 (rnd (A 0 + A 1 + A 2 + A 3)) ≠ rnd (A 0 + A 1 + A 2 + A 3))))) ∧
    Does s c (.vext c acc d ln sh) (s.retire c.val ((k.setg d (BitVec.ofInt 32 (clip 32 (rnd (A ln.toNat))))).flag 0
      (decide (clip 32 (rnd (A ln.toNat)) ≠ rnd (A ln.toNat)))))

/-- Saturating lane arithmetic (R253) and add-compare-select (R255). -/
def Obligations.VectorLanes : Prop :=
  ∀ (c : Fin 516) (d p q b : BitVec 5) (s : State),
    oddPair d = false → oddPair p = false → oddPair q = false → oddPair b = false →
    let k := s.awake c.val
    let S := fun i => (k.lane p i).toInt
    let T := fun i => (k.lane q i).toInt
    let B := fun i => (k.lane b i).toInt
    let sat16 (v : Int) : Int := max (-32768) (min 32767 v)
    let over16 (v : Nat → Int) : Bool := (List.range 4).any fun i => decide (v i < -32768 ∨ 32767 < v i)
    let m0 := fun i => sat16 (S i + B i)
    let m1 := fun i => sat16 (T i - B i)
    let asat := over16 (fun i => S i + B i) || over16 (fun i => T i - B i)
    let bits4 (f : Nat → Bool) : Word := BitVec.ofNat 32 (b2n (f 3) * 8 + b2n (f 2) * 4 + b2n (f 1) * 2 + b2n (f 0))
    Does s c (.vadd c d p q) (s.retire c.val
      ((k.setLanes d fun i => BitVec.ofInt 16 (sat16 (S i + T i))).flag 1 (over16 fun i => S i + T i))) ∧
    Does s c (.vsub c d p q) (s.retire c.val
      ((k.setLanes d fun i => BitVec.ofInt 16 (sat16 (S i - T i))).flag 1 (over16 fun i => S i - T i))) ∧
    Does s c (.vacsx c d p q b) (s.retire c.val (({ k.setLanes d fun i => BitVec.ofInt 16 (max (m0 i) (m1 i)) with
      sv := (k.sv <<< 4) ||| bits4 fun i => decide (m0 i < m1 i) }).flag 1 asat)) ∧
    Does s c (.vacsn c d p q b) (s.retire c.val (({ k.setLanes d fun i => BitVec.ofInt 16 (min (m0 i) (m1 i)) with
      sv := (k.sv <<< 4) ||| bits4 fun i => decide (m1 i < m0 i) }).flag 1 asat))

/-- The control cores' instructions of group 0x1C (R442, R457), which a media core answers with the PRIVILEGED fault (R258).
The model's choices in it: log entries 87, 90, 163. -/
def Obligations.ControlCoreInstructions : Prop :=
  ∀ (c : Fin 516) (n : Nat) (d x : BitVec 5) (s : State),
    let k := s.awake c.val
    let v := k.gr x
    (c.val < 512 → ∀ i ∈ ([.mfp c d n, .mtp c n x, .wfi c, .iret c, .fencef c, .romcall c n] : List Instr),
      Does s c i (s.coreFault c.val 2 0)) ∧
    (512 ≤ c.val →
      Does s c (.mfp c d n) (s.retire c.val (k.setg d (if n = 0 then k.win else if n = 1 then k.epc else if n = 2 then k.ie
        else if n = 3 then k.ip else if n = 4 then k.vbase else 0))) ∧
      Does s c (.mtp c 0 x) (s.retire c.val { k with win := v }) ∧
      Does s c (.mtp c 1 x) (s.retire c.val { k with epc := v }) ∧
      Does s c (.mtp c 2 x) (s.retire c.val { k with ie := v }) ∧
      Does s c (.mtp c 4 x) (s.retire c.val { k with vbase := v }) ∧
      (n = 3 ∨ 4 < n → Does s c (.mtp c n x) (s.coreFault c.val 1 0)) ∧
      (k.ip &&& k.ie ≠ 0 → Does s c (.wfi c) (s.retire c.val k)) ∧
      (k.ip &&& k.ie = 0 → Does s c (.wfi c) (s.setCore c.val { k with waiting := true })) ∧
      Does s c (.iret c) (s.jumpTo c.val { k with intOn := true } k.epc) ∧
      ((∀ m t, (m, t) ∈ k.tags → t.inFlight = true → t.out = false) → Does s c (.fencef c) (s.retire c.val k)) ∧
      ((∃ m t, (m, t) ∈ k.tags ∧ t.inFlight = true ∧ t.out = true) → Does s c (.fencef c) s) ∧
      (n ≠ 0 → Does s c (.romcall c n) (s.coreFault c.val 1 0)) ∧
      (s.issues c (.romcall c 0) → ∃ u, exec (.romcall c 0) s = .next u ∧ u.core c.val = Core.loopEnd k.pc 3 [] { k with inRom := true } ∧
        ((∀ j, j < 4 → 512 + j = c.val ∨ (s.core (512 + j)).inRom = true) → u.power.kickAt = s.ela) ∧
        ((∃ j, j < 4 ∧ 512 + j ≠ c.val ∧ (s.core (512 + j)).inRom = false) → u.power = s.power) ∧
        ∀ c', c' ≠ c.val → u.core c' = s.core c'))

/-- Far access (R250): `ldf` reads and `stf` writes one aligned word over the bridge fabric; a bus error, from the fabric or
of an uncorrectable unit (R341), faults and nothing is written. A word that waits for sleeping HBM leaves the instruction to be tried again.
The DMA instructions (R251, R252): starting, waiting for a tag, the failure that a later instruction raises, the bitmap of
the tags in flight, and the end of a transfer of one block.
The model's choices in it: log entries 14, 85, 86, 237. -/
def Obligations.FarAccessAndDma : Prop :=
  (∀ (c : Fin 516) (d x : BitVec 5) (s : State), oddPair x = false →
    let k := s.awake c.val
    let a := (k.gr (x + 1)).toNat % 256 * 2 ^ 32 + (k.gr x).toNat
    let r := s.busRead (coreAgent c.val) a
    let w := s.busWrite (coreAgent c.val) a (k.gr d)
    (a % 4 ≠ 0 → Does s c (.ldf c d x) (s.coreFault c.val 3 a) ∧ Does s c (.stf c d x) (s.coreFault c.val 3 a)) ∧
    (a % 4 = 0 →
      (a / 64 ∉ k.memErr →
        (∀ v, r.bus = .ok v → Does s c (.ldf c d x) (r.setCore c.val (Core.loopEnd k.pc 3 [] (k.setg d v)))) ∧
        (r.bus = .none → Does s c (.ldf c d x) r) ∧
        ((∀ v, r.bus ≠ .ok v) → r.bus ≠ .none → Does s c (.ldf c d x) (s.coreFault c.val 5 a))) ∧
      (a / 64 ∈ k.memErr → Does s c (.ldf c d x) (s.coreFault c.val 5 a)) ∧
      (∀ v, w.bus = .ok v → (c.val < 512 ∨ s.locate a ≠ .reg .CLKPWR_RESET 0 ∨ bit (k.gr d) 31 = false) →
        Does s c (.stf c d x) (w.setCore c.val (Core.loopEnd k.pc 3 [] { w.core c.val with waiting := false }))) ∧
      (w.bus = .none → Does s c (.stf c d x) w) ∧
      ((∀ v, w.bus ≠ .ok v) → w.bus ≠ .none → Does s c (.stf c d x) (s.coreFault c.val 5 a)))) ∧
  (∀ (c : Fin 516) (d x y sh : BitVec 5) (s : State), d.toNat < 8 → oddPair x = false →
    let k := s.awake c.val
    let a := (k.gr (x + 1)).toNat % 256 * 2 ^ 32 + (k.gr x).toNat
    let m := (k.gr y).toNat % 65536
    let n := (k.gr sh).toNat % 65536
    let starts (i : Instr) (out : Bool) : Prop :=
      ((k.tag d.toNat).inFlight = true → Does s c i s) ∧
      (∀ f, (k.tag d.toNat).inFlight = false → (k.tag d.toNat).fail = some f → Does s c i (s.raiseDma c.val d.toNat f)) ∧
      ((k.tag d.toNat).inFlight = false → (k.tag d.toNat).fail = none →
        (a % 8 = 0 → m % 8 = 0 → n % 8 = 0 → n ≠ 0 → Does s c i (s.retire c.val { k with
          tags := Tbl.set k.tags d.toNat { inFlight := true, out := out, bridge := a, ldm := m, len := n } })) ∧
        (a % 8 ≠ 0 → Does s c i (s.coreFault c.val 3 a)))
    starts (.dmai c d x y sh) false ∧ starts (.dmao c d x y sh) true) ∧
  (∀ (c : Fin 516) (d t : BitVec 5) (s : State),
    let k := s.awake c.val
    (8 ≤ t.toNat → Does s c (.dmaw c t) (s.coreFault c.val 1 0)) ∧
    (t.toNat < 8 → ((k.tag t.toNat).inFlight = true → Does s c (.dmaw c t) s) ∧
      (∀ f, (k.tag t.toNat).inFlight = false → (k.tag t.toNat).fail = some f →
        Does s c (.dmaw c t) (s.raiseDma c.val t.toNat f)) ∧
      ((k.tag t.toNat).inFlight = false → (k.tag t.toNat).fail = none → Does s c (.dmaw c t) (s.retire c.val k))) ∧
    ∃ w : Word, Does s c (.dmas c d) (s.retire c.val (k.setg d w)) ∧
      ∀ j, w.getLsbD j = (decide (j < 8) && (k.tag j).inFlight)) ∧
  (∀ (s : State) (c : Nat) (n a : Nat) (t : Tag), Tbl.find (s.core c).tags n = some t → c < 512 → s.rb .CORE_FAULT c 0 = false →
    let u := s.raiseDma c n a
    (u.core c).tag n = { t with fail := none } ∧ (u.core c).faulted = some 6 ∧ u.rf .CORE_FAULT c 7 4 = 6 ∧
    u.reg .CORE_FAULT_ADDR c = BitVec.ofNat 32 a) ∧
  (∀ (c : Fin 516) (g : Fin 8) (failAt : Option Nat) (s : State), let t := (s.core c.val).tag g.val
    let ended (u : State) (f : Option Nat) : State :=
      u.setCore c.val { u.core c.val with tags := Tbl.set (u.core c.val).tags g.val { t with inFlight := false, fail := f } }
    (t.inFlight = false → exec (.dmaComplete c g failAt) s = .next s) ∧
    (t.inFlight = true → 0 < t.len → t.len ≤ 64 - t.bridge % 64 →
      (∀ o, failAt = some o → o < t.len → exec (.dmaComplete c g failAt) s = .next (ended s (some t.bridge))) ∧
      ((∀ o, failAt = some o → t.len ≤ o) →
        (∀ u, s.dmaBlock c.val t.out t.bridge t.ldm t.len = (u, .ok) →
          exec (.dmaComplete c g failAt) s = .next (ended u t.fail)) ∧
        (∀ u, s.dmaBlock c.val t.out t.bridge t.ldm t.len = (u, .fail) →
          exec (.dmaComplete c g failAt) s = .next (ended u (some t.bridge))))))

/-- The end of an item (R118, R251, R252, R261, R281): `done` waits for every tag, raises what failed, and otherwise ends the item
with g2[15:0], after firmware told the source's owner of a telephone event that the item handed to it; a faulted item completes without its posts once its tags have finished. What `complete`, `endItem` and
`finishTicket` leave in the core and its queue is stated with them.
The model's choices in it: log entries 41, 95. -/
def Obligations.ItemEnds : Prop :=
  (∀ (c : Fin 516) (tone : Option Tone) (s : State), let k := s.core c.val
    ((∃ m t, (m, t) ∈ k.tags ∧ t.inFlight = true) → Does s c (.done c tone) s) ∧
    ((∀ m t, (m, t) ∈ k.tags → t.inFlight = false) →
      (∀ m t a, k.tags = [(m, t)] → t.fail = some a → Does s c (.done c tone) (s.raiseDma c.val m a)) ∧
      ((∀ m t, (m, t) ∈ k.tags → t.fail = none) →
        (512 ≤ c.val → Does s c (.done c tone) (s.retire c.val (s.awake c.val))) ∧
        (c.val < 512 → let st := (k.gr 2).toNat % 65536
          let it := Tbl.get k.slots {} k.slot
          let v := s.mixTone c.val tone
          Does s c (.done c tone) ((if st = 2 ∧ it.retries < 3 then v.complete c.val st
            else (v.complete c.val st).chainNext it).afterItem c.val))))) ∧
  (∀ (c : Nat) (n : Tone) (x : Source) (s : State), Tbl.find s.mix.sources n.src = some x → s.inFlr x.own.fn = false →
    (s.core c).kern < 256 → x.own.tenant = (s.core c).tenant →
    s.mixTone c none = s ∧
    s.mixTone c (some n) = s.notify x.own.fn 0x0481 n.src [n.event.toNat + 65536 * n.ms.toNat]) ∧
  (∀ (s : State) (c st : Nat) (d : DispQ), c < 512 → s.dispQ (s.core c).qid = some d → d.typ ≠ 2 → let k := s.core c
    let it := Tbl.get k.slots {} k.slot
    let u := s.complete c st
    (u.core c).running = false ∧ (u.core c).warm = true ∧ u.rb .CORE_STAT c 31 = false ∧
    (st = 2 → it.retries < 3 → ∃ e, u.dispQ k.qid = some e ∧ ∃ it', e.items = d.items ++ [it'] ∧ it'.retries = it.retries + 1 ∧
      it'.words.drop 1 = it.words.drop 1) ∧
    (¬(st = 2 ∧ it.retries < 3) → ∃ e, u.dispQ k.qid = some e ∧ e.items = d.items ∧ e.done = d.done + 1 ∧
      e.errors = d.errors + (if st = 0 then 0 else 1))) ∧
  (∀ (c : Fin 512) (el : Nat) (s : State), let s1 := s.advance el
    let k := s1.core c.val
    let it := Tbl.get k.slots {} k.slot
    (k.faulted = none → exec (.kernelFaultReport c el) s = .next s1) ∧
    (∀ cause, k.faulted = some cause → (∃ m t, (m, t) ∈ k.tags ∧ t.inFlight = true) → exec (.kernelFaultReport c el) s = .next s1) ∧
    (∀ cause d, k.faulted = some cause → (∀ m t, (m, t) ∈ k.tags → t.inFlight = false) →
      let e := (s1.endItem c.val false).cntDisp 3
      let f := e.setCore c.val { e.core c.val with tags := [] }
      f.dispQ k.qid = some d →
      let r := (f.releaseOpt it.payload).returnItem (d.own.fn / 64) it.pool
      let r' := if d.typ = 2 then r.finishTicket k.qid it.ticket c.val false else r
      let n := if d.own.fn < 256 then r'.notify d.own.fn 0x0A80 k.qid [k.kern * 65536 + cause, k.pc.toNat] else r'
      let g := (n.countFault k.kern).chainNext it
      exec (.kernelFaultReport c el) s = .next ((if cause = 7 then g.ueCount (c.val / 8) else g).afterItem c.val)))

/-- A core that does not run, and what a fault records (R245, R258): nothing else of the device changes, the first record that
is not acknowledged stands, and an instruction outside the image is FETCH. A word of the image that spells no instruction
is ILLEGAL, or PRIVILEGED on a media core for groups 0x1C to 0x1F (R242), and a parity error in the cache is no fault. That a
command for an idle core has no effect, and one that the image does not spell, is the model's choice (log entries 82 and
234).
The model's choices in it: log entries 234, 235. -/
def Obligations.CoreFaultsAndIdle : Prop :=
  (∀ i c s, coreOf i = some c → s.coreRuns c = false → exec i s = .next s) ∧
  (∀ i c s, coreOf i = some c → s.coreRuns c = true → s.fetchFails c = true →
    exec i s = .next (s.coreFault c 9 (s.core c).pc.toNat)) ∧
  (∀ i (c : Fin 516) s w, coreOf i = some c.val → s.runs c.val → s.wordAt c.val = some w →
    (decodeCore (isCtl c.val) c w = .illegal → exec i s = .next ((s.refetch c.val).coreFault c.val 1 0)) ∧
    (decodeCore (isCtl c.val) c w = .privileged → exec i s = .next ((s.refetch c.val).coreFault c.val 2 0)) ∧
    (∀ j, decodeCore (isCtl c.val) c w = .run j → j ≠ plain i → exec i s = .next s)) ∧
  (∀ i (c : Fin 516) s, coreOf i = some c.val → s.runs c.val →
    (∀ w j, s.wordAt c.val = some w → decodeCore (isCtl c.val) c w = .run j → j = plain i) →
    exec i s = exec i (s.refetch c.val)) ∧
  (∀ (s : State) (c : Nat), c < 512 → let u := s.refetch c
    ((s.core c).icErr.contains (s.core c).line = true →
      u.rf .CORE_ECC c 15 0 = min 65535 (s.rf .CORE_ECC c 15 0 + 1) ∧
      u.core c = { s.core c with icErr := (s.core c).icErr.filter (· != (s.core c).line) }) ∧
    ((s.core c).icErr.contains (s.core c).line = false → u = s)) ∧
  (∀ (ctl : Bool) (c : Fin 516) (w : Word), let g := w.toNat / 2 ^ 27
    ((g = 0x17 ∨ g = 0x1A ∨ g = 0x1B) → decodeCore ctl c w = .illegal) ∧
    (0x1C ≤ g → decodeCore false c w = .privileged) ∧ (0x1D ≤ g → decodeCore true c w = .illegal)) ∧
  (∀ (s : State) (c cause addr : Nat), c < 512 → cause < 16 → let u := s.coreFault c cause addr
    (u.core c).faulted = some cause ∧ { u.core c with faulted := (s.core c).faulted } = s.core c ∧
    (∀ c', c' ≠ c → u.core c' = s.core c') ∧ { u with cores := s.cores, regs := s.regs } = s ∧
    (s.rb .CORE_FAULT c 0 = false → u.rb .CORE_FAULT c 0 = true ∧ u.rf .CORE_FAULT c 7 4 = cause ∧
      u.reg .CORE_FAULT_PC c = (s.core c).pc ∧ u.reg .CORE_FAULT_ADDR c = BitVec.ofNat 32 addr) ∧
    (s.rb .CORE_FAULT c 0 = true → u.rb .CORE_FAULT c 1 = true ∧ u.rf .CORE_FAULT c 7 4 = s.rf .CORE_FAULT c 7 4 ∧
      u.reg .CORE_FAULT_PC c = s.reg .CORE_FAULT_PC c ∧ u.reg .CORE_FAULT_ADDR c = s.reg .CORE_FAULT_ADDR c))

/-- What an instruction of a core leaves unchanged (R234, R253): other cores always, but for `done` and far accesses every part
of the device outside the core, the control SRAM and the core's fault and error registers, and of the core itself
everything that no instruction writes. -/
def Obligations.CoreFrame : Prop :=
  ∀ (i : Instr) (c : Nat) (s t : State), coreOf i = some c → exec i s = .next t →
    (∀ e o, i ≠ .done e o) → (∀ e d x, i ≠ .ldf e d x) → (∀ e d x, i ≠ .stf e d x) → (∀ e n, i ≠ .romcall e n) →
    { t with cores := s.cores, csram := s.csram, regs := s.regs } = s ∧
    (c < 512 → t.csram = s.csram) ∧
    (∀ c', c' ≠ c → t.core c' = s.core c') ∧
    (∀ r j, j < 2 ^ 20 → (j = c → r ∉ [.CORE_FAULT, .CORE_FAULT_PC, .CORE_FAULT_ADDR, .CORE_ECC]) → t.reg r j = s.reg r j) ∧
    (let k := s.core c
      let u := t.core c
      u.running = k.running ∧ u.slot = k.slot ∧ u.qid = k.qid ∧ u.kern = k.kern ∧ u.tenant = k.tenant ∧ u.since = k.since ∧
      u.posts = k.posts ∧ u.prev = k.prev ∧ u.warm = k.warm ∧ u.slots = k.slots ∧ u.order = k.order ∧ u.ip = k.ip ∧
      u.inRom = k.inRom ∧ u.ceSeen = k.ceSeen ∧ u.load = k.load ∧ u.prevT = k.prevT ∧ u.imgErr = k.imgErr)

/-- ETH_PCFG_WRITE, AN_RESOLVED, AN_RESTART_TIMEOUT, LINK_CHANGE and EFFECTIVE_MIN_APPLY where each has its effect (R42 to
R46, R94, R97).
The model's choices in it: log entry 38. -/
def Obligations.EthernetEventsComplete : Prop :=
  (∀ (p : Fin 8) (v : Word) (s : State), ∃ t, exec (.ethPcfgWrite p v) s = .next t ∧ t.bus = .ok 0 ∧
    t.reg .ETH_PCFG p.val = applyWrite (RegName.flds .ETH_PCFG) (s.reg .ETH_PCFG p.val) v ∧
    (bit (t.reg .ETH_PCFG p.val) 31 = true → t.ethBad p.val = true → t.linkUp p.val = false ∧ t.ethResult p.val = ETH_CFG_ERR)) ∧
  (∀ (p : Fin 8) (rates fecs : BitVec 4) (s : State) (r f : Nat),
    s.ethOn p.val = true → s.ethFixed p.val = false → s.ethBad p.val = false → s.ethResult p.val ≠ ETH_TRAIN_FAIL →
    s.resolveAn p.val rates fecs = some (r, f) →
    (permittedFec (s.ethWidth p.val) r).contains f = true ∧ rates.toNat.testBit r = true ∧ fecs.toNat.testBit f = true ∧
    ∃ t, exec (.anResolved p rates fecs true) s = .next t ∧ t.rf .ETH_PSTAT p.val 27 26 = r ∧ t.rf .ETH_PSTAT p.val 25 24 = f ∧
      t.rb .ETH_PSTAT p.val 30 = true ∧ t.ethResult p.val = ETH_OK) ∧
  (∀ (p : Fin 8) (rates fecs : BitVec 4) (tr : Bool) (s : State),
    s.ethOn p.val = true → s.ethFixed p.val = false → s.ethBad p.val = false → s.ethResult p.val ≠ ETH_TRAIN_FAIL →
    s.resolveAn p.val rates fecs = none →
    exec (.anResolved p rates fecs tr) s = .next (s.ethDown p.val ETH_NO_COMMON)) ∧
  (∀ (p : Fin 8) (s : State), s.ethOn p.val = true → s.ethFixed p.val = false → s.ethResult p.val = ETH_TRAIN_FAIL →
    ∃ t, exec (.anRestartTimeout p) s = .next t ∧ t.ethResult p.val = ETH_IN_PROGRESS ∧ (t.port p.val).trainFails = 0) ∧
  (∀ (p : Fin 8) (s : State), s.linkUp p.val = false → s.ethOn p.val = true → s.ethBad p.val = false →
    (s.ethFixed p.val = true ∨ s.rb .ETH_PSTAT p.val 30 = true) →
    ∃ t, exec (.linkChange p true) s = .next t ∧ t.linkUp p.val = true ∧ t.rb .ETH_PSTAT p.val 19 = true ∧
      t.guardMin p.val ≤ t.rf .EGS_PORT_CFG p.val 15 0) ∧
  (∀ (p : Fin 8) (s : State), s.linkUp p.val = true →
    ∃ t, exec (.linkChange p false) s = .next t ∧ t.linkUp p.val = false ∧ t.rb .ETH_PSTAT p.val 19 = true ∧
      t.net.legs = s.net.legs) ∧
  (∀ (p : Fin 8) (s : State), s.linkUp p.val = true → s.minLimit p.val < (s.port p.val).cfgSum →
    ∃ t, exec (.effectiveMinApply p) s = .next t ∧ (t.port p.val).scaled = true ∧
      (t.port p.val).tenants = Tbl.mapv (s.port p.val).tenants fun _ x => { x with
        mn := Bucket.of (x.cfgMin * s.minLimit p.val / (s.port p.val).cfgSum) x.mn.size false s.ela
        mx := Bucket.of x.mx.rate x.mx.size false s.ela })

/-- FRAME_RECEIVED, SRTP_DECRYPT, STRATA_FORWARD, EGRESS_SELECT and SRTP_ENCRYPT where a packet moves on (R46 to R48, R54, R88,
R89, R297, R299, R302), or is dropped because its payload or context cannot be read (R341).
The model's choices in it: log entries 21, 28, 106, 237. -/
def Obligations.PacketPathCompletes : Prop :=
  (∀ (p : Fin 8) (ok : Bool) (b : List Byte) (f : MediaFacts) (el : Nat) (s : State) (k : FwKind),
    s.linkUp p.val = true → parseFrame ok b = .control k →
    exec (.frameReceived p ok b f el) s = .next ((s.advance el).emit (.firmware k p.val b))) ∧
  (∀ (p : Fin 8) (ok : Bool) (b : List Byte) (f : MediaFacts) (el : Nat) (s : State) (v6 : Bool) (vlan : Option Nat)
      (src dst sp dp dscp : Nat) (d : List Byte) (leg i : Nat) (rtx : Bool) (s1 : State) (c : Cap),
    s.linkUp p.val = true → parseFrame ok b = .udp v6 vlan src dst sp dp dscp d →
    (s.rf .STRATA_CTRL 0 15 0 = 0 ∨ dp ≠ s.rf .STRATA_CTRL 0 15 0) → s.legOf v6 vlan dst dp src sp = some (leg, false) →
    isRtp d = true → isRtcp d = false → Tbl.find s.net.policers leg = none → s.streamOf leg (parseRtp d).ssrc = some (i, rtx) →
    (s.leg leg).srtp = true → (s.advance el).capture (s.stream i).decSlot false false = (s1, some c) →
    ∃ t, exec (.frameReceived p ok b f el) s = .next t ∧
      Tbl.get t.net.dec [] ((s.stream i).decSlot % 16) = Tbl.get s.net.dec [] ((s.stream i).decSlot % 16)
        ++ [{ leg, stream := i, bytes := d, len := b.length + 4, tIn := (s.advance el).ela, rtx, cap := some c }]) ∧
  (∀ (lane : Fin 16) (plain : List Byte) (f : MediaFacts) (el : Nat) (s : State) (k : Pkt) (r : List Pkt) (c : Cap),
    s.keys.bleaching = false → s.pdOn 27 = true → s.rb .CRYPT_CTRL 0 31 = true → Tbl.get s.net.dec [] lane.val = k :: r → k.cap = some c →
    s.capErased c = false → k.rtcp = false →
    ((s.slot c.slot).track (b2n k.rtx)).replayed (((s.slot c.slot).track (b2n k.rtx)).estimate (be16 k.bytes 2)) = false →
    let i := ((s.slot c.slot).track (b2n k.rtx)).estimate (be16 k.bytes 2)
    let s1 := (s.advance el).updNet fun n => { n with dec := Tbl.set n.dec lane.val r }
    let s2 := s1.updSlot c.slot fun v => v.setTrack (b2n k.rtx) ((v.track (b2n k.rtx)).mark i)
    exec (.srtpDecrypt lane true plain f el) s = .next
      ((((((s2.advanceTrack c.slot (b2n k.rtx) i).switchAt c.slot i).cntCrypt K_DEC_PKTS).releaseCap (some c))).deliver' k plain f) ∧
    exec (.srtpDecrypt lane false plain f el) s = .next
      (((s1.cntCrypt K_AUTH_FAIL).updSlot c.slot fun v => { v with authFail := sat32 v.authFail }).releaseCap (some c))) ∧
  (∀ (el : Nat) (s : State) (p : SrcPkt) (r : List SrcPkt), s.pdOn 26 = true → s.net.strata = p :: r → s.rb .STRATA_CTRL 0 31 = true →
    exec (.strataForward none el) s = .next (((s.advance el).updNet fun n => { n with strata := r }).strata p)) ∧
  (∀ (k : DevPkt) (el : Nat) (s : State) (st : Stream) (s1 : State) (id : Nat),
    s.pdOn 26 = true → Tbl.find s.net.streams k.stream = some st → st.device = true → st.kind = 0 → s.rb .STRATA_CTRL 0 31 = true →
    (s.advance el).allocPayload true k.bytes 1 = (s1, some id) →
    exec (.strataForward (some k) el) s = .next (s1.strata {
      stream := k.stream, payload := id, seq := k.seq.toNat, ts := k.frame * st.clock / 100 % 2 ^ 32, marker := k.marker
      pt := k.pt.toNat, s := 0, t := 0, sof := true, eof := k.eof, rp := true, wd := k.wd, probe := k.probe
      tIn := k.frame * 10000000 })) ∧
  (∀ (p : Fin 8) (rd : Reads) (s : State) (q : Nat) (f : FlowQ) (k : Nat) (d : Desc) (r : List Desc), let b := s.advance rd.el
    s.linkUp p.val = true → b.selectQ p.val = some (q, f, k) → f.descs = d :: r →
    let g := { f with descs := r, sh := { f.sh with b := f.sh.b.spend b.ela d.counted } }
    (∀ q' f', (q', f') ∈ s.net.flowqs → f'.port = p.val → b.eligibleQ f' = true → k ≤ b.selKey f') ∧
    (∃ f', (q, f') ∈ s.net.flowqs ∧ f'.port = p.val ∧ b.eligibleQ f' = true ∧ b.selKey f' = k) ∧
    ∃ t, exec (.egressSelect p rd) s = .next t ∧
      (d.cap.isSome = true → Tbl.find t.net.flowqs q = some g) ∧
      (d.cap = none → d.qid = q →
        (s.descUnread rd d = false →
          Tbl.find t.net.flowqs q = some { g with sent := f.sent + 1, sentBytes := f.sentBytes + d.counted }) ∧
        (s.descUnread rd d = true → Tbl.find t.net.flowqs q = some g ∧ t.out = s.out))) ∧
  (∀ (lane : Fin 16) (rd : Reads) (s : State) (d : Desc) (r : List Desc) (c : Cap),
    s.keys.bleaching = false → s.pdOn 27 = true → s.rb .CRYPT_CTRL 0 31 = true → Tbl.get s.net.enc [] lane.val = d :: r → d.cap = some c →
    s.capErased c = false → d.rtcp = false →
    (s.descUnread rd d = true → exec (.srtpEncrypt lane rd) s =
      .next (((s.advance rd.el).updNet fun n => { n with enc := Tbl.set n.enc lane.val r }).dropDesc d)) ∧
    (s.descUnread rd d = false →
    let v := s.slot c.slot
    let tr := b2n d.rtx
    let i := (v.track tr).estimate d.seq
    let h := v.serves c i
    let s1 := (s.advance rd.el).updNet fun n => { n with enc := Tbl.set n.enc lane.val r }
    ((v.half h).mayUse tr i = false → exec (.srtpEncrypt lane rd) s = .next ((s1.indexRefused c.slot).dropDesc d)) ∧
    ((v.half h).mayUse tr i = true →
      let s2 := s1.setSlot c.slot (v.setHalf h ((v.half h).use tr i))
      let s3 := (((s2.advanceTrack c.slot tr i).switchAt c.slot i).cntCrypt K_ENC_PKTS).releaseCap (some c)
      exec (.srtpEncrypt lane rd) s = .next (s3.wire d (d.head ++
        Config.byteTransform 3 ([v.suite, tr, i, d.ssrc] ++ (v.half h).keys.map BitVec.toNat) (s3.sendBody d))))))

/-- TENANT_BUCKET_FULL, GATE_ENTRY_ADVANCE, GATE_LIST_SWITCH, LAYER_TARGET_APPLY, SHAPER_TARGET_APPLY, ESTIMATE_APPLY,
LOUPE_SAMPLE, TOLKU_KEEPALIVE and CASCADE_PEER_TIMEOUT where each has its effect (R60, R72, R93, R95, R96, R102, R103,
R105).
The model's choices in it: log entries 35, 36, 40, 207. -/
def Obligations.ShapingEventsComplete : Prop :=
  (∀ (p : Fin 8) (t : Fin 4) (el : Nat) (s : State), let b := s.advance el
    let x := b.tenantPort p.val t.val
    let m := x.mn.refill b.ela
    s.pdOn 26 = true → m.rate ≠ 0 → m.lvl = m.size * unitsPerByte → x.missed = false → (∃ q f, (q, f) ∈ s.net.flowqs ∧
      f.port = p.val ∧ f.own.fn / 64 = t.val ∧ b.eligibleQ f = true) →
    ∃ u, exec (.tenantBucketFull p t el) s = .next u ∧
      u.cnt .EGS_CNT_LO (8 * p.val + E_MIN_MISSED) = s.cnt .EGS_CNT_LO (8 * p.val + E_MIN_MISSED) + 1 ∧
      (u.tenantPort p.val t.val).missed = true) ∧
  (∀ (p : Fin 8) (el : Nat) (s : State) (l : GateList), s.pdOn 26 = true → (s.port p.val).active = some l → (s.advance el).gateDue p.val = none →
    ((s.port p.val).entryEnd l).1 ≤ (s.advance el).dev →
    ∃ u, exec (.gateEntryAdvance p el) s = .next u ∧
      (u.port p.val).entry = (if (s.port p.val).waitStart = true ∨ l.entries.length ≤ (s.port p.val).entry + 1 then 0
        else (s.port p.val).entry + 1) ∧
      (u.port p.val).entryAt = ((s.port p.val).entryEnd l).1) ∧
  (∀ (p : Fin 8) (el : Nat) (s : State) (q : GateList), s.pdOn 26 = true → (s.port p.val).pend = some q → (s.port p.val).active = none →
    q.change ≤ (s.advance el).dev → q.entries ≠ [] →
    ∃ u, exec (.gateListSwitch p el) s = .next u ∧ (u.port p.val).active = some q ∧ (u.port p.val).pend = none ∧
      (u.port p.val).entry = 0 ∧ (u.port p.val).entryAt = if q.change = 0 then (s.advance el).dev else q.change) ∧
  (∀ (s s1 : State) (it : Item), s.pdOn 26 = true → s.popShared (s.rf .STRATA_TGT_QID 0 15 0) = some (it, s1) →
    Tbl.find s1.net.subs (it.w 4 % 2 ^ 17) = none → exec .layerTargetApply s = .next (s1.cntStrata C_TGT_REJECT)) ∧
  (∀ (s s1 : State) (it : Item) (x : Sub), s.pdOn 26 = true → s.popShared (s.rf .STRATA_TGT_QID 0 15 0) = some (it, s1) →
    Tbl.find s1.net.subs (it.w 4 % 2 ^ 17) = some x →
    (it.event = 0x13 ∧ x.rxLeg = it.w 6 % 65536 ∧ x.own.fn / 64 = it.src → exec .layerTargetApply s =
      .next (s1.retarget (it.w 4 % 2 ^ 17) { x with tgtS := bits (it.w 5) 31 30, tgtT := bits (it.w 5) 29 27 })) ∧
    (¬(it.event = 0x13 ∧ x.rxLeg = it.w 6 % 65536 ∧ x.own.fn / 64 = it.src) →
      exec .layerTargetApply s = .next (s1.cntStrata C_TGT_REJECT))) ∧
  (∀ (el : Nat) (s s1 : State) (it : Item) (f : FlowQ), s.pdOn 26 = true →
    (s.advance el).popShared (s.rf .EGS_TGT_QID 0 15 0) = some (it, s1) → Tbl.find s1.net.flowqs (it.w 4 % 65536) = some f →
    let accepted := it.event = 0x14 ∧ f.leg = it.w 6 % 65536 ∧ f.own.fn / 64 = it.src ∧ f.sh.adaptive = true ∧
      f.cls ≠ s1.audioTc f.port
    (accepted → exec (.shaperTargetApply el) s = .next ((s1.loseOne f.port f.cls f.sh.b).setFlowq (it.w 4 % 65536) { f with
      sh := { f.sh with
        b := f.sh.b.write (max f.sh.minRate (min f.sh.maxRate (it.w 5 % 2 ^ 29))) f.sh.b.size ((it.w 5).testBit 31) s1.ela } })) ∧
    (¬accepted → exec (.shaperTargetApply el) s = .next (s1.cntEgs f.port E_TGT_REJECT))) ∧
  (∀ (core : Fin 512) (leg : Fin 16384) (run : EstRun) (el : Nat) (s s1 : State) (it : Item) (e : Est),
    (s.advance el).popShared s.disp.estQid = some (it, s1) → Tbl.find s1.net.est leg.val = some e →
    ∃ u, exec (.estimateApply core leg run el) s = .next u ∧
      (Tbl.get u.net.est {} leg.val).b = max e.minK (min e.maxK run.kbps) ∧
      (Tbl.get u.net.est {} leg.val).shares = (e.after run (s1.estOuts leg.val run) s1.ela).shares) ∧
  (∀ (k : Fin 1024) (cons el : Nat) (s : State) (x : Sampler), s.pdOn 26 = true → Tbl.find s.net.samplers k.val = some x →
    x.period ≠ 0 →
    ((s.advance el).ela < x.nextAt → exec (.loupeSample k cons el) s = .next (s.advance el)) ∧
    (x.nextAt ≤ (s.advance el).ela → ∃ u, exec (.loupeSample k cons el) s = .next u ∧ ∃ r, Tbl.find u.net.samplers k.val =
      some { x with ring := r, nextAt := x.nextAt + x.period, sojourn := 0, sent := 0, drops := 0 })) ∧
  (∀ (el : Nat) (s : State), exec (.tolkuKeepalive el) s =
    .next (s.net.peers.foldl (fun s kv => s.keepalive kv.1 kv.2) (s.advance el))) ∧
  (∀ (k : Fin 1024) (el : Nat) (s : State) (p : Peer), Tbl.find s.net.peers k.val = some p → p.lostPosted = false →
    p.lastHeard + 3000000000 ≤ (s.advance el).ela →
    exec (.cascadePeerTimeout k el) s = .next (((s.advance el).updNet fun n => { n with
      peers := Tbl.set n.peers k.val { p with lostPosted := true } }).notify p.own.fn 0x0B80 k.val))

/-- What a write leaves in a register and what a read returns, field by field, by the access codes (R10, R11): a write of an RSV
field is ignored, and bits outside every field keep their value. -/
def Obligations.AccessCodes : Prop :=
  ∀ (l : List Fld) (old new : Word), (∀ f ∈ l, f.lo ≤ f.hi ∧ f.hi < 32) → l.Pairwise (fun f g => f.hi < g.lo ∨ g.hi < f.lo) →
    (∀ f ∈ l, ∀ b, f.lo ≤ b → b ≤ f.hi →
      bit (applyWrite l old new) b = (match f.acc with
        | .rw | .wo => bit new b
        | .w1c => bit old b && !bit new b
        | .w1s => bit old b || bit new b
        | .ro | .rc | .rsv => bit old b) ∧
      bit (readMask l old) b = (match f.acc with
        | .wo | .rsv => false
        | .ro | .rw | .w1c | .w1s | .rc => bit old b)) ∧
    (∀ b, (∀ f ∈ l, b < f.lo ∨ f.hi < b) → bit (applyWrite l old new) b = bit old b ∧ bit (readMask l old) b = bit old b)

/-- Reserved offsets of a register block and of BAR0 (R16, R391), for every agent that reaches the block: a read returns zero, a
write has no effect, and neither is an error. -/
def Obligations.ReservedOffsets : Prop :=
  (∀ (c : Fin 4) (addr d b : Nat) (v : Word) (s : State), s.locate (addr / 4 * 4) = .reserved d b → s.pdOn d = true →
    exec (.counterLatchRead (.fw c) addr) s = .next { s with bus := .ok 0 } ∧
    exec (.registerWrite (.fw c) addr v) s = .next { s with bus := .ok 0 }) ∧
  (∀ (f : Fin 256) (addr d b : Nat) (v : Word) (s : State), hostLocate f (addr / 4 * 4) = .reserved d b →
    s.fnExists f.val = true → s.inFlr f.val = false →
    exec (.counterLatchRead (.host f) addr) s = .next { s with bus := .ok 0 } ∧
    exec (.registerWrite (.host f) addr v) s = .next { s with bus := .ok 0 }) ∧
  (∀ (k : Fin 512) (addr d b : Nat) (v : Word) (s : State), s.locate (addr / 4 * 4) = .reserved d b → s.pdOn d = true →
    kernelBlock (k.val / 32) b = true →
    exec (.counterLatchRead (.kernel k) addr) s = .next { s with bus := .ok 0 } ∧
    exec (.registerWrite (.kernel k) addr v) s = .next { s with bus := .ok 0 }) ∧
  (∀ (addr d b : Nat) (v : Word) (s : State), s.locate (addr / 4 * 4) = .reserved d b → s.pdOn d = true →
    s.smcMay (.reserved d b) = true →
    exec (.counterLatchRead .smc addr) s = .next { s with bus := .ok 0 } ∧
    exec (.registerWrite .smc addr v) s = .next { s with bus := .ok 0 })

/-- Register and memory accesses over the bridge fabric (R10, R22, R26, R27, R73): a plain register takes what its access codes say,
a LO register latches the upper half, memory stores four bytes and no other, an address outside every region and a place
whose domain is not ON answer a bus error and change nothing.
A function that does not exist or is in reset answers a read as Unsupported Request and discards a write (R512).
The model's choices in it: log entries 12, 13, 14, 15. -/
def Obligations.BusAndAbsentFunctions : Prop :=
  (∀ (f : Fin 256) (addr : Nat) (v : Word) (s : State), (s.fnExists f.val = false ∨ s.inFlr f.val = true) →
    exec (.counterLatchRead (.host f) addr) s = .next { s with bus := .unsupported } ∧
    exec (.registerWrite (.host f) addr v) s = .next { s with bus := .ok 0 }) ∧
  (∀ (c : Fin 4) (addr i : Nat) (n : RegName) (v : Word) (s : State), s.locate (addr / 4 * 4) = .reg n i → s.pdOn (n.domain i) = true →
    n ∈ [.SAFE_RET, .STRATA_CTRL, .STRATA_DEVID, .STRATA_TGT_QID, .STRATA_OCTX_BASE, .EGS_PORT_CFG, .EGS_TGT_QID,
      .CRYPT_SLOT_SEL, .DISP_CTRL, .DISP_POOL, .DISP_AFF, .DISP_WAKE_THRESH, .CORE_FAULT, .MIXF_SCHED, .PICT_DEC_CTRL,
      .PICT_ENC_CTRL, .POOL_TBL_BASE, .HBMC_THERM, .HBMC_TREFI, .HBMC_PORT_CFG, .HBMC_SCRUB, .TIME_RATE, .TIME_STEP_LO,
      .TIME_PPS_OUT] →
    exec (.registerWrite (.fw c) addr v) s = .next { s.setReg n i (applyWrite n.flds (s.reg n i) v) with bus := .ok 0 } ∧
    exec (.counterLatchRead (.fw c) addr) s = .next { s with bus := .ok (readMask n.flds (s.reg n i)) }) ∧
  (∀ (c : Fin 4) (addr i : Nat) (n hi : RegName) (s : State), s.locate (addr / 4 * 4) = .reg n i → s.pdOn (n.domain i) = true →
    hiOf n = some hi →
    exec (.counterLatchRead (.fw c) addr) s = .next { s.setReg hi i (BitVec.ofNat 32 (s.wide n i / 2 ^ 32)) with
      bus := .ok (BitVec.ofNat 32 (s.wide n i)) }) ∧
  (∀ (c : Fin 4) (addr : Nat) (v : Word) (s : State), let a := addr / 4 * 4
    inHbm a = true → s.hbState (stackOf a) = HB_ACTIVE →
    exec (.counterLatchRead (.fw c) addr) s = .next { s with bus := .ok (s.memWord a) } ∧
    ∃ t, exec (.registerWrite (.fw c) addr v) s = .next t ∧ t.bus = .ok 0 ∧ Mem.word t.mem a = v ∧
      (∀ x, (x < a ∨ a + 4 ≤ x) → Mem.get t.mem x = Mem.get s.mem x) ∧ { t with mem := s.mem, bus := s.bus } = s) ∧
  (∀ (c : Fin 4) (addr : Nat) (v : Word) (s : State),
    (s.locate (addr / 4 * 4) = .outside ∨ s.answers (s.locate (addr / 4 * 4)) = false) →
    exec (.counterLatchRead (.fw c) addr) s = .next { s with bus := .busError } ∧
    exec (.registerWrite (.fw c) addr v) s = .next { s with bus := .busError }) ∧
  (∀ (k : Fin 512) (addr : Nat) (v : Word) (s : State), inHbm (addr / 4 * 4) = true →
    s.windowOk (s.core k.val).tenant true (addr / 4 * 4) 4 = false →
    let e := { s with bus := .busError }
    exec (.registerWrite (.kernel k) addr v) s = .next (if (s.core k.val).running = true ∧ (s.core k.val).faulted = none
      then e.coreFault k.val 5 addr else e)) ∧
  (∀ (c : Fin 4) (addr : Nat) (v : Word) (s : State), let a := addr / 4 * 4
    let n := stackOf a
    inHbm a = true → s.hbState n ≠ HB_ACTIVE → s.hbServes n = true →
    let b := { s.srRequest n with bus := .none }
    exec (.counterLatchRead (.fw c) addr) s = .next (b.updHbm n fun h => { h with held := h.held ++ [⟨.fw c, a, none⟩] }) ∧
    exec (.registerWrite (.fw c) addr v) s = .next (b.updHbm n fun h => { h with held := h.held ++ [⟨.fw c, a, some v⟩] }))

/-- The FIFO commands for the side that may give them (R35 to R39): what each does to its instance, and that an engine's instance
is all it changes; an access that the agent may not make is answered without effect, but for a kernel's fault (R27).
The model's choices in it: log entry 11. -/
def Obligations.FifoCommands : Prop :=
  ∀ (a : Agent) (f : FifoId) (s : State),
    let x := s.fifo f
    let only (t : State) : Prop := (∀ g, fifoKey g ≠ fifoKey f → t.fifo g = s.fifo g) ∧
      ((∀ r, f ≠ .ring r) → { t with fifos := s.fifos, bus := s.bus } = s)
    (s.produces a f = true → ∀ (v : Word) (items : List (List Word)), ∃ t, exec (.fifoPidxWrite a f v items) s = .next t ∧
      t.bus = .ok 0 ∧ only t ∧
      (x.misconf = false → x.depth - x.level < dist 16 (v.toNat % 65536) x.pidx → t.fifo f = { x with overflow := true }) ∧
      (x.misconf = false → dist 16 (v.toNat % 65536) x.pidx ≤ x.depth - x.level → (bit v 31 = false ∨ x.ends.length ≠ 255) →
        x.discard = false → (t.fifo f).pidx = v.toNat % 65536 ∧ (t.fifo f).cidx = x.cidx ∧
          (t.fifo f).items = x.items ++ (List.range (dist 16 (v.toNat % 65536) x.pidx)).map fun i => nth items [] i)) ∧
    (s.consumes a f = true → ∀ v : Word, ∃ t, exec (.fifoCidxWrite a f v) s = .next t ∧ t.bus = .ok 0 ∧ only t ∧
      (x.level < dist 16 (v.toNat % 65536) x.cidx → t.fifo f = { x with underrun := true }) ∧
      (dist 16 (v.toNat % 65536) x.cidx ≤ x.level → (t.fifo f).cidx = v.toNat % 65536 ∧
        (t.fifo f).items = x.items.drop (dist 16 (v.toNat % 65536) x.cidx) ∧ (t.fifo f).wpos = 0)) ∧
    ((∃ r, f = .ring r) → exec (.fifoDataRead a f) s = .next { s with bus := .ok 0 }) ∧
    ((∀ r, f ≠ .ring r) → s.consumes a f = true → ∃ t, exec (.fifoDataRead a f) s = .next t ∧ only t ∧
      (x.misconf = false → x.level = 0 → x.wpos = 0 → t.bus = .ok x.last ∧ t.fifo f = { x with underrun := true }) ∧
      (x.misconf = false → x.level ≠ 0 → t.bus = .ok (nth (x.items.headD []) 0 x.wpos) ∧
        (t.fifo f).last = nth (x.items.headD []) 0 x.wpos ∧
        (x.wpos + 1 ≠ x.bytes / 4 → (t.fifo f).wpos = x.wpos + 1 ∧ (t.fifo f).items = x.items) ∧
        (x.wpos + 1 = x.bytes / 4 → (t.fifo f).wpos = 0 ∧ (t.fifo f).items = x.items.drop 1 ∧
          (t.fifo f).cidx = (x.cidx + 1) % 65536))) ∧
    (s.consumes a f = true → x.misconf = false → ∃ t, exec (.fifoFlush a f) s = .next t ∧ t.bus = .ok 0 ∧ only t ∧
      (t.fifo f).cidx = x.pidx ∧ (t.fifo f).items = [] ∧ (t.fifo f).ends = [] ∧ (t.fifo f).discard = (x.discard || x.pktOpen)) ∧
    (s.consumes a f = true → x.misconf = false → (x.level ≠ 0 ∨ x.pktOpen = true) → ∃ t, exec (.dropRest a f) s = .next t ∧
      t.bus = .ok 0 ∧ only t ∧
      (s.fifoEv f = true → (t.fifo f).items = x.items.drop 1) ∧
      (s.fifoEv f = false → (∀ e r, x.ends = e :: r → (t.fifo f).items = x.items.drop (dist 16 e x.cidx)) ∧
        (x.ends = [] → (t.fifo f).items = [] ∧ (t.fifo f).discard = true))) ∧
    (∀ items eop, x.misconf = false → x.discard = false → items.length ≤ x.depth - x.level → (eop = false ∨ x.ends.length ≠ 255) →
      (∀ r, f = .ring r → s.ringLive r.val = true ∧ s.hostProduces r.val = false) →
      ∃ t, exec (.fifoHwPublish f items eop) s = .next t ∧ ((∀ r, f ≠ .ring r) → { t with fifos := s.fifos } = s) ∧
        (t.fifo f).items = x.items ++ items ∧ (t.fifo f).pidx = (x.pidx + items.length) % 65536) ∧
    (s.produces a f = false → ∀ v items, exec (.fifoPidxWrite a f v items) s = .next (s.denied a f 0x0C)) ∧
    (s.consumes a f = false → ∀ v : Word, exec (.fifoCidxWrite a f v) s = .next (s.denied a f 0x10) ∧
      ((∀ r, f ≠ .ring r) → exec (.fifoDataRead a f) s = .next (s.denied a f 0x1C)) ∧
      exec (.fifoFlush a f) s = .next (s.denied a f 0x18) ∧ exec (.dropRest a f) s = .next (s.denied a f 0x18)) ∧
    (∀ o, (∀ k, a ≠ .kernel k) → s.denied a f o = { s with bus := .ok 0 }) ∧
    (∀ (k : Fin 512) (o : Nat), let e := { s with bus := .busError }
      s.denied (.kernel k) f o = if (s.core k.val).running = true ∧ (s.core k.val).faulted = none
        then e.coreFault k.val 5 (fifoAddr f o) else e)

/-- The ring commands (R398, R402 to R404): an enable that no condition of the `ERR` table refuses, the first condition that
refuses it, a disable with its flush, PAIRED, a DMA failure, and the end of a moderation period.
The model's choices in it: log entries 136, 137. -/
def Obligations.RingCommands : Prop :=
  (∀ (r : Fin 4096) (v : Word) (s : State), s.ringOn r.val = false → bit v 31 = true →
    let f := s.fifo (.ring r)
    let ty := fld v 30 28
    let p := r.val / 16 * 16 + fld v 19 16
    let cfgBad := f.log2 < 4 ∨ ringSize ty ≠ some f.itemSize
    let pairBad := ty = 0 ∧ ¬(s.ringOn p = true ∧ s.ringType p = 1)
    let noBme := (s.fn (ringFn r.val)).bme = false
    ∃ t, exec (.ringEnable r v) s = .next t ∧ t.bus = .ok 0 ∧ t.fifos = s.fifos ∧
      (cfgBad → t.ringOn r.val = false ∧ t.rf .RING_CTRL r.val 27 24 = 1) ∧
      (¬cfgBad → pairBad → t.ringOn r.val = false ∧ t.rf .RING_CTRL r.val 27 24 = 2) ∧
      (¬cfgBad → ¬pairBad → noBme → t.ringOn r.val = false ∧ t.rf .RING_CTRL r.val 27 24 = 5) ∧
      (¬cfgBad → ¬pairBad → ¬noBme → t.ringOn r.val = true ∧ t.rf .RING_CTRL r.val 27 24 = 0 ∧ t.ringType r.val = ty)) ∧
  (∀ (r : Fin 4096) (v : Word) (s : State), s.ringOn r.val = true →
    (s.isPaired r.val = true → ∃ t, exec (.ringDisable r v) s = .next t ∧ t.ringOn r.val = true ∧ t.rf .RING_CTRL r.val 27 24 = 4 ∧
      t.fifos = s.fifos) ∧
    (s.isPaired r.val = false → ∃ t, exec (.ringDisable r v) s = .next t ∧ t.ringOn r.val = false ∧
      t.fifo (.ring r) = (s.fifo (.ring r)).flush ∧ (∀ c ∈ t.vusta.posted, c ≠ .ring r))) ∧
  (∀ (r : Fin 4096) (moved : Nat) (s : State), ∃ t, exec (.ringDmaFail r moved) s = .next t ∧ t.ringOn r.val = false ∧
    t.rf .RING_CTRL r.val 27 24 = 3 ∧ (.aer (ringFn r.val)) ∈ t.out ∧
    (∀ q : Fin 4096, q ≠ r → t.fifo (.ring q) = s.fifo (.ring q) ∧ t.reg .RING_CTRL q.val = s.reg .RING_CTRL q.val)) ∧
  (∀ (r : Fin 4096) (el : Nat) (s : State), let b := s.advance el
    (s.ringX r.val).intDue = true → (b.fn (ringFn r.val)).bme = true → b.inFlr (ringFn r.val) = false →
    ∃ t, exec (.ringIntModExpiry r el) s = .next t ∧ t.out = .msix (ringFn r.val) (16 + r.val % 16) :: s.out ∧
      (t.ringX r.val).intDue = false ∧ (t.ringX r.val).lastInt = b.ela)

/-- Mailbox accesses of the side that may make them (R357 to R361, R363). -/
def Obligations.MailboxCommands : Prop :=
  (∀ (a : Agent) (ch : Fin 64) (s : State), isSender a ch.val = true → sees s a ch.val = true → s.rxOn ch.val = true →
    (s.full ch.val = true → exec (.mbxPost a ch) s = .next { s.setRb .MBX_STAT ch.val 28 true with bus := .ok 0 }) ∧
    (s.full ch.val = false → ∃ t, exec (.mbxPost a ch) s = .next t ∧ t.bus = .ok 0 ∧ t.full ch.val = true ∧
      t.rb .MBX_STAT ch.val 30 = false ∧ t.rb .MBX_STAT ch.val 26 = false ∧ t.msgEpoch ch.val = s.txEpoch ch.val ∧
      (∀ r i, i < 2 ^ 20 → (r ≠ .MBX_STAT ∨ i ≠ ch.val) → t.reg r i = s.reg r i) ∧
      (isCmdCh ch.val = true → t.vusta.posted = s.vusta.posted ++ [.mbx ch]))) ∧
  (∀ (a : Agent) (ch : Fin 64) (s : State), isSender a ch.val = true → sees s a ch.val = true → s.rxOn ch.val = false →
    exec (.mbxPost a ch) s = exec (.mbxWake a ch) s ∧ ∃ t, exec (.mbxPost a ch) s = .next t ∧ t.full ch.val = s.full ch.val) ∧
  (∀ (a : Agent) (ch : Fin 64) (s : State), isSender a ch.val = true → sees s a ch.val = true →
    exec (.mbxWake a ch) s = .next { s.wakeReceiver ch.val with bus := .ok 0 }) ∧
  (∀ (a : Agent) (ch : Fin 64) (w : Fin 16) (v : Word) (s : State), sees s a ch.val = true →
    (s.rxOn ch.val = false → exec (.mbxMsgWrite a ch w v) s = .next { s with bus := errResp a }) ∧
    (s.rxOn ch.val = true → isSender a ch.val = false → exec (.mbxMsgWrite a ch w v) s = .next { s with bus := .ok 0 }) ∧
    (s.rxOn ch.val = true → isSender a ch.val = true → ∃ t, exec (.mbxMsgWrite a ch w v) s = .next t ∧ t.bus = .ok 0 ∧
      t.reg .MBX_MSG (16 * ch.val + w.val) = v ∧
      (s.full ch.val = true → t.rb .MBX_STAT ch.val 28 = true ∧ t.rb .MBX_STAT ch.val 26 = true) ∧
      (s.full ch.val = false → t.reg .MBX_STAT ch.val = s.reg .MBX_STAT ch.val))) ∧
  (∀ (a : Agent) (ch : Fin 64) (v : Word) (s : State), 4 ≤ ch.val → sees s a ch.val = true → isReceiver a ch.val = true →
    s.rxOn ch.val = true → ∃ t, exec (.mbxAckWrite a ch v) s = .next t ∧ t.bus = .ok 0 ∧ t.full ch.val = false ∧
      t.rb .MBX_STAT ch.val 30 = true ∧ t.rf .MBX_ACK ch.val 31 16 = v.toNat / 65536 ∧ t.rf .MBX_ACK ch.val 7 0 = v.toNat % 256) ∧
  (∀ (a : Agent) (ch : Fin 64) (s : State), sees s a ch.val = true → s.rxOn ch.val = true →
    (ch.val < 4 → isReceiver a ch.val = true → ∃ t, exec (.mbxWord15Read a ch) s = .next t ∧
      t.bus = .ok (s.reg .MBX_MSG (16 * ch.val + 15)) ∧ t.full ch.val = false ∧ t.rb .MBX_STAT ch.val 30 = true) ∧
    ((4 ≤ ch.val ∨ isReceiver a ch.val = false) →
      exec (.mbxWord15Read a ch) s = .next { s with bus := .ok (s.reg .MBX_MSG (16 * ch.val + 15)) })) ∧
  (∀ s : State, ∃ t, exec .mctpEndpointReassign s = .next t ∧ t.txEpoch 0 = (s.txEpoch 0 + 1) % 256 ∧ t.msgEpoch 0 = s.msgEpoch 0 ∧
    t.full 0 = s.full 0)

/-- Notifications leave a store one at a time (R353, R369), and sideband messages reach firmware or channels 0 and 1 (R354, R438).
The model's choices in it: log entry 122. -/
def Obligations.NotificationsAndSideband : Prop :=
  (∀ (ch : Fin 64) (s : State) (n : Note) (r : List Note), let q := Tbl.get s.vusta.notes {} (noteKeyMbx ch.val)
    isNoteCh ch.val = true → q.wait = n :: r → s.rxOn ch.val = true →
    (s.full ch.val = true → exec (.notificationPost (.mbx ch)) s = .next s) ∧
    (s.full ch.val = false → ∃ t, exec (.notificationPost (.mbx ch)) s = .next t ∧ t.full ch.val = true ∧
      t.reg .MBX_MSG (16 * ch.val) = BitVec.ofNat 32 (n.op * 65536 + q.seq % 256) ∧
      t.reg .MBX_MSG (16 * ch.val + 1) = BitVec.ofNat 32 n.handle ∧
      (∀ i, i < 14 → t.reg .MBX_MSG (16 * ch.val + 2 + i) = BitVec.ofNat 32 (nth n.words 0 i)) ∧
      (Tbl.get t.vusta.notes {} (noteKeyMbx ch.val)).seq = (q.seq + 1) % 256 ∧
      (q.dropped = [] → (Tbl.get t.vusta.notes {} (noteKeyMbx ch.val)).wait = r))) ∧
  (∀ (s : State) (body : List Byte), exec (.sidebandMctpMessage 0x00 body) s = .next (s.emit (.firmware .mctpControl 0 body)) ∧
    exec (.sidebandMctpMessage 0x01 body) s = .next (s.emit (.firmware .pldm 0 body))) ∧
  (∀ (s : State) (ch : Fin 64) (msg : List Byte), ch.val < 2 → s.rb .MBX_STAT ch.val 30 = true → s.rxOn ch.val = true →
    s.full ch.val = false → ∃ t, exec (.sidebandMctpMessage 0x7F (BitVec.ofNat 8 ch.val :: msg)) s = .next t ∧ t.full ch.val = true ∧
      t.vusta.posted = s.vusta.posted ++ [.mbx ch] ∧
      ∀ i, i < 16 → t.reg .MBX_MSG (16 * ch.val + i) = nth (bytesToWords 16 msg) 0 i)

/-- The arithmetic of a slice (R120 to R122, R124): effective gain, product, sum and minus-self sum, the stored outputs with their
saturation, gain ramps, and the peak hold. -/
def Obligations.SliceArithmetic : Prop :=
  (∀ (gs ms xs : List Int) (k : Nat), k < gs.length → k < ms.length → k < xs.length →
    nth (products gs ms xs) 0 k = (nth gs 0 k * nth ms 0 k + 2 ^ 14) / 2 ^ 15 * nth xs 0 k) ∧
  (∀ (p : List (Nat × List Int)) (k : Nat),
    nth (sumFrames (p.map (·.2))) 0 k = p.foldr (fun q a => nth q.2 0 k + a) 0) ∧
  (∀ (w : Word) (a : List Int) (p : List (Nat × List Int)) (j : Nat) (x : List Int) (k : Nat),
    p.find? (fun q => q.1 == j) = some (j, x) → fld w 15 0 = j →
    (bit w 29 = true → nth (sumFor w a p) 0 k = nth a 0 k - nth x 0 k) ∧ (bit w 29 = false → sumFor w a p = a)) ∧
  (∀ (a gc : List Int) (k : Nat), k < a.length → k < gc.length →
    nth (confOut a).1 0 k = max (-32768) (min 32767 ((nth a 0 k + 2 ^ 11) / 2 ^ 12)) ∧
    nth (classOut a gc).1 0 k = max (-32768) (min 32767 (((nth a 0 k + 2 ^ 11) / 2 ^ 12 * nth gc 0 k + 2 ^ 11) / 2 ^ 12)) ∧
    (confOut a).2 = (a.filter fun v => decide ((v + 2 ^ 11) / 2 ^ 12 < -32768 ∨ 32767 < (v + 2 ^ 11) / 2 ^ 12)).length) ∧
  (∀ (r : Ramp) (k : Int), (k < r.start → r.n ≠ 0 → r.val k = r.g0) ∧ (r.n ≤ k - r.start + 1 → r.start ≤ k → r.val k = r.g1)) ∧
  (∀ (r : Ramp) (k : Nat), r.lin = true → r.start = 0 → k + 1 < r.n → r.g0 ≤ r.g1 →
    2 * (r.val k - r.g0) * r.n ≤ 2 * (r.g1 - r.g0) * (k + 1) + r.n ∧ 2 * (r.g1 - r.g0) * (k + 1) < 2 * (r.val k - r.g0) * r.n + r.n) ∧
  (∀ (r : Ramp) (target : Int) (n : Nat) (lin : Bool) (k : Int), (r.to target n lin k).val (k - 1) = r.val (k - 1) ∧
    (12 ≤ n → n ≤ 48000 → (r.to target n lin k).n = n) ∧ (0 < n → n < 12 → (r.to target n lin k).n = 12) ∧
    (48000 < n → (r.to target n lin k).n = 48000) ∧ (r.to target 0 lin k).n = 240) ∧
  (∀ (m : MeterSt) (peak : Int) (frames : Nat) (decay : Int), let u := m.hold' peak frames decay
    (m.hold ≤ peak → u.hold = peak ∧ u.timer = frames) ∧
    (peak < m.hold → 0 < m.timer → u.hold = m.hold ∧ u.timer = m.timer - 1) ∧
    (peak < m.hold → m.timer = 0 → -32768 ≤ peak → u.hold = max peak (m.hold - decay)))

/-- The mix fabric's events where each has its effect (R112, R119, R126, R134, R136, R139, R141): boundaries at their times, one source
step and one write of a slice a frame, the arming, lateness and swap of a safe-load, late outputs, and the end of an exit
ramp.
The model's choices in it: log entries 42, 47, 48, 49. -/
def Obligations.MixEvents : Prop :=
  (∀ (el : Nat) (s : State), let b := s.advance el
    s.rb .MIXF_CTRL 0 31 = true → s.pdOn 34 = true → s.mix.nextAt ≤ b.ela →
    (s.mix.boundAt = 0 ∨ (s.mix.srcDone = true ∧ ∀ n, n < 16 → s.sliceOn n = false ∨ s.sliceDone n = true)) →
    ∃ t, exec (.mixFrameBoundary el) s = .next t ∧ t.mix.boundAt = s.mix.nextAt ∧ t.mix.nextAt = s.mix.nextAt + 10000000 ∧
      t.mix.srcDone = false ∧ t.mix.written = [] ∧ t.cnt .MIXF_FRAME_LO 0 = s.cnt .MIXF_FRAME_LO 0 + 1) ∧
  (∀ (el : Nat) (s : State), (s.rb .MIXF_CTRL 0 31 = false ∨ (s.advance el).ela < s.mix.nextAt) →
    exec (.mixFrameBoundary el) s = .next (s.advance el)) ∧
  (∀ (n : Fin 16) (v : Word) (s : State), s.armed n.val = false → bit v 31 = true →
    let w := applyWrite (RegName.flds .MIXF_SL_ARM) (s.reg .MIXF_SL_ARM n.val) v
    let u := s.setReg .MIXF_SL_ARM n.val w
    (u.pointAhead n.val (u.armAt n.val) (u.armSample n.val) = true → exec (.safeLoadArm n v) s = .next { u with bus := .ok 0 }) ∧
    (u.pointAhead n.val (u.armAt n.val) (u.armSample n.val) = false → ∃ t, exec (.safeLoadArm n v) s = .next t ∧
      t.armed n.val = false ∧ t.rb .MIXF_SL_ARM n.val 30 = true ∧
      t.cnt .MIXF_CNT_LO (8 * n.val + 4) = s.cnt .MIXF_CNT_LO (8 * n.val + 4) + 1 ∧ t.mix = s.mix)) ∧
  (∀ (n : Fin 16) (s : State), s.armed n.val = true → s.sliceOn n.val = true → s.armAt n.val = s.mixFrame → s.mix.boundAt ≠ 0 →
    s.sliceDone n.val = false → ∃ t, exec (.safeLoadSwap n) s = .next t ∧ t.armed n.val = false ∧
      (s.armCount n.val = 1 → ∀ i, i < 1280 → Tbl.get s.mix.tags 0 (1024 * n.val) = i →
        t.entry n.val i = (s.entry n.val i).become false (Tbl.get s.mix.shadow [] (1024 * n.val)) (s.armSample n.val) true ∧
        (∀ m j, (m * 2304 + j ≠ n.val * 2304 + i) → t.entry m j = s.entry m j))) ∧
  (∀ (frames : List SrcFrame) (el : Nat) (s : State), let b := s.advance el
    s.rb .MIXF_CTRL 0 31 = true → s.mix.srcDone = false → 0 < s.mix.boundAt → s.mix.boundAt + s.srcDeadline ≤ b.ela →
    ∃ t, exec (.sourceDeadline frames el) s = .next t ∧ t.mix.srcDone = true) ∧
  (∀ (frames : List SrcFrame) (el : Nat) (s : State), s.mix.srcDone = true → exec (.sourceDeadline frames el) s = .next (s.advance el)) ∧
  (∀ (src : Nat) (s : State) (x : Source) (c : Conf) (m : Member), Tbl.find s.mix.sources src = some x → Tbl.find s.mix.confs x.conf = some c →
    c.members.find? (fun m => m.src == src && m.leaving && m.m.done (if s.sliceDone c.home then 479 else -1)) = some m →
    x.removed = false → ∃ t, exec (.memberRampEnd src) s = .next t ∧
      t.conf x.conf = { c with members := c.members.filter fun m =>
        !(m.src == src && m.leaving && m.m.done (if s.sliceDone c.home then 479 else -1)) } ∧ t.source src = x) ∧
  (∀ (n : Fin 16) (el : Nat) (s : State), let b := (s.advance el).lateOut n.val
    b.sliceOn n.val = true → b.mix.srcDone = true → b.sliceDone n.val = false →
    ∃ t, exec (.classOutputWrite n el) s = .next t ∧ t.sliceDone n.val = true) ∧
  (∀ (n : Fin 16) (el : Nat) (s : State), let b := s.advance el
    s.sliceOn n.val = true → s.mix.srcDone = true → s.sliceDone n.val = false → Tbl.get s.mix.late false n.val = false →
    s.mix.boundAt + s.outDeadline ≤ b.ela →
    ∃ t, exec (.outDeadlineExpiry n el) s = .next t ∧ Tbl.get t.mix.late false n.val = true ∧
      t.cnt .MIXF_CNT_LO (8 * n.val + 6) = s.cnt .MIXF_CNT_LO (8 * n.val + 6)
        + BitVec.ofNat 64 (s.mix.classes.filter fun kv => (s.conf kv.2.conf).home == n.val).length)

/-- The pool manager's operations (R152 to R155): SET and CLEAR with their refusals in order, the generation and the free list when a
buffer becomes free, and the queries.
Request ports and the decode pipe (R160 to R169): staging, the hand-over of a request, refusals, the start of a unit, its
allocation, the end of the allocation wait, completion, and the refresh timer.
The model's choices in it: log entries 56, 64, 215, 216. -/
def Obligations.PoolAndDecodeEvents : Prop :=
  (∀ (c : Fin 4) (v : Word) (s : State), s.poolOn = true → s.regionOf (fld v 19 0) ≠ none →
    let b := fld v 19 0
    let m := fld v 28 26
    let e := s.ent b
    let answers (i : Instr) (code gen : Nat) (ent : PoolEnt) : Prop := ∃ t, exec i s = .next t ∧ t.bus = .ok 0 ∧
      fld (Tbl.get t.video.pool.res 0 c.val) 31 29 = code ∧ fld (Tbl.get t.video.pool.res 0 c.val) 23 20 = gen % 16 ∧ t.ent b = ent ∧
      (∀ b', b' ≠ b → t.ent b' = s.ent b') ∧ { t with video := s.video, freeCtr := s.freeCtr, bus := s.bus } = s
    (fld v 23 20 ≠ e.gen → answers (.poolSet c v) 1 e.gen e ∧ answers (.poolClear c v) 1 e.gen e) ∧
    (fld v 23 20 = e.gen →
      (e.free = true → answers (.poolSet c v) 2 e.gen e) ∧
      (e.free = false → e.atLimit m = true → answers (.poolSet c v) 3 e.gen e) ∧
      (e.free = false → e.atLimit m = false → answers (.poolSet c v) 0 e.gen (e.add m)) ∧
      (e.has m = false → answers (.poolClear c v) 0 e.gen e) ∧
      (e.has m = true → (e.sub m).free = false → answers (.poolClear c v) 0 (e.sub m).gen (e.sub m)) ∧
      (e.has m = true → (e.sub m).free = true → answers (.poolClear c v) 0 ((e.gen + 1) % 16) { e.sub m with gen := (e.gen + 1) % 16 } ∧
        ∃ t, exec (.poolClear c v) s = .next t ∧ ∀ r, s.regionOf b = some r → (t.region r).freed = (s.region r).freed ++ [b])) ∧
    (∃ t, exec (.poolQuery c v) s = .next t ∧ fld (Tbl.get t.video.pool.res 0 c.val) 31 29 = 0 ∧
      fld (Tbl.get t.video.pool.res 0 c.val) 7 0 = e.bits.toNat ∧ fld (Tbl.get t.video.pool.res 0 c.val) 8 8 = b2n e.busy ∧
      fld (Tbl.get t.video.pool.res 0 c.val) 13 10 = e.host % 16 ∧ fld (Tbl.get t.video.pool.res 0 c.val) 19 14 = e.comp % 64) ∧
    (∃ t, exec (.slotQuery c v) s = .next t ∧ fld (Tbl.get t.video.pool.res 0 c.val) 31 29 = 0 ∧
      fld (Tbl.get t.video.pool.res 0 c.val) 19 0 = (match (s.slotOf (b % 4096)).buf with
        | some x => x.fbh % 2 ^ 20
        | none => 0xFFFFF))) ∧
  (∀ (pe : Fin 8) (k : Fin 512) (ws : List Word) (s : State), (s.core k.val).running = true → s.pdOn (18 + pe.val) = true →
    let p := Tbl.get (s.eng pe.val).ports {} k.val
    (p.staged.length < 33 → ∃ t, exec (.reqAppend pe k ws) s = .next t ∧ t.bus = .ok 0 ∧ Tbl.get (t.eng pe.val).ports {} k.val = { p with
      staged := p.staged ++ [(List.range 8).map fun i => nth ws 0 i], res := 0 }) ∧
    (33 ≤ p.staged.length → ∃ t, exec (.reqAppend pe k ws) s = .next t ∧ Tbl.get (t.eng pe.val).ports {} k.val = { p with res := 2 }) ∧
    (∃ t, exec (.reqDiscard pe k) s = .next t ∧ t.bus = .ok 0 ∧ Tbl.get (t.eng pe.val).ports {} k.val = { p with staged := [] }) ∧
    (∀ head segs, p.staged = head :: segs →
      (s.reqRefused pe.val k.val head segs = true → ∃ t, exec (.reqCommit pe k) s = .next t ∧
        Tbl.get (t.eng pe.val).ports {} k.val = { p with staged := [], res := 3 } ∧ t.fifos = s.fifos) ∧
      (s.reqRefused pe.val k.val head segs = false → (s.fifo (reqId pe.val)).accepts false p.staged.length true = false →
        ∃ t, exec (.reqCommit pe k) s = .next t ∧ Tbl.get (t.eng pe.val).ports {} k.val = { p with res := 1 } ∧ t.fifos = s.fifos) ∧
      (s.reqRefused pe.val k.val head segs = false → (s.fifo (reqId pe.val)).accepts false p.staged.length true = true →
        ∃ t, exec (.reqCommit pe k) s = .next t ∧ t.bus = .ok 0 ∧ Tbl.get (t.eng pe.val).ports {} k.val = { p with staged := [], res := 0 } ∧
          (t.eng pe.val).reqs = (s.eng pe.val).reqs ++ [{ dec := fld (nth head 0 0) 11 0, items := p.staged.length, head }] ∧
          t.fifo (reqId pe.val) = (s.fifo (reqId pe.val)).publish false p.staged true))) ∧
  (∀ (pe : Fin 8) (k : Fin 512) (ws : List Word) (s : State), ((s.core k.val).running = false ∨ s.pdOn (18 + pe.val) = false) →
    ∀ i ∈ ([(.reqAppend pe k ws, 0x1C), (.reqCommit pe k, 0x20), (.reqDiscard pe k, 0x20)] : List (Instr × Nat)),
      let e := { s with bus := .busError }
      exec i.1 s = .next (if (s.core k.val).running = true ∧ (s.core k.val).faulted = none
        then e.coreFault k.val 5 (0x2003008000 + pe.val * 0x100000 + k.val * 0x40 + i.2) else e)) ∧
  (∀ (pe : Fin 8) (f : PicFacts) (el : Nat) (s : State), let b := s.advance el
    b.pipeOn pe.val = true → (∀ j, (s.eng pe.val).job = some j → j.buf = none) → ∀ r, (s.eng pe.val).front = some r →
    (b.waitOver pe.val = true → exec (.decodeStart pe f el) s = .next (b.noBuffer pe.val r)) ∧
    (b.waitOver pe.val = false →
      let u := (b.newUnit r.dec (rqTs r.head)).updDec r.dec fun d => d.raise (rqS r.head) (rqRp r.head)
      let d := u.dec r.dec
      let region := if rqS r.head = d.outS then d.region else d.lower
      (d.outOfLimits f (rqS r.head) = true → (s.fifo (doneId pe.val)).discard = false → ∃ t, exec (.decodeStart pe f el) s = .next t ∧
        (t.eng pe.val).job = none ∧ ∃ it, (t.fifo (doneId pe.val)).items = (s.fifo (doneId pe.val)).items ++ [it] ∧
        fld (nth it 0 0) 31 24 = 6) ∧
      (d.outOfLimits f (rqS r.head) = false → d.skips r.head f = true → (s.fifo (doneId pe.val)).discard = false →
        ∃ t, exec (.decodeStart pe f el) s = .next t ∧ (t.eng pe.val).job = none ∧ ∃ it,
          (t.fifo (doneId pe.val)).items = (s.fifo (doneId pe.val)).items ++ [it] ∧ fld (nth it 0 0) 31 24 = 3) ∧
      (d.outOfLimits f (rqS r.head) = false → d.skips r.head f = false →
        (∀ x v, u.poolAlloc region = some (x, v) → ∃ t j, exec (.decodeStart pe f el) s = .next t ∧ (t.eng pe.val).job = some j ∧
          j.dec = r.dec ∧ j.head = r.head ∧ j.buf = some x ∧ (t.ent x.fbh).busy = true) ∧
        (u.poolAlloc region = none → ∃ t j, exec (.decodeStart pe f el) s = .next t ∧ (t.eng pe.val).job = some j ∧
          j.buf = none ∧ j.region = region ∧ (t.eng pe.val).reqs = (s.eng pe.val).reqs)))) ∧
  (∀ (pe : Fin 8) (el : Nat) (s : State) (r : DecReq), let b := s.advance el
    (s.eng pe.val).front = some r → b.pipeOn pe.val = true → (s.fifo (doneId pe.val)).discard = false →
    (b.waitOver pe.val = false → exec (.allocWaitTimeout pe el) s = .next b) ∧
    (b.waitOver pe.val = true → ∃ t, exec (.allocWaitTimeout pe el) s = .next t ∧ (t.eng pe.val).job = none ∧ ∃ it,
      (t.fifo (doneId pe.val)).items = (s.fifo (doneId pe.val)).items ++ [it] ∧ fld (nth it 0 0) 31 24 = 5 ∧
      fld (nth it 0 0) 11 0 = r.dec % 4096 ∧ nth it 0 2 = nth r.head 0 1)) ∧
  (∀ (pe : Fin 8) (f : PicFacts) (el : Nat) (s : State) (j : DecJob) (x : Buf), let b := s.advance el
    (s.eng pe.val).job = some j → j.buf = some x → b.pipeOn pe.val = true →
    (f.error = true → (s.fifo (doneId pe.val)).discard = false → ∃ t, exec (.decodeComplete pe f el) s = .next t ∧
      (t.eng pe.val).job = none ∧ ∃ it, (t.fifo (doneId pe.val)).items = (s.fifo (doneId pe.val)).items ++ [it] ∧
      fld (nth it 0 0) 31 24 = 4 ∧ nth it 0 3 = BitVec.ofNat 32 f.cycles) ∧
    (f.error = false → exec (.decodeComplete pe f el) s = .next (b.endUnit pe.val j x f) ∧ ((b.endUnit pe.val j x f).eng pe.val).job = none)) ∧
  (∀ (i el : Nat) (s : State) (d : DecCtx) (t0 : Nat), let b := s.advance el
    Tbl.find s.video.decs i = some d → d.timer = some t0 → d.st = .concealed → t0 + d.gapMs * 1000000 ≤ b.ela →
    ∃ t, exec (.refreshTimerExpiry i el) s = .next t ∧ (t.dec i).timer = some b.ela ∧ (t.dec i).st = .concealed)

/-- Composition and snapshots where each event has its effect (R174, R181, R211, R212, R227): the tick that starts a picture, the
tick that waits for pictures due before it, the one that finds a picture still composing or no engine, the completed picture, with the
cells whose sources cannot be read (R341), and its posts, and the end of a copy.
The model's choices in it: log entries 66, 75, 77, 78, 237. -/
def Obligations.CompositionEvents : Prop :=
  (∀ (i : Fin 1024) (el : Nat) (s : State) (l : Layout), let b := s.advance el
    Tbl.find s.video.layouts i.val = some l → l.removed = false → l.tick l.next ≤ b.dev →
    (b.pdOn (18 + l.pe) = false → exec (.layoutTick i el) s = .next (b.lateTick i.val) ∧
      ((b.lateTick i.val).layout i.val).next = l.next + 1 ∧ ((b.lateTick i.val).layout i.val).job = l.job) ∧
    (b.pdOn (18 + l.pe) = true → b.compOn l.pe = false → ∃ t, exec (.layoutTick i el) s = .next t ∧
      t.layout i.val = { l with next := l.next + 1 } ∧ { t with video := { t.video with layouts := s.video.layouts } } = b) ∧
    (b.compOn l.pe = true → l.job.isSome = true → ∃ t, exec (.layoutTick i el) s = .next t ∧ (t.layout i.val).job = l.job ∧
      (t.layout i.val).next = l.next + 1 ∧ t = b.lateTick i.val) ∧
    (b.compOn l.pe = true → l.job = none → b.tickWaits i.val = true → exec (.layoutTick i el) s = .next b) ∧
    (b.compOn l.pe = true → l.job = none → b.tickWaits i.val = false →
      let u := b.updVideo fun v => { v with compPtr := Tbl.set v.compPtr l.pe ((l.idx + 1) % 128) }
      exec (.layoutTick i el) s = .next (u.startPicture i.val l.next) ∧
      ((u.startPicture i.val l.next).layout i.val).next = l.next + 1 ∧
      (∀ j, ((u.startPicture i.val l.next).layout i.val).job = some j → j.n = l.next ∧ j.since = b.ela ∧ j.posts = none))) ∧
  (∀ (i : Fin 1024) (el : Nat) (s : State) (l : Layout), Tbl.find s.video.layouts i.val = some l → (s.advance el).dev < l.tick l.next →
    exec (.layoutTick i el) s = .next (s.advance el)) ∧
  (∀ (s : State) (i : Nat) (l : Layout), Tbl.find s.video.layouts i = some l → s.tickWaits i = false →
    ∀ k m, (k, m) ∈ s.video.layouts → k ≠ i → m.pe = l.pe →
      (∀ j, m.job = some j → l.tick l.next ≤ m.tick j.n) ∧ (m.job = none → m.removed = false → l.tick l.next ≤ m.tick m.next)) ∧
  (∀ (s : State) (i : Nat) (l : Layout), Tbl.find s.video.layouts i = some l → l.lateAt + 1000000000 ≤ s.ela + 1 →
    let t := s.missTick i
    (t.layout i).late.head? = some s.ela ∧ (t.layout i).lateAt = s.ela + 1 ∧
      t.vusta = ((s.cntComp i L_LATE).notify l.own.fn 0x0580 i [(t.layout i).late.length]).vusta) ∧
  (∀ (pe : Fin 8) (rd : Reads) (s : State) (i : Nat) (l : Layout) (j0 : CompJob), let b0 := s.advance rd.el
    s.video.layouts = [(i, l)] → l.pe = pe.val → l.job = some j0 → b0.compOn pe.val = true →
    let z := if j0.posts = none then b0.blankUnread i j0 rd else (b0, j0)
    let b := z.1
    let j := z.2
    let p := if j.posts = none then b.composePicture i j else b
    let r := p.postInputs i j (((p.layout i).job.bind (·.posts)).getD [])
    exec (.composeComplete pe rd) s = .next
      (if r.2 = [] then r.1.endPicture i j else r.1.updLayout i fun l => { l with job := some { j with posts := some r.2 } }) ∧
    (j.posts = none → (p.layout i).disp.buf = some (Tbl.get j.bufs {} 0) ∧ (p.layout i).disp.ts = l.ts j.n ∧
      (p.layout i).job = some { j with posts := some ((s.groupsOf i).map (·.1)) }) ∧
    (r.2 = [] → (l.removed = true → Tbl.find (r.1.endPicture i j).video.layouts i = none) ∧
      (l.removed = false → let m := (r.1.endPicture i j).layout i
        m.job = none ∧ m.canvas = j.bufs.map (·.2) ∧ m.lastSheet = some l.sheet)) ∧
    (∀ g rest, j.posts = some (g :: rest) → Tbl.has s.video.groups g = true →
      (s.fifo (encInId (s.group g).pe)).accepts false 1 true = false →
      ∃ t, exec (.composeComplete pe rd) s = .next t ∧ (t.layout i).job = some j ∧ t.fifos = s.fifos ∧ t.video.pool = s.video.pool) ∧
    (j0.posts = none → j.shown = j0.shown.map (fun x => if b0.shownUnread rd x then {} else x) ∧
      j = { j0 with shown := j.shown } ∧ (rd.ue = [] → b = b0 ∧ j = j0))) ∧
  (∀ (tn : Fin 4) (ok : Bool) (el : Nat) (s : State) (x : Snapshot) (r : List Snapshot), let b := s.advance el
    s.video.snaps = x :: r → x.own.fn / 64 = tn.val →
    ∃ t, exec (.snapshotCopyDone tn ok el) s = .next t ∧ t.video = { (b.unmark x.buf 6).video with snaps := r } ∧
      t.vusta = (b.notify x.own.fn 0x0683 x.dec [if ok then 0 else BAD_PARAM]).vusta)

/-- The encode pipes where each event has its effect (R180 to R204): an item enters, a picture is analysed and handed to its
renditions, a coder takes, waits, codes and completes a picture, and a starved group raises its quantiser; a picture
that cannot be read ends ABORTED (R341). The search (R183 to R185)
keeps at most 16 different candidates that are in range and break no wave, and stores a vector that costs no more than any of them.
The model's choices in it: log entries 67, 73, 74, 218, 220, 224, 228, 229, 237. -/
def Obligations.EncodeEvents : Prop :=
  (∀ (pe : Fin 8) (el : Nat) (s : State) (it : List Word) (its : List (List Word)) (e : Nat) (es : List Nat), let b := s.encStep pe.val el
    (b.fifo (encInId pe.val)).items = it :: its → (b.fifo (encInId pe.val)).ends = e :: es → b.encOn pe.val = true →
    let u := b.setFifo (encInId pe.val) ((b.fifo (encInId pe.val)).consume 1)
    exec (.encInputAccept pe el) s = .next (u.acceptItem pe.val it) ∧
    (Tbl.find b.video.groups (fld (nth it 0 0) 10 0) = none → u.acceptItem pe.val it = u.cntEnc pe.val 8) ∧
    (∀ g, Tbl.find b.video.groups (fld (nth it 0 0) 10 0) = some g → g.pe = pe.val → g.removed = false →
      ((u.acceptItem pe.val it).group (fld (nth it 0 0) 10 0)).nextPic = g.nextPic + 1)) ∧
  (∀ (s : State) (gi seq : Nat) (g : Group) (p : EncPic), Tbl.find s.video.groups gi = some g → Tbl.find g.pics seq = some p →
    Tbl.find ((s.lateDrop gi seq).group gi).pics seq = none ∧
    (s.lateDrop gi seq).cnt .PICT_ENC_CNT_LO (12 * g.pe + 7) = s.cnt .PICT_ENC_CNT_LO (12 * g.pe + 7) + 1) ∧
  (∀ (pe : Fin 8) (el : Nat) (s : State) (gi seq : Nat), let b := s.encStep pe.val el
    b.encOn pe.val = true → (b.encEng pe.val).an = none → b.nextAnalysis pe.val = some (gi, seq) →
    ∃ t, exec (.analysisStart pe el) s = .next t ∧ (t.encEng pe.val).an = some (gi, seq) ∧ (t.encEng pe.val).ptr = (gi + 1) % 2048 ∧
      (Tbl.get (t.group gi).pics {} seq).begun = true ∧ (Tbl.get (t.group gi).pics {} seq).since = b.ela) ∧
  (∀ (pe : Fin 8) (el : Nat) (s : State) (gi seq : Nat) (g : Group), let b := s.encStep pe.val el
    (b.encEng pe.val).an = some (gi, seq) → b.encOn pe.val = true → Tbl.find b.video.groups gi = some g → g.pe = pe.val →
    (∃ t, exec (.analysisComplete pe true el) s = .next t ∧ (t.encEng pe.val).an = none ∧
      t.cnt .PICT_ENC_CNT_LO (12 * pe.val) = b.cnt .PICT_ENC_CNT_LO (12 * pe.val) ∧
      (∀ r x, (Tbl.get g.pics {} seq).todo = [r] → Tbl.find b.video.rends r = some x → x.live = true →
        (Tbl.get (Tbl.get g.pics {} seq).plan {} r).epoch = x.epoch → b.encRoom pe.val = true →
        (b.fifo (encDoneId pe.val)).discard = false →
        ∃ it, (t.fifo (encDoneId pe.val)).items = (b.fifo (encDoneId pe.val)).items ++ [it] ∧ fld (nth it 0 0) 31 24 = 5 ∧
          fld (nth it 0 0) 10 0 = r % 2048)) ∧
    ∃ t, exec (.analysisComplete pe false el) s = .next t ∧ (t.encEng pe.val).an = none ∧
      t.cnt .PICT_ENC_CNT_LO (12 * pe.val) = b.cnt .PICT_ENC_CNT_LO (12 * pe.val) + 1 ∧
      (∀ r x, (Tbl.get g.pics {} seq).todo = [r] → Tbl.find b.video.rends r = some x → x.live = true →
        (Tbl.get (Tbl.get g.pics {} seq).plan {} r).epoch = x.epoch →
        ∃ y q, Tbl.find t.video.rends r = some y ∧ y.queue = x.queue ++ [q] ∧
          q.seq = (Tbl.get (Tbl.get g.pics {} seq).plan {} r).seq ∧ q.rows.length = cdiv (b.rendDims x).2 64) ∧
      (∀ r, (Tbl.get g.pics {} seq).todo = [r] → g.removed = false → Tbl.get (t.group gi).decs [] seq = (b.searchOf gi seq).run)) ∧
  (∀ (c : Search) (done : Tbl BlkDec) (bx y : Nat),
    (c.cands done bx y).length ≤ 16 ∧ (c.starved = true → (c.cands done bx y).length ≤ 3) ∧ (c.cands done bx y).Nodup ∧
    (∀ v ∈ c.cands done bx y, v.inRange = true ∧ v.dx % 8 = 0 ∧ v.dy % 8 = 0 ∧ c.keeps bx y v = true) ∧
    (c.best done bx y).1.inRange = true ∧ (c.best done bx y).2 = c.cost (c.med done bx y) bx y (c.best done bx y).1 ∧
    (∀ v ∈ c.cands done bx y, (c.best done bx y).2 ≤ c.cost (c.med done bx y) bx y v)) ∧
  (∀ (pe : Fin 8) (c : Fin 4) (el : Nat) (s : State), let b := s.encStep pe.val el
    b.encOn pe.val = true → b.encRoom pe.val = true →
    (∀ j h, Tbl.find (b.encEng pe.val).coders c.val = some j → j.buf = none → j.header = none →
      (j.since + 1000000 < b.ela → exec (.coderStart pe c h el) s = .next (b.notCoded pe.val c.val 4 j)) ∧
      (b.ela ≤ j.since + 1000000 → (∀ x, h = some x → exec (.coderStart pe c h el) s = .next (b.beginPic pe.val c.val j x)) ∧
        (h = none → exec (.coderStart pe c h el) s = .next (b.setJob pe.val c.val j)))) ∧
    (∀ j k hd, Tbl.find (b.encEng pe.val).coders c.val = some j → j.buf = none → j.header = some k →
      (j.since + 2000000 < b.ela → exec (.coderStart pe c hd el) s = .next (b.encNoBuffer pe.val c.val j)) ∧
      (b.ela ≤ j.since + 2000000 → exec (.coderStart pe c hd el) s = .next (b.reconAlloc pe.val c.val j))) ∧
    (∀ r cls, Tbl.find (b.encEng pe.val).coders c.val = none → b.nextRend pe.val c.val = some (r, cls) →
      ∃ t j, exec (.coderStart pe c none el) s = .next t ∧ Tbl.find (t.encEng pe.val).coders c.val = some j ∧ j.rend = r ∧
        j.since = b.ela ∧ j.pic = (b.rend r).queue.headD {} ∧ (t.rend r).queue = (b.rend r).queue.drop 1 ∧
        Tbl.get (t.encEng pe.val).ptrs 0 (2 * c.val + cls) = (r + 1) % 2048)) ∧
  (∀ (s : State) (pe c : Nat) (j : CoderJob) (h : EncHdr), let r := s.rend j.rend
    ((j.pic.epoch ≠ r.epoch ∨ (r.st = .start ∧ s.jobLayer j ≠ 0)) → s.beginPic pe c j h = s.notCoded pe c 5 j) ∧
    (j.pic.epoch = r.epoch → (r.st = .start → s.jobLayer j = 0) → ∀ a, r.avail j.pic = some a → a < cdiv h.bits 8 + j.f 0 →
      s.beginPic pe c j h = s.capDrop pe c j)) ∧
  (∀ (pe : Fin 8) (c : Fin 4) (el : Nat) (s : State) (j : CoderJob), let b := s.encStep pe.val el
    Tbl.find (b.encEng pe.val).coders c.val = some j → b.encRoom pe.val = true →
    (j.header = none → j.since + 1000000 ≤ b.ela → exec (.headerWaitTimeout pe c el) s = .next (b.notCoded pe.val c.val 4 j)) ∧
    (j.header.isSome = true → j.buf = none → j.since + 2000000 ≤ b.ela →
      exec (.reconAllocTimeout pe c el) s = .next (b.encNoBuffer pe.val c.val j))) ∧
  (∀ (s : State) (pe c st : Nat) (j : CoderJob), s.encOn pe = true → s.encRoom pe = true → (s.fifo (encDoneId pe)).discard = false → st < 256 →
    ∃ it, ((s.notCoded pe c st j).fifo (encDoneId pe)).items = (s.fifo (encDoneId pe)).items ++ [it] ∧ fld (nth it 0 0) 31 24 = st ∧
      fld (nth it 0 0) 10 0 = j.rend % 2048 ∧ nth it 0 4 = BitVec.ofNat 32 (s.jobPic j).ts ∧
      Tbl.find ((s.notCoded pe c st j).encEng pe).coders c = none) ∧
  (∀ (pe : Fin 8) (c : Fin 4) (bytes : Nat) (el : Nat) (s : State) (j : CoderJob), let b := s.encStep pe.val el
    let d := b.drain pe.val c.val j
    let x := b.fifo (encOutId pe.val c.val)
    let tight := bytes > 262144 ∨ j.skipping = true ∨ (∃ m, j.budget = some m ∧ m < j.used + bytes + j.f (j.row + 1))
    Tbl.find (b.encEng pe.val).coders c.val = some j → b.encOn pe.val = true → j.buf.isSome = true → j.row < j.pic.rows.length →
    (j.row = 0 ∨ d.2.tail.length < 64) → x.discard = false →
    exec (.coderRowCommit pe c bytes true el) s =
      .next ((b.updRend j.rend fun r => r.unplan (b.jobLayer j) j.pic).abortJob pe.val c.val pe.val false) ∧
    ∃ t k out, exec (.coderRowCommit pe c bytes false el) s = .next t ∧ (t.fifo (encOutId pe.val c.val)).items = x.items ++ out ∧
      Tbl.find (t.encEng pe.val).coders c.val = some k ∧ k.row = j.row + 1 ∧ k.items = j.items + out.length ∧
      64 * k.items + k.tail.length + j.used = 64 * j.items + j.tail.length + k.used ∧
      (j.grey = false → tight → k.skipping = true ∧ k.skipped = j.skipped ++ [j.row] ∧ k.used = j.used + (j.f j.row - j.f (j.row + 1))) ∧
      (j.grey = false → ¬tight → k.skipping = false ∧ k.skipped = j.skipped ∧ k.used = j.used + bytes) ∧
      (j.grey = true → k.skipped = j.skipped ∧ k.used = j.used + (j.f j.row - j.f (j.row + 1)))) ∧
  (∀ (pe : Fin 8) (c : Fin 4) (el : Nat) (s : State) (j : CoderJob) (x : Buf), let b := s.encStep pe.val el
    let d := b.drain pe.val c.val j
    let out := bytesItems (padItem d.2.tail) ++ [outTrailer 0 (d.2.header.getD 0 + d.2.used) d.2]
    Tbl.find (b.encEng pe.val).coders c.val = some j → j.buf = some x → b.encOn pe.val = true → b.encRoom pe.val = true →
    j.pic.rows.length ≤ j.row → (b.fifo (encOutId pe.val c.val)).discard = false → (b.fifo (encDoneId pe.val)).discard = false →
    d.2.tail.length < 64 → (d.1.fifo (encOutId pe.val c.val)).accepts false out.length true = true →
    ((b.encEng pe.val).owed.any fun p => p.fifo pe.val == encOutId pe.val c.val) = false →
    ∃ t it, exec (.pictureCoded pe c el) s = .next t ∧
      (t.fifo (encOutId pe.val c.val)).items = (d.1.fifo (encOutId pe.val c.val)).items ++ out ∧
      (t.fifo (encDoneId pe.val)).items = (b.fifo (encDoneId pe.val)).items ++ [it] ∧ fld (nth it 0 0) 31 24 = 0 ∧
      Tbl.find (t.encEng pe.val).coders c.val = none) ∧
  (∀ (r : Rend) (j : CoderJob), let q := r.coded j
    q.count = (r.count + 1) % 2 ^ 32 ∧ q.window.head? = some (j.header.getD 0 + j.used) ∧
    (∀ i, i < 64 → j.grey = false → (i ∈ q.stale ↔ (i ∈ r.stale ∧ i ∉ j.refresh) ∨ i ∈ j.skipped)) ∧
    (j.pic.epoch ≠ r.epoch → q.st = r.st ∧ q.k = r.k) ∧
    (j.pic.epoch = r.epoch → (j.grey = true → q.st = .wave ∧ q.k = 0 ∧ q.n = r.planN) ∧
      (j.grey = false → j.k = 0 → q.st = r.st ∧ q.k = r.k) ∧
      (j.grey = false → j.k ≠ 0 → q.k = j.k ∧ q.n = j.n ∧ (j.k = j.n → q.st = .steady) ∧ (j.k ≠ j.n → q.st = .wave)))) ∧
  (∀ (i el : Nat) (s : State) (g : Group), Tbl.find s.video.groups i = some g → g.removed = false →
    (g.hit = true → exec (.starvedRaise i el) s = .next (s.advance el)) ∧
    (g.hit = false → ∃ t, exec (.starvedRaise i el) s = .next t ∧ (t.group i).starved = true ∧ (t.group i).hit = true ∧
      (t.group i).raise = g.raise + codecHalf g.codec ∧ (t.group i).peak = g.raise + codecHalf g.codec ∧
      t.cnt .PICT_ENC_CNT_LO (12 * g.pe + 10) = s.cnt .PICT_ENC_CNT_LO (12 * g.pe + 10) + 1)) ∧
  (∀ g : Group, (g.hit = true → g.endPicture = { g with hit := false }) ∧
    (g.hit = false → g.endPicture.starved = false ∧ g.endPicture.raise = g.raise - cdiv g.peak 4))

/-- The dispatcher's events (R29, R30, R259, R260, R270 to R276, R278, R279, R281): an item is placed by rank and eligibility in a free
prefetch slot, the core's state at the start of an item, a kernel's post with its result code, the watchdog, the end of an
affinity wait, and an item that cannot be read from the store (R341).
The model's choices in it: log entries 91, 93, 236, 237. -/
def Obligations.DispatchEvents : Prop :=
  (∀ (k : Fin 512) (ups : Upsets) (s : State) (sl : Nat) (r : List Nat), let b := s.advance ups.el
    let c := s.core k.val
    c.order = sl :: r → c.running = false → c.faulted = none → s.clOn (k.val / 8) = true →
    Tbl.get s.disp.draining false (k.val / 8) = false →
    let it := Tbl.get c.slots {} sl
    let d := (s.dispQ it.qid).getD {}
    let load := ((s.kernel d.kern).getD {}).load
    let t := d.own.fn / 64
    let same := c.warm = true ∧ c.prev = some (d.kern, load)
    ∃ u, exec (.workItemStart k ups) s = .next u ∧
      let n := u.core k.val
      n.running = true ∧ n.slot = sl ∧ n.qid = it.qid ∧ n.kern = d.kern ∧ n.load = load ∧ n.tenant = t ∧ n.since = b.ela ∧ n.pc = 0 ∧
      n.gr 1 = BitVec.ofNat 32 (0xFF00 + 0x20 * sl) ∧ n.xr 0 = BitVec.ofNat 16 (0xFF00 + 0x20 * sl) ∧ n.xr 7 = 0xFF00 ∧
      (same → n.gr 2 = 1) ∧ (¬same → n.gr 2 = 0) ∧ (∀ q : BitVec 5, 2 < q.toNat → n.gr q = 0) ∧
      (∀ i, n.accL i 0 = 0 ∧ n.accL i 1 = 0 ∧ n.accL i 2 = 0 ∧ n.accL i 3 = 0) ∧ (∀ i, 0 < i → i < 7 → n.xr i = 0) ∧
      n.o = [] ∧ n.cb = [] ∧ n.cl = [] ∧ n.lc = [] ∧ n.act = [] ∧ n.sv = 0 ∧ n.st = 0 ∧
      (∀ f, c.prevT = some f → (f = t → n.ldm = c.ldm) ∧ (f ≠ t → n.ldm = [])) ∧
      n.icErr = ups.ic ∧ n.imgErr = ups.image ∧ n.memErr = ups.ue ∧
      u.rb .CORE_STAT k.val 31 = true ∧ u.rb .CORE_STAT k.val 30 = false ∧ u.rf .CORE_STAT k.val 29 28 = t % 4 ∧
      u.rf .DISP_KINFO k.val 25 16 = d.kern % 1024 ∧ (∀ e, e ≠ k.val → u.core e = s.core e)) ∧
  (∀ (ptr : Nat → Nat) (l : List (Nat × Nat)), (l.map (·.1)).Pairwise (· < ·) →
    (arbitrate ptr l = none ↔ l = []) ∧
    (∀ k w, arbitrate ptr l = some (k, w) → (w, k) ∈ l ∧ (∀ x ∈ l, k ≤ x.2) ∧
      (∀ x ∈ l, x.2 = k → (ptr k ≤ w → ptr k ≤ x.1 → w ≤ x.1) ∧ (w < ptr k → x.1 < ptr k ∧ w ≤ x.1)))) ∧
  (∀ (rd : Reads) (s : State) (q : Nat) (d : DispQ) (i : Nat) (it : Item) (c : Nat) (h : Bool), let b := s.advance rd.el
    b.serve = some (q, d, i, it, c, h) →
    (rd.ue = [] → exec (.itemPlace rd) s = .next (b.place q d i it c h)) ∧
    (rd.ue ≠ [] → exec (.itemPlace rd) s = .next (b.discardItem q d i it c) ∧
      (d.typ ≠ 2 → it.payload = none → ∃ e, (b.discardItem q d i it c).dispQ q = some e ∧ e.items = d.items.eraseIdx i))) ∧
  (∀ (s : State) (q : Nat) (d : DispQ) (p : Nat × Item × Nat × Bool), s.disp.qs.wf = true → s.serve = some (q, d, p) →
    Tbl.find s.disp.qs q = some d ∧ s.placeable q d false = some p ∧
    (∀ r e, Tbl.find s.disp.qs r = some e → (s.placeable r e false).isSome = true → d.rankNow ≤ e.rankNow)) ∧
  (∀ (el q : Nat) (s : State) (d : DispQ) (i : Nat) (it : Item) (c : Nat) (h : Bool), let b := s.advance el
    Tbl.find s.disp.qs q = some d → s.placeable q d true = some (i, it, c, h) →
    exec (.affWaitTimeout q el) s = .next (b.place q d i it c h)) ∧
  (∀ (s : State) (q : Nat) (d : DispQ) (i : Nat) (it : Item) (c : Nat) (late h : Bool), s.placeable q d late = some (i, it, c, h) →
    d.items[i]? = some it ∧ d.mask.toNat.testBit (c / 8) = true ∧ s.clOn (c / 8) = true ∧ (s.core c).usedSlots < 2 ∧
    (d.typ = 0 → i = 0) ∧ s.rb .DISP_CTRL 0 31 = true ∧ (∃ k, s.kernel d.kern = some k ∧ k.suspended = false) ∧
    let u := s.place q d i it c h
    ∃ sl, (u.core c).order = (s.core c).order ++ [sl] ∧ Tbl.find (u.core c).slots sl = some it ∧ ((s.core c).running = true → sl = 1 - (s.core c).slot) ∧
      (∃ e, Tbl.find u.disp.qs q = some e ∧ e.items = d.items.eraseIdx i) ∧ (∀ e, e ≠ c → u.core e = s.core e)) ∧
  (∀ (k : Fin 512) (ws : List Word) (el : Nat) (s : State), let b := s.advance el
    let c := s.core k.val
    let q := fld (nth ws 0 0) 15 0
    c.running = true → c.faulted = none →
    ∃ u, exec (.kernelPost k ws el) s = .next u ∧ u.rf .DISP_POST_RES k.val 2 0 = b.postResult k.val q ∧
      (b.postResult k.val q ≠ 0 → u.disp = s.disp ∧ u.cores = s.cores) ∧
      (b.postResult k.val q = 0 → (u.core k.val).posts = c.posts + 1)) ∧
  (∀ (s : State) (k q : Nat), let c := s.core k
    ((q < 49152 ∨ 61440 ≤ q) → s.postResult k q = 3) ∧
    (49152 ≤ q → q < 61440 → (s.dispQ q = none → s.postResult k q = 2) ∧
      (∀ d, s.dispQ q = some d → (d.own.fn / 64 ≠ c.tenant → s.sharedQ q = false → s.postResult k q = 2) ∧
        ((d.own.fn / 64 = c.tenant ∨ s.sharedQ q = true) → (16 ≤ c.posts → s.postResult k q = 4) ∧
          (c.posts < 16 → d.limit ≤ d.items.length + d.resv → s.postResult k q = 1))))) ∧
  (∀ (k : Fin 512) (el : Nat) (s : State) (d : DispQ), let b := s.advance el
    let c := s.core k.val
    c.running = true → c.faulted = none → s.dispQ c.qid = some d → c.since + d.itemLimit * 1000 < b.ela →
    exec (.itemWatchdog k el) s = .next (b.coreFault k.val 10 0))

/-- The key window (R303 to R305, R307, R311, R316): the lock and its timeout, a commit, and what a finished commit leaves in the slot
and shows.
The model's choices in it: log entries 103, 104. -/
def Obligations.KeyWindowEvents : Prop :=
  (∀ (o el : Nat) (s : State), let b := s.advance el
    ((o = 0 ∨ 5 < o) → exec (.keywinLockAcquire o el) s = .next { b with bus := .busError }) ∧
    (0 < o → o ≤ 5 → (s.kwOwner = 0 → ∃ t, exec (.keywinLockAcquire o el) s = .next t ∧ t.kwOwner = o ∧ t.rf .KEYWIN_LOCK_STAT 0 31 30 = 3 ∧
        t.bus = .ok (BitVec.ofNat 32 (2 ^ 30 + o)) ∧ t.keys.since = b.ela) ∧
      (s.kwOwner = o → exec (.keywinLockAcquire o el) s = .next { b with bus := .ok (BitVec.ofNat 32 (2 ^ 30 + o)) }) ∧
      (s.kwOwner ≠ 0 → s.kwOwner ≠ o →
        exec (.keywinLockAcquire o el) s = .next { b with bus := .ok (BitVec.ofNat 32 (2 ^ 31 + s.kwOwner)) }))) ∧
  (∀ (o : Nat) (v : Word) (s : State), 0 < o → o ≤ 5 →
    (bit v 0 = true → s.kwOwner = o → ∃ t, exec (.keywinRelease o v) s = .next t ∧ t.bus = .ok 0 ∧ t.kwOwner = 0 ∧ t.keys = s.keys) ∧
    ((bit v 0 = false ∨ s.kwOwner ≠ o) → exec (.keywinRelease o v) s = .next { s with bus := .ok 0 })) ∧
  (∀ (el : Nat) (s : State), let b := s.advance el
    s.kwOwner ≠ 0 → s.keys.since + 100000 ≤ b.ela → s.keys.pend = none →
    ∃ t, exec (.keywinLockTimeout el) s = .next t ∧ t.kwOwner = 0 ∧ t.rb .KEYWIN_LOCK_STAT 0 29 = true ∧
      (∀ w, w < 16 → t.reg .KEYWIN_DATA w = 0) ∧ t.keys = s.keys) ∧
  (∀ (o : Nat) (v : Word) (el : Nat) (s : State), let b := s.advance el
    let commits (i : Instr) (w : Word) : Prop :=
      (o = 0 ∨ o ≠ s.kwOwner → exec i s = .next { b with bus := .busError }) ∧
      (o ≠ 0 → o = s.kwOwner → s.keys.pend = none →
        (s.bleached = true → ∃ t, exec i s = .next t ∧ t.rf .KEYWIN_RESULT 0 31 29 = 6 ∧ t.keys = s.keys) ∧
        (s.bleached = false → ∃ t, exec i s = .next t ∧ t.rf .KEYWIN_RESULT 0 31 29 = 1 ∧ t.rf .KEYWIN_RESULT 0 16 0 = fld v 16 0 ∧
          t.keys = { s.keys with pend := some w }))
    commits (.keywinLoad o v el) (putF v 31 30 1) ∧ commits (.keywinErase o v el) (putF v 31 30 2)) ∧
  (∀ (s : State) (v : Word), s.keys.pend = some v → let i := fld v 16 0
    let k := s.slot i
    ∃ t, exec .keywinCommitDone s = .next t ∧ t.keys.pend = none ∧ (∀ w, w < 16 → t.reg .KEYWIN_DATA w = 0) ∧
      t.rf .KEYWIN_RESULT 0 16 0 = i ∧ (∀ j, j ≠ i → t.slot j = s.slot j) ∧
      (fld v 31 30 = 2 → t.rf .KEYWIN_RESULT 0 31 29 = 2 ∧ (t.slot i).st = .empty ∧ (t.slot i).h0 = {} ∧ (t.slot i).h1 = {} ∧
        (t.slot i).t0 = {} ∧ (t.slot i).t1 = {} ∧ (t.slot i).ep = k.ep + 1 ∧ (t.slot i).own = k.own) ∧
      (fld v 31 30 ≠ 2 → let l := s.kwLoad v
        (k.loadBad l = true → t.rf .KEYWIN_RESULT 0 31 29 = 4 ∧ t.slot i = k) ∧
        (k.loadBad l = false → k.st = .draining → t.rf .KEYWIN_RESULT 0 31 29 = 3 ∧ t.slot i = k) ∧
        (k.loadBad l = false → (k.st = .empty ∨ k.st = .exhausted) → t.rf .KEYWIN_RESULT 0 31 29 = 2 ∧ (t.slot i).st = .active ∧
          ((t.slot i).half (t.slot i).act).keys = (List.range 16).map (fun w => s.reg .KEYWIN_DATA w) ∧
          (t.slot i).lastGen = (k.lastGen + 1) % 16 ∧ t.rf .KEYWIN_RESULT 0 20 17 = (k.lastGen + 1) % 16 ∧
          (t.slot i).t0 = { initRoc := (s.reg .KEYWIN_INIT_ROC).toNat }) ∧
        (k.loadBad l = false → k.st = .active → l.at' = true → t.rf .KEYWIN_RESULT 0 31 29 = 2 ∧ (t.slot i).st = .pending ∧
          (t.slot i).act = k.act ∧ (t.slot i).sw = some l.sw ∧ (t.slot i).t0 = k.t0)))

/-- Tamper alarms and Bleach (R314 to R316, R454): which sensors latch, what Bleach does at its start and at its end, and when
`BLEACHED` clears.
The model's choices in it: log entry 107. -/
def Obligations.TamperAndBleach : Prop :=
  (∀ (n : Fin 6) (s : State), ∃ t, exec (.tamperAlarm n) s = .next t ∧ t.rb .CRYPT_TAMPER_STAT 0 (10 + n.val) = true ∧
    (s.armedSensors.testBit n.val = true → t.rb .CRYPT_TAMPER_STAT 0 n.val = true ∧ t.keys.bleaching = true) ∧
    (s.armedSensors.testBit n.val = false → t.keys = s.keys ∧ t.rb .CRYPT_TAMPER_STAT 0 n.val = s.rb .CRYPT_TAMPER_STAT 0 n.val)) ∧
  (∀ s : State, s.armedSensors % 8 = 7) ∧
  (∀ (v : Word) (a : BitVec 6) (s : State), ∃ t, exec (.tamperArm v a) s = .next t ∧ t.bus = .ok 0 ∧
    (∀ i, i < 3 → t.armedSensors.testBit (3 + i) = (s.armedSensors.testBit (3 + i) || bit v (3 + i))) ∧
    ((∀ i, i < 3 → s.armedSensors.testBit (3 + i) = true ∨ bit v (3 + i) = false ∨ a.getLsbD (3 + i) = false) → t.keys = s.keys) ∧
    (∀ i, i < 3 → s.armedSensors.testBit (3 + i) = false → bit v (3 + i) = true → a.getLsbD (3 + i) = true → t.keys.bleaching = true)) ∧
  (∀ s : State, ∃ t, exec .cryptBleach s = .next t ∧ t.bus = .ok 0 ∧ t.keys.bleaching = true ∧ t.rb .CRYPT_TAMPER_STAT 0 6 = true ∧
    (s.keys.bleaching = false → t.keys.pend = none ∧ t.kwOwner = 0 ∧ (∀ w, w < 16 → t.reg .KEYWIN_DATA w = 0))) ∧
  (∀ s : State, s.keys.bleaching = true → ∃ t, exec .bleachComplete s = .next t ∧ t.keys.bleaching = false ∧ t.bleached = true ∧
    (∀ i k, Tbl.find t.keys.slots i = some k → k.st = .empty ∧ k.h0 = {} ∧ k.h1 = {}) ∧
    t.rb .TRUST_STAT 0 31 = true ∧ t.rb .CRYPT_CTRL 0 30 = false) ∧
  (∀ (a : BitVec 6) (s : State), let act := s.armedSensors &&& a.toNat
    let clears (i : Instr) : Prop :=
      (act ≠ 0 → s.rb .CRYPT_STAT 0 31 = true → ∃ t, exec i s = .next t ∧ t.rb .CRYPT_STAT 0 31 = true ∧ t.keys = s.keys) ∧
      (act = 0 → s.rb .CRYPT_STAT 0 31 = true → ∃ t, exec i s = .next t ∧ t.rb .CRYPT_STAT 0 31 = false)
    clears (.bleachPoll a) ∧ clears (.bleachedClear a))

/-- Every LEG, STREAM, CASCADE and QOS command that passes its checks has its effect and is answered OK: the object kept with the
issuer as its owner, changed, or destroyed with what rests on it; the policer, map, queue, bucket, gate list, estimator or sampler
holds what the command says; a query writes its record by DMA and changes no object.
The model's choices in it: log entries 39, 100, 206. -/
def Obligations.LegStreamAndQosCommands : Prop :=
  Completes .legCreate legCreateSpec legCreateCheck
    (fun c s =>
      s.updNet fun n => { n with legs := Tbl.set n.legs c.h (legOfCmd c (newOwn c s)) })
    noRes ∧
  Completes .legModify legModifySpec legModifyCheck (fun c s => s.updLeg c.h fun l => l.modify (legOfCmd c {})) noRes ∧
  Completes .legDestroy legDestroySpec legDestroyCheck (fun c s => s.destroyLeg c.h) noRes ∧
  Completes .legQuery legQuerySpec legDestroyCheck
    (fun c s =>
      let l := s.leg c.h
      let ip (n : Nat) : List Nat := (List.range 4).map fun i => n / 2 ^ (32 * (3 - i)) % 2 ^ 32
      s.dma c.fnN (c.q 2) ([l.own.fn, l.conf, l.port, b2n l.v6 + 2 * b2n l.mux + 4 * b2n l.srtp + 8 * b2n l.cascade,
        (match l.vlan with | some v => 2 ^ 31 + v | none => 0)] ++ ip l.localIp ++ ip l.remoteIp
        ++ [l.localUdp * 65536 + l.remoteUdp, l.localRtcp * 65536 + l.remoteRtcp, l.twId, l.egressQ, 49152 + l.rtcpDq, l.srtcpEnc,
          l.srtcpDec, l.twNext, l.yDrops, l.rDrops]))
    noRes ∧
  Completes .streamCreate streamCreateSpec streamCreateCheck
    (fun c s =>
      s.updNet fun n => { n with streams := Tbl.set n.streams c.h (streamOfCmd c (newOwn c s)) })
    noRes ∧
  Completes .streamDestroy streamDestroySpec streamDestroyCheck (fun c s => s.destroyStream c.h) noRes ∧
  Completes .streamSubscribe streamSubscribeSpec streamSubscribeCheck (fun c s => s.setSub c.h (subOfCmd c (newOwn c s))) noRes ∧
  Completes .streamModify streamModifySpec streamModifyCheck (fun c s => s.retarget c.h ((s.sub c.h).modify c)) noRes ∧
  Completes .streamUnsubscribe streamUnsubscribeSpec streamModifyCheck (fun c s => s.dropSub c.h) noRes ∧
  Completes .streamQuery streamQuerySpec streamQueryCheck
    (fun c s =>
      if c.b 4 0 then s.dma c.fnN (c.q 2) (s.sub c.h).octx
      else
        let x := s.stream c.h
        s.dma c.fnN (c.q 2) [x.own.fn, x.leg + 2 ^ 31 * b2n x.device, x.ssrc, x.rtxSsrc.getD 0, x.kind, x.dest, x.layerSrc, x.codec, x.pt, x.rtxPt,
          x.ddId, x.fmId, x.decSlot, x.simGroup, x.simIndex, x.dispQ, x.clock])
    noRes ∧
  Completes .cascadePeerAdd cascadePeerAddSpec cascadePeerAddCheck
    (fun c s =>
      let own := newOwn c s
      let (w, s) := s.freeWord
      let st : Stream := { own, leg := c.f 3 15 0, ssrc := c.w 5, dest := 1, dispQ := s.disp.estQid, decSlot := fld w 16 0, kind := 1 }
      let p : Peer := {
        own, dev := c.f 2 17 0, leg := c.f 3 15 0, ctrlStream := c.f 4 17 0, ctrlSsrc := c.w 5, txSsrc := c.w 6, encSlot := c.f 7 16 0
        lastHeard := s.ela }
      s.updNet fun n => { n with streams := Tbl.set n.streams (c.f 4 17 0) st, peers := Tbl.set n.peers c.h p })
    noRes ∧
  Completes .cascadePeerRemove cascadePeerRemoveSpec cascadePeerRemoveCheck
    (fun c s =>
      let p := Tbl.get s.net.peers {} c.h
      (s.destroyStream p.ctrlStream).updNet fun n => { n with peers := Tbl.del n.peers c.h })
    noRes ∧
  Completes .cascadeSetDevid cascadeSetDevidSpec (fun _ _ => 0)
    (fun c s =>
      (s.setRf .STRATA_DEVID 0 17 0 (c.f 2 17 0)).setRb .STRATA_DEVID 0 31 true)
    noRes ∧
  Completes .qosPolicerSet qosPolicerSetSpec qosPolicerSetCheck
    (fun c s =>
      let mode := c.f 2 31 30
      let p := Tbl.get s.net.policers {} c.h
      let er := if mode = 2 then c.f 5 23 0 else 0
      let same := p.mode == mode && p.c.rate == c.f 3 23 0 && p.c.size == c.f 4 23 0 && p.e.rate == er && p.e.size == c.f 6 23 0
      let b (old : Bucket) (rate size : Nat) : Bucket := if same then old else Bucket.of rate size (c.b 2 28) s.ela
      let q : Policer := {
        mode, aware := c.b 2 29, yAct := c.f 2 27 26, rAct := c.f 2 25 24, exempt := c.b 2 23
        map := 4 * (s.leg c.h).own.tenant + c.f 2 17 16, c := b p.c (c.f 3 23 0) (c.f 4 23 0), e := b p.e er (c.f 6 23 0) }
      s.updNet fun n => { n with policers := Tbl.set n.policers c.h q })
    noRes ∧
  Completes .qosDscpMapSet qosDscpMapSetSpec qosDscpMapSetCheck
    (fun c s =>
      let m := 4 * c.tenant + c.h
      s.updNet fun n => { n with
          dscp := (List.range 64).foldl (fun t d =>
            let v := c.f (2 + d / 16) (2 * (d % 16) + 1) (2 * (d % 16))
            if v = 0 then Tbl.del t (64 * m + d) else Tbl.set t (64 * m + d) v) n.dscp })
    noRes ∧
  Completes .qosQueueCfg qosQueueCfgSpec qosQueueCfgCheck
    (fun c s =>
      let f := Tbl.get s.net.flowqs { own := newOwn c s } c.h
      let s1 := s.loseOne f.port f.cls f.sh.b
      let b := if (s.gates f.port).testBit f.cls && f.port == c.f 2 28 26 && f.cls == c.f 2 31 29 then f.sh.b else f.sh.b.refill s.ela
      s1.setFlowq c.h { f with
          sh := { f.sh with b }
          port := c.f 2 28 26, cls := c.f 2 31 29, leg := c.f 2 15 0, limBytes := c.f 3 23 0, deLimit := c.f 4 23 0, limPkts := c.f 5 15 0 })
    noRes ∧
  Completes .qosShaperSet qosShaperSetSpec qosShaperSetCheck
    (fun c s =>
      let f := Tbl.get s.net.flowqs {} c.h
      (s.loseOne f.port f.cls f.sh.b).setFlowq c.h { f with
          sh := {
            b := f.sh.b.write (c.f 2 28 0) (c.f 3 19 0) (c.b 2 31) s.ela, adaptive := c.b 2 30, minRate := c.f 4 28 0
            maxRate := c.f 5 28 0 } })
    noRes ∧
  Completes .qosClassSet qosClassSetSpec qosClassSetCheck
    (fun c s =>
      (s.loseOne (c.h / 8) (c.h % 8) (s.classSh (c.h / 8) (c.h % 8))).updPort (c.h / 8) fun p => { p with
          classSh := Tbl.updD p.classSh {} (c.h % 8) fun b => b.write (c.f 2 28 0) (c.f 3 19 0) (c.b 2 31) s.ela })
    noRes ∧
  Completes .qosPortSet qosPortSetSpec qosPortSetCheck
    (fun c s =>
      ((s.setRf .EGS_PORT_CFG c.h 30 28 (c.f 2 30 28)).setRf .EGS_PORT_CFG c.h 22 16 (c.f 2 22 16)).updNet fun n =>
          { n with audioDescRsv := c.f 3 19 0 })
    noRes ∧
  Completes .qosGateSet qosGateSetSpec qosGateSetCheck
    (fun c s =>
      let g := if c.f 6 15 0 = 0 then s.guardMin c.h else c.f 6 15 0
      let l : GateList := { entries := gateEntries c, cycle := c.f 5 29 0, change := c.q 7 }
      let s1 := ((s.setRf .EGS_PORT_CFG c.h 15 0 g).updPort c.h fun p => { p with pend := some l }).gateStat c.h
      match s1.gateDue c.h with
          | some (q, t) => if (s1.port c.h).active.isNone then s1.gateSwitch c.h q t else s1
          | none => s1)
    noRes ∧
  Completes .qosTenantSet qosTenantSetSpec qosTenantSetCheck
    (fun c s =>
      let n := c.h / 4
      let t := c.h % 4
      let x := s.tenantPort n t
      let y : TenantPort := { x with
        cfgMin := c.f 2 28 0
        mn := Bucket.write x.mn (c.f 2 28 0) (c.f 3 19 0) (c.b 7 31) s.ela
        mx := Bucket.write x.mx (c.f 4 28 0) (c.f 5 19 0) (c.b 7 31) s.ela, missed := false }
      let s1 := (s.updPort n fun p => { p with tenants := Tbl.set p.tenants t y }).updNet fun x => { x with
        descMin := Tbl.set x.descMin t (c.f 6 20 0) }
      if (s.port n).scaled then s1.scalePort n else s1)
    noRes ∧
  Completes .qosEstCfg qosEstCfgSpec qosEstCfgCheck
    (fun c s =>
      let old := Tbl.get s.net.est {} c.h
      let e : Est := {
        own := (s.leg c.h).own, enable := true, log2 := c.f 2 27 24, base := c.f 2 15 0, capWin := c.f 3 31 24, picMult := c.f 3 23 16
        mediaPct := c.f 3 15 8, pacePct := c.f 3 7 0, minK := c.f 4 28 0, maxK := c.f 5 28 0, startK := c.f 6 28 0, upHold := c.f 7 15 0
        b := c.f 6 28 0, updAt := old.updAt, shares := old.shares }
      s.updNet fun n => { n with est := if c.b 2 31 then Tbl.set n.est c.h e else Tbl.del n.est c.h })
    noRes ∧
  Completes .qosSamplerSet qosSamplerSetSpec qosSamplerSetCheck
    (fun c s =>
      let id := 256 * c.tenant + c.h
      let own := (Tbl.get s.net.samplers { own := newOwn c s } id).own
      let x : Sampler := {
        own, qid := c.f 2 15 0, period := c.f 3 23 0 * 1000, nextAt := s.ela + c.f 3 23 0 * 1000
        ring := { hbm := c.b 6 31, addr := c.q 4, log2 := c.f 6 3 0 } }
      if c.f 3 23 0 = 0 then s.updNet fun n => { n with samplers := Tbl.del n.samplers id }
          else (s.updNet fun n => { n with samplers := Tbl.set n.samplers id x }).loupeInit own.fn x.ring)
    noRes ∧
  Completes .qosQueueRelease qosQueueReleaseSpec qosQueueReleaseCheck
    (fun c s =>
      let f := Tbl.get s.net.flowqs {} c.h
      (s.loseOne f.port f.cls f.sh.b).updNet fun n => { n with flowqs := Tbl.del n.flowqs c.h })
    noRes ∧
  Completes .qosQuery qosQuerySpec qosQueryCheck
    (fun c s =>
      if c.b 4 0 then
        let f := Tbl.get s.net.flowqs {} c.h
        s.dma c.fnN (c.q 2) [f.own.fn, f.port, f.cls, f.leg, f.level, f.descs.length, f.sh.b.rate, f.sh.b.size, (f.sh.b.refill s.ela).lvl / unitsPerByte,
          f.sent, f.sentBytes, f.drops]
      else
        let l := s.leg c.h
        let p := Tbl.get s.net.policers {} c.h
        let e := Tbl.get s.net.est {} c.h
        s.dma c.fnN (c.q 2) [l.own.fn, p.mode, p.c.rate, p.c.size, p.e.rate, p.e.size, l.yDrops, l.rDrops, b2n e.enable, e.log2, e.base, e.b])
    noRes

/-- CONF and MIX commands that pass their checks have their effect and are answered OK; a command with a late boundary marks the
slice (R134, R138), and CONF_DESTROY of a conference with legs tells its tenants and closes it (R143).
The model's choices in it: log entries 39, 50, 52, 210, 212. -/
def Obligations.ConferenceAndMixCommands : Prop :=
  Completes .confCreate confCreateSpec confCreateCheck
    (fun c s =>
      s.updMix fun m => { m with confs := Tbl.set m.confs c.h (confOf c (newOwn c s)) })
    noRes ∧
  Completes .confModify confModifySpec confModifyCheck
    (fun c s =>
      s.updConf c.h fun x =>
          { confOf c x.own with orphan := x.orphan, closing := x.closing, members := x.members, ptr := x.ptr, meter := x.meter })
    noRes ∧
  Completes .confDestroy confDestroySpec confDestroyCheck (fun c s => s.destroyConf c.h) noRes ∧
  Completes .confPin confPinSpec confPinCheck
    (fun c s =>
      let q := c.f 2 15 0
      let x := s.source q
      let on := c.b 2 31
      let pin (ws : List Word) : List Word := putB (nth ws 0 0) 29 on :: ws.drop 1
      let s1 := s.updSource q fun x => { x with pinned := on }
      let s2 := if (s1.entry x.tile x.route).valid then s1.directWords x.tile x.route (pin (s1.entry x.tile x.route).words) 1 else s1
      let held := s2.armed x.tile && (List.range (s2.armCount x.tile)).any fun p => Tbl.get s2.mix.tags 0 (x.tile * 1024 + p) == x.route
      if held then s2.shadowAdd x.tile (s2.armAt x.tile) (s2.armSample x.tile) x.route (pin (s2.futureWords x.tile x.route)) else s2)
    noRes ∧
  Completes .confQuery confQuerySpec confQueryCheck
    (fun c s =>
      let x := s.conf c.h
      s.dma c.fnN (c.q 2) ([x.members.length, wrapN x.meter.rmsDb 16 * 65536 + wrapN x.meter.hold 16, x.own.fn]
        ++ (x.members.map fun m => b2n m.leaving * 2 ^ 31 + m.src + 2 ^ 16 * b2n (s.isPinned c.h m.src))
        ++ (s.mix.taps.filter fun t => t.2.kind == 1 && t.2.ident == c.h).flatMap fun t => [t.1, t.2.lost]))
    noRes ∧
  Completes .mixSourceModify mixSourceModifySpec mixSourceModifyCheck (fun c s => s.modifySource c (applyWhen c s)) noRes ∧
  Completes .mixSourceRemove mixSourceRemoveSpec mixSourceRemoveCheck (fun c s => s.removeSource c.h) noRes ∧
  Completes .mixClassCreate mixClassCreateSpec mixClassCreateCheck
    (fun c s =>
      let n := classOf c s
      let home := (s.conf n.conf).home
      let s1 := (s.addClassStream n.outStream n.own n.codec).updMix fun m => { m with
        classes := Tbl.set m.classes c.h n, params := Tbl.del m.params (entryKey home n.entry) }
      s1.directEntry home n.entry (classWords none false (c.f 4 31 16) (c.f 4 15 0) n.encTile n.conf ((s.freeOut n.encTile).getD 0)))
    noRes ∧
  Completes .mixClassModify mixClassModifySpec mixClassModifyCheck (fun c s => s.modifyClass c (applyWhen c s)) noRes ∧
  Completes .mixClassDestroy mixClassDestroySpec mixClassDestroyCheck (fun c s => s.destroyClass c.h) noRes ∧
  Completes .mixLegJoin mixLegJoinSpec mixLegJoinCheck
    (fun c s =>
      let cl := c.f 3 15 0
      if s.joined c.h then
        let w := applyWhen c s
        let f := if w.direct then s.mixFrame else w.frame
        s.updMix fun m => { m with joins := Tbl.upd m.joins c.h fun j => { j with move := some (cl, selfOf c, f) } }
      else
        let had := s.mix.classes
        let (s, d) := match selfOf c with
          | some q => if s.isMember (s.cls cl).conf q then s.derived (s.cls cl).conf cl q else (s, none)
          | none => (s, none)
        let cur := d.getD cl
        let st := (s.cls cur).outStream
        let x : Sub := {
          own := newOwn c s, st := .joinWait, src := st, pt := some (c.f 8 6 0), rxLeg := c.f 2 15 0, encSlot := c.f 5 16 0
          outQ := c.f 6 15 0, outSsrc := c.w 7, tsOff := c.w 9, lastOut := dist 16 (c.f 8 31 16) 1, member := st }
        let s1 := (s.setSub c.h x).updMix fun m => { m with joins := Tbl.set m.joins c.h { cls := cl, self := selfOf c, cur } }
        if d.isSome && !Tbl.has had cur then s1.noteFork cur c.h true else s1)
    noRes ∧
  Completes .mixLegLeave mixLegLeaveSpec mixLegLeaveCheck (fun c s => s.dropSub c.h) noRes ∧
  Completes .mixBatch mixBatchSpec mixBatchCheck
    (fun c s =>
      let w := batchWhen c s
      (batchMsgs c).foldl (fun s m => if m.1 = 0x0401 then s.modifySource m.2 w else s.modifyClass m.2 w) s)
    noRes ∧
  Completes .mixTapSet mixTapSetSpec mixTapSetCheck
    (fun c s =>
      let k := 64 * c.tenant + c.h
      let t : Tap := { own := newOwn c s, kind := c.f 2 31 30, ident := c.f 2 15 0, ring := c.f 3 15 0 }
      s.updMix fun m => { m with taps := if c.f 2 31 30 = 3 then Tbl.del m.taps k else Tbl.set m.taps k t })
    noRes ∧
  Completes .mixQuery mixQuerySpec mixQueryCheck
    (fun c s =>
      let tail (m : MeterSt) : List Nat := [wrapN m.peakDb 16 * 65536 + wrapN m.rmsDb 16, wrapN m.hold 16]
      let taps (k : Nat) : List Nat := (s.mix.taps.filter fun t => t.2.kind == k && t.2.ident == c.h).flatMap fun t => [t.1, t.2.lost]
      if c.b 4 0 then
        let x := s.cls c.h
        s.dma c.fnN (c.q 2) ([x.conf, x.encTile, x.codec, x.ptime, x.bitrate, x.chain, x.outStream, b2n x.encoded]
          ++ ((s.entry (s.conf x.conf).home x.entry).words.map BitVec.toNat) ++ tail x.meter ++ taps 2)
      else
        let x := s.source c.h
        s.dma c.fnN (c.q 2) ([x.kind, x.conf, x.from', x.tile, x.route, x.jbMin, x.jbMax, x.jbDelay, b2n (s.contributes c.h), b2n x.good, x.absent]
          ++ ((s.routeOf c.h).words.map BitVec.toNat) ++ tail x.meter ++ taps 0))
    noRes ∧
  (∀ c s, Accepted mixSourceAddSpec mixSourceAddCheck c s →
    let b := s.advance c.el
    ∃ t, b.sourceTile (b.conf (c.f 2 10 0)).home (sourceCost c b) = .ok t ∧
      (let r := (b.freeRoute t).getD 0
      let kind := c.f 2 31 30
      let x : Source := {
        own := newOwn c b, kind, conf := c.f 2 10 0, from' := if kind = 0 then c.f 3 17 0 else c.f 3 15 0, contrib := c.b 2 29
        jbMin := dflt (c.f 5 31 16) 20, jbMax := dflt (c.f 5 15 0) 200, jbDelay := dflt (c.f 5 31 16) 20, tile := t, route := r
        cost := sourceCost c b }
      let s1 := b.updMix fun m => { m with sources := Tbl.set m.sources c.h x, params := Tbl.del m.params (entryKey t r) }
      let s2 := s1.changeEntry (applyWhen c b) t r
        (routeWords c.h (c.f 2 10 0) (c.b 2 28) false (c.b 2 29) (c.f 4 31 16) (c.f 4 15 0))
      exec (.mixSourceAdd c) s = .next (s2.answer mixSourceAddSpec c 0 []))) ∧
  (∀ c s, let b := s.advance c.el
    b.takeable c = true → c.dry = false →
    (statusOf mixSourceModifySpec mixSourceModifyCheck c b = LATE_BOUNDARY →
      exec (.mixSourceModify c) s = .next ((b.answer mixSourceModifySpec c LATE_BOUNDARY []).markLate (b.source c.h).tile)) ∧
    (statusOf mixClassModifySpec mixClassModifyCheck c b = LATE_BOUNDARY →
      exec (.mixClassModify c) s = .next ((b.answer mixClassModifySpec c LATE_BOUNDARY []).markLate (b.conf (b.cls c.h).conf).home)) ∧
    (statusOf confDestroySpec confDestroyCheck c b = CONF_HAS_LEGS →
      exec (.confDestroy c) s = .next ((b.answer confDestroySpec c CONF_HAS_LEGS []).confClosing c.h c.tenant)))

/-- DEC, LAYOUT and ENC commands that pass their checks have their effect and are answered OK; an image that no buffer fits is
refused.
The model's choices in it: log entries 39, 59, 81. -/
def Obligations.VideoCommands : Prop :=
  Completes .decCreate decCreateSpec decCreateCheck
    (fun c s =>
      let d := decOf c (newOwn c s)
      let d := { d with pe := (s.decPlace 4096 d.rate (c.b 6 3) d.pe).getD 0 }
      s.updVideo fun v => { v with decs := Tbl.set v.decs c.h d })
    noRes ∧
  Completes .decModify decModifySpec decModifyCheck
    (fun c s =>
      let d := s.dec c.h
      let n := d.modified c
      let want := if n.outS = d.outS ∧ n.outT = d.outT then none else some (n.outS, n.outT)
      let s1 := s.updDec c.h fun _ => { n with outS := d.outS, outT := d.outT, want }
      let pe := (decModifyPe c s).getD d.pe
      if pe = d.pe then s1 else s1.moveDec c.h pe)
    noRes ∧
  Completes .decDestroy decDestroySpec decDestroyCheck (fun c s => s.destroyDec c.h) noRes ∧
  Completes .decQuery decQuerySpec decQueryCheck
    (fun c s =>
      let d := s.dec c.h
      let b := d.disp.buf.getD { fbh := NO_FBH }
      s.dma c.fnN (c.q 2) ([d.st.code, d.pe, d.stream, d.outS, d.outT, b.fbh, b.gen, b2n d.disp.concealed, b2n d.disp.recovering]
        ++ (List.range 8).map fun k => Tbl.get d.cnt 0 k))
    noRes ∧
  Completes .decSnapshot decSnapshotSpec decSnapshotCheck
    (fun c s =>
      let d := s.dec c.h
      let b := d.disp.buf.getD {}
      let x : Snapshot := { own := newOwn c s, dec := c.h, buf := b, addr := c.q 2 }
      (s.mark b M_HOST).updVideo fun v => { v with snaps := v.snaps ++ [x] })
    noRes ∧
  Completes .layoutCreate layoutCreateSpec layoutCreateCheck
    (fun c s =>
      let sh := sheetOf c.host
      let pe := (s.compPlace (s.compCharge sh [0]) (c.b 4 31) (c.f 4 30 28)).getD 0
      let t0 := if c.q 6 = 0 then cdiv (s.dev + 1000000) 1000000 * 1000000 else c.q 6
      s.updVideo fun v => { v with layouts := Tbl.set v.layouts c.h { own := newOwn c s, pe, idx := s.freeIdx pe, ts0 := c.w 5, t0, sheet := sh } })
    noRes ∧
  Completes .layoutSet layoutSetSpec layoutSetCheck (fun c s => s.pendSheet c (sheetOf c.host)) noRes ∧
  Completes .layoutCellSet layoutCellSetSpec layoutCellSetCheck (fun c s => s.pendSheet c (cellSheet c s)) noRes ∧
  Completes .layoutDestroy layoutDestroySpec layoutDestroyCheck (fun c s => s.destroyLayout c.h) noRes ∧
  Completes .layoutImageFree layoutImageFreeSpec layoutImageFreeCheck (fun c s => s.freeImage c.h) noRes ∧
  Completes .layoutQuery layoutQuerySpec layoutQueryCheck
    (fun c s =>
      let l := s.layout c.h
      s.dma c.fnN (c.q 2) ((l.sheet.hdr.map BitVec.toNat) ++ (l.sheet.cells.flatMap fun x => x.map BitVec.toNat)
        ++ [l.pe, l.next % 2 ^ 32, l.next / 2 ^ 32, b2n l.job.isSome, b2n l.pend.isSome] ++ (List.range 8).map fun k => Tbl.get l.cnt 0 k))
    noRes ∧
  (∀ c s, Accepted layoutImageLoadSpec layoutImageLoadCheck c s →
    let b := s.advance c.el
    let w := c.f 4 31 16
    let h := c.f 4 15 0
    let p := c.b 5 31
    let bytes := pictureBytes w h p (linearSample (wordsToBytes c.host) w h p)
    ∃ f s1, b.allocFit (c.f 5 3 0) (frameBytes w h p) = some (f, s1) ∧
      (let s2 := (s1.memWrite (s1.bufAddr f.fbh) bytes).poolDone f [M_COMP] fun e => { e with width := w, height := h, p010 := p, time := s1.dev }
      let s3 := match Tbl.find b.video.images c.h with
        | some im => s2.unmark im.buf M_COMP
        | none => s2
      exec (.layoutImageLoad c) s = .next ((s3.updVideo fun v => { v with
        images := Tbl.set v.images c.h { own := newOwn c b, buf := f, w, h, p010 := p } }).answer layoutImageLoadSpec c 0 []))) ∧
  (∀ c s, s.allocFit (c.f 5 3 0) (frameBytes (c.f 4 31 16) (c.f 4 15 0) (c.b 5 31)) = none →
    statusOf layoutImageLoadSpec layoutImageLoadCheck c s ≠ 0) ∧
  Completes .encGroupCreate encGroupCreateSpec encGroupCreateCheck
    (fun c s =>
      let w := c.f 3 31 16
      let h := c.f 3 15 0
      let g : Group := {
        own := newOwn c s, codec := c.f 2 31 29, pe := (s.groupPlace (w * h * c.f 4 31 24) (c.b 2 28) (c.f 2 27 25)).getD 0
        temporal := c.f 2 24 23, layout := c.f 2 9 0, w, h }
      s.updVideo fun v => { v with groups := Tbl.set v.groups c.h (g.rates c) })
    noRes ∧
  Completes .encGroupModify encGroupModifySpec encGroupModifyCheck (fun c s => s.updGroup c.h fun g => g.rates c) noRes ∧
  Completes .encGroupDestroy encGroupDestroySpec encGroupDestroyCheck (fun c s => s.removeGroup c.h) noRes ∧
  Completes .encRendAdd encRendAddSpec encRendAddCheck
    (fun c s =>
      let g := s.group (c.f 2 10 0)
      let r0 : Rend := { own := newOwn c s, group := c.f 2 10 0, outStream := c.f 6 17 0, region := c.f 7 3 0 }
      let r1 := r0.settings c g.codec
      let load := scaledDim g.w r1.scale * scaledDim g.h r1.scale * g.fps
      let r2 := { r1 with
        coder := (s.coderPlace 2048 load g.pe (c.b 2 18) (c.f 2 17 16) 0).getD 0, st := if c.b 2 31 then RendSt.paused else RendSt.start
        left := if c.b 2 31 then some 0 else none }
      let st : Stream := { own := newOwn c s, device := true, kind := 1, layerSrc := 4, codec := g.codec, clock := 90000 }
      (s.updVideo fun v => { v with rends := Tbl.set v.rends c.h r2 }).updNet fun n => { n with
        streams := Tbl.set n.streams (c.f 6 17 0) st })
    noRes ∧
  Completes .encRendModify encRendModifySpec encRendModifyCheck
    (fun c s =>
      let r := s.rend c.h
      let g := s.group r.group
      let n := r.settings c g.codec
      let coder := (s.coderPlace c.h (scaledDim g.w n.scale * scaledDim g.h n.scale * g.fps) g.pe (c.b 2 18) (c.f 2 17 16) r.coder).getD r.coder
      let fresh := n.scale != r.scale || n.profile != r.profile || n.p010 != r.p010
      let s1 := s.updRend c.h fun _ => { n with coder }
      if c.b 2 31 then (s1.updRend c.h (Rend.pause · fresh)).dropQueue c.h
      else if fresh || (r.st == .paused && (r.fresh || r.refs.isEmpty)) then (s1.updRend c.h Rend.restart).dropQueue c.h
      else if r.st = .paused then s1.updRend c.h (Rend.resume · g.earlyN)
      else s1)
    noRes ∧
  Completes .encRendRemove encRendRemoveSpec encRendRemoveCheck (fun c s => s.removeRend c.h) noRes ∧
  Completes .encRefresh encRefreshSpec encRefreshCheck (fun c s => s.updGroup c.h fun g => { g with asked := true }) noRes ∧
  Completes .encQuery encQuerySpec encQueryCheck
    (fun c s =>
      if c.b 4 0 then
        let r := s.rend c.h
        let caps := (s.capsOf r).getD {}
        s.dma c.fnN (c.q 2) ([r.st.code, r.group, r.coder, r.scale, r.k, r.n, r.count, r.stale.length, caps.pic, caps.win, caps.pics]
          ++ (List.range 4).map fun k => Tbl.get r.cnt 0 k)
      else
        let g := s.group c.h
        s.dma c.fnN (c.q 2) [g.codec, g.pe, g.temporal, g.layout, g.w, g.h, g.fps, g.since.getD 0, b2n g.asked, b2n g.starved, g.raise, g.nextPic])
    noRes

/-- KERNEL commands that pass their checks have their effect and are answered OK; of a KEY command the words are zeroed where they
stood (R306), and the slot is loaded, erased or released and its window shows the result.
The model's choices in it: log entries 39, 101, 108. -/
def Obligations.KernelAndKeyCommands : Prop :=
  Completes .kernelKeySet kernelKeySetSpec kernelKeySetCheck
    (fun c s =>
      s.updDisp fun d => { d with keys := Tbl.set d.keys (4 * c.tenant + c.h) (c.host.take 496) })
    noRes ∧
  Completes .kernelLoad kernelLoadSpec kernelLoadCheck
    (fun c s =>
      let w := fun i => (nth c.host 0 i).toNat
      let k : Kernel := {
        own := newOwn c s, version := w 1 % 65536, audio := (w 4).testBit 31, cost := w 4 % 65536, code := w 2, roBytes := w 3
        name := (c.host.drop 8).take 8, image := c.host.take ((64 + w 2 + w 3 + 3) / 4), ro := s.freeWord.1.toNat, keySlot := c.f 5 1 0
        load := s.disp.loads + 1 }
      (s.freeWord.2.updDisp fun d => { d with kernels := Tbl.set d.kernels c.h k, loads := d.loads + 1 }).audit A_KERNEL
        (c.h :: (sha384 k.image).map BitVec.toNat))
    noRes ∧
  Completes .kernelUnload kernelUnloadSpec kernelUnloadCheck
    (fun c s =>
     s.updDisp fun d => { d with kernels := Tbl.del d.kernels c.h })
    noRes ∧
  Completes .kernelQueueCfg kernelQueueCfgSpec kernelQueueCfgCheck
    (fun c s =>
      let old := Tbl.get s.disp.qs { own := newOwn c s } c.h
      let lim := c.f 6 15 0
      let d := { old with
        typ := c.f 2 31 30, rank := c.f 2 29 27, kern := c.f 2 25 16, mask := BitVec.ofNat 64 (c.q 3), limit := c.w 5
        itemLimit := if lim = 0 then 1000 else lim, ordWin := if c.f 7 12 0 = 0 then old.ordWin else c.f 7 12 0 }
      s.setDispQ c.h d)
    noRes ∧
  Completes .kernelQueueRelease kernelQueueReleaseSpec dispTarget
    (fun c s =>
      (s.flushQ c.h).updDisp fun d => { d with qs := Tbl.del d.qs c.h })
    noRes ∧
  Completes .kernelChainSet kernelChainSetSpec kernelChainSetCheck
    (fun c s =>
      let own := match Tbl.find s.disp.chains c.h with | some x => x.own | none => newOwn c s
      s.updDisp fun d => { d with chains := Tbl.set d.chains c.h { own, kerns := chainKerns c, qid := c.f 7 15 0 } })
    noRes ∧
  Completes .kernelQuery kernelQuerySpec kernelQueryCheck
    (fun c s =>
      if c.b 4 0 then
        let k := (s.kernel c.h).getD {}
        s.dma c.fnN (c.q 2) ([c.h, k.version, b2n k.audio, k.cost, k.code, k.roBytes, b2n k.suspended, k.faults.length] ++ k.name.map BitVec.toNat)
      else
        let d := Tbl.get s.disp.qs {} c.h
        s.dma c.fnN (c.q 2) [c.h, d.typ, d.rank, d.kern, d.mask.toNat % 2 ^ 32, d.mask.toNat / 2 ^ 32, d.limit, d.itemLimit, d.ordWin,
          d.items.length, d.done, d.errors, d.drops])
    noRes ∧
  Completes .kernelResume kernelResumeSpec kernelTarget
    (fun c s =>
      s.updDisp fun d => { d with kernels := Tbl.upd d.kernels c.h fun k => { k with suspended := false } })
    noRes ∧
  Completes .kernelTenantSet kernelTenantSetSpec kernelTenantSetCheck
    (fun c s =>
      s.updDisp fun d => { d with itemMin := Tbl.set d.itemMin c.h (c.f 2 20 0) })
    noRes ∧
  CompletesKey .keyLoad keyLoadSpec keyLoadCheck
    (fun c s =>
      let master := (List.range 11).map fun i => BitVec.ofNat 32 (c.w (5 + i))
      s.fwLoad (keyLoadOf c (Config.transform 1 (BitVec.ofNat 32 (c.f 2 31 27) :: master)) (newOwn c s))) ∧
  CompletesKey .keyLoadDtls keyLoadDtlsSpec keyLoadDtlsCheck
    (fun c s =>
      s.fwLoad (keyLoadOf c (Config.transform 2 (BitVec.ofNat 32 (c.f 2 31 27) :: BitVec.ofNat 32 (c.f 5 16 16) :: c.host)) (newOwn c s))) ∧
  CompletesKey .keyErase keyEraseSpec keyEraseCheck
    (fun c s =>
      (s.updSlot c.h KeySlot.erase).kwZero.kwResult R_DONE (s.slot c.h).lastGen c.h) ∧
  CompletesKey .keyRelease keyReleaseSpec keyEraseCheck
    (fun c s =>
      (s.releaseSlot c.h).kwZero.kwResult R_DONE (s.slot c.h).lastGen c.h) ∧
  CompletesKey .keyQuery keyQuerySpec keyTarget
    (fun c s =>
      let k := s.slot c.h
      let wide (n : Nat) : List Nat := [n % 2 ^ 32, n / 2 ^ 32]
      let ref (i : Nat) : List Nat := wide ((k.track i).ref.getD 0)
      let hw (i : Nat) : List Nat := wide (Tbl.get (k.half k.act).h 0 i - 1)
      s.dma c.fnN (c.q 2) ([k.info.toNat] ++ ref 0 ++ ref 1 ++ hw 0 ++ hw 1 ++ [k.refused, k.authFail, k.replay, k.erased]))

/-- SYS, TELEM and TIME commands that pass their checks have their effect and are answered OK; SYS_HELLO settles the highest common
version once (R370).
The model's choices in it: log entries 39, 127, 144. -/
def Obligations.SystemAndTelemetryCommands : Prop :=
  Completes .sysNop sysNopSpec (fun _ _ => 0) (fun _ s => s) noRes ∧
  Completes .sysCaps sysCapsSpec sysCapsCheck (fun c s => s.dma c.fnN (c.q 2) s.capsRecord) noRes ∧
  Completes .sysInfo sysInfoSpec (fun _ _ => 0) (fun c s => s.dma c.fnN (c.q 2) s.infoRecord) noRes ∧
  Completes .sysShutdown sysShutdownSpec (fun _ _ => 0)
    (fun c s =>
      let s1 := { s with vusta := { s.vusta with shutdown := true } }.stopMedia
      let s2 := { s1 with power := { s1.power with powerOff := s1.power.powerOff || c.b 2 1 } }
      (if c.b 2 0 then (s2.cutRun.quiesce).startRun 0 (List.range 90) else s2).powerDown)
    noRes ∧
  Completes .sysNotifyCfg sysNotifyCfgSpec sysNotifyCfgCheck
    (fun c s =>
      let r : Route := if c.b 2 31 then .ring (c.f 2 15 0 - 61440) else .local (c.f 2 15 0)
      s.updFn c.fnN fun x => { x with routes := Tbl.set x.routes c.h r })
    noRes ∧
  Completes .telemMeterSet telemMeterSetSpec telemMeterSetCheck
    (fun c s =>
      let old := Tbl.get s.vusta.meters { own := newOwn c s } (meterOf c)
      let x : Meter := { old with
        ring := { hbm := c.b 2 31, addr := c.q 3, log2 := c.f 2 3 0 }, period := c.f 5 12 0, list := meterList c (c.f 8 8 0) }
      ({ s with vusta := { s.vusta with meters := Tbl.set s.vusta.meters (meterOf c) x } }).loupeInit c.fnN x.ring)
    noRes ∧
  Completes .telemMeterStop telemMeterStopSpec telemMeterStopCheck
    (fun c s =>
      { s with vusta := { s.vusta with meters := Tbl.del s.vusta.meters (meterOf c) } })
    noRes ∧
  Completes .telemMeterRead telemMeterReadSpec telemMeterReadCheck
    (fun c s =>
      s.dma c.fnN (c.q 2) ((meterList c (c.f 6 8 0)).flatMap fun m => (List.range 4).map (s.meterWord m)))
    noRes ∧
  Completes .telemCounters telemCountersSpec telemCountersCheck
    (fun c s =>
      let (n, k) := (counterBlock c.h).getD (.STRATA_CNT_LO, 0)
      let vals := (List.range k).flatMap fun i => let v := s.counterValue n i; [v % 2 ^ 32, v / 2 ^ 32]
      s.dma c.fnN (c.q 2) ([c.h % 256, k, s.dev % 2 ^ 32, s.dev / 2 ^ 32] ++ vals))
    noRes ∧
  Completes .timeGet timeGetSpec (fun _ _ => 0) (fun _ s => s.freeWord.2)
    (fun _ s =>
      let w := putF (putF (putB (putB 0 31 (s.rb .TIME_STAT 0 31)) 30 (s.rb .SAFE_CLK 0 29)) 29 28 s.time.mode.code) 27 26
        s.time.lock.code
      [s.dev % 2 ^ 32, s.dev / 2 ^ 32, w.toNat, s.freeWord.1.toNat]) ∧
  Completes .timeSourceSet timeSourceSetSpec timeSourceSetCheck
    (fun c s =>
      let m : ServoMode := if c.f 2 1 0 = 0 then .free else if c.f 2 1 0 = 1 then .pps else .offset
      let t := { s.time with mode := m, thresh := if c.w 3 = 0 then 1000000 else c.w 3 }
      if m = s.time.mode then { s with time := t }
      else { s with time := { t with good := 0, tod := none, lastSample := s.ela } }.setLock (if c.f 2 1 0 = 0 then .freeRun else .locking))
    noRes ∧
  Completes .timeTod timeTodSpec timeTodCheck (fun c s => { s with time := { s.time with tod := some (c.q 2) } }) noRes ∧
  Completes .timeOffset timeOffsetSpec timeOffsetCheck (fun c s => s.servoSample (off64 (c.w 2) (c.w 3))) noRes ∧
  Completes .timePpsOutSet timePpsOutSetSpec timePpsOutSetCheck
    (fun c s =>
      (s.setReg .TIME_PPS_OUT 0 (putF (putB 0 31 (c.b 2 31)) 19 0 (c.f 2 19 0))).setReg .TIME_PPS_OFS 0 (BitVec.ofNat 32 (c.w 3)))
    noRes ∧
  Completes .timeTimerSet timeTimerSetSpec timeTimerSetCheck
    (fun c s =>
      let p := c.w 3 * 1000
      let tm := if c.w 3 = 0 then Tbl.del s.time.timers (timerOf c)
        else Tbl.set s.time.timers (timerOf c) {
          own := newOwn c s, qid := c.f 2 15 0, period := p
          next := if c.q 4 = 0 then s.ela + p else s.ela + (c.q 4 - s.dev) }
      { s with time := { s.time with timers := tm } })
    noRes ∧
  Completes .timeQuery timeQuerySpec (fun _ _ => 0)
    (fun c s =>
      let offs := (List.range 64).flatMap fun i => offWords (nth s.time.offsets 0 i)
      s.dma c.fnN (c.q 2) ([s.time.mode.code, s.time.lock.code, (s.reg .TIME_RATE).toNat, s.time.offsets.length] ++ offs))
    noRes ∧
  (∀ c s, Accepted sysHelloSpec sysHelloCheck c s →
    let b := s.advance c.el
    let lo := c.f 2 31 16
    let hi := c.f 2 15 0
    let who := match c.fn with
      | some f => f + 256 * (f / 64)
      | none => 0
    (∀ f, c.fn = some f → (b.fn f).ver = 0 → max lo verLo ≤ min hi verHi →
      exec (.sysHello c) s = .next ((b.updFn f fun x => { x with ver := min hi verHi }).answer sysHelloSpec c 0 [min hi verHi, who])) ∧
    (∀ f, c.fn = some f → (b.fn f).ver = 0 → min hi verHi < max lo verLo →
      exec (.sysHello c) s = .next (b.answer sysHelloSpec c VERSION [verLo * 65536 + verHi, 0])) ∧
    (∀ f, c.fn = some f → (b.fn f).ver ≠ 0 → lo ≤ (b.fn f).ver → (b.fn f).ver ≤ hi →
      exec (.sysHello c) s = .next (b.answer sysHelloSpec c 0 [(b.fn f).ver, who])) ∧
    (∀ f, c.fn = some f → (b.fn f).ver ≠ 0 → ¬(lo ≤ (b.fn f).ver ∧ (b.fn f).ver ≤ hi) →
      exec (.sysHello c) s = .next (b.answer sysHelloSpec c VERSION [verLo * 65536 + verHi, (b.fn f).ver * 65536])))

/-- JRNL and TEST commands that pass their checks. Those whose commits the JRNL block runs wait for a commit that runs (R462); the
others read the identity, the records or the counters, restore a snapshot, or command the Test strip.
The model's choices in it: log entries 153, 155, 162, 166. -/
def Obligations.JournalAndTestCommands : Prop :=
  Completes .jrnlAttest jrnlAttestSpec jrnlAttestCheck
    (fun c s =>
      let body := s.attestBody c
      s.dmaBytes c.fnN (c.q 2) (body ++ identitySign false body ++ identitySign true body))
    noRes ∧
  Completes .jrnlIdentity jrnlIdentitySpec jrnlIdentityCheck
    (fun c s =>
      s.dmaBytes c.fnN (c.q 2) (identityKey false ++ identityKey true ++ Flash.read s.trust.flash 0x10000 (c.f 4 15 0 - 1984)))
    noRes ∧
  Completes .jrnlRead jrnlReadSpec (fun _ _ => 0)
    (fun c s =>
      let mine (r : JRec) : Bool := decide (c.q 4 ≤ r.seq) && (c.fn.isNone || r.tenant == c.tenant)
      s.dmaBytes c.fnN (c.q 2) (((s.trust.recs.reverse.filter mine).take (c.f 6 15 0)).flatMap JRec.bytes))
    noRes ∧
  Completes .jrnlStatus jrnlStatusSpec (fun _ _ => 0) (fun _ s => s)
    (fun _ s =>
      [s.trust.recs.length, s.erasedAhead / 256, s.rf .JRNL_STAT 0 15 0,
      b2n (s.rb .JRNL_STAT 0 31) * 2 ^ 31 + b2n (s.rb .JRNL_STAT 0 30) * 2 ^ 30 + s.trust.refused]) ∧
  (∀ c s, Accepted jrnlRestoreSpec jrnlRestoreCheck c s →
    let b := s.advance c.el
    (Tbl.find b.trust.snaps c.tenant = none → exec (.jrnlRestore c) s = .next (b.answer jrnlRestoreSpec c NO_SNAPSHOT [])) ∧
    (∀ x, Tbl.find b.trust.snaps c.tenant = some x →
      exec (.jrnlRestore c) s = .next (((Tbl.keys x.video.decs).foldl State.refreshReq
        (b.putEntries (b.putSnap x (newOwn c b)) x)).answer jrnlRestoreSpec c 0 []))) ∧
  CompletesJrnl .jrnlSnapshot jrnlSnapshotSpec jrnlSnapshotCheck (fun c s =>
    s.recordFor REC_SNAP c.tenant (snapBytes c.tenant (s.takeSnap c.tenant)) fun u =>
      { st := u.updTrust fun t => { t with snaps := Tbl.set t.snaps c.tenant (s.takeSnap c.tenant) } }) ∧
  CompletesJrnl .jrnlFwStage jrnlFwStageSpec jrnlFwStageCheck (fun c s =>
    s.stageWrite (s.stageSlot.getD 0) (c.w 2) (leWords ((List.range 12).map fun j => c.w (4 + j))) fun u =>
      if c.b 3 0 then u.stageFinal (s.stageSlot.getD 0) c.img else { st := u }) ∧
  CompletesJrnl .jrnlFwActivate jrnlFwActivateSpec jrnlFwActivateCheck (fun c s =>
    let i := s.stagedSlot.getD 0
    if c.b 2 0 then s.goLive c i
    else s.headerFor ([s.slotWord 0, s.slotWord 1].set i (slotWordOf .trial 0 (s.slotSvn i))) fun u =>
      { st := u.auditCmd A_ACTIVATE [i, 0] }) ∧
  CompletesJrnl .jrnlFwConfirm jrnlFwConfirmSpec jrnlFwConfirmCheck (fun _ s =>
    let i := s.trialSlot.getD 0
    let o := 1 - i
    let w := if s.slotFw o = .active then slotWordOf .staged 0 (s.slotSvn o) else s.slotWord o
    s.headerFor (([s.slotWord 0, s.slotWord 1].set i (slotWordOf .active 0 (s.slotSvn i))).set o w) fun u =>
      { st := u.audit A_CONFIRM [i] }) ∧
  CompletesJrnl .jrnlRollbackSet jrnlRollbackSetSpec jrnlRollbackSetCheck (fun c s =>
    let r := s.burn (c.f 2 6 0 - otpCount s.trust.otp)
    let n := otpCount r.1.trust.otp
    let u := r.1.badSlots fun i => decide (r.1.slotSvn i < n)
    if r.2 ≠ 0 then heldUp u [n] else { st := u.audit A_ROLLBACK [n], res := [n] }) ∧
  CompletesJrnl .jrnlKeyRevoke jrnlKeyRevokeSpec jrnlKeyRevokeCheck (fun c s =>
    let r := s.mayCommit true
    if r.2 = 0 then
      let u := (r.1.updTrust fun t => { t with revoked := t.revoked ||| BitVec.ofNat 4 (2 ^ c.f 2 1 0) }).jrnlResult J_DONE
      { st := (u.badSlots fun i => u.imgKey i == c.f 2 1 0).audit A_REVOKE [c.f 2 1 0] }
    else heldUp r.1 [0]) ∧
  CompletesJrnl .jrnlTenantPin jrnlTenantPinSpec (fun _ _ => 0) (fun c s =>
    let d := (List.range 12).map fun i => BitVec.ofNat 32 (c.w (4 + i))
    let pins := if d.all (· == 0) then Tbl.del s.trust.pins (c.f 2 3 0) else Tbl.set s.trust.pins (c.f 2 3 0) d
    s.recordFor REC_PINS 4 (pinBytes pins) fun u =>
      { st := (u.updTrust fun t => { t with pins }).audit A_PIN [c.f 2 3 0] }) ∧
  Completes .testRun testRunSpec testRunCheck
    (fun c s =>
      s.startRun 1 (if testMask c = 0 then List.range 88 else (List.range 88).filter (testMask c).testBit))
    noRes ∧
  Completes .testSchedule testScheduleSpec testScheduleCheck
    (fun c s =>
      s.updTst fun t => { t with period := c.w 2, nextAt := s.ela + c.w 2 * 3600000000000 })
    noRes ∧
  Completes .testResult testResultSpec (fun _ _ => 0)
    (fun c s =>
      s.dma c.fnN (c.q 2) (((List.range 12).map fun i => (s.reg .SAFE_RET i).toNat)
          ++ (List.range 90).flatMap fun u => let v := (Tbl.get s.tst.sigs 0 u).toNat; [v % 2 ^ 32, v / 2 ^ 32]))
    noRes ∧
  Completes .testFence testFenceSpec testFenceCheck (fun c s => s.fence (c.f 2 6 0) true) noRes ∧
  Completes .testUnfence testUnfenceSpec testUnfenceCheck
    (fun c s =>
      if s.tst.fenced.contains (c.f 2 6 0) then s.unfence (c.f 2 6 0) else s)
    noRes ∧
  Completes .testPolicy testPolicySpec (fun _ _ => 0)
    (fun c s =>
      s.updTst fun t => { t with ueLimit := c.f 2 15 0, ceLimit := c.w 3 })
    noRes

/-- Enabling, training and self-refresh of a memory controller (R325, R344, R345, R348); requests enter a port or are a bus error
(R325, R331, R346), posted writes drain in their order and later reads return their data (R333), and a pseudo-channel issues what its
rules pick (R326, R330, R332).
The model's choices in it: log entries 14, 110, 111, 114, 115. -/
def Obligations.HbmStatesAndRequests : Prop :=
  (∀ (n : Fin 2) (v : Word) (s : State), let lo := n.val * 0x600000000
    (s.pdOn (28 + n.val) = false → exec (.hbmcEnable n v) s = .next { s with bus := .busError }) ∧
    (s.pdOn (28 + n.val) = true → ∃ t, exec (.hbmcEnable n v) s = .next t ∧ t.bus = .ok 0 ∧ t.rb .HBMC_CTRL n.val 31 = bit v 31 ∧
      (s.rb .HBMC_CTRL n.val 31 = false → bit v 31 = true → bit v 29 = false → t.hbState n.val = HB_TRAINING ∧
        (∀ x, lo ≤ x → x < lo + 0x600000000 → Mem.get t.mem x = 0) ∧
        (∀ x, (x < lo ∨ lo + 0x600000000 ≤ x) → Mem.get t.mem x = Mem.get s.mem x)) ∧
      (s.rb .HBMC_CTRL n.val 31 = false → bit v 31 = true → bit v 29 = true → t.hbState n.val = HB_SR_EXIT ∧ t.mem = s.mem) ∧
      (s.rb .HBMC_CTRL n.val 31 = true → bit v 31 = false → t.hbState n.val = HB_OFF ∧ t.hbmc n.val = {} ∧ t.mem = s.mem) ∧
      (s.rb .HBMC_CTRL n.val 31 = bit v 31 → t.hbState n.val = s.hbState n.val ∧ t.mem = s.mem ∧ t.hbm = s.hbm))) ∧
  (∀ (n : Fin 2) (ok : Bool) (s : State),
    exec (.hbmTrainingComplete n ok) s =
      .next (if s.hbState n.val = HB_TRAINING then s.setHbState n.val (if ok then HB_ACTIVE else HB_FAILED) else s)) ∧
  (∀ (n : Fin 2) (s : State), s.hbState n.val = HB_ACTIVE → s.rb .HBMC_CTRL n.val 30 = true → s.allAsleep = true → s.hbQuiet n.val = true →
    ∃ t, exec (.srIdleTimeout n) s = .next t ∧ t.hbState n.val = HB_SR_ENTRY ∧ (t.hbmc n.val).srAt = s.ela ∧ t.mem = s.mem) ∧
  (∀ (n : Fin 2) (s : State), s.hbState n.val = HB_SR_ENTRY →
    ∃ t, exec (.srEntryComplete n) s = .next t ∧
      t.hbState n.val = (if (s.hbmc n.val).srWait then HB_SR_EXIT else HB_SELF_REFRESH) ∧
      (∀ p, p < 16 → ((t.hbmc n.val).port p).posted = []) ∧ (t.hbmc n.val).srWait = false) ∧
  (∀ (n : Fin 2) (s : State), s.hbState n.val = HB_SR_EXIT →
    ∃ t, exec (.srExitComplete n) s = .next t ∧ t.hbState n.val = HB_ACTIVE ∧ t.rb .HBMC_STAT n.val 28 = true ∧ (t.hbmc n.val).held = [] ∧
      ((s.hbmc n.val).held = [] → t.mem = s.mem ∧ t.out = s.out) ∧
      (∀ x v, (s.hbmc n.val).held = [x] → x.data = some v →
        t.mem = Mem.write s.mem x.addr (toLe 4 v.toNat) ∧ t.out = .served x.who x.addr (.ok 0) :: s.out) ∧
      (∀ x, (s.hbmc n.val).held = [x] → x.data = none →
        t.mem = s.mem ∧ t.out = .served x.who x.addr (.ok (s.memWord x.addr)) :: s.out)) ∧
  (∀ s : State, ∃ t, exec .winFence s = .next t ∧ t.rb .HBMC_WIN_FENCE 0 0 = true ∧
    (s.rb .HBMC_WIN_FENCE 0 0 = false → (t.hbmc 0).fence = ((s.hbmc 0).seq, (s.hbmc 1).seq))) ∧
  (∀ s : State, (s.hbmc 0).holdsChecked (s.hbmc 0).fence.1 = false → (s.hbmc 1).holdsChecked (s.hbmc 0).fence.2 = false →
    exec .winFenceClear s = .next (s.setRb .HBMC_WIN_FENCE 0 0 false)) ∧
  (∀ (n : Fin 2) (p : Fin 16) (write : Bool) (a : Nat) (tn : Option (Fin 4)) (l : List Byte) (el : Nat) (s : State),
    let b := s.advance el
    let us := if write then splitUnits l.length a l else [(a, [])]
    let len := if write then l.length else 1
    let denied := match tn with
      | some t => !b.windowOk t.val write a len
      | none => false
    let x := (b.hbmc n.val).port p.val
    let i : Instr := .hbmRequest n p write a tn l el
    us ≠ [] →
      ((inHbm a = false ∨ (us.any fun u => stackOf u.1 != n.val) = true ∨ denied = true ∨ b.hbServes n.val = false) →
        exec i s = .next { b with bus := .busError }) ∧
      (inHbm a = true → (us.all fun u => stackOf u.1 == n.val) = true → denied = false → b.hbServes n.val = true →
        (write = true → x.posted.length + us.length ≤ 64 → ∃ t, exec i s = .next t ∧ t.bus = .ok 0 ∧ t.mem = s.mem ∧
          (((t.hbmc n.val).port p.val).posted.map fun r => (r.addr, r.data)) = (x.posted.map fun r => (r.addr, r.data)) ++ us ∧
          ((t.hbmc n.val).port p.val).reads = x.reads ∧ (b.hbState n.val = HB_SELF_REFRESH → t.hbState n.val = HB_SR_EXIT)) ∧
        (write = false → x.reads.length + 1 ≤ 64 → ∃ t, exec i s = .next t ∧ t.bus = .ok 0 ∧ t.mem = s.mem ∧
          (((t.hbmc n.val).port p.val).reads.map (·.addr)) = (x.reads.map (·.addr)) ++ [a] ∧
          ((t.hbmc n.val).port p.val).posted = x.posted ∧ t.rf .HBMC_PORT_STAT (16 * n.val + p.val) 6 0 = x.reads.length + 1))) ∧
  (∀ (n : Fin 2) (s : State) (k p : Nat) (r : UnitReq) (rest : List UnitReq), s.hbState n.val = HB_ACTIVE →
    s.hbArb n.val (s.hbmc n.val).ptrs (fun q => !((s.hbmc n.val).port q).posted.isEmpty) = some (k, p) →
    ((s.hbmc n.val).port p).posted = r :: rest →
    ∃ t, exec (.postedWriteDrain n) s = .next t ∧ ((t.hbmc n.val).port p).posted = rest ∧ Mem.read t.mem r.addr r.data.length = r.data ∧
      (∀ x, (x < r.addr ∨ r.addr + r.data.length ≤ x) → Mem.get t.mem x = Mem.get s.mem x) ∧ t.regs = s.regs) ∧
  (∀ (n : Fin 2) (pc : Fin 64) (s : State), let c := pc.val % 32
    let u := s.hbGrant n.val c 1024
    s.hbState n.val = HB_ACTIVE →
    (u.hbPick n.val c = none → exec (.hbmUnitIssue n pc) s = .next (u.hbPay n.val c)) ∧
    (∀ r ptrs, u.hbPick n.val c = some (r, ptrs) → ∃ t, exec (.hbmUnitIssue n pc) s = .next t ∧ t.mem = s.mem ∧
      ((t.hbmc n.val).pc c).queue = ((u.hbmc n.val).pc c).queue.filter (fun q => q.seq != r.seq) ∧ ((t.hbmc n.val).pc c).ptrs = ptrs ∧
      (r.write = true → r.full = true → (t.hbmc n.val).flying = (u.hbmc n.val).flying) ∧
      (r.write = true → r.full = false → (t.hbmc n.val).flying = (u.hbmc n.val).flying ++ [r]) ∧
      (r.write = false →
        (t.hbmc n.val).flying = (u.hbmc n.val).flying ++ [{ r with data := Mem.read s.mem (unitOf r.addr) 64 }])))

/-- What a read of the array brings (R338 to R341), refreshes, temperatures and scrub reads (R335 to R337, R342, R343).
The model's choices in it: log entries 112, 113. -/
def Obligations.HbmReadsAndCare : Prop :=
  (∀ (n : Fin 2) (inner : Fin 3) (outer : Outer) (s : State) (r : UnitReq) (rest : List UnitReq), (s.hbmc n.val).flying = r :: rest →
    let go (t : State) : Prop := exec (.hbmReadComplete n { inner, outer }) s = .next t ∧ (t.hbmc n.val).flying = rest
    (outer = .clean → ∃ t, go t ∧ t.mem = s.mem ∧ t.bus = (if r.write then .ok 0 else .ok (unitWord r.addr r.data))) ∧
    (∀ k, outer = .corrected k → ∃ t, go t ∧ t.mem = s.mem ∧ t.bus = (if r.write then .ok 0 else .ok (unitWord r.addr r.data))) ∧
    (outer = .uncorrectable → r.write = false → ∃ t, go t ∧ t.mem = s.mem ∧ t.bus = .busError ∧
      (s.rb .HBMC_UE_INFO n.val 31 = true → t.rb .HBMC_UE_INFO n.val 30 = true ∧ t.rb .HBMC_UE_INFO n.val 31 = true) ∧
      (s.rb .HBMC_UE_INFO n.val 31 = false → t.rb .HBMC_UE_INFO n.val 31 = true ∧ t.rf .HBMC_UE_INFO n.val 27 24 = r.port % 16 ∧
        t.reg .HBMC_UE_ADDR_LO n.val = BitVec.ofNat 32 (unitOf r.addr)))) ∧
  (∀ (n : Fin 2) (pc : Fin 64) (s : State), let c := pc.val % 32
    let x := (s.hbmc n.val).pc c
    let busy := !x.queue.isEmpty || (s.hbmc n.val).ports.any fun kv => kv.2.reads.any fun r => r.pc == c
    let most := min 8 (s.rf .HBMC_THERM n.val 7 4)
    s.hbState n.val = HB_ACTIVE → s.rb .HBMC_STAT n.val 25 = false →
    (busy = false → ∃ t, exec (.refreshDue n pc) s = .next t ∧ ((t.hbmc n.val).pc c).owed = 0) ∧
    (busy = true → x.owed < most → ∃ t, exec (.refreshDue n pc) s = .next t ∧ ((t.hbmc n.val).pc c).owed = x.owed + 1) ∧
    (busy = true → most ≤ x.owed → exec (.refreshDue n pc) s = .next (s.cntHbm n.val H_REFRESH_FORCED))) ∧
  (∀ (n : Fin 2) (s : State), s.hbState n.val = HB_ACTIVE →
    (∃ t, exec (.hbmTempRead n none) s = .next t ∧ t.rb .HBMC_STAT n.val 26 = true ∧ t.rb .HBMC_STAT n.val 28 = true) ∧
    (∀ x : Byte, ∃ t, exec (.hbmTempRead n (some x)) s = .next t ∧ t.rf .HBMC_STAT n.val 7 0 = x.toNat ∧
      (s.rf .HBMC_THERM n.val 31 24 < x.toNat → t.rb .HBMC_STAT n.val 28 = true) ∧
      (x.toNat ≤ s.rf .HBMC_THERM n.val 31 24 → x.toNat ≤ s.rf .HBMC_THERM n.val 23 16 → t.rb .HBMC_STAT n.val 28 = false) ∧
      (s.rf .HBMC_THERM n.val 15 8 < x.toNat → t.rb .HBMC_STAT n.val 27 = true))) ∧
  (∀ (n : Fin 2) (s : State), let u := s.rf .HBMC_SCRUB_POS n.val 28 0
    s.hbState n.val = HB_ACTIVE → s.rb .HBMC_SCRUB n.val 31 = true →
    ∃ t, exec (.scrubRead n { inner := 0, outer := .clean }) s = .next t ∧ t.mem = s.mem ∧
      (u + 1 < stackUnits → t.rf .HBMC_SCRUB_POS n.val 28 0 = u + 1 ∧ t.reg .HBMC_SCRUB_PASS n.val = s.reg .HBMC_SCRUB_PASS n.val) ∧
      (stackUnits ≤ u + 1 → t.rf .HBMC_SCRUB_POS n.val 28 0 = 0 ∧
        t.reg .HBMC_SCRUB_PASS n.val = s.reg .HBMC_SCRUB_PASS n.val + 1))

/-- The resets of functions (R386, R408, R412): a function-level reset, the clearing of VF Enable, a hot reset, PERST and the loss of a
link each stop the functions that they name: these are in reset, with a new epoch, no version and no bus mastering.
The model's choices in it: log entries 129, 131. -/
def Obligations.FunctionResets : Prop :=
  let stopped (f : Nat) (s t : State) : Prop := t.inFlr f = true ∧
    (s.inFlr f = false → (t.fn f).ver = 0 ∧ (t.fn f).epoch = ((s.fn f).epoch + 1) % 256 ∧ (t.fn f).bme = false ∧ (t.fn f).routes = [])
  (∀ (f : Fin 256) (s : State), s.fnExists f.val = true →
    ∃ t, exec (.functionLevelReset f) s = .next t ∧ stopped f.val s t ∧
      (f.val % 64 = 0 → ∀ g, s.fnExists g = true → g / 64 = f.val / 64 → g < 256 → stopped g s t) ∧
      (f.val % 64 ≠ 0 → ∀ g, g ≠ f.val → t.fn g = s.fn g ∧ (g < 256 → t.inFlr g = s.inFlr g))) ∧
  (∀ (f : Fin 256) (s : State), s.fnExists f.val = false → exec (.functionLevelReset f) s = .next s) ∧
  (∀ (tn : Fin 4) (s : State), ∃ t, exec (.vfEnableClear tn) s = .next t ∧
    Tbl.get t.vusta.sriov {} tn.val = { Tbl.get s.vusta.sriov {} tn.val with enable := false } ∧
    (∀ f, s.fnExists f = true → f / 64 = tn.val → f % 64 ≠ 0 → stopped f s t) ∧ t.fn (64 * tn.val) = s.fn (64 * tn.val)) ∧
  (∀ (p : Fin 4) (s : State),
    let resets (i : Instr) (down : Bool) : Prop :=
      ∃ t, exec i s = .next t ∧ (∀ f, s.fnExists f = true → f / 64 = p.val → stopped f s t) ∧ t.rf .HP_LINK_STAT p.val 15 8 = 0 ∧
        (down = false → t.rf .HP_LINK_STAT p.val 31 16 = s.rf .HP_LINK_STAT p.val 31 16) ∧
        (down = true → t.rf .HP_LINK_STAT p.val 31 24 = 0 ∧
          t.rb .HP_LINK_STAT p.val 23 = (s.rb .HP_LINK_STAT p.val 23 || s.rb .HP_LINK_STAT p.val 31))
    resets (.hotReset p) false ∧ resets (.perstAssert p) true ∧
    (∀ sp wd rv, s.rb .HP_LINK_STAT p.val 31 = true → resets (.pcieLinkChange p false sp wd rv) true)) ∧
  (∀ (f : Fin 256) (s : State), s.inFlr f.val = true →
    ∃ t, exec (.flrReady f) s = .next t ∧ t.inFlr f.val = false ∧ (∀ g, g < 256 → g ≠ f.val → t.inFlr g = s.inFlr g) ∧
      (f.val % 64 = 0 → ∀ l, l < 3 → t.rb .MBX_STAT (16 + 15 * (f.val / 64) + l) 29 = true)) ∧
  (∀ (f : Fin 256) (s : State), s.inFlr f.val = false → exec (.flrReady f) s = .next s)

/-- The link, configuration space and requests that no function claims (R385, R387, R388, R405, R512), the ends of what destruction took
time over (R409), and the samples of a metering stream (R377).
The model's choices in it: log entries 130, 134. -/
def Obligations.LinkConfigurationAndEnds : Prop :=
  (∀ (p : Fin 4) (speed : BitVec 3) (width : BitVec 2) (rv : Bool) (s : State),
    s.rb .HP_CTRL p.val 31 = true → s.pdOn (30 + p.val) = true →
    let sp := min (if speed = 0 ∨ 5 < speed.toNat then 5 else speed.toNat) (s.maxSpeed p.val)
    let wd := min width.toNat (s.rf .HP_CTRL p.val 27 26)
    ∃ t, exec (.pcieLinkChange p true speed width rv) s = .next t ∧ t.rb .HP_LINK_STAT p.val 31 = true ∧
      t.rf .HP_LINK_STAT p.val 30 28 = sp ∧ t.rf .HP_LINK_STAT p.val 27 26 = wd ∧ t.rb .HP_LINK_STAT p.val 24 = rv ∧
      t.rb .HP_LINK_STAT p.val 25 = (decide (sp < s.maxSpeed p.val) || decide (wd < s.rf .HP_CTRL p.val 27 26)) ∧
      t.rf .HP_LINK_STAT p.val 15 8 = (if s.rb .HP_LINK_STAT p.val 31 then min 255 (s.rf .HP_LINK_STAT p.val 15 8 + 1)
        else s.rf .HP_LINK_STAT p.val 15 8) ∧ t.vusta = s.vusta ∧ t.net = s.net ∧ t.mem = s.mem) ∧
  (∀ (p : Fin 4) (speed : BitVec 3) (width : BitVec 2) (rv : Bool) (s : State),
    (s.rb .HP_CTRL p.val 31 = false ∨ s.pdOn (30 + p.val) = false) → exec (.pcieLinkChange p true speed width rv) s = .next s) ∧
  (∀ (f : Fin 256) (w : CfgWrite) (s : State), s.fnExists f.val = false →
    exec (.pcieConfigWrite f w) s = .next { s with bus := .unsupported }) ∧
  (∀ (f : Fin 256) (w : CfgWrite) (s : State), s.fnExists f.val = true → s.inFlr f.val = true →
    exec (.pcieConfigWrite f w) s = .next { s with bus := .ok 0 }) ∧
  (∀ (f : Fin 256) (s : State), s.fnExists f.val = true → s.inFlr f.val = false → let tn := f.val / 64
    let x := Tbl.get s.vusta.sriov {} tn
    (∀ on, ∃ t, exec (.pcieConfigWrite f (.busMaster on)) s = .next t ∧ (t.fn f.val).bme = on ∧ (t.fn f.val).ver = (s.fn f.val).ver ∧
      t.bus = .ok 0 ∧ t.regs = s.regs) ∧
    (∀ n, ∃ t, exec (.pcieConfigWrite f (.numVfs n)) s = .next t ∧ t.bus = .ok 0 ∧ t.regs = s.regs ∧
      Tbl.get t.vusta.sriov {} tn = (if f.val % 64 = 0 ∧ x.enable = false then { x with numVfs := n.val } else x)) ∧
    (∃ t, exec (.pcieConfigWrite f .vfEnable) s = .next t ∧ t.bus = .ok 0 ∧ t.regs = s.regs ∧
      Tbl.get t.vusta.sriov {} tn = (if f.val % 64 = 0 then { x with enable := true } else x))) ∧
  (∀ (f : Fin 256) (wr : Bool) (s : State), (s.fnExists f.val = false ∨ s.inFlr f.val = true) →
    exec (.unclaimedRequest f wr) s = .next { s with bus := if wr then .ok 0 else .unsupported }) ∧
  (∀ (f : Fin 256) (wr : Bool) (s : State), s.fnExists f.val = true → s.inFlr f.val = false → exec (.unclaimedRequest f wr) s = .next s) ∧
  (∀ (i : Nat) (s : State),
    let exe (k : ObjKind) : Host.Outcome State Fault Refusal := exec (.objectDestructionEnd { kind := k, num := i }) s
    (exe .source = .next (if (s.source i).own.dying then s.endRamp i else s)) ∧
    (exe .inject = .next (if (s.source i).own.dying then s.endRamp i else s)) ∧
    (exe .rend = .next (if (s.rend i).own.dying then s.sweepRend i else s)) ∧
    (exe .group = .next (if (s.group i).own.dying then s.sweepGroup i else s)) ∧
    ((s.layout i).own.dying = true → (s.layout i).job = none → Tbl.has s.video.layouts i = true → exe .layout = .next (s.freeLayout i)) ∧
    (exe .stream = .next s.sweepStreams) ∧
    (Tbl.has s.mix.confs i = true → (s.conf i).own.dying = true → s.confLegs i = [] → exe .conf = .next (s.destroyConf i)) ∧
    (∀ k, s.kernel i = some k → k.own.dying = true → (s.cores.any fun kv => kv.2.running && kv.2.kern == i) = false →
      exe .kernel = .next (s.updDisp fun d => { d with kernels := Tbl.del d.kernels i })) ∧
    (∀ k, k ∈ [ObjKind.tap, .sampler, .snapshot, .sub, .mixClass, .image, .dec, .leg, .peer, .flowq, .policer, .dispq, .key, .window,
      .timer, .meter] → exe k = .next s)) ∧
  (∀ (n : Fin 256) (cons el : Nat) (s : State), let b := s.advance el
    (Tbl.find b.vusta.meters n.val = none → exec (.meterSample n cons el) s = .next b) ∧
    (∀ x, Tbl.find b.vusta.meters n.val = some x →
      ((x.period = 0 ∨ b.mixFrame % x.period ≠ 0 ∨ x.seen = b.mixFrame + 1) → exec (.meterSample n cons el) s = .next b) ∧
      (x.period ≠ 0 → b.mixFrame % x.period = 0 → x.seen ≠ b.mixFrame + 1 →
        let w := b.streamWrite x.own.fn cons x.ring x.list
        ∃ t y, exec (.meterSample n cons el) s = .next t ∧ Tbl.find t.vusta.meters n.val = some y ∧ y.seen = b.mixFrame + 1 ∧
          y.list = x.list ∧ y.ring = w.2.1 ∧ t.mem = w.1.mem ∧ t.out = w.1.out ∧
          (x.lostNew + w.2.2 = 0 → y.lostNew = 0 ∧ y.lostAt = x.lostAt))))

/-- Requests to power domains (R415, R416, R417, R422): a request that R416 refuses sets its flag and changes no state; one that is taken
stops, powers up or wakes the domain; `DOM_RESET` of a domain that is OFF or powering up does nothing.
The model's choices in it: log entries 139, 140, 141. -/
def Obligations.PowerRequests : Prop :=
  (∀ (d : Fin 99) (v : Word) (s : State), let x := pdCtrl d.val
    let y := pdStat d.val
    let r := fld v 31 30
    bit v 27 = false →
    (r ≠ 3 → s.pdRefused d.val r = true → ∃ t, exec (.pdReqWrite d v) s = .next t ∧ t.bus = .ok 0 ∧ t.rb y.1 y.2 27 = true ∧
      t.rf x.1 x.2 31 30 = s.rf x.1 x.2 31 30 ∧ (∀ e, e < 99 → t.pdState e = s.pdState e)) ∧
    (r = 3 → ∃ t, exec (.pdReqWrite d v) s = .next t ∧ t.rf x.1 x.2 31 30 = s.rf x.1 x.2 31 30 ∧
      (∀ e, e < 99 → t.pdState e = s.pdState e)) ∧
    ((r = 1 ∨ r = 2) → s.pdRefused d.val r = false → s.pdState d.val = 2 → d.val < 35 →
      let wanted := 2 ≤ d.val ∧ d.val ≤ 17 ∧ ∃ i, i < 4 ∧ s.wakeAsked (35 + 4 * (d.val - 2) + i) = true
      (¬wanted → ∃ t, exec (.pdReqWrite d v) s = .next t ∧ t.bus = .ok 0 ∧ t.pdState d.val = 3 ∧ t.rf x.1 x.2 31 30 = r ∧
        (Tbl.get t.power.doms {} d.val).target = r ∧ (Tbl.get t.power.doms {} d.val).entryAt = s.ela) ∧
      (wanted → ∃ t, exec (.pdReqWrite d v) s = .next t ∧ t.bus = .ok 0 ∧ t.pdState d.val = 2 ∧ t.rf x.1 x.2 31 30 = r)) ∧
    (r = 0 → s.pdRefused d.val r = false → s.pdState d.val = 0 → d.val < 35 → bit v 28 = false → s.rb .SAFE_THERM 0 22 = false →
      ∃ t, exec (.pdReqWrite d v) s = .next t ∧ t.bus = .ok 0 ∧ t.rf x.1 x.2 31 30 = 0 ∧
        (s.powering < 4 → t.pdState d.val = 1) ∧
        (4 ≤ s.powering → t.pdState d.val = 0 ∧ t.power.wakeQ.contains d.val = true))) ∧
  (∀ (d : Fin 99) (s : State), let x := pdCtrl d.val
    ((s.pdState d.val = 0 ∨ s.pdState d.val = 1) → exec (.domainReset d) s = .next { s with bus := .ok 0 }) ∧
    (s.pdState d.val = 6 → ∃ t, exec (.domainReset d) s = .next t ∧ t.bus = .ok 0 ∧ t.rb x.1 x.2 27 = true ∧
      (s.rb x.1 x.2 28 = true → t.pdState d.val = 6) ∧
      (s.rb x.1 x.2 28 = false → s.rb .SAFE_THERM 0 22 = false → s.powering < 4 → t.pdState d.val = 1)) ∧
    (35 ≤ d.val → s.pdState d.val = 2 → s.rf x.1 x.2 31 30 = 0 → ∃ t, exec (.domainReset d) s = .next t ∧ t.bus = .ok 0 ∧
      t.pdState d.val = 2 ∧ t.rb x.1 x.2 27 = false ∧ (∀ k, 8 * (d.val - 35) ≤ k → k < 8 * (d.val - 35) + 8 → t.core k = {}) ∧
      (∀ a, 0x1000000000 + (d.val - 35) * 0x200000 ≤ a → a < 0x1000000000 + (d.val - 35) * 0x200000 + 0x200000 → Mem.get t.mem a = 0)) ∧
    (18 ≤ d.val → d.val ≤ 25 → s.pdState d.val = 2 → ∃ t, exec (.domainReset d) s = .next t ∧ t.bus = .ok 0 ∧
      (t.eng (d.val - 18)).job = none ∧ (t.eng (d.val - 18)).reqs = [] ∧ (t.encEng (d.val - 18)).coders = [] ∧
      (t.encEng (d.val - 18)).an = none ∧
      (∀ i l, Tbl.find s.video.layouts i = some l → l.pe = d.val - 18 → (t.layout i).job = none)))

/-- Sleep entries and wakes complete, and power good comes too late (R418 to R421, R24).
The model's choices in it: log entries 138, 142. -/
def Obligations.SleepAndWake : Prop :=
  (∀ (d : Fin 99) (s : State), let o := Tbl.get s.power.doms {} d.val
    (s.pdState d.val = 3 → o.target ≠ 2 → ∃ t, exec (.sleepEntryComplete d) s = .next t ∧ t.pdState d.val = 4 ∧ t.mem = s.mem ∧
      t.cores = s.cores) ∧
    (s.pdState d.val = 3 → o.target = 2 → o.wakeWait = false → ∃ t, exec (.sleepEntryComplete d) s = .next t ∧ t.pdState d.val = 0 ∧
      (d.val < 35 → t.rb .CLKPWR_PD_STAT d.val 28 = false)) ∧
    (s.pdState d.val = 5 → o.wakeWait = false → ∃ t, exec (.sleepEntryComplete d) s = .next t ∧ t.pdState d.val = 0) ∧
    (s.pdState d.val ≠ 3 → s.pdState d.val ≠ 5 → exec (.sleepEntryComplete d) s = .next s)) ∧
  (∀ (d : Fin 99) (s : State), let x := pdCtrl d.val
    let y := pdStat d.val
    let wakes := (Tbl.get s.power.doms {} d.val).wakeWait
    s.tileReady d.val = true → s.rf x.1 x.2 31 30 = 0 → (s.pdState d.val = 1 ∨ (s.pdState d.val = 4 ∧ wakes = true)) →
    ∃ t, exec (.wakeComplete d) s = .next t ∧ t.pdState d.val = 2 ∧ t.rf y.1 y.2 15 0 = min 65535 (s.rf y.1 y.2 15 0 + 1) ∧
      (d.val < 35 → t.rb .CLKPWR_PD_STAT d.val 28 = true) ∧ t.rb x.1 x.2 27 = false) ∧
  (∀ (d : Fin 99) (s : State), (s.tileReady d.val = false ∨ (s.pdState d.val ≠ 1 ∧ s.pdState d.val ≠ 4)) →
    exec (.wakeComplete d) s = .next s) ∧
  (∀ (d : Fin 99) (s : State), s.pdState d.val = 1 → s.power.wakeQ = [] →
    ∃ t, exec (.powerGoodTimeout d) s = .next t ∧ t.pdState d.val = 6 ∧
      (∀ u, testUnit d.val = some u → t.tst.fenced.contains u = true) ∧ .chan2 S2_DOMAIN d.val ∈ t.out) ∧
  (∀ (d : Fin 99) (s : State), s.pdState d.val ≠ 1 → exec (.powerGoodTimeout d) s = .next s)

/-- The watchdog and the resets of the device (R422 to R424, R437, R491, R497): a warm reset shows its cause, a power-on reset or a
brown-out puts every register and memory at its reset value, the rise of PORST_N samples the straps, and TRIP powers the fast domains
off.
The model's choices in it: log entries 143, 172, 186, 187, 208. -/
def Obligations.DeviceResets : Prop :=
  (∀ (v : Word) (el : Nat) (s : State), let b := s.advance el
    let on := s.rb .CLKPWR_WDOG 0 31
    let writes (i : Instr) : Prop := ∃ t, exec i s = .next t ∧ t.bus = .ok 0 ∧ t.rb .CLKPWR_WDOG 0 31 = (on || bit v 31) ∧
      t.rf .CLKPWR_WDOG 0 15 0 = (if on = false ∧ 10 ≤ fld v 15 0 then fld v 15 0 else s.rf .CLKPWR_WDOG 0 15 0) ∧
      t.power.kickAt = (if bit v 30 = true ∨ (bit v 31 = true ∧ on = false) then b.ela else s.power.kickAt)
    writes (.wdogEnable v el) ∧ writes (.wdogKick v el)) ∧
  (∀ (el : Nat) (s : State), let b := s.advance el
    let due := b.rb .CLKPWR_WDOG 0 31 = true ∧ b.power.kickAt + b.rf .CLKPWR_WDOG 0 15 0 * 1000000 ≤ b.ela
    (due → exec (.watchdogExpiry el) s = .next (b.warmReset 2)) ∧ (¬due → exec (.watchdogExpiry el) s = .next b)) ∧
  (∀ (w : Bool) (s : State), ∃ t, exec (.warmReset w) s = .next t ∧ t.rf .CLKPWR_RST_CAUSE 0 31 28 = (if w then 2 else 1) ∧
    t.rf .CLKPWR_RST_CAUSE 0 15 0 = min 65535 (s.rf .CLKPWR_RST_CAUSE 0 15 0 + 1) ∧ t.trust.job = none ∧ t.time.eacc = s.time.eacc) ∧
  (∀ (s : State), let cleared (i : Instr) : Prop := ∃ t, exec i s = .next t ∧ t.regs = State.reset.regs ∧ t.cnts = State.reset.cnts ∧
      t.mem = [] ∧ t.csram = [] ∧ t.fifos = State.reset.fifos ∧ t.keys = State.reset.keys ∧ t.net = State.reset.net ∧
      t.mix = State.reset.mix ∧ t.video = State.reset.video ∧ t.disp = State.reset.disp ∧ t.time = State.reset.time ∧
      t.vusta = State.reset.vusta ∧ t.power = State.reset.power ∧ t.trust.recs = [] ∧ t.trust.job = none ∧ t.pending = s.pending ∧
      (s.trust.job = none → t.trust.flash = s.trust.flash ∧ t.trust.otp = s.trust.otp)
    cleared .powerOnReset ∧ cleared .brownOut) ∧
  (∀ (straps : BitVec 4) (sysref : Bool) (board : Option Board) (s : State),
    exec (.porstRelease straps sysref true board) s = .next s ∧
    (s.power.porst = false → exec (.porstRelease straps sysref false board) s = .next s) ∧
    (s.power.porst = true → ∃ t, exec (.porstRelease straps sysref false board) s = .next t ∧ t.power.porst = false ∧
      t.reg .SAFE_STRAP 0 = straps.setWidth 32 ∧ t.rb .MBX_STAT 3 29 = true ∧
      t.rb .SAFE_CLK 0 31 = (sysref || s.rb .SAFE_CLK 0 31))) ∧
  (∀ (tj : Byte) (s : State), let trip := sx (s.rf .SAFE_THERM 0 7 0) 8
    (sx tj.toNat 8 < trip → exec (.thermalTrip tj) s = .next s) ∧
    (trip ≤ sx tj.toNat 8 → ∃ t, exec (.thermalTrip tj) s = .next t ∧ t.rb .SAFE_THERM 0 22 = true ∧ t.rf .SAFE_THERM 0 31 24 = tj.toNat ∧
      t.reg .SAFE_PWRGD 0 = 0 ∧ t.mem = [] ∧ (∀ f, f < 4 → t.rb .SAFE_FAN f 23 = true) ∧
      (∀ d, 1 ≤ d → d < 99 → t.pdState d = 0)))

/-- The slow clock, device time, the servo and the timers (R414, R425 to R431, R433), and what a reading of Tj shows and what forces
the fans (R436, R437).
The model's choices in it: log entries 144, 145, 146, 149. -/
def Obligations.ClockTimeAndThermalEvents : Prop :=
  (∀ s : State, ∃ t, exec .xtalFail s = .next t ∧ t.rb .SAFE_CLK 0 30 = false ∧ t.rb .SAFE_CLK 0 31 = false ∧
    (s.rb .SAFE_CLK 0 31 = true → t.rb .SAFE_CLK 0 29 = true ∧ .chan2 S2_CLOCK 1 ∈ t.out) ∧
    (s.rb .SAFE_CLK 0 31 = false → t.out = s.out) ∧ t.time = s.time) ∧
  (∀ s : State, ∃ t, exec .xtalReturn s = .next t ∧ t.rb .SAFE_CLK 0 30 = true ∧
    t.rb .SAFE_CLK 0 31 = (s.rb .SAFE_CLK 0 31 || s.rb .SAFE_CLK 0 28) ∧
    (s.rb .SAFE_CLK 0 28 = true → s.rb .SAFE_CLK 0 31 = false → t.rb .SAFE_CLK 0 28 = false) ∧ t.time = s.time ∧ t.out = s.out) ∧
  (∀ s : State, exec .sysrefSwitch s =
    .next (if s.rb .SAFE_CLK 0 29 then s else (s.setRb .SAFE_CLK 0 30 true).setRb .SAFE_CLK 0 31 true)) ∧
  (∀ (lo hi : Word) (s : State), ∃ t, exec (.timeStepCommit lo hi) s = .next t ∧ t.bus = .ok 0 ∧ t.rb .TIME_STAT 0 29 = true ∧
    t.time = { s.time with step := some (sx (lo.toNat + 2 ^ 32 * hi.toNat) 64), stepServo := false }) ∧
  (∀ s : State, let b := s.advance 1
    (b.time.step = none → exec .timeStepApply s = .next b) ∧
    (∀ v, b.time.step = some v → b.stepFits v = true → ∃ t, exec .timeStepApply s = .next t ∧ (t.dev : Int) = b.dev + v ∧
      t.time.eacc = b.time.eacc ∧ t.time.step = none ∧ t.rb .TIME_STAT 0 29 = false ∧
      t.rb .TIME_STAT 0 31 = (b.rb .TIME_STAT 0 31 || b.time.stepServo) ∧
      (∀ i l, Tbl.find b.video.layouts i = some l →
        ∃ m, Tbl.find t.video.layouts i = some m ∧ m.t0 = ((l.t0 : Int) + v).toNat ∧ m.next = l.next)) ∧
    (∀ v, b.time.step = some v → b.stepFits v = false → ∃ t, exec .timeStepApply s = .next t ∧ t.dev = b.dev ∧
      t.time.step = none ∧ t.rb .TIME_STAT 0 28 = true ∧ t.rb .TIME_STAT 0 29 = false)) ∧
  (∀ (el : Nat) (s : State), let b := s.advance el
    (b.time.ppsAt ≠ 0 → b.ela < b.time.ppsAt - 1 + 500000000 → ∃ t, exec (.ppsInEdge el) s = .next t ∧
      t.rf .TIME_STAT 0 15 0 = min 65535 (b.rf .TIME_STAT 0 15 0 + 1) ∧ t.time = b.time ∧ t.cnts = s.cnts) ∧
    ((b.time.ppsAt = 0 ∨ b.time.ppsAt - 1 + 500000000 ≤ b.ela) → ∃ t, exec (.ppsInEdge el) s = .next t ∧
      t.rb .TIME_STAT 0 27 = true ∧ t.cnt .TIME_PPS_IN_LO 0 = BitVec.ofNat 64 b.dev ∧ t.time.ppsAt = b.ela + 1 ∧ t.time.tod = none ∧
      (∀ v, b.time.mode = .pps → b.time.tod = some v →
        t.time.offsets = (((v : Int) * 1000000000 - b.dev) :: b.time.offsets).take 64 ∧ t.time.lastSample = b.ela) ∧
      ((b.time.mode ≠ .pps ∨ b.time.tod = none) → t.time.offsets = b.time.offsets ∧ t.time.step = b.time.step))) ∧
  (∀ (rise : Bool) (el : Nat) (s : State), let b := s.advance el
    let ph := ((b.dev : Int) - sx (b.reg .TIME_PPS_OFS).toNat 32) % 1000000000
    let ends := b.time.ppsRise + b.rf .TIME_PPS_OUT 0 19 0 * 1000 ≤ b.ela ∨ b.rb .TIME_STAT 0 31 = false
    (rise = true → b.rb .TIME_PPS_OUT 0 31 = true → b.rb .TIME_STAT 0 31 = true → ph < 41 →
      ∃ t, exec (.ppsOutPulse rise el) s = .next t ∧ t.time.ppsOut = true ∧ t.time.ppsRise = b.ela ∧
        (b.time.ppsOut = false → t.out = .pin 0 1 :: s.out)) ∧
    (rise = false → b.time.ppsOut = true → ends → ∃ t, exec (.ppsOutPulse rise el) s = .next t ∧ t.time.ppsOut = false ∧
      t.out = .pin 0 0 :: s.out)) ∧
  (∀ (el : Nat) (s : State), let b := s.advance el
    let due := b.time.mode ≠ .free ∧ (b.time.lock = .locking ∨ b.time.lock = .locked) ∧ b.time.lastSample + 3000000000 ≤ b.ela
    (due → ∃ t, exec (.servoHoldover el) s = .next t ∧ t.time.lock = .holdover ∧ t.time.acc = b.time.acc) ∧
    (¬due → exec (.servoHoldover el) s = .next b)) ∧
  (∀ (n : Fin 256) (el : Nat) (s : State), let b := s.advance el
    (Tbl.find b.time.timers n.val = none → exec (.safelightTimerExpiry n el) s = .next b) ∧
    (∀ x, Tbl.find b.time.timers n.val = some x →
      (b.ela < x.next → exec (.safelightTimerExpiry n el) s = .next b) ∧
      (x.next ≤ b.ela → ∃ t y, exec (.safelightTimerExpiry n el) s = .next t ∧ Tbl.find t.time.timers n.val = some y ∧
        y.next = x.next + ((b.ela - x.next) / x.period + 1) * x.period ∧ y.period = x.period ∧ y.due = !b.pdOn 34))) ∧
  (∀ (tj : Byte) (crit : Bool) (s : State), s.tst.run = none →
    let warn := decide (sx (s.rf .SAFE_THERM 0 15 8) 8 ≤ sx tj.toNat 8) || crit
    ∃ t, exec (.thermalSample tj crit) s = .next t ∧ t.rf .SAFE_THERM 0 31 24 = tj.toNat ∧ t.rb .SAFE_THERM 0 23 = warn ∧
      (∀ f, f < 4 → t.rb .SAFE_FAN f 23 = (warn || s.rb .SAFE_THERM 0 22 || s.power.fanStale)) ∧
      (warn = true → s.rb .SAFE_THERM 0 23 = false → .chan2 S2_WARN tj.toNat ∈ t.out) ∧ t.mem = s.mem ∧ t.trust = s.trust) ∧
  (∀ (el : Nat) (s : State), let b := s.advance el
    (b.power.fanAt + 5000000000 ≤ b.ela → ∃ t, exec (.fanWriteTimeout el) s = .next t ∧ t.power.fanStale = true ∧
      (∀ f, f < 4 → t.rb .SAFE_FAN f 23 = true ∧ t.rf .SAFE_FAN f 31 24 = s.rf .SAFE_FAN f 31 24)) ∧
    (b.ela < b.power.fanAt + 5000000000 → exec (.fanWriteTimeout el) s = .next b))

/-- The JRNL block (R452, R462, R463): a commit is refused while one runs, when its parameter is bad, under PFAIL_N and without the
energy for it; else it starts, and its end programs the page, erases the sector or burns the step. `TRUST_SIGN` (R453, R454): a
signature starts, is refused by a locked root, and its end writes both signatures after the body.
The model's choices in it: log entries 156, 157, 158. -/
def Obligations.JournalBlockAndSigning : Prop :=
  (∀ (op : Nat) (i : Word → Nat → Instr) (v : Word) (sense : Nat) (s : State),
    (op = 1 ∧ i = Instr.jrnlProgram) ∨ (op = 2 ∧ i = Instr.jrnlErase) ∨ (op = 3 ∧ i = Instr.jrnlFuse) → s.trust.cut = none →
    let a := fld v 27 0
    let bad := (op = 1 ∧ a % 256 ≠ 0) ∨ (op = 2 ∧ a % 4096 ≠ 0) ∨ (op = 3 ∧ 63 < a)
    let mv := sense * s.rf .JRNL_HUP_CFG 0 31 20 / 256
    let energy := s.rf .JRNL_HUP_CFG 0 19 0 * mv ^ 2 / 2000000
    let short := s.rf .JRNL_HUP_CFG 0 31 20 = 0 ∨ energy < s.commitNeed (op != 1)
    let ends (r : Nat) (job : Option Commit) : Prop := ∃ t, exec (i v sense) s = .next t ∧ t.bus = .ok 0 ∧
      t.rf .JRNL_RESULT 0 31 29 = r ∧ t.trust.job = job ∧ t.trust.flash = s.trust.flash ∧ t.trust.otp = s.trust.otp
    (s.trust.job ≠ none → ends J_BUSY s.trust.job) ∧
    (s.trust.job = none → bad → ends J_BAD_PARAM none) ∧
    (s.trust.job = none → ¬bad → s.rb .JRNL_STAT 0 31 = true → ends J_PFAIL none) ∧
    (s.trust.job = none → ¬bad → s.rb .JRNL_STAT 0 31 = false → short → ends J_NO_HOLDUP none) ∧
    (s.trust.job = none → ¬bad → s.rb .JRNL_STAT 0 31 = false → ¬short →
      ends J_BUSY (some { op, addr := a, page := if op = 1 then s.jrnlBuf else [] }))) ∧
  (∀ (s : State) (j : Commit), s.trust.job = some j → s.trust.audits = [] →
    ∃ t, exec (.commitComplete true) s = .next t ∧ t.rf .JRNL_RESULT 0 31 29 = J_DONE ∧ t.trust.job = none ∧
      (j.op = 1 → t.trust.flash = Flash.progAll s.trust.flash j.addr j.page ∧ t.trust.otp = s.trust.otp) ∧
      (j.op = 2 → t.trust.flash = Flash.erase s.trust.flash j.addr 4096 ∧ t.trust.otp = s.trust.otp) ∧
      (j.op = 3 → t.trust.flash = s.trust.flash ∧ t.trust.otp = s.trust.otp ||| BitVec.ofNat 64 (2 ^ j.addr))) ∧
  (∀ (s : State) (j : Commit), s.trust.job = some j → s.trust.audits = [] →
    ∃ t, exec (.commitComplete false) s = .next t ∧ t.rf .JRNL_RESULT 0 31 29 = J_FLASH_ERR ∧ t.trust.job = none) ∧
  (∀ (ok : Bool) (s : State), s.trust.job = none → exec (.commitComplete ok) s = .next s) ∧
  (∀ s : State, s.tst.run = none → ∃ t, exec .pfailAssert s = .next t ∧ t.rb .JRNL_STAT 0 31 = true ∧
    (s.rb .JRNL_STAT 0 31 = false → t.rb .JRNL_STAT 0 30 = true ∧ .chan2 S2_PFAIL 1 ∈ t.out) ∧ t.trust = s.trust) ∧
  (∀ s : State, s.trust.audits = [] → ∃ t, exec .pfailRelease s = .next t ∧ t.rb .JRNL_STAT 0 31 = false ∧ t.trust = s.trust ∧
    t.rb .JRNL_STAT 0 30 = s.rb .JRNL_STAT 0 30) ∧
  (∀ (v : Word) (s : State), let busy := s.rf .TRUST_SIGN 0 31 30 = 1
    (busy → exec (.trustSign v) s = .next { s with bus := .ok 0 }) ∧
    (¬busy → ∃ t, exec (.trustSign v) s = .next t ∧ t.bus = .ok 0 ∧ t.rf .TRUST_SIGN 0 25 0 = fld v 25 0 ∧ t.mem = s.mem ∧
      (bit v 29 = true → s.rb .TRUST_STAT 0 30 = true → t.rf .TRUST_SIGN 0 31 30 = 3) ∧
      (bit v 29 = true → s.rb .TRUST_STAT 0 30 = false → t.rf .TRUST_SIGN 0 31 30 = 1 ∧ t.rb .TRUST_SIGN 0 29 = true) ∧
      (bit v 29 = false → t.rf .TRUST_SIGN 0 31 30 = s.rf .TRUST_SIGN 0 31 30))) ∧
  (∀ s : State, s.rf .TRUST_SIGN 0 31 30 ≠ 1 → exec .signComplete s = .next s) ∧
  (∀ s : State, s.rf .TRUST_SIGN 0 31 30 = 1 → let a := s.rf .TRUST_SIGN 0 25 0 * 2 ^ 14
    (s.rb .TRUST_STAT 0 30 = true → ∃ t, exec .signComplete s = .next t ∧ t.rf .TRUST_SIGN 0 31 30 = 3 ∧ t.mem = s.mem) ∧
    (s.rb .TRUST_STAT 0 30 = false → ∃ t, exec .signComplete s = .next t ∧ t.rf .TRUST_SIGN 0 31 30 = 2 ∧ t.rb .TRUST_SIGN 0 29 = false ∧
      Mem.read t.mem (a + 256) 64 = identitySign false (Mem.read s.mem a 256) ∧
      Mem.read t.mem (a + 320) 3309 = identitySign true (Mem.read s.mem a 256) ∧
      (∀ x, (x < a + 256 ∨ a + 3629 ≤ x) → Mem.get t.mem x = Mem.get s.mem x)))

/-- The Test strip (R471, R474, R479, R483): a test starts, is aborted, ends with its signature and verdict; the schedule and the retry
of a refused record.
The model's choices in it: log entries 175, 184. -/
def Obligations.TestStripEvents : Prop :=
  (∀ (p : Fin 16) (v : Word) (s : State), let u := fld v 6 0
    (bit v 31 = true → u ≤ 89 → Tbl.has s.tst.pos p.val = false → (s.tst.pos.any fun kv => kv.2 == u) = false →
      ∃ t, exec (.tstripGo p v) s = .next t ∧ t.bus = .ok 0 ∧ t.posState p.val = 1 ∧ t.rb .TSTRIP_CTRL p.val 31 = true ∧
        t.rf .TSTRIP_CTRL p.val 6 0 = u ∧ Tbl.find t.tst.pos p.val = some u ∧
        t.reg .TSTRIP_GOLD_LO p.val = BitVec.ofNat 32 (Config.golden (unitKind u)).toNat ∧
        t.reg .TSTRIP_GOLD_HI p.val = BitVec.ofNat 32 ((Config.golden (unitKind u)).toNat / 2 ^ 32)) ∧
    (bit v 31 = false → ∃ t, exec (.tstripGo p v) s = .next t ∧ t.bus = .ok 0 ∧ t.rf .TSTRIP_CTRL p.val 6 0 = u ∧
      t.reg .TSTRIP_GOLD_LO p.val = goldenHalf u false ∧ t.reg .TSTRIP_GOLD_HI p.val = goldenHalf u true ∧
      t.rb .TSTRIP_CTRL p.val 31 = s.rb .TSTRIP_CTRL p.val 31 ∧ t.tst = s.tst)) ∧
  (∀ (p : Fin 16) (s : State), s.tst.run = none →
    (Tbl.find s.tst.pos p.val = none → exec (.tstripAbort p) s = .next { s with bus := .ok 0 }) ∧
    (∀ u, Tbl.find s.tst.pos p.val = some u → ∃ t, exec (.tstripAbort p) s = .next t ∧ t.bus = .ok 0 ∧ t.posState p.val = 3 ∧
      t.rb .TSTRIP_CTRL p.val 31 = false ∧ Tbl.find t.tst.pos p.val = none ∧ t.tst.failed = s.tst.failed ∧
      t.tst.tested = s.tst.tested)) ∧
  (∀ (p : Fin 16) (sig : DWord) (mf : Bool) (s : State), s.tst.run = none →
    (Tbl.find s.tst.pos p.val = none → exec (.unitTestDone p sig mf) s = .next s) ∧
    (∀ u, Tbl.find s.tst.pos p.val = some u → let bad := sig != Config.golden (unitKind u)
      ∃ t, exec (.unitTestDone p sig mf) s = .next t ∧ t.posState p.val = 2 ∧ t.rb .TSTRIP_STAT p.val 29 = mf ∧
        t.rb .TSTRIP_STAT p.val 28 = bad ∧ t.rb .TSTRIP_CTRL p.val 31 = false ∧ Tbl.find t.tst.pos p.val = none ∧
        t.reg .TSTRIP_SIG_LO p.val = sig.setWidth 32 ∧ Tbl.get t.tst.sigs 0 u = sig ∧ t.tst.tested.contains u = true ∧
        t.tst.failed.contains u = (mf || bad) ∧ ((mf || bad) = false → t.tst.fenced.contains u = false))) ∧
  (∀ (el : Nat) (s : State), let b := s.advance el
    ((b.tst.period = 0 ∨ b.ela < b.tst.nextAt) → exec (.testScheduleExpiry el) s = .next b) ∧
    (b.tst.period ≠ 0 → b.tst.nextAt ≤ b.ela →
      let p := b.tst.period * 3600000000000
      let c := b.updTst fun t => { t with nextAt := t.nextAt + ((b.ela - t.nextAt) / p + 1) * p }
      (b.tst.run ≠ none → exec (.testScheduleExpiry el) s = .next c) ∧
      (b.tst.run = none → exec (.testScheduleExpiry el) s = .next (c.startRun 1 (List.range 88))))) ∧
  (∀ (el : Nat) (s : State), let b := s.advance el
    (b.tst.retry = none → exec (.testResultRetry el) s = .next b) ∧
    (∀ at' p, b.tst.retry = some (at', p) →
      (b.trust.job ≠ none → exec (.testResultRetry el) s = .next b) ∧
      (∀ u r, b.trust.job = none → b.commitCmdRec REC_TEST 4 p = (u, r) →
        (r = 0 → exec (.testResultRetry el) s = .next (u.updTst fun t => { t with retry := none }).powerDown) ∧
        (r ≠ 0 → u.ela < at' + 1000000000 → exec (.testResultRetry el) s = .next u) ∧
        (r ≠ 0 → at' + 1000000000 ≤ u.ela →
          exec (.testResultRetry el) s = .next ((u.cntTst T_JRNL_LOST).updTst fun t => { t with retry := none }).powerDown))))
end

