-- ==== Sys2Proof/Laws/Arbiter.lean ====
section
/-! SUPPORT. Round robin (R29) and lists put in order. -/

namespace Sys2Proof.Machine

/-- A winner is a requester. -/
theorem rotateIn_mem {p : Nat} {l : List Nat} {w : Nat} (h : rotateIn p l = some w) : w ∈ l := by
  unfold rotateIn at h
  split at h
  · next x hx => exact Option.some.inj h ▸ List.mem_of_find?_eq_some hx
  · exact List.mem_of_head? h

/-- There is a winner where there is a requester. -/
theorem rotateIn_none {p : Nat} {l : List Nat} : rotateIn p l = none ↔ l = [] := by
  unfold rotateIn
  split
  · next x hx => simp [List.ne_nil_of_mem (List.mem_of_find?_eq_some hx)]
  · simp

/-- From the pointer on, the first requester wins. -/
theorem rotateIn_ge {p : Nat} {l : List Nat} {w x : Nat} (h : rotateIn p l = some w) (hl : l.Pairwise (· < ·)) (hw : p ≤ w)
    (hx : x ∈ l) (hp : p ≤ x) : w ≤ x := by
  unfold rotateIn at h
  cases hf : l.find? fun i => decide (p ≤ i) with
  | none => exact absurd (List.find?_eq_none.mp hf x hx) (by simpa using hp)
  | some v =>
    rw [hf] at h
    obtain rfl := Option.some.inj h
    obtain ⟨-, a, b, rfl, ha⟩ := List.find?_eq_some_iff_append.mp hf
    rcases List.mem_append.mp hx with hm | hm
    · exact absurd hp (by simpa using ha x hm)
    · rcases List.mem_cons.mp hm with rfl | hm
      · exact Nat.le_refl _
      · exact Nat.le_of_lt ((List.pairwise_cons.mp (List.pairwise_append.mp hl).2.1).1 x hm)

theorem mem_insertBy {le : Nat → Nat → Bool} {x y : Nat} {l : List Nat} : y ∈ insertBy le x l ↔ y = x ∨ y ∈ l := by
  induction l with
  | nil => simp [insertBy]
  | cons z l ih =>
    unfold insertBy
    split
    · simp
    · simp [ih, or_left_comm]

/-- Putting a list in order keeps its members. -/
theorem mem_sortBy {le : Nat → Nat → Bool} {y : Nat} {l : List Nat} : y ∈ sortBy le l ↔ y ∈ l := by
  unfold sortBy
  induction l with
  | nil => simp
  | cons x l ih => simp [mem_insertBy, ih]

end Sys2Proof.Machine
end

