-- ==== Sys2Proof/Laws/Bits.lean ====
section
/-! SUPPORT. Bit fields of words: a field written reads back, and other bits stay. -/

namespace Sys2Proof.Machine

theorem bit_eq_getLsbD (w : Word) (i : Nat) : bit w i = w.getLsbD i := rfl

theorem bit_and (a b : Word) (i : Nat) : bit (a &&& b) i = (bit a i && bit b i) := by simp [bit_eq_getLsbD]
theorem bit_or (a b : Word) (i : Nat) : bit (a ||| b) i = (bit a i || bit b i) := by simp [bit_eq_getLsbD]
theorem bit_not (a : Word) (i : Nat) : bit (~~~ a) i = (decide (i < 32) && !bit a i) := by simp [bit_eq_getLsbD]
theorem bit_high (w : Word) {i : Nat} (h : 32 ≤ i) : bit w i = false := by
  rw [bit_eq_getLsbD]
  exact BitVec.getLsbD_of_ge w i h

/-- Bit `i` of a mask. -/
theorem bit_maskW (hi lo i : Nat) (h : lo ≤ hi) : bit (maskW hi lo) i = decide (i < 32 ∧ lo ≤ i ∧ i ≤ hi) := by
  unfold bit maskW
  rw [BitVec.toNat_ofNat, Nat.testBit_mod_two_pow, Nat.testBit_mul_two_pow, Nat.testBit_two_pow_sub_one]
  by_cases h1 : i < 32 <;> by_cases h2 : lo ≤ i <;> by_cases h3 : i ≤ hi <;> simp [h1, h2, h3] <;> omega

/-- Bit `i` of a word with a field replaced. -/
theorem bit_putF (w : Word) (hi lo v i : Nat) (h : lo ≤ hi) :
    bit (putF w hi lo v) i = if i < 32 ∧ lo ≤ i ∧ i ≤ hi then v.testBit (i - lo) else bit w i := by
  unfold putF
  rw [bit_or, bit_and, bit_not, bit_maskW _ _ _ h]
  have hv : bit (BitVec.ofNat 32 (v % 2 ^ (hi + 1 - lo) * 2 ^ lo)) i
      = (decide (i < 32 ∧ lo ≤ i ∧ i ≤ hi) && v.testBit (i - lo)) := by
    unfold bit
    rw [BitVec.toNat_ofNat, Nat.testBit_mod_two_pow, Nat.testBit_mul_two_pow, Nat.testBit_mod_two_pow]
    by_cases h1 : i < 32 <;> by_cases h2 : lo ≤ i <;> by_cases h3 : i ≤ hi <;> simp [h1, h2, h3] <;> omega
  rw [hv]
  by_cases hc : i < 32 ∧ lo ≤ i ∧ i ≤ hi
  · simp [hc]
  · rw [if_neg hc, decide_eq_false hc]
    by_cases h32 : i < 32
    · simp [h32]
    · simp [h32, bit_high w (Nat.le_of_not_lt h32)]

theorem bit_putB (w : Word) (i j : Nat) (b : Bool) (h : i < 32) : bit (putB w i b) j = if j = i then b else bit w j := by
  unfold putB
  rw [bit_putF _ _ _ _ _ (Nat.le_refl i)]
  by_cases hj : j = i
  · subst hj
    cases b <;> simp [h]
  · rw [if_neg (by omega), if_neg hj]

/-- Bit `k` of a field. -/
theorem testBit_fld (w : Word) (hi lo k : Nat) : (fld w hi lo).testBit k = (decide (k < hi + 1 - lo) && bit w (lo + k)) := by
  unfold fld bits bit
  rw [Nat.testBit_mod_two_pow, Nat.testBit_shiftRight]

/-- A field is what its bits are. -/
theorem fld_congr {w v : Word} {hi lo : Nat} (h : ∀ i, lo ≤ i → i ≤ hi → bit w i = bit v i) : fld w hi lo = fld v hi lo := by
  apply Nat.eq_of_testBit_eq
  intro k
  rw [testBit_fld, testBit_fld]
  by_cases hk : k < hi + 1 - lo
  · rw [h (lo + k) (by omega) (by omega)]
  · simp [hk]

/-- A field written reads back. -/
theorem fld_putF_same (w : Word) {hi lo v : Nat} (h : lo ≤ hi) (h32 : hi < 32) : fld (putF w hi lo v) hi lo = v % 2 ^ (hi + 1 - lo) := by
  apply Nat.eq_of_testBit_eq
  intro k
  rw [testBit_fld, bit_putF _ _ _ _ _ h, Nat.testBit_mod_two_pow]
  by_cases hk : k < hi + 1 - lo
  · rw [if_pos (by omega)]
    simp
  · simp [hk]

/-- Another field reads as before. -/
theorem fld_putF_ne (w : Word) {hi lo v hi' lo' : Nat} (h : lo ≤ hi) (hd : hi' < lo ∨ hi < lo') :
    fld (putF w hi lo v) hi' lo' = fld w hi' lo' := by
  apply fld_congr
  intro i h1 h2
  rw [bit_putF _ _ _ _ _ h, if_neg (by omega)]

theorem bit_putF_ne (w : Word) {hi lo v i : Nat} (h : lo ≤ hi) (hd : i < lo ∨ hi < i) : bit (putF w hi lo v) i = bit w i := by
  rw [bit_putF _ _ _ _ _ h, if_neg (by omega)]

theorem fld_putB_ne (w : Word) {i hi lo : Nat} {b : Bool} (hd : hi < i ∨ i < lo) : fld (putB w i b) hi lo = fld w hi lo :=
  fld_putF_ne w (Nat.le_refl i) hd

theorem fld_lt (w : Word) (hi lo : Nat) : fld w hi lo < 2 ^ (hi + 1 - lo) := Nat.mod_lt _ (by positivity)

@[simp] theorem bit_zero (i : Nat) : bit 0 i = false := by simp [bit]
@[simp] theorem fld_zero (hi lo : Nat) : fld 0 hi lo = 0 := by simp [fld, bits]

end Sys2Proof.Machine
end

