-- ==== Sys2Proof/Laws/Table.lean ====
section
/-! SUPPORT. Sparse tables: reads after writes, and that every operation keeps the keys strictly rising. -/

namespace Sys2Proof.Machine

variable {α : Type}

@[simp] theorem Tbl.find_nil (q : Nat) : Tbl.find ([] : Tbl α) q = none := rfl
@[simp] theorem Tbl.get_nil (d : α) (q : Nat) : Tbl.get ([] : Tbl α) d q = d := rfl

/-! ### Reads after writes -/

@[simp] theorem Tbl.find_set_same (t : Tbl α) (q : Nat) (v : α) : Tbl.find (Tbl.set t q v) q = some v := by
  induction t with
  | nil => simp [Tbl.set, Tbl.find]
  | cons x r ih =>
    obtain ⟨k, w⟩ := x
    simp only [Tbl.set]
    split
    · simp [Tbl.find]
    · split
      · simp [Tbl.find]
      · simp [Tbl.find, *]

theorem Tbl.find_set_ne (t : Tbl α) {q a : Nat} (v : α) (h : a ≠ q) : Tbl.find (Tbl.set t q v) a = Tbl.find t a := by
  induction t with
  | nil => simp [Tbl.set, Tbl.find, Ne.symm h]
  | cons x r ih =>
    obtain ⟨k, w⟩ := x
    simp only [Tbl.set]
    split
    · simp [Tbl.find, Ne.symm h]
    · split
      · rename_i hk
        simp [Tbl.find, Ne.symm h, hk ▸ Ne.symm h]
      · simp [Tbl.find, ih]

@[simp] theorem Tbl.get_set_same (t : Tbl α) (d v : α) (q : Nat) : Tbl.get (Tbl.set t q v) d q = v := by simp [Tbl.get]
theorem Tbl.get_set_ne (t : Tbl α) (d v : α) {q a : Nat} (h : a ≠ q) : Tbl.get (Tbl.set t q v) d a = Tbl.get t d a := by
  simp [Tbl.get, Tbl.find_set_ne t v h]

@[simp] theorem Tbl.find_del_same (t : Tbl α) (q : Nat) : Tbl.find (Tbl.del t q) q = none := by
  induction t with
  | nil => rfl
  | cons x r ih =>
    obtain ⟨k, w⟩ := x
    simp only [Tbl.del]
    split
    · exact ih
    · simp [Tbl.find, *]

theorem Tbl.find_del_ne (t : Tbl α) {q a : Nat} (h : a ≠ q) : Tbl.find (Tbl.del t q) a = Tbl.find t a := by
  induction t with
  | nil => rfl
  | cons x r ih =>
    obtain ⟨k, w⟩ := x
    simp only [Tbl.del]
    split
    · rename_i hk
      simp [Tbl.find, ih, hk ▸ Ne.symm h]
    · simp [Tbl.find, ih]

@[simp] theorem Tbl.get_del_same (t : Tbl α) (d : α) (q : Nat) : Tbl.get (Tbl.del t q) d q = d := by simp [Tbl.get]
theorem Tbl.get_del_ne (t : Tbl α) (d : α) {q a : Nat} (h : a ≠ q) : Tbl.get (Tbl.del t q) d a = Tbl.get t d a := by
  simp [Tbl.get, Tbl.find_del_ne t h]

@[simp] theorem Tbl.get_updD_same (t : Tbl α) (d : α) (q : Nat) (f : α → α) :
    Tbl.get (Tbl.updD t d q f) d q = f (Tbl.get t d q) := by simp [Tbl.updD]
theorem Tbl.get_updD_ne (t : Tbl α) (d : α) {q a : Nat} (f : α → α) (h : a ≠ q) :
    Tbl.get (Tbl.updD t d q f) d a = Tbl.get t d a := Tbl.get_set_ne t d _ h

theorem Tbl.find_upd_same (t : Tbl α) (q : Nat) (f : α → α) : Tbl.find (Tbl.upd t q f) q = (Tbl.find t q).map f := by
  unfold Tbl.upd
  split
  · simp [*]
  · simp [*]
theorem Tbl.find_upd_ne (t : Tbl α) {q a : Nat} (f : α → α) (h : a ≠ q) : Tbl.find (Tbl.upd t q f) a = Tbl.find t a := by
  unfold Tbl.upd
  split
  · exact Tbl.find_set_ne t _ h
  · rfl

@[simp] theorem Tbl.find_mapv (t : Tbl α) (f : Nat → α → α) (q : Nat) : Tbl.find (Tbl.mapv t f) q = (Tbl.find t q).map (f q) := by
  induction t with
  | nil => rfl
  | cons x r ih =>
    obtain ⟨k, w⟩ := x
    simp only [Tbl.mapv, List.map_cons, Tbl.find] at ih ⊢
    split
    · subst_vars
      rfl
    · exact ih

/-- A kept key reads as before, when the condition speaks of keys alone. -/
theorem Tbl.find_keep (t : Tbl α) (p : Nat → Bool) (q : Nat) :
    Tbl.find (Tbl.keep t fun k _ => p k) q = if p q then Tbl.find t q else none := by
  induction t with
  | nil => simp [Tbl.keep]
  | cons x r ih =>
    obtain ⟨k, w⟩ := x
    simp only [Tbl.keep, List.filter_cons] at ih ⊢
    by_cases hk : k = q
    · subst hk
      cases hp : p k
      · simp [hp, ih]
      · simp [Tbl.find]
    · cases p k
      · simp [ih, Tbl.find, hk]
      · simp [ih, Tbl.find, hk]

/-! ### Strictly rising keys -/

/-- Every key of the table lies above a bound. -/
def Tbl.above (t : Tbl α) (b : Nat) : Prop := ∀ x ∈ t, b < x.1

theorem Tbl.wf_cons {k : Nat} {w : α} {r : Tbl α} : Tbl.wf ((k, w) :: r) = true ↔ Tbl.above r k ∧ Tbl.wf r = true := by
  induction r generalizing k w with
  | nil => simp [Tbl.wf, Tbl.above]
  | cons x r ih =>
    obtain ⟨l, y⟩ := x
    rw [Tbl.wf, Bool.and_eq_true, decide_eq_true_eq]
    constructor
    · rintro ⟨h1, h2⟩
      refine ⟨?_, h2⟩
      intro z hz
      rcases List.mem_cons.mp hz with rfl | hz
      · exact h1
      · exact Nat.lt_trans h1 ((ih.mp h2).1 z hz)
    · rintro ⟨h1, h2⟩
      exact ⟨h1 (l, y) (by simp), h2⟩

theorem Tbl.above_set {t : Tbl α} {b q : Nat} {v : α} (h : Tbl.above t b) (hq : b < q) : Tbl.above (Tbl.set t q v) b := by
  induction t with
  | nil => simpa [Tbl.set, Tbl.above] using hq
  | cons x r ih =>
    obtain ⟨k, w⟩ := x
    have hr : Tbl.above r b := fun z hz => h z (by simp [hz])
    simp only [Tbl.set]
    split
    · intro z hz
      rcases List.mem_cons.mp hz with rfl | hz
      · exact hq
      · exact h z hz
    · split
      · intro z hz
        rcases List.mem_cons.mp hz with rfl | hz
        · exact hq
        · exact hr z hz
      · intro z hz
        rcases List.mem_cons.mp hz with rfl | hz
        · exact h _ (by simp)
        · exact ih hr z hz

theorem Tbl.wf_set {t : Tbl α} (q : Nat) (v : α) (h : Tbl.wf t = true) : Tbl.wf (Tbl.set t q v) = true := by
  induction t with
  | nil => rfl
  | cons x r ih =>
    obtain ⟨k, w⟩ := x
    have hx := Tbl.wf_cons.mp h
    simp only [Tbl.set]
    split
    · rename_i hk
      refine Tbl.wf_cons.mpr ⟨?_, h⟩
      intro z hz
      rcases List.mem_cons.mp hz with rfl | hz
      · exact hk
      · exact Nat.lt_trans hk (hx.1 z hz)
    · split
      · rename_i hk
        exact Tbl.wf_cons.mpr (hk ▸ hx)
      · exact Tbl.wf_cons.mpr ⟨Tbl.above_set hx.1 (by omega), ih hx.2⟩

theorem Tbl.above_filter {t : Tbl α} {b : Nat} (p : Nat × α → Bool) (h : Tbl.above t b) : Tbl.above (t.filter p) b :=
  fun z hz => h z (List.mem_filter.mp hz).1

theorem Tbl.wf_filter {t : Tbl α} (p : Nat × α → Bool) (h : Tbl.wf t = true) : Tbl.wf (t.filter p) = true := by
  induction t with
  | nil => rfl
  | cons x r ih =>
    obtain ⟨k, w⟩ := x
    have hx := Tbl.wf_cons.mp h
    rw [List.filter_cons]
    split
    · exact Tbl.wf_cons.mpr ⟨Tbl.above_filter p hx.1, ih hx.2⟩
    · exact ih hx.2

theorem Tbl.wf_keep {t : Tbl α} (p : Nat → α → Bool) (h : Tbl.wf t = true) : Tbl.wf (Tbl.keep t p) = true := Tbl.wf_filter _ h

theorem Tbl.del_eq_filter (t : Tbl α) (q : Nat) : Tbl.del t q = t.filter fun x => x.1 != q := by
  induction t with
  | nil => rfl
  | cons x r ih =>
    obtain ⟨k, w⟩ := x
    simp only [Tbl.del, List.filter_cons, ih]
    by_cases hk : k = q
    · simp [hk]
    · simp [hk]

theorem Tbl.wf_del {t : Tbl α} (q : Nat) (h : Tbl.wf t = true) : Tbl.wf (Tbl.del t q) = true := by
  rw [Tbl.del_eq_filter]
  exact Tbl.wf_filter _ h

theorem Tbl.wf_updD {t : Tbl α} (d : α) (q : Nat) (f : α → α) (h : Tbl.wf t = true) : Tbl.wf (Tbl.updD t d q f) = true :=
  Tbl.wf_set q _ h

/-- What is in a table after a write: the new pair, or an old one. -/
theorem Tbl.mem_set {t : Tbl α} {q : Nat} {v : α} {x : Nat × α} (h : x ∈ Tbl.set t q v) : x = (q, v) ∨ x ∈ t := by
  induction t with
  | nil => simpa [Tbl.set] using h
  | cons y r ih =>
    obtain ⟨k, w⟩ := y
    simp only [Tbl.set] at h
    split at h
    · simpa using h
    · split at h
      · rcases List.mem_cons.mp h with h | h
        · exact .inl h
        · exact .inr (by simp [h])
      · rcases List.mem_cons.mp h with h | h
        · exact .inr (by simp [h])
        · rcases ih h with h | h
          · exact .inl h
          · exact .inr (by simp [h])

end Sys2Proof.Machine
end

