-- ==== Sys2Proof/Laws/Memory.lean ====
section
/-! SUPPORT. Memory: a read after a write, that a write leaves every other byte alone, and that every memory operation
keeps the canonical form. -/

namespace Sys2Proof.Machine

theorem Mem.get_eq (m : List Host.Cell) (a : Nat) : Mem.get m a = Tbl.get m 0 a := by
  induction m with
  | nil => rfl
  | cons x r ih =>
    obtain ⟨k, v⟩ := x
    simp only [Mem.get, Tbl.get, Tbl.find] at ih ⊢
    split
    · rfl
    · exact ih

/-! ### One byte -/

@[simp] theorem Mem.get_put_same (m : List Host.Cell) (a : Nat) (b : Byte) : Mem.get (Mem.put m a b) a = b := by
  unfold Mem.put
  split
  · simp [Mem.get_eq, *]
  · simp [Mem.get_eq]

theorem Mem.get_put_ne (m : List Host.Cell) {a x : Nat} (b : Byte) (h : x ≠ a) : Mem.get (Mem.put m a b) x = Mem.get m x := by
  unfold Mem.put
  split
  · simp [Mem.get_eq, Tbl.get_del_ne m _ h]
  · simp [Mem.get_eq, Tbl.get_set_ne m _ _ h]

/-! ### Runs of bytes -/

theorem Mem.get_write_out (l : List Byte) (m : List Host.Cell) {a x : Nat} (h : x < a ∨ a + l.length ≤ x) :
    Mem.get (Mem.write m a l) x = Mem.get m x := by
  induction l generalizing m a with
  | nil => rfl
  | cons b r ih =>
    simp only [List.length_cons] at h
    rw [Mem.write, ih _ (by omega), Mem.get_put_ne m b (by omega)]

theorem Mem.get_write_in (l : List Byte) (m : List Host.Cell) {a x : Nat} (h1 : a ≤ x) (h2 : x < a + l.length) :
    Mem.get (Mem.write m a l) x = nth l 0 (x - a) := by
  induction l generalizing m a with
  | nil => simp at h2; omega
  | cons b r ih =>
    simp only [List.length_cons] at h2
    rw [Mem.write]
    by_cases hx : x = a
    · subst hx
      rw [Mem.get_write_out r _ (by omega)]
      simp [nth]
    · rw [ih _ (by omega) (by omega)]
      have hs : x - a = (x - (a + 1)) + 1 := by omega
      simp [nth, hs]

theorem Mem.length_read (m : List Host.Cell) (a n : Nat) : (Mem.read m a n).length = n := by
  induction n generalizing a with
  | zero => rfl
  | succ n ih => simp [Mem.read, ih]

/-- A read depends on the bytes of its range alone. -/
theorem Mem.read_congr {m m' : List Host.Cell} {a n : Nat} (h : ∀ x, a ≤ x → x < a + n → Mem.get m x = Mem.get m' x) :
    Mem.read m a n = Mem.read m' a n := by
  induction n generalizing a with
  | zero => rfl
  | succ n ih =>
    rw [Mem.read, Mem.read, h a (by omega) (by omega), ih fun x h1 h2 => h x (by omega) (by omega)]

theorem Mem.read_write_same (m : List Host.Cell) (a : Nat) (l : List Byte) : Mem.read (Mem.write m a l) a l.length = l := by
  induction l generalizing m a with
  | nil => rfl
  | cons b r ih =>
    rw [List.length_cons, Mem.read, Mem.write, Mem.get_write_out r _ (by omega), Mem.get_put_same, ih]

theorem Mem.read_write_out (m : List Host.Cell) {a x n : Nat} (l : List Byte) (h : x + n ≤ a ∨ a + l.length ≤ x) :
    Mem.read (Mem.write m a l) x n = Mem.read m x n :=
  Mem.read_congr fun y h1 h2 => Mem.get_write_out l m (by omega)

theorem Mem.get_clear (m : List Host.Cell) (lo n x : Nat) :
    Mem.get (Mem.clear m lo n) x = if lo ≤ x ∧ x < lo + n then 0 else Mem.get m x := by
  unfold Mem.clear
  rw [Mem.get_eq, Mem.get_eq, Tbl.get, Tbl.find_keep, Tbl.get]
  by_cases h : lo ≤ x ∧ x < lo + n
  · have : decide (x < lo ∨ lo + n ≤ x) = false := by simp; omega
    simp [this, h]
  · have : decide (x < lo ∨ lo + n ≤ x) = true := by simp; omega
    simp only [this, if_true, if_neg h]

/-! ### The canonical form -/

theorem Mem.wf_iff {m : List Host.Cell} : Mem.wf m = true ↔ Tbl.wf m = true ∧ ∀ x ∈ m, x.2 ≠ 0 := by
  simp [Mem.wf]

theorem Mem.wf_nil : Mem.wf [] = true := rfl

theorem Mem.wf_filter {m : List Host.Cell} (p : Host.Cell → Bool) (h : Mem.wf m = true) : Mem.wf (m.filter p) = true := by
  rw [Mem.wf_iff] at h ⊢
  exact ⟨Tbl.wf_filter p h.1, fun x hx => h.2 x (List.mem_filter.mp hx).1⟩

theorem Mem.wf_put {m : List Host.Cell} (a : Nat) (b : Byte) (h : Mem.wf m = true) : Mem.wf (Mem.put m a b) = true := by
  unfold Mem.put
  split
  · rw [Tbl.del_eq_filter]
    exact Mem.wf_filter _ h
  · rename_i hb
    rw [Mem.wf_iff] at h ⊢
    refine ⟨Tbl.wf_set a b h.1, fun x hx => ?_⟩
    rcases Tbl.mem_set hx with rfl | hx
    · exact hb
    · exact h.2 x hx

theorem Mem.wf_write {m : List Host.Cell} (a : Nat) (l : List Byte) (h : Mem.wf m = true) : Mem.wf (Mem.write m a l) = true := by
  induction l generalizing m a with
  | nil => exact h
  | cons b r ih => exact ih (a + 1) (Mem.wf_put a b h)

theorem Mem.wf_clear {m : List Host.Cell} (lo n : Nat) (h : Mem.wf m = true) : Mem.wf (Mem.clear m lo n) = true :=
  Mem.wf_filter _ h

end Sys2Proof.Machine
end

