-- ==== Sys2Proof/Laws/State.lean ====
section
/-! SUPPORT. Registers, counters and the named updates of the state: what each changes, field by field. -/

namespace Sys2Proof.Machine

/-! ### Keys of registers -/

theorem RegName.all_code (n : RegName) : RegName.all[n.code]? = some n := by cases n <;> rfl

theorem RegName.code_inj {n m : RegName} (h : n.code = m.code) : n = m := by
  have hn := RegName.all_code n
  rw [h, RegName.all_code m] at hn
  exact (Option.some.inj hn).symm

theorem regKey_inj {n m : RegName} {i j : Nat} (hi : i < 2 ^ 20) (hj : j < 2 ^ 20) (h : regKey n i = regKey m j) : n = m ∧ i = j := by
  unfold regKey at h
  have hc : n.code = m.code := by omega
  exact ⟨RegName.code_inj hc, by omega⟩

theorem regKey_ne_of_name {n m : RegName} {i j : Nat} (hi : i < 2 ^ 20) (hj : j < 2 ^ 20) (h : n ≠ m) : regKey n i ≠ regKey m j :=
  fun e => h (regKey_inj hi hj e).1

theorem regKey_ne_of_idx {n : RegName} {i j : Nat} (h : i ≠ j) : regKey n i ≠ regKey n j := by
  unfold regKey
  omega

/-! ### Registers and counters -/

@[simp] theorem State.reg_setReg_same (s : State) (n : RegName) (i : Nat) (v : Word) : (s.setReg n i v).reg n i = v := by
  simp [State.reg, State.setReg]
theorem State.reg_setReg_ne (s : State) {n m : RegName} {i j : Nat} (v : Word) (h : regKey m j ≠ regKey n i) :
    (s.setReg n i v).reg m j = s.reg m j := Tbl.get_set_ne s.regs _ v h
theorem State.reg_setReg_idx (s : State) {n : RegName} {i j : Nat} (v : Word) (h : j ≠ i) : (s.setReg n i v).reg n j = s.reg n j :=
  s.reg_setReg_ne v (regKey_ne_of_idx h)
theorem State.reg_setReg_name (s : State) {n m : RegName} {i j : Nat} (v : Word) (hi : i < 2 ^ 20) (hj : j < 2 ^ 20) (h : m ≠ n) :
    (s.setReg n i v).reg m j = s.reg m j := s.reg_setReg_ne v (regKey_ne_of_name hj hi h)

theorem State.rf_setRf_same (s : State) (n : RegName) (i : Nat) {hi lo : Nat} (v : Nat) (h : lo ≤ hi) (h32 : hi < 32) :
    (s.setRf n i hi lo v).rf n i hi lo = v % 2 ^ (hi + 1 - lo) := by
  simp [State.rf, State.setRf, fld_putF_same _ h h32]
theorem State.rf_setRf_ne (s : State) (n : RegName) (i : Nat) {hi lo hi' lo' : Nat} (v : Nat) (h : lo ≤ hi) (hd : hi' < lo ∨ hi < lo') :
    (s.setRf n i hi lo v).rf n i hi' lo' = s.rf n i hi' lo' := by
  simp [State.rf, State.setRf, fld_putF_ne _ h hd]
theorem State.rb_setRb_same (s : State) (n : RegName) (i : Nat) {b : Nat} (v : Bool) (h : b < 32) : (s.setRb n i b v).rb n i b = v := by
  simp [State.rb, State.setRb, bit_putB _ _ _ _ h]
theorem State.rb_setRb_ne (s : State) (n : RegName) (i : Nat) {b c : Nat} (v : Bool) (h : b < 32) (hc : c ≠ b) :
    (s.setRb n i b v).rb n i c = s.rb n i c := by
  simp [State.rb, State.setRb, bit_putB _ _ _ _ h, hc]

@[simp] theorem State.cnt_bump_same (s : State) (n : RegName) (i k : Nat) : (s.bump n i k).cnt n i = s.cnt n i + BitVec.ofNat 64 k := by
  simp [State.cnt, State.bump]
theorem State.cnt_bump_ne (s : State) {n m : RegName} {i j : Nat} (k : Nat) (h : regKey m j ≠ regKey n i) :
    (s.bump n i k).cnt m j = s.cnt m j := Tbl.get_set_ne s.cnts _ _ h

/-! ### The canonical form -/

theorem State.canon_reset : State.reset.Canon := ⟨rfl, rfl, rfl, rfl⟩

theorem State.canon_setReg {s : State} (h : s.Canon) (n : RegName) (i : Nat) (v : Word) : (s.setReg n i v).Canon :=
  ⟨h.mem, h.csram, Tbl.wf_set _ v h.regs, h.cnts⟩
theorem State.canon_setRf {s : State} (h : s.Canon) (n : RegName) (i hi lo v : Nat) : (s.setRf n i hi lo v).Canon :=
  State.canon_setReg h n i _
theorem State.canon_setRb {s : State} (h : s.Canon) (n : RegName) (i b : Nat) (v : Bool) : (s.setRb n i b v).Canon :=
  State.canon_setReg h n i _
theorem State.canon_rstReg {s : State} (h : s.Canon) (n : RegName) (i : Nat) : (s.rstReg n i).Canon :=
  ⟨h.mem, h.csram, Tbl.wf_del _ h.regs, h.cnts⟩
theorem State.canon_rstRegs {s : State} (h : s.Canon) (p : RegName → Nat → Bool) : (s.rstRegs p).Canon :=
  ⟨h.mem, h.csram, Tbl.wf_filter _ h.regs, Tbl.wf_filter _ h.cnts⟩
theorem State.canon_bump {s : State} (h : s.Canon) (n : RegName) (i k : Nat) : (s.bump n i k).Canon :=
  ⟨h.mem, h.csram, h.regs, Tbl.wf_set _ _ h.cnts⟩
theorem State.canon_memWrite {s : State} (h : s.Canon) (a : Nat) (l : List Byte) : (s.memWrite a l).Canon :=
  ⟨Mem.wf_write a l h.mem, h.csram, h.regs, h.cnts⟩
theorem State.canon_memFill {s : State} (h : s.Canon) (a n : Nat) : (s.memFill a n).Canon :=
  ⟨Mem.wf_write a _ h.mem, h.csram, h.regs, h.cnts⟩

/-- A state whose sparse stores are those of a canonical state is canonical. -/
theorem State.Canon.of_eq {s t : State} (h : s.Canon) (h1 : t.mem = s.mem) (h2 : t.csram = s.csram) (h3 : t.regs = s.regs)
    (h4 : t.cnts = s.cnts) : t.Canon := ⟨h1 ▸ h.mem, h2 ▸ h.csram, h3 ▸ h.regs, h4 ▸ h.cnts⟩

/-! ### What the named updates leave, field by field -/

@[simp] theorem State.setReg_pending (s : State) (n : RegName) (i : Nat) (v : Word) : (s.setReg n i v).pending = s.pending := rfl
@[simp] theorem State.setReg_cnts (s : State) (n : RegName) (i : Nat) (v : Word) : (s.setReg n i v).cnts = s.cnts := rfl
@[simp] theorem State.setReg_fifos (s : State) (n : RegName) (i : Nat) (v : Word) : (s.setReg n i v).fifos = s.fifos := rfl
@[simp] theorem State.setReg_bus (s : State) (n : RegName) (i : Nat) (v : Word) : (s.setReg n i v).bus = s.bus := rfl
@[simp] theorem State.setReg_mem (s : State) (n : RegName) (i : Nat) (v : Word) : (s.setReg n i v).mem = s.mem := rfl
@[simp] theorem State.setReg_csram (s : State) (n : RegName) (i : Nat) (v : Word) : (s.setReg n i v).csram = s.csram := rfl
@[simp] theorem State.setReg_out (s : State) (n : RegName) (i : Nat) (v : Word) : (s.setReg n i v).out = s.out := rfl
@[simp] theorem State.setReg_freeCtr (s : State) (n : RegName) (i : Nat) (v : Word) : (s.setReg n i v).freeCtr = s.freeCtr := rfl
@[simp] theorem State.setReg_time (s : State) (n : RegName) (i : Nat) (v : Word) : (s.setReg n i v).time = s.time := rfl
@[simp] theorem State.setReg_power (s : State) (n : RegName) (i : Nat) (v : Word) : (s.setReg n i v).power = s.power := rfl
@[simp] theorem State.setReg_vusta (s : State) (n : RegName) (i : Nat) (v : Word) : (s.setReg n i v).vusta = s.vusta := rfl
@[simp] theorem State.setReg_net (s : State) (n : RegName) (i : Nat) (v : Word) : (s.setReg n i v).net = s.net := rfl
@[simp] theorem State.setReg_cores (s : State) (n : RegName) (i : Nat) (v : Word) : (s.setReg n i v).cores = s.cores := rfl
@[simp] theorem State.setReg_disp (s : State) (n : RegName) (i : Nat) (v : Word) : (s.setReg n i v).disp = s.disp := rfl
@[simp] theorem State.setReg_keys (s : State) (n : RegName) (i : Nat) (v : Word) : (s.setReg n i v).keys = s.keys := rfl
@[simp] theorem State.setReg_mix (s : State) (n : RegName) (i : Nat) (v : Word) : (s.setReg n i v).mix = s.mix := rfl
@[simp] theorem State.setReg_video (s : State) (n : RegName) (i : Nat) (v : Word) : (s.setReg n i v).video = s.video := rfl
@[simp] theorem State.setReg_hbm (s : State) (n : RegName) (i : Nat) (v : Word) : (s.setReg n i v).hbm = s.hbm := rfl
@[simp] theorem State.setReg_trust (s : State) (n : RegName) (i : Nat) (v : Word) : (s.setReg n i v).trust = s.trust := rfl
@[simp] theorem State.setReg_tst (s : State) (n : RegName) (i : Nat) (v : Word) : (s.setReg n i v).tst = s.tst := rfl

@[simp] theorem State.setRf_pending (s : State) (n : RegName) (i hi lo v : Nat) : (s.setRf n i hi lo v).pending = s.pending := rfl
@[simp] theorem State.setRf_cnts (s : State) (n : RegName) (i hi lo v : Nat) : (s.setRf n i hi lo v).cnts = s.cnts := rfl
@[simp] theorem State.setRf_fifos (s : State) (n : RegName) (i hi lo v : Nat) : (s.setRf n i hi lo v).fifos = s.fifos := rfl
@[simp] theorem State.setRf_bus (s : State) (n : RegName) (i hi lo v : Nat) : (s.setRf n i hi lo v).bus = s.bus := rfl
@[simp] theorem State.setRf_mem (s : State) (n : RegName) (i hi lo v : Nat) : (s.setRf n i hi lo v).mem = s.mem := rfl
@[simp] theorem State.setRf_csram (s : State) (n : RegName) (i hi lo v : Nat) : (s.setRf n i hi lo v).csram = s.csram := rfl
@[simp] theorem State.setRf_out (s : State) (n : RegName) (i hi lo v : Nat) : (s.setRf n i hi lo v).out = s.out := rfl
@[simp] theorem State.setRf_freeCtr (s : State) (n : RegName) (i hi lo v : Nat) : (s.setRf n i hi lo v).freeCtr = s.freeCtr := rfl
@[simp] theorem State.setRf_time (s : State) (n : RegName) (i hi lo v : Nat) : (s.setRf n i hi lo v).time = s.time := rfl
@[simp] theorem State.setRf_power (s : State) (n : RegName) (i hi lo v : Nat) : (s.setRf n i hi lo v).power = s.power := rfl
@[simp] theorem State.setRf_vusta (s : State) (n : RegName) (i hi lo v : Nat) : (s.setRf n i hi lo v).vusta = s.vusta := rfl
@[simp] theorem State.setRf_net (s : State) (n : RegName) (i hi lo v : Nat) : (s.setRf n i hi lo v).net = s.net := rfl
@[simp] theorem State.setRf_cores (s : State) (n : RegName) (i hi lo v : Nat) : (s.setRf n i hi lo v).cores = s.cores := rfl
@[simp] theorem State.setRf_disp (s : State) (n : RegName) (i hi lo v : Nat) : (s.setRf n i hi lo v).disp = s.disp := rfl
@[simp] theorem State.setRf_keys (s : State) (n : RegName) (i hi lo v : Nat) : (s.setRf n i hi lo v).keys = s.keys := rfl
@[simp] theorem State.setRf_mix (s : State) (n : RegName) (i hi lo v : Nat) : (s.setRf n i hi lo v).mix = s.mix := rfl
@[simp] theorem State.setRf_video (s : State) (n : RegName) (i hi lo v : Nat) : (s.setRf n i hi lo v).video = s.video := rfl
@[simp] theorem State.setRf_hbm (s : State) (n : RegName) (i hi lo v : Nat) : (s.setRf n i hi lo v).hbm = s.hbm := rfl
@[simp] theorem State.setRf_trust (s : State) (n : RegName) (i hi lo v : Nat) : (s.setRf n i hi lo v).trust = s.trust := rfl
@[simp] theorem State.setRf_tst (s : State) (n : RegName) (i hi lo v : Nat) : (s.setRf n i hi lo v).tst = s.tst := rfl

@[simp] theorem State.setRb_pending (s : State) (n : RegName) (i b : Nat) (v : Bool) : (s.setRb n i b v).pending = s.pending := rfl
@[simp] theorem State.setRb_cnts (s : State) (n : RegName) (i b : Nat) (v : Bool) : (s.setRb n i b v).cnts = s.cnts := rfl
@[simp] theorem State.setRb_fifos (s : State) (n : RegName) (i b : Nat) (v : Bool) : (s.setRb n i b v).fifos = s.fifos := rfl
@[simp] theorem State.setRb_bus (s : State) (n : RegName) (i b : Nat) (v : Bool) : (s.setRb n i b v).bus = s.bus := rfl
@[simp] theorem State.setRb_mem (s : State) (n : RegName) (i b : Nat) (v : Bool) : (s.setRb n i b v).mem = s.mem := rfl
@[simp] theorem State.setRb_csram (s : State) (n : RegName) (i b : Nat) (v : Bool) : (s.setRb n i b v).csram = s.csram := rfl
@[simp] theorem State.setRb_out (s : State) (n : RegName) (i b : Nat) (v : Bool) : (s.setRb n i b v).out = s.out := rfl
@[simp] theorem State.setRb_freeCtr (s : State) (n : RegName) (i b : Nat) (v : Bool) : (s.setRb n i b v).freeCtr = s.freeCtr := rfl
@[simp] theorem State.setRb_time (s : State) (n : RegName) (i b : Nat) (v : Bool) : (s.setRb n i b v).time = s.time := rfl
@[simp] theorem State.setRb_power (s : State) (n : RegName) (i b : Nat) (v : Bool) : (s.setRb n i b v).power = s.power := rfl
@[simp] theorem State.setRb_vusta (s : State) (n : RegName) (i b : Nat) (v : Bool) : (s.setRb n i b v).vusta = s.vusta := rfl
@[simp] theorem State.setRb_net (s : State) (n : RegName) (i b : Nat) (v : Bool) : (s.setRb n i b v).net = s.net := rfl
@[simp] theorem State.setRb_cores (s : State) (n : RegName) (i b : Nat) (v : Bool) : (s.setRb n i b v).cores = s.cores := rfl
@[simp] theorem State.setRb_disp (s : State) (n : RegName) (i b : Nat) (v : Bool) : (s.setRb n i b v).disp = s.disp := rfl
@[simp] theorem State.setRb_keys (s : State) (n : RegName) (i b : Nat) (v : Bool) : (s.setRb n i b v).keys = s.keys := rfl
@[simp] theorem State.setRb_mix (s : State) (n : RegName) (i b : Nat) (v : Bool) : (s.setRb n i b v).mix = s.mix := rfl
@[simp] theorem State.setRb_video (s : State) (n : RegName) (i b : Nat) (v : Bool) : (s.setRb n i b v).video = s.video := rfl
@[simp] theorem State.setRb_hbm (s : State) (n : RegName) (i b : Nat) (v : Bool) : (s.setRb n i b v).hbm = s.hbm := rfl
@[simp] theorem State.setRb_trust (s : State) (n : RegName) (i b : Nat) (v : Bool) : (s.setRb n i b v).trust = s.trust := rfl
@[simp] theorem State.setRb_tst (s : State) (n : RegName) (i b : Nat) (v : Bool) : (s.setRb n i b v).tst = s.tst := rfl

@[simp] theorem State.rstReg_pending (s : State) (n : RegName) (i : Nat) : (s.rstReg n i).pending = s.pending := rfl
@[simp] theorem State.rstReg_cnts (s : State) (n : RegName) (i : Nat) : (s.rstReg n i).cnts = s.cnts := rfl
@[simp] theorem State.rstReg_fifos (s : State) (n : RegName) (i : Nat) : (s.rstReg n i).fifos = s.fifos := rfl
@[simp] theorem State.rstReg_bus (s : State) (n : RegName) (i : Nat) : (s.rstReg n i).bus = s.bus := rfl
@[simp] theorem State.rstReg_mem (s : State) (n : RegName) (i : Nat) : (s.rstReg n i).mem = s.mem := rfl
@[simp] theorem State.rstReg_csram (s : State) (n : RegName) (i : Nat) : (s.rstReg n i).csram = s.csram := rfl
@[simp] theorem State.rstReg_out (s : State) (n : RegName) (i : Nat) : (s.rstReg n i).out = s.out := rfl
@[simp] theorem State.rstReg_freeCtr (s : State) (n : RegName) (i : Nat) : (s.rstReg n i).freeCtr = s.freeCtr := rfl
@[simp] theorem State.rstReg_time (s : State) (n : RegName) (i : Nat) : (s.rstReg n i).time = s.time := rfl
@[simp] theorem State.rstReg_power (s : State) (n : RegName) (i : Nat) : (s.rstReg n i).power = s.power := rfl
@[simp] theorem State.rstReg_vusta (s : State) (n : RegName) (i : Nat) : (s.rstReg n i).vusta = s.vusta := rfl
@[simp] theorem State.rstReg_net (s : State) (n : RegName) (i : Nat) : (s.rstReg n i).net = s.net := rfl
@[simp] theorem State.rstReg_cores (s : State) (n : RegName) (i : Nat) : (s.rstReg n i).cores = s.cores := rfl
@[simp] theorem State.rstReg_disp (s : State) (n : RegName) (i : Nat) : (s.rstReg n i).disp = s.disp := rfl
@[simp] theorem State.rstReg_keys (s : State) (n : RegName) (i : Nat) : (s.rstReg n i).keys = s.keys := rfl
@[simp] theorem State.rstReg_mix (s : State) (n : RegName) (i : Nat) : (s.rstReg n i).mix = s.mix := rfl
@[simp] theorem State.rstReg_video (s : State) (n : RegName) (i : Nat) : (s.rstReg n i).video = s.video := rfl
@[simp] theorem State.rstReg_hbm (s : State) (n : RegName) (i : Nat) : (s.rstReg n i).hbm = s.hbm := rfl
@[simp] theorem State.rstReg_trust (s : State) (n : RegName) (i : Nat) : (s.rstReg n i).trust = s.trust := rfl
@[simp] theorem State.rstReg_tst (s : State) (n : RegName) (i : Nat) : (s.rstReg n i).tst = s.tst := rfl

@[simp] theorem State.rstRegs_pending (s : State) (p : RegName → Nat → Bool) : (s.rstRegs p).pending = s.pending := rfl
@[simp] theorem State.rstRegs_fifos (s : State) (p : RegName → Nat → Bool) : (s.rstRegs p).fifos = s.fifos := rfl
@[simp] theorem State.rstRegs_bus (s : State) (p : RegName → Nat → Bool) : (s.rstRegs p).bus = s.bus := rfl
@[simp] theorem State.rstRegs_mem (s : State) (p : RegName → Nat → Bool) : (s.rstRegs p).mem = s.mem := rfl
@[simp] theorem State.rstRegs_csram (s : State) (p : RegName → Nat → Bool) : (s.rstRegs p).csram = s.csram := rfl
@[simp] theorem State.rstRegs_out (s : State) (p : RegName → Nat → Bool) : (s.rstRegs p).out = s.out := rfl
@[simp] theorem State.rstRegs_freeCtr (s : State) (p : RegName → Nat → Bool) : (s.rstRegs p).freeCtr = s.freeCtr := rfl
@[simp] theorem State.rstRegs_time (s : State) (p : RegName → Nat → Bool) : (s.rstRegs p).time = s.time := rfl
@[simp] theorem State.rstRegs_power (s : State) (p : RegName → Nat → Bool) : (s.rstRegs p).power = s.power := rfl
@[simp] theorem State.rstRegs_vusta (s : State) (p : RegName → Nat → Bool) : (s.rstRegs p).vusta = s.vusta := rfl
@[simp] theorem State.rstRegs_net (s : State) (p : RegName → Nat → Bool) : (s.rstRegs p).net = s.net := rfl
@[simp] theorem State.rstRegs_cores (s : State) (p : RegName → Nat → Bool) : (s.rstRegs p).cores = s.cores := rfl
@[simp] theorem State.rstRegs_disp (s : State) (p : RegName → Nat → Bool) : (s.rstRegs p).disp = s.disp := rfl
@[simp] theorem State.rstRegs_keys (s : State) (p : RegName → Nat → Bool) : (s.rstRegs p).keys = s.keys := rfl
@[simp] theorem State.rstRegs_mix (s : State) (p : RegName → Nat → Bool) : (s.rstRegs p).mix = s.mix := rfl
@[simp] theorem State.rstRegs_video (s : State) (p : RegName → Nat → Bool) : (s.rstRegs p).video = s.video := rfl
@[simp] theorem State.rstRegs_hbm (s : State) (p : RegName → Nat → Bool) : (s.rstRegs p).hbm = s.hbm := rfl
@[simp] theorem State.rstRegs_trust (s : State) (p : RegName → Nat → Bool) : (s.rstRegs p).trust = s.trust := rfl
@[simp] theorem State.rstRegs_tst (s : State) (p : RegName → Nat → Bool) : (s.rstRegs p).tst = s.tst := rfl

@[simp] theorem State.bump_pending (s : State) (n : RegName) (i k : Nat) : (s.bump n i k).pending = s.pending := rfl
@[simp] theorem State.bump_regs (s : State) (n : RegName) (i k : Nat) : (s.bump n i k).regs = s.regs := rfl
@[simp] theorem State.bump_fifos (s : State) (n : RegName) (i k : Nat) : (s.bump n i k).fifos = s.fifos := rfl
@[simp] theorem State.bump_bus (s : State) (n : RegName) (i k : Nat) : (s.bump n i k).bus = s.bus := rfl
@[simp] theorem State.bump_mem (s : State) (n : RegName) (i k : Nat) : (s.bump n i k).mem = s.mem := rfl
@[simp] theorem State.bump_csram (s : State) (n : RegName) (i k : Nat) : (s.bump n i k).csram = s.csram := rfl
@[simp] theorem State.bump_out (s : State) (n : RegName) (i k : Nat) : (s.bump n i k).out = s.out := rfl
@[simp] theorem State.bump_freeCtr (s : State) (n : RegName) (i k : Nat) : (s.bump n i k).freeCtr = s.freeCtr := rfl
@[simp] theorem State.bump_time (s : State) (n : RegName) (i k : Nat) : (s.bump n i k).time = s.time := rfl
@[simp] theorem State.bump_power (s : State) (n : RegName) (i k : Nat) : (s.bump n i k).power = s.power := rfl
@[simp] theorem State.bump_vusta (s : State) (n : RegName) (i k : Nat) : (s.bump n i k).vusta = s.vusta := rfl
@[simp] theorem State.bump_net (s : State) (n : RegName) (i k : Nat) : (s.bump n i k).net = s.net := rfl
@[simp] theorem State.bump_cores (s : State) (n : RegName) (i k : Nat) : (s.bump n i k).cores = s.cores := rfl
@[simp] theorem State.bump_disp (s : State) (n : RegName) (i k : Nat) : (s.bump n i k).disp = s.disp := rfl
@[simp] theorem State.bump_keys (s : State) (n : RegName) (i k : Nat) : (s.bump n i k).keys = s.keys := rfl
@[simp] theorem State.bump_mix (s : State) (n : RegName) (i k : Nat) : (s.bump n i k).mix = s.mix := rfl
@[simp] theorem State.bump_video (s : State) (n : RegName) (i k : Nat) : (s.bump n i k).video = s.video := rfl
@[simp] theorem State.bump_hbm (s : State) (n : RegName) (i k : Nat) : (s.bump n i k).hbm = s.hbm := rfl
@[simp] theorem State.bump_trust (s : State) (n : RegName) (i k : Nat) : (s.bump n i k).trust = s.trust := rfl
@[simp] theorem State.bump_tst (s : State) (n : RegName) (i k : Nat) : (s.bump n i k).tst = s.tst := rfl

@[simp] theorem State.memWrite_pending (s : State) (a : Nat) (l : List Byte) : (s.memWrite a l).pending = s.pending := rfl
@[simp] theorem State.memWrite_regs (s : State) (a : Nat) (l : List Byte) : (s.memWrite a l).regs = s.regs := rfl
@[simp] theorem State.memWrite_cnts (s : State) (a : Nat) (l : List Byte) : (s.memWrite a l).cnts = s.cnts := rfl
@[simp] theorem State.memWrite_fifos (s : State) (a : Nat) (l : List Byte) : (s.memWrite a l).fifos = s.fifos := rfl
@[simp] theorem State.memWrite_bus (s : State) (a : Nat) (l : List Byte) : (s.memWrite a l).bus = s.bus := rfl
@[simp] theorem State.memWrite_csram (s : State) (a : Nat) (l : List Byte) : (s.memWrite a l).csram = s.csram := rfl
@[simp] theorem State.memWrite_out (s : State) (a : Nat) (l : List Byte) : (s.memWrite a l).out = s.out := rfl
@[simp] theorem State.memWrite_freeCtr (s : State) (a : Nat) (l : List Byte) : (s.memWrite a l).freeCtr = s.freeCtr := rfl
@[simp] theorem State.memWrite_time (s : State) (a : Nat) (l : List Byte) : (s.memWrite a l).time = s.time := rfl
@[simp] theorem State.memWrite_power (s : State) (a : Nat) (l : List Byte) : (s.memWrite a l).power = s.power := rfl
@[simp] theorem State.memWrite_vusta (s : State) (a : Nat) (l : List Byte) : (s.memWrite a l).vusta = s.vusta := rfl
@[simp] theorem State.memWrite_net (s : State) (a : Nat) (l : List Byte) : (s.memWrite a l).net = s.net := rfl
@[simp] theorem State.memWrite_cores (s : State) (a : Nat) (l : List Byte) : (s.memWrite a l).cores = s.cores := rfl
@[simp] theorem State.memWrite_disp (s : State) (a : Nat) (l : List Byte) : (s.memWrite a l).disp = s.disp := rfl
@[simp] theorem State.memWrite_keys (s : State) (a : Nat) (l : List Byte) : (s.memWrite a l).keys = s.keys := rfl
@[simp] theorem State.memWrite_mix (s : State) (a : Nat) (l : List Byte) : (s.memWrite a l).mix = s.mix := rfl
@[simp] theorem State.memWrite_video (s : State) (a : Nat) (l : List Byte) : (s.memWrite a l).video = s.video := rfl
@[simp] theorem State.memWrite_hbm (s : State) (a : Nat) (l : List Byte) : (s.memWrite a l).hbm = s.hbm := rfl
@[simp] theorem State.memWrite_trust (s : State) (a : Nat) (l : List Byte) : (s.memWrite a l).trust = s.trust := rfl
@[simp] theorem State.memWrite_tst (s : State) (a : Nat) (l : List Byte) : (s.memWrite a l).tst = s.tst := rfl

@[simp] theorem State.memFill_pending (s : State) (a n : Nat) : (s.memFill a n).pending = s.pending := rfl
@[simp] theorem State.memFill_regs (s : State) (a n : Nat) : (s.memFill a n).regs = s.regs := rfl
@[simp] theorem State.memFill_cnts (s : State) (a n : Nat) : (s.memFill a n).cnts = s.cnts := rfl
@[simp] theorem State.memFill_fifos (s : State) (a n : Nat) : (s.memFill a n).fifos = s.fifos := rfl
@[simp] theorem State.memFill_bus (s : State) (a n : Nat) : (s.memFill a n).bus = s.bus := rfl
@[simp] theorem State.memFill_csram (s : State) (a n : Nat) : (s.memFill a n).csram = s.csram := rfl
@[simp] theorem State.memFill_out (s : State) (a n : Nat) : (s.memFill a n).out = s.out := rfl
@[simp] theorem State.memFill_time (s : State) (a n : Nat) : (s.memFill a n).time = s.time := rfl
@[simp] theorem State.memFill_power (s : State) (a n : Nat) : (s.memFill a n).power = s.power := rfl
@[simp] theorem State.memFill_vusta (s : State) (a n : Nat) : (s.memFill a n).vusta = s.vusta := rfl
@[simp] theorem State.memFill_net (s : State) (a n : Nat) : (s.memFill a n).net = s.net := rfl
@[simp] theorem State.memFill_cores (s : State) (a n : Nat) : (s.memFill a n).cores = s.cores := rfl
@[simp] theorem State.memFill_disp (s : State) (a n : Nat) : (s.memFill a n).disp = s.disp := rfl
@[simp] theorem State.memFill_keys (s : State) (a n : Nat) : (s.memFill a n).keys = s.keys := rfl
@[simp] theorem State.memFill_mix (s : State) (a n : Nat) : (s.memFill a n).mix = s.mix := rfl
@[simp] theorem State.memFill_video (s : State) (a n : Nat) : (s.memFill a n).video = s.video := rfl
@[simp] theorem State.memFill_hbm (s : State) (a n : Nat) : (s.memFill a n).hbm = s.hbm := rfl
@[simp] theorem State.memFill_trust (s : State) (a n : Nat) : (s.memFill a n).trust = s.trust := rfl
@[simp] theorem State.memFill_tst (s : State) (a n : Nat) : (s.memFill a n).tst = s.tst := rfl

@[simp] theorem State.advance_pending (s : State) (n : Nat) : (s.advance n).pending = s.pending := rfl
@[simp] theorem State.advance_regs (s : State) (n : Nat) : (s.advance n).regs = s.regs := rfl
@[simp] theorem State.advance_cnts (s : State) (n : Nat) : (s.advance n).cnts = s.cnts := rfl
@[simp] theorem State.advance_fifos (s : State) (n : Nat) : (s.advance n).fifos = s.fifos := rfl
@[simp] theorem State.advance_bus (s : State) (n : Nat) : (s.advance n).bus = s.bus := rfl
@[simp] theorem State.advance_mem (s : State) (n : Nat) : (s.advance n).mem = s.mem := rfl
@[simp] theorem State.advance_csram (s : State) (n : Nat) : (s.advance n).csram = s.csram := rfl
@[simp] theorem State.advance_out (s : State) (n : Nat) : (s.advance n).out = s.out := rfl
@[simp] theorem State.advance_freeCtr (s : State) (n : Nat) : (s.advance n).freeCtr = s.freeCtr := rfl
@[simp] theorem State.advance_vusta (s : State) (n : Nat) : (s.advance n).vusta = s.vusta := rfl
@[simp] theorem State.advance_net (s : State) (n : Nat) : (s.advance n).net = s.net := rfl
@[simp] theorem State.advance_cores (s : State) (n : Nat) : (s.advance n).cores = s.cores := rfl
@[simp] theorem State.advance_disp (s : State) (n : Nat) : (s.advance n).disp = s.disp := rfl
@[simp] theorem State.advance_keys (s : State) (n : Nat) : (s.advance n).keys = s.keys := rfl
@[simp] theorem State.advance_mix (s : State) (n : Nat) : (s.advance n).mix = s.mix := rfl
@[simp] theorem State.advance_video (s : State) (n : Nat) : (s.advance n).video = s.video := rfl
@[simp] theorem State.advance_hbm (s : State) (n : Nat) : (s.advance n).hbm = s.hbm := rfl
@[simp] theorem State.advance_trust (s : State) (n : Nat) : (s.advance n).trust = s.trust := rfl
@[simp] theorem State.advance_tst (s : State) (n : Nat) : (s.advance n).tst = s.tst := rfl

@[simp] theorem State.emit_pending (s : State) (o : Out) : (s.emit o).pending = s.pending := rfl
@[simp] theorem State.emit_regs (s : State) (o : Out) : (s.emit o).regs = s.regs := rfl
@[simp] theorem State.emit_cnts (s : State) (o : Out) : (s.emit o).cnts = s.cnts := rfl
@[simp] theorem State.emit_fifos (s : State) (o : Out) : (s.emit o).fifos = s.fifos := rfl
@[simp] theorem State.emit_bus (s : State) (o : Out) : (s.emit o).bus = s.bus := rfl
@[simp] theorem State.emit_mem (s : State) (o : Out) : (s.emit o).mem = s.mem := rfl
@[simp] theorem State.emit_csram (s : State) (o : Out) : (s.emit o).csram = s.csram := rfl
@[simp] theorem State.emit_freeCtr (s : State) (o : Out) : (s.emit o).freeCtr = s.freeCtr := rfl
@[simp] theorem State.emit_time (s : State) (o : Out) : (s.emit o).time = s.time := rfl
@[simp] theorem State.emit_power (s : State) (o : Out) : (s.emit o).power = s.power := rfl
@[simp] theorem State.emit_vusta (s : State) (o : Out) : (s.emit o).vusta = s.vusta := rfl
@[simp] theorem State.emit_net (s : State) (o : Out) : (s.emit o).net = s.net := rfl
@[simp] theorem State.emit_cores (s : State) (o : Out) : (s.emit o).cores = s.cores := rfl
@[simp] theorem State.emit_disp (s : State) (o : Out) : (s.emit o).disp = s.disp := rfl
@[simp] theorem State.emit_keys (s : State) (o : Out) : (s.emit o).keys = s.keys := rfl
@[simp] theorem State.emit_mix (s : State) (o : Out) : (s.emit o).mix = s.mix := rfl
@[simp] theorem State.emit_video (s : State) (o : Out) : (s.emit o).video = s.video := rfl
@[simp] theorem State.emit_hbm (s : State) (o : Out) : (s.emit o).hbm = s.hbm := rfl
@[simp] theorem State.emit_trust (s : State) (o : Out) : (s.emit o).trust = s.trust := rfl
@[simp] theorem State.emit_tst (s : State) (o : Out) : (s.emit o).tst = s.tst := rfl

@[simp] theorem State.setPd_pending (s : State) (d st : Nat) : (s.setPd d st).pending = s.pending := rfl
@[simp] theorem State.setPd_cnts (s : State) (d st : Nat) : (s.setPd d st).cnts = s.cnts := rfl
@[simp] theorem State.setPd_fifos (s : State) (d st : Nat) : (s.setPd d st).fifos = s.fifos := rfl
@[simp] theorem State.setPd_bus (s : State) (d st : Nat) : (s.setPd d st).bus = s.bus := rfl
@[simp] theorem State.setPd_mem (s : State) (d st : Nat) : (s.setPd d st).mem = s.mem := rfl
@[simp] theorem State.setPd_csram (s : State) (d st : Nat) : (s.setPd d st).csram = s.csram := rfl
@[simp] theorem State.setPd_out (s : State) (d st : Nat) : (s.setPd d st).out = s.out := rfl
@[simp] theorem State.setPd_freeCtr (s : State) (d st : Nat) : (s.setPd d st).freeCtr = s.freeCtr := rfl
@[simp] theorem State.setPd_time (s : State) (d st : Nat) : (s.setPd d st).time = s.time := rfl
@[simp] theorem State.setPd_power (s : State) (d st : Nat) : (s.setPd d st).power = s.power := rfl
@[simp] theorem State.setPd_vusta (s : State) (d st : Nat) : (s.setPd d st).vusta = s.vusta := rfl
@[simp] theorem State.setPd_net (s : State) (d st : Nat) : (s.setPd d st).net = s.net := rfl
@[simp] theorem State.setPd_cores (s : State) (d st : Nat) : (s.setPd d st).cores = s.cores := rfl
@[simp] theorem State.setPd_disp (s : State) (d st : Nat) : (s.setPd d st).disp = s.disp := rfl
@[simp] theorem State.setPd_keys (s : State) (d st : Nat) : (s.setPd d st).keys = s.keys := rfl
@[simp] theorem State.setPd_mix (s : State) (d st : Nat) : (s.setPd d st).mix = s.mix := rfl
@[simp] theorem State.setPd_video (s : State) (d st : Nat) : (s.setPd d st).video = s.video := rfl
@[simp] theorem State.setPd_hbm (s : State) (d st : Nat) : (s.setPd d st).hbm = s.hbm := rfl
@[simp] theorem State.setPd_trust (s : State) (d st : Nat) : (s.setPd d st).trust = s.trust := rfl
@[simp] theorem State.setPd_tst (s : State) (d st : Nat) : (s.setPd d st).tst = s.tst := rfl

@[simp] theorem State.updDom_pending (s : State) (d : Nat) (f : Dom → Dom) : (s.updDom d f).pending = s.pending := rfl
@[simp] theorem State.updDom_regs (s : State) (d : Nat) (f : Dom → Dom) : (s.updDom d f).regs = s.regs := rfl
@[simp] theorem State.updDom_cnts (s : State) (d : Nat) (f : Dom → Dom) : (s.updDom d f).cnts = s.cnts := rfl
@[simp] theorem State.updDom_fifos (s : State) (d : Nat) (f : Dom → Dom) : (s.updDom d f).fifos = s.fifos := rfl
@[simp] theorem State.updDom_bus (s : State) (d : Nat) (f : Dom → Dom) : (s.updDom d f).bus = s.bus := rfl
@[simp] theorem State.updDom_mem (s : State) (d : Nat) (f : Dom → Dom) : (s.updDom d f).mem = s.mem := rfl
@[simp] theorem State.updDom_csram (s : State) (d : Nat) (f : Dom → Dom) : (s.updDom d f).csram = s.csram := rfl
@[simp] theorem State.updDom_out (s : State) (d : Nat) (f : Dom → Dom) : (s.updDom d f).out = s.out := rfl
@[simp] theorem State.updDom_freeCtr (s : State) (d : Nat) (f : Dom → Dom) : (s.updDom d f).freeCtr = s.freeCtr := rfl
@[simp] theorem State.updDom_time (s : State) (d : Nat) (f : Dom → Dom) : (s.updDom d f).time = s.time := rfl
@[simp] theorem State.updDom_vusta (s : State) (d : Nat) (f : Dom → Dom) : (s.updDom d f).vusta = s.vusta := rfl
@[simp] theorem State.updDom_net (s : State) (d : Nat) (f : Dom → Dom) : (s.updDom d f).net = s.net := rfl
@[simp] theorem State.updDom_cores (s : State) (d : Nat) (f : Dom → Dom) : (s.updDom d f).cores = s.cores := rfl
@[simp] theorem State.updDom_disp (s : State) (d : Nat) (f : Dom → Dom) : (s.updDom d f).disp = s.disp := rfl
@[simp] theorem State.updDom_keys (s : State) (d : Nat) (f : Dom → Dom) : (s.updDom d f).keys = s.keys := rfl
@[simp] theorem State.updDom_mix (s : State) (d : Nat) (f : Dom → Dom) : (s.updDom d f).mix = s.mix := rfl
@[simp] theorem State.updDom_video (s : State) (d : Nat) (f : Dom → Dom) : (s.updDom d f).video = s.video := rfl
@[simp] theorem State.updDom_hbm (s : State) (d : Nat) (f : Dom → Dom) : (s.updDom d f).hbm = s.hbm := rfl
@[simp] theorem State.updDom_trust (s : State) (d : Nat) (f : Dom → Dom) : (s.updDom d f).trust = s.trust := rfl
@[simp] theorem State.updDom_tst (s : State) (d : Nat) (f : Dom → Dom) : (s.updDom d f).tst = s.tst := rfl

@[simp] theorem State.updFn_pending (s : State) (f : Nat) (g : Fn → Fn) : (s.updFn f g).pending = s.pending := rfl
@[simp] theorem State.updFn_regs (s : State) (f : Nat) (g : Fn → Fn) : (s.updFn f g).regs = s.regs := rfl
@[simp] theorem State.updFn_cnts (s : State) (f : Nat) (g : Fn → Fn) : (s.updFn f g).cnts = s.cnts := rfl
@[simp] theorem State.updFn_fifos (s : State) (f : Nat) (g : Fn → Fn) : (s.updFn f g).fifos = s.fifos := rfl
@[simp] theorem State.updFn_bus (s : State) (f : Nat) (g : Fn → Fn) : (s.updFn f g).bus = s.bus := rfl
@[simp] theorem State.updFn_mem (s : State) (f : Nat) (g : Fn → Fn) : (s.updFn f g).mem = s.mem := rfl
@[simp] theorem State.updFn_csram (s : State) (f : Nat) (g : Fn → Fn) : (s.updFn f g).csram = s.csram := rfl
@[simp] theorem State.updFn_out (s : State) (f : Nat) (g : Fn → Fn) : (s.updFn f g).out = s.out := rfl
@[simp] theorem State.updFn_freeCtr (s : State) (f : Nat) (g : Fn → Fn) : (s.updFn f g).freeCtr = s.freeCtr := rfl
@[simp] theorem State.updFn_time (s : State) (f : Nat) (g : Fn → Fn) : (s.updFn f g).time = s.time := rfl
@[simp] theorem State.updFn_power (s : State) (f : Nat) (g : Fn → Fn) : (s.updFn f g).power = s.power := rfl
@[simp] theorem State.updFn_net (s : State) (f : Nat) (g : Fn → Fn) : (s.updFn f g).net = s.net := rfl
@[simp] theorem State.updFn_cores (s : State) (f : Nat) (g : Fn → Fn) : (s.updFn f g).cores = s.cores := rfl
@[simp] theorem State.updFn_disp (s : State) (f : Nat) (g : Fn → Fn) : (s.updFn f g).disp = s.disp := rfl
@[simp] theorem State.updFn_keys (s : State) (f : Nat) (g : Fn → Fn) : (s.updFn f g).keys = s.keys := rfl
@[simp] theorem State.updFn_mix (s : State) (f : Nat) (g : Fn → Fn) : (s.updFn f g).mix = s.mix := rfl
@[simp] theorem State.updFn_video (s : State) (f : Nat) (g : Fn → Fn) : (s.updFn f g).video = s.video := rfl
@[simp] theorem State.updFn_hbm (s : State) (f : Nat) (g : Fn → Fn) : (s.updFn f g).hbm = s.hbm := rfl
@[simp] theorem State.updFn_trust (s : State) (f : Nat) (g : Fn → Fn) : (s.updFn f g).trust = s.trust := rfl
@[simp] theorem State.updFn_tst (s : State) (f : Nat) (g : Fn → Fn) : (s.updFn f g).tst = s.tst := rfl

@[simp] theorem State.updNet_pending (s : State) (f : Net → Net) : (s.updNet f).pending = s.pending := rfl
@[simp] theorem State.updNet_regs (s : State) (f : Net → Net) : (s.updNet f).regs = s.regs := rfl
@[simp] theorem State.updNet_cnts (s : State) (f : Net → Net) : (s.updNet f).cnts = s.cnts := rfl
@[simp] theorem State.updNet_fifos (s : State) (f : Net → Net) : (s.updNet f).fifos = s.fifos := rfl
@[simp] theorem State.updNet_bus (s : State) (f : Net → Net) : (s.updNet f).bus = s.bus := rfl
@[simp] theorem State.updNet_mem (s : State) (f : Net → Net) : (s.updNet f).mem = s.mem := rfl
@[simp] theorem State.updNet_csram (s : State) (f : Net → Net) : (s.updNet f).csram = s.csram := rfl
@[simp] theorem State.updNet_out (s : State) (f : Net → Net) : (s.updNet f).out = s.out := rfl
@[simp] theorem State.updNet_freeCtr (s : State) (f : Net → Net) : (s.updNet f).freeCtr = s.freeCtr := rfl
@[simp] theorem State.updNet_time (s : State) (f : Net → Net) : (s.updNet f).time = s.time := rfl
@[simp] theorem State.updNet_power (s : State) (f : Net → Net) : (s.updNet f).power = s.power := rfl
@[simp] theorem State.updNet_vusta (s : State) (f : Net → Net) : (s.updNet f).vusta = s.vusta := rfl
@[simp] theorem State.updNet_cores (s : State) (f : Net → Net) : (s.updNet f).cores = s.cores := rfl
@[simp] theorem State.updNet_disp (s : State) (f : Net → Net) : (s.updNet f).disp = s.disp := rfl
@[simp] theorem State.updNet_keys (s : State) (f : Net → Net) : (s.updNet f).keys = s.keys := rfl
@[simp] theorem State.updNet_mix (s : State) (f : Net → Net) : (s.updNet f).mix = s.mix := rfl
@[simp] theorem State.updNet_video (s : State) (f : Net → Net) : (s.updNet f).video = s.video := rfl
@[simp] theorem State.updNet_hbm (s : State) (f : Net → Net) : (s.updNet f).hbm = s.hbm := rfl
@[simp] theorem State.updNet_trust (s : State) (f : Net → Net) : (s.updNet f).trust = s.trust := rfl
@[simp] theorem State.updNet_tst (s : State) (f : Net → Net) : (s.updNet f).tst = s.tst := rfl

@[simp] theorem State.updDisp_pending (s : State) (f : Disp → Disp) : (s.updDisp f).pending = s.pending := rfl
@[simp] theorem State.updDisp_regs (s : State) (f : Disp → Disp) : (s.updDisp f).regs = s.regs := rfl
@[simp] theorem State.updDisp_cnts (s : State) (f : Disp → Disp) : (s.updDisp f).cnts = s.cnts := rfl
@[simp] theorem State.updDisp_fifos (s : State) (f : Disp → Disp) : (s.updDisp f).fifos = s.fifos := rfl
@[simp] theorem State.updDisp_bus (s : State) (f : Disp → Disp) : (s.updDisp f).bus = s.bus := rfl
@[simp] theorem State.updDisp_mem (s : State) (f : Disp → Disp) : (s.updDisp f).mem = s.mem := rfl
@[simp] theorem State.updDisp_csram (s : State) (f : Disp → Disp) : (s.updDisp f).csram = s.csram := rfl
@[simp] theorem State.updDisp_out (s : State) (f : Disp → Disp) : (s.updDisp f).out = s.out := rfl
@[simp] theorem State.updDisp_freeCtr (s : State) (f : Disp → Disp) : (s.updDisp f).freeCtr = s.freeCtr := rfl
@[simp] theorem State.updDisp_time (s : State) (f : Disp → Disp) : (s.updDisp f).time = s.time := rfl
@[simp] theorem State.updDisp_power (s : State) (f : Disp → Disp) : (s.updDisp f).power = s.power := rfl
@[simp] theorem State.updDisp_vusta (s : State) (f : Disp → Disp) : (s.updDisp f).vusta = s.vusta := rfl
@[simp] theorem State.updDisp_net (s : State) (f : Disp → Disp) : (s.updDisp f).net = s.net := rfl
@[simp] theorem State.updDisp_cores (s : State) (f : Disp → Disp) : (s.updDisp f).cores = s.cores := rfl
@[simp] theorem State.updDisp_keys (s : State) (f : Disp → Disp) : (s.updDisp f).keys = s.keys := rfl
@[simp] theorem State.updDisp_mix (s : State) (f : Disp → Disp) : (s.updDisp f).mix = s.mix := rfl
@[simp] theorem State.updDisp_video (s : State) (f : Disp → Disp) : (s.updDisp f).video = s.video := rfl
@[simp] theorem State.updDisp_hbm (s : State) (f : Disp → Disp) : (s.updDisp f).hbm = s.hbm := rfl
@[simp] theorem State.updDisp_trust (s : State) (f : Disp → Disp) : (s.updDisp f).trust = s.trust := rfl
@[simp] theorem State.updDisp_tst (s : State) (f : Disp → Disp) : (s.updDisp f).tst = s.tst := rfl

@[simp] theorem State.updMix_pending (s : State) (f : Mix → Mix) : (s.updMix f).pending = s.pending := rfl
@[simp] theorem State.updMix_regs (s : State) (f : Mix → Mix) : (s.updMix f).regs = s.regs := rfl
@[simp] theorem State.updMix_cnts (s : State) (f : Mix → Mix) : (s.updMix f).cnts = s.cnts := rfl
@[simp] theorem State.updMix_fifos (s : State) (f : Mix → Mix) : (s.updMix f).fifos = s.fifos := rfl
@[simp] theorem State.updMix_bus (s : State) (f : Mix → Mix) : (s.updMix f).bus = s.bus := rfl
@[simp] theorem State.updMix_mem (s : State) (f : Mix → Mix) : (s.updMix f).mem = s.mem := rfl
@[simp] theorem State.updMix_csram (s : State) (f : Mix → Mix) : (s.updMix f).csram = s.csram := rfl
@[simp] theorem State.updMix_out (s : State) (f : Mix → Mix) : (s.updMix f).out = s.out := rfl
@[simp] theorem State.updMix_freeCtr (s : State) (f : Mix → Mix) : (s.updMix f).freeCtr = s.freeCtr := rfl
@[simp] theorem State.updMix_time (s : State) (f : Mix → Mix) : (s.updMix f).time = s.time := rfl
@[simp] theorem State.updMix_power (s : State) (f : Mix → Mix) : (s.updMix f).power = s.power := rfl
@[simp] theorem State.updMix_vusta (s : State) (f : Mix → Mix) : (s.updMix f).vusta = s.vusta := rfl
@[simp] theorem State.updMix_net (s : State) (f : Mix → Mix) : (s.updMix f).net = s.net := rfl
@[simp] theorem State.updMix_cores (s : State) (f : Mix → Mix) : (s.updMix f).cores = s.cores := rfl
@[simp] theorem State.updMix_disp (s : State) (f : Mix → Mix) : (s.updMix f).disp = s.disp := rfl
@[simp] theorem State.updMix_keys (s : State) (f : Mix → Mix) : (s.updMix f).keys = s.keys := rfl
@[simp] theorem State.updMix_video (s : State) (f : Mix → Mix) : (s.updMix f).video = s.video := rfl
@[simp] theorem State.updMix_hbm (s : State) (f : Mix → Mix) : (s.updMix f).hbm = s.hbm := rfl
@[simp] theorem State.updMix_trust (s : State) (f : Mix → Mix) : (s.updMix f).trust = s.trust := rfl
@[simp] theorem State.updMix_tst (s : State) (f : Mix → Mix) : (s.updMix f).tst = s.tst := rfl

@[simp] theorem State.updVideo_pending (s : State) (f : Video → Video) : (s.updVideo f).pending = s.pending := rfl
@[simp] theorem State.updVideo_regs (s : State) (f : Video → Video) : (s.updVideo f).regs = s.regs := rfl
@[simp] theorem State.updVideo_cnts (s : State) (f : Video → Video) : (s.updVideo f).cnts = s.cnts := rfl
@[simp] theorem State.updVideo_fifos (s : State) (f : Video → Video) : (s.updVideo f).fifos = s.fifos := rfl
@[simp] theorem State.updVideo_bus (s : State) (f : Video → Video) : (s.updVideo f).bus = s.bus := rfl
@[simp] theorem State.updVideo_mem (s : State) (f : Video → Video) : (s.updVideo f).mem = s.mem := rfl
@[simp] theorem State.updVideo_csram (s : State) (f : Video → Video) : (s.updVideo f).csram = s.csram := rfl
@[simp] theorem State.updVideo_out (s : State) (f : Video → Video) : (s.updVideo f).out = s.out := rfl
@[simp] theorem State.updVideo_freeCtr (s : State) (f : Video → Video) : (s.updVideo f).freeCtr = s.freeCtr := rfl
@[simp] theorem State.updVideo_time (s : State) (f : Video → Video) : (s.updVideo f).time = s.time := rfl
@[simp] theorem State.updVideo_power (s : State) (f : Video → Video) : (s.updVideo f).power = s.power := rfl
@[simp] theorem State.updVideo_vusta (s : State) (f : Video → Video) : (s.updVideo f).vusta = s.vusta := rfl
@[simp] theorem State.updVideo_net (s : State) (f : Video → Video) : (s.updVideo f).net = s.net := rfl
@[simp] theorem State.updVideo_cores (s : State) (f : Video → Video) : (s.updVideo f).cores = s.cores := rfl
@[simp] theorem State.updVideo_disp (s : State) (f : Video → Video) : (s.updVideo f).disp = s.disp := rfl
@[simp] theorem State.updVideo_keys (s : State) (f : Video → Video) : (s.updVideo f).keys = s.keys := rfl
@[simp] theorem State.updVideo_mix (s : State) (f : Video → Video) : (s.updVideo f).mix = s.mix := rfl
@[simp] theorem State.updVideo_hbm (s : State) (f : Video → Video) : (s.updVideo f).hbm = s.hbm := rfl
@[simp] theorem State.updVideo_trust (s : State) (f : Video → Video) : (s.updVideo f).trust = s.trust := rfl
@[simp] theorem State.updVideo_tst (s : State) (f : Video → Video) : (s.updVideo f).tst = s.tst := rfl

@[simp] theorem State.updHbm_pending (s : State) (n : Nat) (f : Hbm → Hbm) : (s.updHbm n f).pending = s.pending := rfl
@[simp] theorem State.updHbm_regs (s : State) (n : Nat) (f : Hbm → Hbm) : (s.updHbm n f).regs = s.regs := rfl
@[simp] theorem State.updHbm_cnts (s : State) (n : Nat) (f : Hbm → Hbm) : (s.updHbm n f).cnts = s.cnts := rfl
@[simp] theorem State.updHbm_fifos (s : State) (n : Nat) (f : Hbm → Hbm) : (s.updHbm n f).fifos = s.fifos := rfl
@[simp] theorem State.updHbm_bus (s : State) (n : Nat) (f : Hbm → Hbm) : (s.updHbm n f).bus = s.bus := rfl
@[simp] theorem State.updHbm_mem (s : State) (n : Nat) (f : Hbm → Hbm) : (s.updHbm n f).mem = s.mem := rfl
@[simp] theorem State.updHbm_csram (s : State) (n : Nat) (f : Hbm → Hbm) : (s.updHbm n f).csram = s.csram := rfl
@[simp] theorem State.updHbm_out (s : State) (n : Nat) (f : Hbm → Hbm) : (s.updHbm n f).out = s.out := rfl
@[simp] theorem State.updHbm_freeCtr (s : State) (n : Nat) (f : Hbm → Hbm) : (s.updHbm n f).freeCtr = s.freeCtr := rfl
@[simp] theorem State.updHbm_time (s : State) (n : Nat) (f : Hbm → Hbm) : (s.updHbm n f).time = s.time := rfl
@[simp] theorem State.updHbm_power (s : State) (n : Nat) (f : Hbm → Hbm) : (s.updHbm n f).power = s.power := rfl
@[simp] theorem State.updHbm_vusta (s : State) (n : Nat) (f : Hbm → Hbm) : (s.updHbm n f).vusta = s.vusta := rfl
@[simp] theorem State.updHbm_net (s : State) (n : Nat) (f : Hbm → Hbm) : (s.updHbm n f).net = s.net := rfl
@[simp] theorem State.updHbm_cores (s : State) (n : Nat) (f : Hbm → Hbm) : (s.updHbm n f).cores = s.cores := rfl
@[simp] theorem State.updHbm_disp (s : State) (n : Nat) (f : Hbm → Hbm) : (s.updHbm n f).disp = s.disp := rfl
@[simp] theorem State.updHbm_keys (s : State) (n : Nat) (f : Hbm → Hbm) : (s.updHbm n f).keys = s.keys := rfl
@[simp] theorem State.updHbm_mix (s : State) (n : Nat) (f : Hbm → Hbm) : (s.updHbm n f).mix = s.mix := rfl
@[simp] theorem State.updHbm_video (s : State) (n : Nat) (f : Hbm → Hbm) : (s.updHbm n f).video = s.video := rfl
@[simp] theorem State.updHbm_trust (s : State) (n : Nat) (f : Hbm → Hbm) : (s.updHbm n f).trust = s.trust := rfl
@[simp] theorem State.updHbm_tst (s : State) (n : Nat) (f : Hbm → Hbm) : (s.updHbm n f).tst = s.tst := rfl

@[simp] theorem State.updTrust_pending (s : State) (f : Trust → Trust) : (s.updTrust f).pending = s.pending := rfl
@[simp] theorem State.updTrust_regs (s : State) (f : Trust → Trust) : (s.updTrust f).regs = s.regs := rfl
@[simp] theorem State.updTrust_cnts (s : State) (f : Trust → Trust) : (s.updTrust f).cnts = s.cnts := rfl
@[simp] theorem State.updTrust_fifos (s : State) (f : Trust → Trust) : (s.updTrust f).fifos = s.fifos := rfl
@[simp] theorem State.updTrust_bus (s : State) (f : Trust → Trust) : (s.updTrust f).bus = s.bus := rfl
@[simp] theorem State.updTrust_mem (s : State) (f : Trust → Trust) : (s.updTrust f).mem = s.mem := rfl
@[simp] theorem State.updTrust_csram (s : State) (f : Trust → Trust) : (s.updTrust f).csram = s.csram := rfl
@[simp] theorem State.updTrust_out (s : State) (f : Trust → Trust) : (s.updTrust f).out = s.out := rfl
@[simp] theorem State.updTrust_freeCtr (s : State) (f : Trust → Trust) : (s.updTrust f).freeCtr = s.freeCtr := rfl
@[simp] theorem State.updTrust_time (s : State) (f : Trust → Trust) : (s.updTrust f).time = s.time := rfl
@[simp] theorem State.updTrust_power (s : State) (f : Trust → Trust) : (s.updTrust f).power = s.power := rfl
@[simp] theorem State.updTrust_vusta (s : State) (f : Trust → Trust) : (s.updTrust f).vusta = s.vusta := rfl
@[simp] theorem State.updTrust_net (s : State) (f : Trust → Trust) : (s.updTrust f).net = s.net := rfl
@[simp] theorem State.updTrust_cores (s : State) (f : Trust → Trust) : (s.updTrust f).cores = s.cores := rfl
@[simp] theorem State.updTrust_disp (s : State) (f : Trust → Trust) : (s.updTrust f).disp = s.disp := rfl
@[simp] theorem State.updTrust_keys (s : State) (f : Trust → Trust) : (s.updTrust f).keys = s.keys := rfl
@[simp] theorem State.updTrust_mix (s : State) (f : Trust → Trust) : (s.updTrust f).mix = s.mix := rfl
@[simp] theorem State.updTrust_video (s : State) (f : Trust → Trust) : (s.updTrust f).video = s.video := rfl
@[simp] theorem State.updTrust_hbm (s : State) (f : Trust → Trust) : (s.updTrust f).hbm = s.hbm := rfl
@[simp] theorem State.updTrust_tst (s : State) (f : Trust → Trust) : (s.updTrust f).tst = s.tst := rfl

@[simp] theorem State.updTst_pending (s : State) (f : Tst → Tst) : (s.updTst f).pending = s.pending := rfl
@[simp] theorem State.updTst_regs (s : State) (f : Tst → Tst) : (s.updTst f).regs = s.regs := rfl
@[simp] theorem State.updTst_cnts (s : State) (f : Tst → Tst) : (s.updTst f).cnts = s.cnts := rfl
@[simp] theorem State.updTst_fifos (s : State) (f : Tst → Tst) : (s.updTst f).fifos = s.fifos := rfl
@[simp] theorem State.updTst_bus (s : State) (f : Tst → Tst) : (s.updTst f).bus = s.bus := rfl
@[simp] theorem State.updTst_mem (s : State) (f : Tst → Tst) : (s.updTst f).mem = s.mem := rfl
@[simp] theorem State.updTst_csram (s : State) (f : Tst → Tst) : (s.updTst f).csram = s.csram := rfl
@[simp] theorem State.updTst_out (s : State) (f : Tst → Tst) : (s.updTst f).out = s.out := rfl
@[simp] theorem State.updTst_freeCtr (s : State) (f : Tst → Tst) : (s.updTst f).freeCtr = s.freeCtr := rfl
@[simp] theorem State.updTst_time (s : State) (f : Tst → Tst) : (s.updTst f).time = s.time := rfl
@[simp] theorem State.updTst_power (s : State) (f : Tst → Tst) : (s.updTst f).power = s.power := rfl
@[simp] theorem State.updTst_vusta (s : State) (f : Tst → Tst) : (s.updTst f).vusta = s.vusta := rfl
@[simp] theorem State.updTst_net (s : State) (f : Tst → Tst) : (s.updTst f).net = s.net := rfl
@[simp] theorem State.updTst_cores (s : State) (f : Tst → Tst) : (s.updTst f).cores = s.cores := rfl
@[simp] theorem State.updTst_disp (s : State) (f : Tst → Tst) : (s.updTst f).disp = s.disp := rfl
@[simp] theorem State.updTst_keys (s : State) (f : Tst → Tst) : (s.updTst f).keys = s.keys := rfl
@[simp] theorem State.updTst_mix (s : State) (f : Tst → Tst) : (s.updTst f).mix = s.mix := rfl
@[simp] theorem State.updTst_video (s : State) (f : Tst → Tst) : (s.updTst f).video = s.video := rfl
@[simp] theorem State.updTst_hbm (s : State) (f : Tst → Tst) : (s.updTst f).hbm = s.hbm := rfl
@[simp] theorem State.updTst_trust (s : State) (f : Tst → Tst) : (s.updTst f).trust = s.trust := rfl

@[simp] theorem State.setCore_pending (s : State) (c : Nat) (k : Core) : (s.setCore c k).pending = s.pending := rfl
@[simp] theorem State.setCore_regs (s : State) (c : Nat) (k : Core) : (s.setCore c k).regs = s.regs := rfl
@[simp] theorem State.setCore_cnts (s : State) (c : Nat) (k : Core) : (s.setCore c k).cnts = s.cnts := rfl
@[simp] theorem State.setCore_fifos (s : State) (c : Nat) (k : Core) : (s.setCore c k).fifos = s.fifos := rfl
@[simp] theorem State.setCore_bus (s : State) (c : Nat) (k : Core) : (s.setCore c k).bus = s.bus := rfl
@[simp] theorem State.setCore_mem (s : State) (c : Nat) (k : Core) : (s.setCore c k).mem = s.mem := rfl
@[simp] theorem State.setCore_csram (s : State) (c : Nat) (k : Core) : (s.setCore c k).csram = s.csram := rfl
@[simp] theorem State.setCore_out (s : State) (c : Nat) (k : Core) : (s.setCore c k).out = s.out := rfl
@[simp] theorem State.setCore_freeCtr (s : State) (c : Nat) (k : Core) : (s.setCore c k).freeCtr = s.freeCtr := rfl
@[simp] theorem State.setCore_time (s : State) (c : Nat) (k : Core) : (s.setCore c k).time = s.time := rfl
@[simp] theorem State.setCore_power (s : State) (c : Nat) (k : Core) : (s.setCore c k).power = s.power := rfl
@[simp] theorem State.setCore_vusta (s : State) (c : Nat) (k : Core) : (s.setCore c k).vusta = s.vusta := rfl
@[simp] theorem State.setCore_net (s : State) (c : Nat) (k : Core) : (s.setCore c k).net = s.net := rfl
@[simp] theorem State.setCore_disp (s : State) (c : Nat) (k : Core) : (s.setCore c k).disp = s.disp := rfl
@[simp] theorem State.setCore_keys (s : State) (c : Nat) (k : Core) : (s.setCore c k).keys = s.keys := rfl
@[simp] theorem State.setCore_mix (s : State) (c : Nat) (k : Core) : (s.setCore c k).mix = s.mix := rfl
@[simp] theorem State.setCore_video (s : State) (c : Nat) (k : Core) : (s.setCore c k).video = s.video := rfl
@[simp] theorem State.setCore_hbm (s : State) (c : Nat) (k : Core) : (s.setCore c k).hbm = s.hbm := rfl
@[simp] theorem State.setCore_trust (s : State) (c : Nat) (k : Core) : (s.setCore c k).trust = s.trust := rfl
@[simp] theorem State.setCore_tst (s : State) (c : Nat) (k : Core) : (s.setCore c k).tst = s.tst := rfl

@[simp] theorem State.setSlot_pending (s : State) (k : Nat) (v : KeySlot) : (s.setSlot k v).pending = s.pending := rfl
@[simp] theorem State.setSlot_regs (s : State) (k : Nat) (v : KeySlot) : (s.setSlot k v).regs = s.regs := rfl
@[simp] theorem State.setSlot_cnts (s : State) (k : Nat) (v : KeySlot) : (s.setSlot k v).cnts = s.cnts := rfl
@[simp] theorem State.setSlot_fifos (s : State) (k : Nat) (v : KeySlot) : (s.setSlot k v).fifos = s.fifos := rfl
@[simp] theorem State.setSlot_bus (s : State) (k : Nat) (v : KeySlot) : (s.setSlot k v).bus = s.bus := rfl
@[simp] theorem State.setSlot_mem (s : State) (k : Nat) (v : KeySlot) : (s.setSlot k v).mem = s.mem := rfl
@[simp] theorem State.setSlot_csram (s : State) (k : Nat) (v : KeySlot) : (s.setSlot k v).csram = s.csram := rfl
@[simp] theorem State.setSlot_out (s : State) (k : Nat) (v : KeySlot) : (s.setSlot k v).out = s.out := rfl
@[simp] theorem State.setSlot_freeCtr (s : State) (k : Nat) (v : KeySlot) : (s.setSlot k v).freeCtr = s.freeCtr := rfl
@[simp] theorem State.setSlot_time (s : State) (k : Nat) (v : KeySlot) : (s.setSlot k v).time = s.time := rfl
@[simp] theorem State.setSlot_power (s : State) (k : Nat) (v : KeySlot) : (s.setSlot k v).power = s.power := rfl
@[simp] theorem State.setSlot_vusta (s : State) (k : Nat) (v : KeySlot) : (s.setSlot k v).vusta = s.vusta := rfl
@[simp] theorem State.setSlot_net (s : State) (k : Nat) (v : KeySlot) : (s.setSlot k v).net = s.net := rfl
@[simp] theorem State.setSlot_cores (s : State) (k : Nat) (v : KeySlot) : (s.setSlot k v).cores = s.cores := rfl
@[simp] theorem State.setSlot_disp (s : State) (k : Nat) (v : KeySlot) : (s.setSlot k v).disp = s.disp := rfl
@[simp] theorem State.setSlot_mix (s : State) (k : Nat) (v : KeySlot) : (s.setSlot k v).mix = s.mix := rfl
@[simp] theorem State.setSlot_video (s : State) (k : Nat) (v : KeySlot) : (s.setSlot k v).video = s.video := rfl
@[simp] theorem State.setSlot_hbm (s : State) (k : Nat) (v : KeySlot) : (s.setSlot k v).hbm = s.hbm := rfl
@[simp] theorem State.setSlot_trust (s : State) (k : Nat) (v : KeySlot) : (s.setSlot k v).trust = s.trust := rfl
@[simp] theorem State.setSlot_tst (s : State) (k : Nat) (v : KeySlot) : (s.setSlot k v).tst = s.tst := rfl

@[simp] theorem State.setDispQ_pending (s : State) (q : Nat) (d : DispQ) : (s.setDispQ q d).pending = s.pending := rfl
@[simp] theorem State.setDispQ_regs (s : State) (q : Nat) (d : DispQ) : (s.setDispQ q d).regs = s.regs := rfl
@[simp] theorem State.setDispQ_cnts (s : State) (q : Nat) (d : DispQ) : (s.setDispQ q d).cnts = s.cnts := rfl
@[simp] theorem State.setDispQ_fifos (s : State) (q : Nat) (d : DispQ) : (s.setDispQ q d).fifos = s.fifos := rfl
@[simp] theorem State.setDispQ_bus (s : State) (q : Nat) (d : DispQ) : (s.setDispQ q d).bus = s.bus := rfl
@[simp] theorem State.setDispQ_mem (s : State) (q : Nat) (d : DispQ) : (s.setDispQ q d).mem = s.mem := rfl
@[simp] theorem State.setDispQ_csram (s : State) (q : Nat) (d : DispQ) : (s.setDispQ q d).csram = s.csram := rfl
@[simp] theorem State.setDispQ_out (s : State) (q : Nat) (d : DispQ) : (s.setDispQ q d).out = s.out := rfl
@[simp] theorem State.setDispQ_freeCtr (s : State) (q : Nat) (d : DispQ) : (s.setDispQ q d).freeCtr = s.freeCtr := rfl
@[simp] theorem State.setDispQ_time (s : State) (q : Nat) (d : DispQ) : (s.setDispQ q d).time = s.time := rfl
@[simp] theorem State.setDispQ_power (s : State) (q : Nat) (d : DispQ) : (s.setDispQ q d).power = s.power := rfl
@[simp] theorem State.setDispQ_vusta (s : State) (q : Nat) (d : DispQ) : (s.setDispQ q d).vusta = s.vusta := rfl
@[simp] theorem State.setDispQ_net (s : State) (q : Nat) (d : DispQ) : (s.setDispQ q d).net = s.net := rfl
@[simp] theorem State.setDispQ_cores (s : State) (q : Nat) (d : DispQ) : (s.setDispQ q d).cores = s.cores := rfl
@[simp] theorem State.setDispQ_keys (s : State) (q : Nat) (d : DispQ) : (s.setDispQ q d).keys = s.keys := rfl
@[simp] theorem State.setDispQ_mix (s : State) (q : Nat) (d : DispQ) : (s.setDispQ q d).mix = s.mix := rfl
@[simp] theorem State.setDispQ_video (s : State) (q : Nat) (d : DispQ) : (s.setDispQ q d).video = s.video := rfl
@[simp] theorem State.setDispQ_hbm (s : State) (q : Nat) (d : DispQ) : (s.setDispQ q d).hbm = s.hbm := rfl
@[simp] theorem State.setDispQ_trust (s : State) (q : Nat) (d : DispQ) : (s.setDispQ q d).trust = s.trust := rfl
@[simp] theorem State.setDispQ_tst (s : State) (q : Nat) (d : DispQ) : (s.setDispQ q d).tst = s.tst := rfl

@[simp] theorem State.unpost_pending (s : State) (p : Path) : (s.unpost p).pending = s.pending := rfl
@[simp] theorem State.unpost_regs (s : State) (p : Path) : (s.unpost p).regs = s.regs := rfl
@[simp] theorem State.unpost_cnts (s : State) (p : Path) : (s.unpost p).cnts = s.cnts := rfl
@[simp] theorem State.unpost_fifos (s : State) (p : Path) : (s.unpost p).fifos = s.fifos := rfl
@[simp] theorem State.unpost_bus (s : State) (p : Path) : (s.unpost p).bus = s.bus := rfl
@[simp] theorem State.unpost_mem (s : State) (p : Path) : (s.unpost p).mem = s.mem := rfl
@[simp] theorem State.unpost_csram (s : State) (p : Path) : (s.unpost p).csram = s.csram := rfl
@[simp] theorem State.unpost_out (s : State) (p : Path) : (s.unpost p).out = s.out := rfl
@[simp] theorem State.unpost_freeCtr (s : State) (p : Path) : (s.unpost p).freeCtr = s.freeCtr := rfl
@[simp] theorem State.unpost_time (s : State) (p : Path) : (s.unpost p).time = s.time := rfl
@[simp] theorem State.unpost_power (s : State) (p : Path) : (s.unpost p).power = s.power := rfl
@[simp] theorem State.unpost_net (s : State) (p : Path) : (s.unpost p).net = s.net := rfl
@[simp] theorem State.unpost_cores (s : State) (p : Path) : (s.unpost p).cores = s.cores := rfl
@[simp] theorem State.unpost_disp (s : State) (p : Path) : (s.unpost p).disp = s.disp := rfl
@[simp] theorem State.unpost_keys (s : State) (p : Path) : (s.unpost p).keys = s.keys := rfl
@[simp] theorem State.unpost_mix (s : State) (p : Path) : (s.unpost p).mix = s.mix := rfl
@[simp] theorem State.unpost_video (s : State) (p : Path) : (s.unpost p).video = s.video := rfl
@[simp] theorem State.unpost_hbm (s : State) (p : Path) : (s.unpost p).hbm = s.hbm := rfl
@[simp] theorem State.unpost_trust (s : State) (p : Path) : (s.unpost p).trust = s.trust := rfl
@[simp] theorem State.unpost_tst (s : State) (p : Path) : (s.unpost p).tst = s.tst := rfl

@[simp] theorem State.freeWord_pending (s : State) : s.freeWord.2.pending = s.pending := rfl
@[simp] theorem State.freeWord_regs (s : State) : s.freeWord.2.regs = s.regs := rfl
@[simp] theorem State.freeWord_cnts (s : State) : s.freeWord.2.cnts = s.cnts := rfl
@[simp] theorem State.freeWord_fifos (s : State) : s.freeWord.2.fifos = s.fifos := rfl
@[simp] theorem State.freeWord_bus (s : State) : s.freeWord.2.bus = s.bus := rfl
@[simp] theorem State.freeWord_mem (s : State) : s.freeWord.2.mem = s.mem := rfl
@[simp] theorem State.freeWord_csram (s : State) : s.freeWord.2.csram = s.csram := rfl
@[simp] theorem State.freeWord_out (s : State) : s.freeWord.2.out = s.out := rfl
@[simp] theorem State.freeWord_time (s : State) : s.freeWord.2.time = s.time := rfl
@[simp] theorem State.freeWord_power (s : State) : s.freeWord.2.power = s.power := rfl
@[simp] theorem State.freeWord_vusta (s : State) : s.freeWord.2.vusta = s.vusta := rfl
@[simp] theorem State.freeWord_net (s : State) : s.freeWord.2.net = s.net := rfl
@[simp] theorem State.freeWord_cores (s : State) : s.freeWord.2.cores = s.cores := rfl
@[simp] theorem State.freeWord_disp (s : State) : s.freeWord.2.disp = s.disp := rfl
@[simp] theorem State.freeWord_keys (s : State) : s.freeWord.2.keys = s.keys := rfl
@[simp] theorem State.freeWord_mix (s : State) : s.freeWord.2.mix = s.mix := rfl
@[simp] theorem State.freeWord_video (s : State) : s.freeWord.2.video = s.video := rfl
@[simp] theorem State.freeWord_hbm (s : State) : s.freeWord.2.hbm = s.hbm := rfl
@[simp] theorem State.freeWord_trust (s : State) : s.freeWord.2.trust = s.trust := rfl
@[simp] theorem State.freeWord_tst (s : State) : s.freeWord.2.tst = s.tst := rfl

@[simp] theorem State.notify_pending (s : State) (a b c : Nat) (l : List Nat) : (s.notify a b c l).pending = s.pending := by
  unfold State.notify
  split <;> rfl
@[simp] theorem State.notify_regs (s : State) (a b c : Nat) (l : List Nat) : (s.notify a b c l).regs = s.regs := by
  unfold State.notify
  split <;> rfl
@[simp] theorem State.notify_cnts (s : State) (a b c : Nat) (l : List Nat) : (s.notify a b c l).cnts = s.cnts := by
  unfold State.notify
  split <;> rfl
@[simp] theorem State.notify_fifos (s : State) (a b c : Nat) (l : List Nat) : (s.notify a b c l).fifos = s.fifos := by
  unfold State.notify
  split <;> rfl
@[simp] theorem State.notify_bus (s : State) (a b c : Nat) (l : List Nat) : (s.notify a b c l).bus = s.bus := by
  unfold State.notify
  split <;> rfl
@[simp] theorem State.notify_mem (s : State) (a b c : Nat) (l : List Nat) : (s.notify a b c l).mem = s.mem := by
  unfold State.notify
  split <;> rfl
@[simp] theorem State.notify_csram (s : State) (a b c : Nat) (l : List Nat) : (s.notify a b c l).csram = s.csram := by
  unfold State.notify
  split <;> rfl
@[simp] theorem State.notify_out (s : State) (a b c : Nat) (l : List Nat) : (s.notify a b c l).out = s.out := by
  unfold State.notify
  split <;> rfl
@[simp] theorem State.notify_freeCtr (s : State) (a b c : Nat) (l : List Nat) : (s.notify a b c l).freeCtr = s.freeCtr := by
  unfold State.notify
  split <;> rfl
@[simp] theorem State.notify_time (s : State) (a b c : Nat) (l : List Nat) : (s.notify a b c l).time = s.time := by
  unfold State.notify
  split <;> rfl
@[simp] theorem State.notify_power (s : State) (a b c : Nat) (l : List Nat) : (s.notify a b c l).power = s.power := by
  unfold State.notify
  split <;> rfl
@[simp] theorem State.notify_net (s : State) (a b c : Nat) (l : List Nat) : (s.notify a b c l).net = s.net := by
  unfold State.notify
  split <;> rfl
@[simp] theorem State.notify_cores (s : State) (a b c : Nat) (l : List Nat) : (s.notify a b c l).cores = s.cores := by
  unfold State.notify
  split <;> rfl
@[simp] theorem State.notify_disp (s : State) (a b c : Nat) (l : List Nat) : (s.notify a b c l).disp = s.disp := by
  unfold State.notify
  split <;> rfl
@[simp] theorem State.notify_keys (s : State) (a b c : Nat) (l : List Nat) : (s.notify a b c l).keys = s.keys := by
  unfold State.notify
  split <;> rfl
@[simp] theorem State.notify_mix (s : State) (a b c : Nat) (l : List Nat) : (s.notify a b c l).mix = s.mix := by
  unfold State.notify
  split <;> rfl
@[simp] theorem State.notify_video (s : State) (a b c : Nat) (l : List Nat) : (s.notify a b c l).video = s.video := by
  unfold State.notify
  split <;> rfl
@[simp] theorem State.notify_hbm (s : State) (a b c : Nat) (l : List Nat) : (s.notify a b c l).hbm = s.hbm := by
  unfold State.notify
  split <;> rfl
@[simp] theorem State.notify_trust (s : State) (a b c : Nat) (l : List Nat) : (s.notify a b c l).trust = s.trust := by
  unfold State.notify
  split <;> rfl
@[simp] theorem State.notify_tst (s : State) (a b c : Nat) (l : List Nat) : (s.notify a b c l).tst = s.tst := by
  unfold State.notify
  split <;> rfl

@[simp] theorem State.dma_pending (s : State) (a b : Nat) (l : List Nat) : (s.dma a b l).pending = s.pending := by
  unfold State.dma
  split <;> rfl
@[simp] theorem State.dma_regs (s : State) (a b : Nat) (l : List Nat) : (s.dma a b l).regs = s.regs := by
  unfold State.dma
  split <;> rfl
@[simp] theorem State.dma_cnts (s : State) (a b : Nat) (l : List Nat) : (s.dma a b l).cnts = s.cnts := by
  unfold State.dma
  split <;> rfl
@[simp] theorem State.dma_fifos (s : State) (a b : Nat) (l : List Nat) : (s.dma a b l).fifos = s.fifos := by
  unfold State.dma
  split <;> rfl
@[simp] theorem State.dma_bus (s : State) (a b : Nat) (l : List Nat) : (s.dma a b l).bus = s.bus := by
  unfold State.dma
  split <;> rfl
@[simp] theorem State.dma_mem (s : State) (a b : Nat) (l : List Nat) : (s.dma a b l).mem = s.mem := by
  unfold State.dma
  split <;> rfl
@[simp] theorem State.dma_csram (s : State) (a b : Nat) (l : List Nat) : (s.dma a b l).csram = s.csram := by
  unfold State.dma
  split <;> rfl
@[simp] theorem State.dma_freeCtr (s : State) (a b : Nat) (l : List Nat) : (s.dma a b l).freeCtr = s.freeCtr := by
  unfold State.dma
  split <;> rfl
@[simp] theorem State.dma_time (s : State) (a b : Nat) (l : List Nat) : (s.dma a b l).time = s.time := by
  unfold State.dma
  split <;> rfl
@[simp] theorem State.dma_power (s : State) (a b : Nat) (l : List Nat) : (s.dma a b l).power = s.power := by
  unfold State.dma
  split <;> rfl
@[simp] theorem State.dma_vusta (s : State) (a b : Nat) (l : List Nat) : (s.dma a b l).vusta = s.vusta := by
  unfold State.dma
  split <;> rfl
@[simp] theorem State.dma_net (s : State) (a b : Nat) (l : List Nat) : (s.dma a b l).net = s.net := by
  unfold State.dma
  split <;> rfl
@[simp] theorem State.dma_cores (s : State) (a b : Nat) (l : List Nat) : (s.dma a b l).cores = s.cores := by
  unfold State.dma
  split <;> rfl
@[simp] theorem State.dma_disp (s : State) (a b : Nat) (l : List Nat) : (s.dma a b l).disp = s.disp := by
  unfold State.dma
  split <;> rfl
@[simp] theorem State.dma_keys (s : State) (a b : Nat) (l : List Nat) : (s.dma a b l).keys = s.keys := by
  unfold State.dma
  split <;> rfl
@[simp] theorem State.dma_mix (s : State) (a b : Nat) (l : List Nat) : (s.dma a b l).mix = s.mix := by
  unfold State.dma
  split <;> rfl
@[simp] theorem State.dma_video (s : State) (a b : Nat) (l : List Nat) : (s.dma a b l).video = s.video := by
  unfold State.dma
  split <;> rfl
@[simp] theorem State.dma_hbm (s : State) (a b : Nat) (l : List Nat) : (s.dma a b l).hbm = s.hbm := by
  unfold State.dma
  split <;> rfl
@[simp] theorem State.dma_trust (s : State) (a b : Nat) (l : List Nat) : (s.dma a b l).trust = s.trust := by
  unfold State.dma
  split <;> rfl
@[simp] theorem State.dma_tst (s : State) (a b : Nat) (l : List Nat) : (s.dma a b l).tst = s.tst := by
  unfold State.dma
  split <;> rfl

end Sys2Proof.Machine
end

