-- ==== Sys2Proof/Laws/Objects.lean ====
section
/-! SUPPORT. Objects, cores, engines and FIFOs: what a named update of one leaves at its own number and at the others. -/

namespace Sys2Proof.Machine

/-! ### Updates that create the record -/

@[simp] theorem State.core_setCore_same (s : State) (c : Nat) (x : Core) : (s.setCore c x).core c = x := Tbl.get_set_same _ _ _ _
theorem State.core_setCore_ne (s : State) {c j : Nat} (x : Core) (h : j ≠ c) : (s.setCore c x).core j = s.core j :=
  Tbl.get_set_ne s.cores _ x h
@[simp] theorem State.ent_setEnt_same (s : State) (b : Nat) (x : PoolEnt) : (s.setEnt b x).ent b = x := Tbl.get_set_same _ _ _ _
theorem State.ent_setEnt_ne (s : State) {b j : Nat} (x : PoolEnt) (h : j ≠ b) : (s.setEnt b x).ent j = s.ent j :=
  Tbl.get_set_ne s.video.pool.ents _ x h
@[simp] theorem State.ringX_setRingX_same (s : State) (r : Nat) (x : RingX) : (s.setRingX r x).ringX r = x := Tbl.get_set_same _ _ _ _
theorem State.ringX_setRingX_ne (s : State) {r j : Nat} (x : RingX) (h : j ≠ r) : (s.setRingX r x).ringX j = s.ringX j :=
  Tbl.get_set_ne s.vusta.rings _ x h
@[simp] theorem State.port_updPort_same (s : State) (n : Nat) (f : Port → Port) : (s.updPort n f).port n = f (s.port n) :=
  Tbl.get_updD_same s.net.ports _ n f
theorem State.port_updPort_ne (s : State) {n j : Nat} (f : Port → Port) (h : j ≠ n) : (s.updPort n f).port j = s.port j :=
  Tbl.get_updD_ne s.net.ports _ f h
@[simp] theorem State.hbmc_updHbm_same (s : State) (n : Nat) (f : Hbm → Hbm) : (s.updHbm n f).hbmc n = f (s.hbmc n) :=
  Tbl.get_updD_same s.hbm _ n f
theorem State.hbmc_updHbm_ne (s : State) {n j : Nat} (f : Hbm → Hbm) (h : j ≠ n) : (s.updHbm n f).hbmc j = s.hbmc j :=
  Tbl.get_updD_ne s.hbm _ f h
@[simp] theorem State.eng_updEng_same (s : State) (n : Nat) (f : DecEng → DecEng) : (s.updEng n f).eng n = f (s.eng n) :=
  Tbl.get_updD_same s.video.eng _ n f
theorem State.eng_updEng_ne (s : State) {n j : Nat} (f : DecEng → DecEng) (h : j ≠ n) : (s.updEng n f).eng j = s.eng j :=
  Tbl.get_updD_ne s.video.eng _ f h
@[simp] theorem State.encEng_updEnc_same (s : State) (n : Nat) (f : EncEng → EncEng) : (s.updEnc n f).encEng n = f (s.encEng n) :=
  Tbl.get_updD_same s.video.enc _ n f
theorem State.encEng_updEnc_ne (s : State) {n j : Nat} (f : EncEng → EncEng) (h : j ≠ n) : (s.updEnc n f).encEng j = s.encEng j :=
  Tbl.get_updD_ne s.video.enc _ f h
@[simp] theorem State.fifo_setFifo_same (s : State) (f : FifoId) (x : Fifo) : (s.setFifo f x).fifo f = x := Tbl.get_set_same _ _ _ _
theorem State.fifo_setFifo_ne (s : State) {f g : FifoId} (x : Fifo) (h : fifoKey g ≠ fifoKey f) : (s.setFifo f x).fifo g = s.fifo g :=
  Tbl.get_set_ne s.fifos _ x h

/-! ### Updates of an object that exists -/

@[simp] theorem State.find_updLeg_same (s : State) (i : Nat) (f : Leg → Leg) :
    Tbl.find (s.updLeg i f).net.legs i = (Tbl.find s.net.legs i).map f := Tbl.find_upd_same _ _ _
theorem State.leg_updLeg_same (s : State) {i : Nat} {x : Leg} (f : Leg → Leg) (h : Tbl.find s.net.legs i = some x) :
    (s.updLeg i f).leg i = f x := by
  simp [State.leg, Tbl.get, h]
theorem State.leg_updLeg_ne (s : State) {i j : Nat} (f : Leg → Leg) (h : j ≠ i) : (s.updLeg i f).leg j = s.leg j := by
  simp only [State.leg, Tbl.get]
  exact congrArg (Option.getD · {}) (Tbl.find_upd_ne s.net.legs f h)
@[simp] theorem State.find_updStream_same (s : State) (i : Nat) (f : Stream → Stream) :
    Tbl.find (s.updStream i f).net.streams i = (Tbl.find s.net.streams i).map f := Tbl.find_upd_same _ _ _
theorem State.stream_updStream_same (s : State) {i : Nat} {x : Stream} (f : Stream → Stream) (h : Tbl.find s.net.streams i = some x) :
    (s.updStream i f).stream i = f x := by
  simp [State.stream, Tbl.get, h]
theorem State.stream_updStream_ne (s : State) {i j : Nat} (f : Stream → Stream) (h : j ≠ i) : (s.updStream i f).stream j = s.stream j := by
  simp only [State.stream, Tbl.get]
  exact congrArg (Option.getD · {}) (Tbl.find_upd_ne s.net.streams f h)
@[simp] theorem State.find_updConf_same (s : State) (i : Nat) (f : Conf → Conf) :
    Tbl.find (s.updConf i f).mix.confs i = (Tbl.find s.mix.confs i).map f := Tbl.find_upd_same _ _ _
theorem State.conf_updConf_same (s : State) {i : Nat} {x : Conf} (f : Conf → Conf) (h : Tbl.find s.mix.confs i = some x) :
    (s.updConf i f).conf i = f x := by
  simp [State.conf, Tbl.get, h]
theorem State.conf_updConf_ne (s : State) {i j : Nat} (f : Conf → Conf) (h : j ≠ i) : (s.updConf i f).conf j = s.conf j := by
  simp only [State.conf, Tbl.get]
  exact congrArg (Option.getD · {}) (Tbl.find_upd_ne s.mix.confs f h)
@[simp] theorem State.find_updSource_same (s : State) (i : Nat) (f : Source → Source) :
    Tbl.find (s.updSource i f).mix.sources i = (Tbl.find s.mix.sources i).map f := Tbl.find_upd_same _ _ _
theorem State.source_updSource_same (s : State) {i : Nat} {x : Source} (f : Source → Source) (h : Tbl.find s.mix.sources i = some x) :
    (s.updSource i f).source i = f x := by
  simp [State.source, Tbl.get, h]
theorem State.source_updSource_ne (s : State) {i j : Nat} (f : Source → Source) (h : j ≠ i) : (s.updSource i f).source j = s.source j := by
  simp only [State.source, Tbl.get]
  exact congrArg (Option.getD · {}) (Tbl.find_upd_ne s.mix.sources f h)
@[simp] theorem State.find_updCls_same (s : State) (i : Nat) (f : MixClass → MixClass) :
    Tbl.find (s.updCls i f).mix.classes i = (Tbl.find s.mix.classes i).map f := Tbl.find_upd_same _ _ _
theorem State.cls_updCls_same (s : State) {i : Nat} {x : MixClass} (f : MixClass → MixClass) (h : Tbl.find s.mix.classes i = some x) :
    (s.updCls i f).cls i = f x := by
  simp [State.cls, Tbl.get, h]
theorem State.cls_updCls_ne (s : State) {i j : Nat} (f : MixClass → MixClass) (h : j ≠ i) : (s.updCls i f).cls j = s.cls j := by
  simp only [State.cls, Tbl.get]
  exact congrArg (Option.getD · {}) (Tbl.find_upd_ne s.mix.classes f h)
@[simp] theorem State.find_updDec_same (s : State) (i : Nat) (f : DecCtx → DecCtx) :
    Tbl.find (s.updDec i f).video.decs i = (Tbl.find s.video.decs i).map f := Tbl.find_upd_same _ _ _
theorem State.dec_updDec_same (s : State) {i : Nat} {x : DecCtx} (f : DecCtx → DecCtx) (h : Tbl.find s.video.decs i = some x) :
    (s.updDec i f).dec i = f x := by
  simp [State.dec, Tbl.get, h]
theorem State.dec_updDec_ne (s : State) {i j : Nat} (f : DecCtx → DecCtx) (h : j ≠ i) : (s.updDec i f).dec j = s.dec j := by
  simp only [State.dec, Tbl.get]
  exact congrArg (Option.getD · {}) (Tbl.find_upd_ne s.video.decs f h)
@[simp] theorem State.find_updGroup_same (s : State) (i : Nat) (f : Group → Group) :
    Tbl.find (s.updGroup i f).video.groups i = (Tbl.find s.video.groups i).map f := Tbl.find_upd_same _ _ _
theorem State.group_updGroup_same (s : State) {i : Nat} {x : Group} (f : Group → Group) (h : Tbl.find s.video.groups i = some x) :
    (s.updGroup i f).group i = f x := by
  simp [State.group, Tbl.get, h]
theorem State.group_updGroup_ne (s : State) {i j : Nat} (f : Group → Group) (h : j ≠ i) : (s.updGroup i f).group j = s.group j := by
  simp only [State.group, Tbl.get]
  exact congrArg (Option.getD · {}) (Tbl.find_upd_ne s.video.groups f h)
@[simp] theorem State.find_updRend_same (s : State) (i : Nat) (f : Rend → Rend) :
    Tbl.find (s.updRend i f).video.rends i = (Tbl.find s.video.rends i).map f := Tbl.find_upd_same _ _ _
theorem State.rend_updRend_same (s : State) {i : Nat} {x : Rend} (f : Rend → Rend) (h : Tbl.find s.video.rends i = some x) :
    (s.updRend i f).rend i = f x := by
  simp [State.rend, Tbl.get, h]
theorem State.rend_updRend_ne (s : State) {i j : Nat} (f : Rend → Rend) (h : j ≠ i) : (s.updRend i f).rend j = s.rend j := by
  simp only [State.rend, Tbl.get]
  exact congrArg (Option.getD · {}) (Tbl.find_upd_ne s.video.rends f h)
@[simp] theorem State.find_updLayout_same (s : State) (i : Nat) (f : Layout → Layout) :
    Tbl.find (s.updLayout i f).video.layouts i = (Tbl.find s.video.layouts i).map f := Tbl.find_upd_same _ _ _
theorem State.layout_updLayout_same (s : State) {i : Nat} {x : Layout} (f : Layout → Layout) (h : Tbl.find s.video.layouts i = some x) :
    (s.updLayout i f).layout i = f x := by
  simp [State.layout, Tbl.get, h]
theorem State.layout_updLayout_ne (s : State) {i j : Nat} (f : Layout → Layout) (h : j ≠ i) : (s.updLayout i f).layout j = s.layout j := by
  simp only [State.layout, Tbl.get]
  exact congrArg (Option.getD · {}) (Tbl.find_upd_ne s.video.layouts f h)

end Sys2Proof.Machine
end

