-- ==== Sys2Proof/Laws/Core.lean ====
section
/-! SUPPORT. How a core comes to an instruction (R241, R242, R258): everything `State.issue` can do. -/

namespace Sys2Proof.Machine

variable {s : State} {c : Fin 516} {i : Instr} {f : State → Res}

/-- A core that does not run, or whose fetch fails, decodes nothing. -/
theorem issue_not_runs (h : ¬s.runs c.val) : s.issue c i f = f s := by
  have : (!s.coreRuns c.val || s.fetchFails c.val) = true := by
    simp only [State.runs, not_and, Bool.not_eq_false] at h
    cases hr : s.coreRuns c.val <;> simp_all
  simp [State.issue, this]

/-- From a clean line of the cache nothing is fetched again. -/
theorem State.refetch_clean {c : Nat} (h : c < 512 → (s.core c).icErr.contains (s.core c).line = false) : s.refetch c = s := by
  have hc : (!isCtl c && (s.core c).icErr.contains (s.core c).line) = false := by
    by_cases hn : c < 512
    · rw [h hn, Bool.and_false]
    · simp [isCtl, Nat.le_of_not_lt hn]
  simp only [State.refetch, hc, Bool.false_eq_true, if_false]

/-- Where the word is not known, the instruction has its effect. -/
theorem issue_unknown (h : s.runs c.val) (hw : s.wordAt c.val = none) : s.issue c i f = f (s.refetch c.val) := by
  simp [State.issue, h.1, h.2, hw]

/-- What a known word makes of an instruction: its effect, nothing, or one of the two faults. -/
theorem issue_known {w : Word} (h : s.runs c.val) (hw : s.wordAt c.val = some w) :
    s.issue c i f = match decodeCore (isCtl c.val) c w with
      | .run j => if plain i = j then f (s.refetch c.val) else .next s
      | .illegal => .next ((s.refetch c.val).coreFault c.val F_ILLEGAL 0)
      | .privileged => .next ((s.refetch c.val).coreFault c.val F_PRIVILEGED 0) := by
  simp only [State.issue, h.1, h.2, hw]
  cases decodeCore (isCtl c.val) c w <;> rfl

/-- A core that issues an instruction gives it its effect. -/
theorem issue_of_issues (h : s.issues c i) : s.issue c i f = f s := by
  obtain ⟨hr, hc, hd⟩ := h
  cases hw : s.wordAt c.val with
  | none => rw [issue_unknown hr hw, State.refetch_clean hc]
  | some w => rw [issue_known hr hw, hd w hw, State.refetch_clean hc]; exact if_pos rfl

/-! ### What the effect of an instruction makes of the state (R245, R257, R258) -/

/-- A core that does not run does nothing. -/
theorem runCore_idle {c : Nat} {g : State → Core → State × Eff} (h : s.coreRuns c = false) : s.runCore c g = s := by
  simp [State.runCore, h]

/-- A fetch that fails is FETCH. -/
theorem runCore_fetch {c : Nat} {g : State → Core → State × Eff} (h : s.coreRuns c = true) (hf : s.fetchFails c = true) :
    s.runCore c g = s.coreFault c F_FETCH (s.core c).pc.toNat := by
  simp [State.runCore, h, hf]

/-- The four effects of an instruction: the next instruction, a jump, a fault that leaves only its record, or a wait. -/
theorem runCore_of_runs {c : Nat} {g : State → Core → State × Eff} (h : s.runs c) :
    s.runCore c g = match g s (s.awake c) with
      | (t, .seq k) => t.setCore c (Core.loopEnd (s.awake c).pc 3 [] k)
      | (t, .jump k a) => t.setCore c { k with pc := a }
      | (_, .fault cause addr) => s.coreFault c cause addr
      | (t, .stay) => t := by
  unfold State.runCore
  simp only [h.1, h.2, Bool.not_true, Bool.false_eq_true, if_false]
  rfl

/-- An instruction that writes one general register retires with it. -/
theorem alu_of_runs {c : Nat} {d : BitVec 5} {g : Core → Word} (h : s.runs c) :
    s.alu c d g = s.retire c ((s.awake c).setg d (g (s.awake c))) := by
  unfold State.alu State.runK
  rw [runCore_of_runs h]
  rfl

end Sys2Proof.Machine
end

