-- ==== Sys2Proof/Laws/Vusta.lean ====
section
/-! SUPPORT. The path of a command that firmware takes: everything `runCmd` can do. -/

namespace Sys2Proof.Machine

variable {k : CmdSpec} {check : Cmd → State → Nat} {apply : Cmd → State → Reply} {c : Cmd} {s : State}

/-- A command that cannot be taken yet stays posted. -/
theorem runCmd_wait (h : (s.advance c.el).takeable c = false) : runCmd k check apply c s = s.advance c.el := by
  simp [runCmd, h]

/-- A refused command is answered with the status that refuses it. -/
theorem runCmd_refused (h : (s.advance c.el).takeable c = true) (hc : statusOf k check c (s.advance c.el) ≠ 0) :
    ∃ res, runCmd k check apply c s = (s.advance c.el).answer k c (statusOf k check c (s.advance c.el)) res ∧
      (c.dmaOk = true → res = []) := by
  refine ⟨if k.dma && !c.dmaOk && generic k c (s.advance c.el) == 0 && check c (s.advance c.el) == 0
    && statusOf k check c (s.advance c.el) == BAD_PARAM then [1] else [], ?_, fun hd => by simp [hd]⟩
  simp only [runCmd, h, if_true]
  rw [if_pos hc]

/-- A dry run is answered and has no effect. -/
theorem runCmd_dry (h : (s.advance c.el).takeable c = true) (hc : statusOf k check c (s.advance c.el) = 0) (hd : c.dry = true) :
    runCmd k check apply c s = (s.advance c.el).answer k c (apply c (s.advance c.el)).code [] := by
  simp [runCmd, h, hc, hd]

/-- An accepted command whose execution succeeds has its effect and is answered OK. -/
theorem runCmd_done (h : Accepted k check c s) (hr : (apply c (s.advance c.el)).code = 0) :
    runCmd k check apply c s = (apply c (s.advance c.el)).st.answer k c 0 (apply c (s.advance c.el)).res := by
  simp [runCmd, h.taken, h.passes, h.real, hr]

/-- An accepted command whose execution fails is answered with its code; what was done stays only where the reply says so. -/
theorem runCmd_failed (h : Accepted k check c s) (hr : (apply c (s.advance c.el)).code ≠ 0) :
    runCmd k check apply c s =
      (if (apply c (s.advance c.el)).keep then (apply c (s.advance c.el)).st else s.advance c.el).answer k c
        (apply c (s.advance c.el)).code (apply c (s.advance c.el)).res := by
  simp [runCmd, h.taken, h.passes, h.real, hr]

/-- The checks that follow a passed prefix decide. -/
theorem firstCode_cons_zero (l : List Nat) : firstCode (0 :: l) = firstCode l := by simp [firstCode]
theorem firstCode_cons_ne {x : Nat} (l : List Nat) (h : x ≠ 0) : firstCode (x :: l) = x := by simp [firstCode, h]
@[simp] theorem rejectIf_false (n : Nat) : rejectIf false n = 0 := rfl
@[simp] theorem rejectIf_true (n : Nat) : rejectIf true n = n := rfl

/-- An object of another tenant, or for a VF of another function, refuses the command (R371). -/
theorem ownFail_foreign {o : Own} {f : Nat} (hf : c.fn = some f) (h : o.fn / 64 ≠ c.tenant ∨ (c.isVf = true ∧ o.fn ≠ c.fnN)) :
    ownFail c o = NOT_OWNER := by
  unfold ownFail
  rw [if_pos]
  rcases h with h | ⟨h1, h2⟩
  · simp [hf, h]
  · simp [hf, h1, h2]

end Sys2Proof.Machine
end

