-- ==== Sys2Proof/WellFormed.lean ====
section
/-! DEFINITION. Which commands are well formed: operands within the ranges that the spec gives them. The step runs ill-formed
ones too, by the same meanings; a test or a claim that needs a range asks for it here. -/

namespace Sys2Proof

/-- A Vusta message has at most 14 payload words, and comes by a command channel or a command ring (R351, R354). -/
def Cmd.wf (c : Cmd) : Bool :=
  decide (c.pay.length ≤ 14) && match c.via with
    | .mbx ch => decide (ch.val < 2) || (decide (4 ≤ ch.val) && decide ((ch.val - 4) % 15 < 12))
    | .ring _ => true

/-- A register access is a word access inside the agent's space: a BAR0 (R390), or the 40-bit bridge space (R26). -/
def addrWf (a : Agent) (addr : Nat) : Bool :=
  addr % 4 == 0 && match a with
    | .host _ => decide (addr < 0x10000)
    | _ => decide (addr < 2 ^ 40)

/-- An item has at most 16 words (R35). -/
def itemsWf (l : List (List Word)) : Bool := l.all fun i => decide (i.length ≤ 16)

/-- Is a command well formed? -/
def Instr.wf : Instr → Bool
  | .registerWrite a addr _ => addrWf a addr
  | .counterLatchRead a addr => addrWf a addr
  | .fifoPidxWrite _ _ _ items => itemsWf items
  | .fifoCidxWrite _ _ _ => true
  | .fifoDataRead _ _ => true
  | .fifoFlush _ _ => true
  | .dropRest _ _ => true
  | .fifoHwPublish _ items _ => itemsWf items && !items.isEmpty
  | .ethPcfgWrite _ _ => true
  | .anResolved _ _ _ _ => true
  | .anRestartTimeout _ => true
  | .linkChange _ _ => true
  | .effectiveMinApply _ => true
  | .frameReceived _ _ bytes _ _ => decide (bytes.length ≤ 65535)
  | .srtpDecrypt _ _ _ _ _ => true
  | .strataForward _ _ => true
  | .egressSelect _ _ => true
  | .srtpEncrypt _ _ => true
  | .tenantBucketFull _ _ _ => true
  | .gateEntryAdvance _ _ => true
  | .gateListSwitch _ _ => true
  | .layerTargetApply => true
  | .shaperTargetApply _ => true
  | .estimateApply _ _ run _ => run.outs.all fun o => decide (o.sub < 131072) && o.layers.all fun l => decide (l.1 < 4 ∧ l.2.1 < 8)
  | .loupeSample _ _ _ => true
  | .tolkuKeepalive _ => true
  | .cascadePeerTimeout _ _ => true
  | .legCreate c => c.wf
  | .legModify c => c.wf
  | .legDestroy c => c.wf
  | .legQuery c => c.wf
  | .streamCreate c => c.wf
  | .streamDestroy c => c.wf
  | .streamSubscribe c => c.wf
  | .streamModify c => c.wf
  | .streamUnsubscribe c => c.wf
  | .streamQuery c => c.wf
  | .cascadePeerAdd c => c.wf
  | .cascadePeerRemove c => c.wf
  | .cascadeSetDevid c => c.wf
  | .qosPolicerSet c => c.wf
  | .qosDscpMapSet c => c.wf
  | .qosQueueCfg c => c.wf
  | .qosShaperSet c => c.wf
  | .qosClassSet c => c.wf
  | .qosPortSet c => c.wf
  | .qosGateSet c => c.wf
  | .qosTenantSet c => c.wf
  | .qosEstCfg c => c.wf
  | .qosSamplerSet c => c.wf
  | .qosQueueRelease c => c.wf
  | .qosQuery c => c.wf
  | .mixFrameBoundary _ => true
  | .safeLoadArm _ _ => true
  | .safeLoadSwap _ => true
  | .sourceDeadline frames _ => frames.all fun f => decide (f.samples.length ≤ 960) && (!f.stereo || f.samples.length % 2 == 0)
  | .memberRampEnd _ => true
  | .classOutputWrite _ _ => true
  | .outDeadlineExpiry _ _ => true
  | .confCreate c => c.wf
  | .confModify c => c.wf
  | .confDestroy c => c.wf
  | .confPin c => c.wf
  | .confQuery c => c.wf
  | .mixSourceAdd c => c.wf
  | .mixSourceModify c => c.wf
  | .mixSourceRemove c => c.wf
  | .mixClassCreate c => c.wf
  | .mixClassModify c => c.wf
  | .mixClassDestroy c => c.wf
  | .mixLegJoin c => c.wf
  | .mixLegLeave c => c.wf
  | .mixBatch c => c.wf
  | .mixTapSet c => c.wf
  | .mixQuery c => c.wf
  | .reqAppend _ _ words => words.length == 8
  | .reqCommit _ _ => true
  | .reqDiscard _ _ => true
  | .decodeStart _ _ _ => true
  | .allocWaitTimeout _ _ => true
  | .decodeComplete _ _ _ => true
  | .refreshTimerExpiry ctx _ => decide (ctx < 4096)
  | .poolSet _ _ => true
  | .poolClear _ _ => true
  | .poolQuery _ _ => true
  | .slotQuery _ _ => true
  | .decCreate c => c.wf
  | .decModify c => c.wf
  | .decDestroy c => c.wf
  | .decQuery c => c.wf
  | .decSnapshot c => c.wf
  | .snapshotCopyDone _ _ _ => true
  | .layoutTick _ _ => true
  | .composeComplete _ _ => true
  | .layoutCreate c => c.wf
  | .layoutSet c => c.wf
  | .layoutCellSet c => c.wf
  | .layoutDestroy c => c.wf
  | .layoutImageLoad c => c.wf
  | .layoutImageFree c => c.wf
  | .layoutQuery c => c.wf
  | .encInputAccept _ _ => true
  | .analysisStart _ _ => true
  | .analysisComplete _ _ _ => true
  | .coderStart _ _ header _ => match header with | some h => decide (h.off + (h.bits + 7) / 8 ≤ 2 ^ 20) | none => true
  | .headerWaitTimeout _ _ _ => true
  | .reconAllocTimeout _ _ _ => true
  | .coderRowCommit _ _ _ _ _ => true
  | .pictureCoded _ _ _ => true
  | .starvedRaise _ _ => true
  | .encGroupCreate c => c.wf
  | .encGroupModify c => c.wf
  | .encGroupDestroy c => c.wf
  | .encRendAdd c => c.wf
  | .encRendModify c => c.wf
  | .encRendRemove c => c.wf
  | .encRefresh c => c.wf
  | .encQuery c => c.wf
  | .workItemStart _ upsets => upsets.ldm.all fun u => decide (u.1 < 8192)
  | .itemPlace _ => true
  | .affWaitTimeout qid _ => decide (qid < 65536)
  | .itemWatchdog _ _ => true
  | .kernelFaultReport _ _ => true
  | .kernelPost _ words _ => words.length == 8
  | .dmaComplete _ _ failAt => (match failAt with | some x => decide (x < 65528) | none => true)
  | .add _ _ _ _ => true
  | .sub _ _ _ _ => true
  | .and _ _ _ _ => true
  | .or _ _ _ _ => true
  | .xor _ _ _ _ => true
  | .shl _ _ _ _ => true
  | .shr _ _ _ _ => true
  | .sar _ _ _ _ => true
  | .shlv _ _ _ _ => true
  | .shrv _ _ _ _ => true
  | .sarv _ _ _ _ => true
  | .cmplt _ _ _ _ => true
  | .cmpltu _ _ _ _ => true
  | .min _ _ _ _ => true
  | .max _ _ _ _ => true
  | .abs _ _ _ => true
  | .mul _ _ _ _ => true
  | .mulhi _ _ _ _ => true
  | .addk _ _ _ _ => true
  | .ork _ _ _ _ => true
  | .andk _ _ _ _ => true
  | .brEq _ _ _ _ => true
  | .brNe _ _ _ _ => true
  | .brLt _ _ _ _ _ => true
  | .brGe _ _ _ _ _ => true
  | .cmpltk _ _ _ _ => true
  | .movh _ _ _ => true
  | .call _ _ => true
  | .done _ tone => (match tone with | some t => decide (t.src < 20480) | none => true)
  | .mfs _ _ _ => true
  | .mts _ _ _ => true
  | .lbrk _ _ => true
  | .dmaw _ _ => true
  | .dmas _ _ => true
  | .loop _ _ _ _ _ _ => true
  | .setx _ _ _ => true
  | .seto _ _ _ => true
  | .setcb _ _ _ => true
  | .setcl _ _ _ => true
  | .addx _ _ _ => true
  | .movx _ _ _ => true
  | .ldf _ _ _ => true
  | .stf _ _ _ => true
  | .dmai _ _ _ _ _ => true
  | .dmao _ _ _ _ _ => true
  | .jmpr _ _ => true
  | .ldH _ _ _ _ _ => true
  | .ldHu _ _ _ _ _ => true
  | .ldW _ _ _ _ _ => true
  | .ldD _ _ _ _ _ => true
  | .stH _ _ _ _ _ => true
  | .stW _ _ _ _ _ => true
  | .stD _ _ _ _ _ => true
  | .vclr _ _ => true
  | .vmpy _ _ _ => true
  | .vmac _ _ _ => true
  | .vmsu _ _ _ => true
  | .vld _ _ _ _ => true
  | .vst _ _ _ _ => true
  | .vred _ _ _ _ => true
  | .vext _ _ _ _ _ => true
  | .vadd _ _ _ _ => true
  | .vsub _ _ _ _ => true
  | .vacsx _ _ _ _ _ => true
  | .vacsn _ _ _ _ _ => true
  | .mfp _ _ n => decide (n < 32)
  | .mtp _ n _ => decide (n < 32)
  | .wfi _ => true
  | .iret _ => true
  | .fencef _ => true
  | .romcall _ n => decide (n < 32)
  | .kernelKeySet c => c.wf
  | .kernelLoad c => c.wf
  | .kernelUnload c => c.wf
  | .kernelQueueCfg c => c.wf
  | .kernelQueueRelease c => c.wf
  | .kernelChainSet c => c.wf
  | .kernelQuery c => c.wf
  | .kernelResume c => c.wf
  | .kernelTenantSet c => c.wf
  | .keywinLockAcquire owner _ => decide (owner < 16)
  | .keywinRelease owner _ => decide (owner < 16)
  | .keywinLockTimeout _ => true
  | .keywinLoad owner _ _ => decide (owner < 16)
  | .keywinErase owner _ _ => decide (owner < 16)
  | .keyLoad c => c.wf
  | .keyLoadDtls c => c.wf
  | .keyErase c => c.wf
  | .keyRelease c => c.wf
  | .keyQuery c => c.wf
  | .tamperArm _ _ => true
  | .tamperAlarm _ => true
  | .cryptBleach => true
  | .bleachComplete => true
  | .bleachPoll _ => true
  | .bleachedClear _ => true
  | .hbmcEnable _ _ => true
  | .hbmTrainingComplete _ _ => true
  | .hbmRequest _ _ write addr _ data _ => decide (addr < 2 ^ 40) && (write == !data.isEmpty)
  | .postedWriteDrain _ => true
  | .hbmUnitIssue _ _ => true
  | .hbmReadComplete _ _ => true
  | .refreshDue _ _ => true
  | .hbmTempRead _ _ => true
  | .scrubRead _ _ => true
  | .srIdleTimeout _ => true
  | .srEntryComplete _ => true
  | .srExitComplete _ => true
  | .winFence => true
  | .winFenceClear => true
  | .mbxPost _ _ => true
  | .mbxWake _ _ => true
  | .mbxMsgWrite _ _ _ _ => true
  | .mbxAckWrite _ _ _ => true
  | .mbxWord15Read _ _ => true
  | .commandStale c => c.wf
  | .notificationPost _ => true
  | .mctpEndpointReassign => true
  | .sidebandMctpMessage _ _ => true
  | .sysNop c => c.wf
  | .sysHello c => c.wf
  | .sysCaps c => c.wf
  | .sysInfo c => c.wf
  | .sysShutdown c => c.wf
  | .sysNotifyCfg c => c.wf
  | .telemMeterSet c => c.wf
  | .telemMeterStop c => c.wf
  | .telemMeterRead c => c.wf
  | .telemCounters c => c.wf
  | .meterSample _ _ _ => true
  | .pcieLinkChange _ _ _ _ _ => true
  | .pcieConfigWrite _ _ => true
  | .functionLevelReset _ => true
  | .vfEnableClear _ => true
  | .hotReset _ => true
  | .perstAssert _ => true
  | .objectDestructionEnd _ => true
  | .flrReady _ => true
  | .unclaimedRequest _ _ => true
  | .ringEnable _ _ => true
  | .ringDisable _ _ => true
  | .ringDmaFail _ moved => decide (moved ≤ 32768)
  | .ringIntModExpiry _ _ => true
  | .pdReqWrite _ _ => true
  | .sleepEntryComplete _ => true
  | .wakeComplete _ => true
  | .powerGoodTimeout _ => true
  | .domainReset _ => true
  | .warmReset _ => true
  | .wdogEnable _ _ => true
  | .wdogKick _ _ => true
  | .watchdogExpiry _ => true
  | .powerOnReset => true
  | .brownOut => true
  | .porstRelease _ _ _ _ => true
  | .xtalFail => true
  | .xtalReturn => true
  | .timeStepCommit _ _ => true
  | .timeStepApply => true
  | .ppsInEdge _ => true
  | .ppsOutPulse _ _ => true
  | .servoHoldover _ => true
  | .safelightTimerExpiry _ _ => true
  | .thermalSample _ _ => true
  | .thermalTrip _ => true
  | .fanWriteTimeout _ => true
  | .timeGet c => c.wf
  | .timeSourceSet c => c.wf
  | .timeTod c => c.wf
  | .timeOffset c => c.wf
  | .timePpsOutSet c => c.wf
  | .timeTimerSet c => c.wf
  | .timeQuery c => c.wf
  | .jrnlProgram _ sense => decide (sense < 65536)
  | .jrnlErase _ sense => decide (sense < 65536)
  | .jrnlFuse _ sense => decide (sense < 65536)
  | .commitComplete _ => true
  | .pfailAssert => true
  | .pfailRelease => true
  | .trustSign _ => true
  | .signComplete => true
  | .jrnlAttest c => c.wf
  | .jrnlIdentity c => c.wf
  | .jrnlRead c => c.wf
  | .jrnlSnapshot c => c.wf
  | .jrnlRestore c => c.wf
  | .jrnlStatus c => c.wf
  | .jrnlFwStage c => c.wf
  | .jrnlFwActivate c => c.wf
  | .jrnlFwConfirm c => c.wf
  | .jrnlRollbackSet c => c.wf
  | .jrnlKeyRevoke c => c.wf
  | .jrnlTenantPin c => c.wf
  | .tstripGo _ _ => true
  | .tstripAbort _ => true
  | .unitTestDone _ _ _ => true
  | .testScheduleExpiry _ => true
  | .testResultRetry _ => true
  | .testRun c => c.wf
  | .testSchedule c => c.wf
  | .testResult c => c.wf
  | .testFence c => c.wf
  | .testUnfence c => c.wf
  | .testPolicy c => c.wf
  | .sysrefSwitch => true
  | .keywinCommitDone => true

end Sys2Proof
end

