-- ==== Sys2Proof/Tests/Slice0.lean ====
section
/-! SUPPORT. The model's own tests: ill-formed terms that `WellFormed` refuses, and for every statement of
`Certificates/Slice0/Obligations.lean` that has hypotheses a small state and operands that meet them. -/

namespace Sys2Proof.Tests

set_option Elab.async false

open Sys2Proof Sys2Proof.Machine

/-! ### A small device in use -/

/-- A posted command channel of tenant 0, and the two management channels; PF 0 has settled version 1.4 and Bus Master Enable. -/
def tOn : State :=
  let s := ((State.reset.setReg .MBX_STAT 4 0xA0000000).setReg .MBX_STAT 0 0xA0000000).setReg .MBX_STAT 1 0xA0000000
  { s with vusta := { s.vusta with posted := [.mbx 4, .mbx 0, .mbx 1], fns := [(0, { ver := 0x104, bme := true })] } }

/-- A command on a path. -/
def tCmd (p : Path) (h : Nat) (pay : List Nat) : Cmd := { via := p, handle := BitVec.ofNat 32 h, pay := pay.map (BitVec.ofNat 32) }
/-- A command on tenant 0's first channel. -/
def tc (h : Nat) (pay : List Nat) : Cmd := tCmd (.mbx 4) h pay

/-- A sheet of 128 by 128 samples, one cell, 30 pictures a second. -/
def tSheet : Sheet := { hdr := [0x00800080, 0x1E000001, 0, 0, 0], cells := [[0, 0, 0x00100010, 0, 0x10001000, 0, 0, 0]] }

/-- The same as the host's words. -/
def tSheetWords : List Word := [0x00800080, 0x1E000001, 0, 0, 0, 0, 0, 0, 0, 0, 0, 0, 0, 0, 0, 0, 0, 0, 0x00100010, 0, 0x10001000]

/-- One object of each kind, all of tenant 0. -/
def tWorld : State :=
  let s := (((tOn.setReg .POOL_CTRL 0 0x80000000).setReg .POOL_RGN_CFG 0 0x10800010).setReg .POOL_RGN_FIRST 0 0).setReg .STRATA_DEVID 0 0x80000001
  { s with
    net := { s.net with
      legs := [(0, { localIp := 1, remoteIp := 2, localUdp := 5000, remoteUdp := 5001 }),
        (3, { cascade := true, localIp := 1, remoteIp := 3, localUdp := 0, remoteUdp := 9 })]
      streams := [(0, { ssrc := 10, dest := 1, codec := 1 }), (1, { ssrc := 11, kind := 1, dest := 1, codec := 4 }), (2, { device := true, leg := 9 }),
        (3, { device := true, leg := 9, kind := 1 }), (4, { leg := 3, ssrc := 12, kind := 1, dest := 1 })]
      subs := [(0, { src := 1 }), (1, { src := 2, pt := some 0 })]
      peers := [(0, { dev := 7, leg := 3, ctrlStream := 4 })]
      flowqs := [(0, {})], est := [(0, { enable := true })], samplers := [(0, {})] }
    mix := { s.mix with
      confs := [(0, { k := 2, msClass := 16000, msStream := 262000 })], sources := [(0, { tile := 0, route := 0 })]
      classes := [(0, { outStream := 2 })], joins := [(1, { cls := 0 })]
      params := [(0, { words := [0x80000000] }), (1280, { words := [0x80000000] })] }
    video := { s.video with
      decs := [(0, { stream := 1, disp := { buf := some { fbh := 0, gen := 1 }, width := 16, height := 16 } })]
      groups := [(0, {})], rends := [(0, { outStream := 3 })], layouts := [(0, { sheet := tSheet })], images := [(0, {})] }
    disp := { s.disp with
      qs := [(49152, { kern := 256, mask := 1, rank := 2 })], kernels := [(256, { audio := true }), (257, {})], chains := [(1, { kerns := [256], qid := 49152 })]
      keys := [(0, [])] }
    keys := { s.keys with slots := [(5, { own := some {}, st := .active })] } }

/-- A boot header with slot words `a` and `b` and the right CRC-32C, and a hold-up bank that is charged. -/
def tBoot (a b crc : Nat) : State :=
  let s := (((tWorld.setReg .JRNL_HUP_CFG 0 0x10000000).setReg .JRNL_HUP_LOAD 0 0).setReg .JRNL_HUP_RSV 0 0).setReg .TRUST_STAT 0 0
  let f := (leWords [0x50554248, 1, a, b]).zipIdx.map fun x => (x.2, x.1)
  let e := (toLe 4 crc).zipIdx.map fun x => (252 + x.2, x.1)
  { s with trust := { s.trust with flash := f ++ e } }

/-- Firmware accepts the command. -/
def tAccepts (k : CmdSpec) (check : Cmd → State → Nat) (c : Cmd) (s : State) : Bool :=
  (s.advance c.el).takeable c && statusOf k check c (s.advance c.el) == 0 && !c.dry

/-- The Bool is the claims' `Accepted`. -/
theorem tAccepts_accepted {k : CmdSpec} {check : Cmd → State → Nat} {c : Cmd} {s : State} (h : tAccepts k check c s = true) :
    Accepted k check c s := by
  simp only [tAccepts, Bool.and_eq_true, beq_iff_eq, Bool.not_eq_true'] at h
  exact ⟨h.1.1, h.1.2, h.2⟩

/-- The command answers a next state of which `p` holds. -/
def tNext (i : Instr) (s : State) (p : State → Bool) : Bool :=
  match exec i s with
  | .next t => p t
  | _ => false

/-- Commands that firmware accepts: witnesses of LegStreamAndQosCommands. -/
theorem test_accepted_leg_stream_qos_commands :
    tAccepts legCreateSpec legCreateCheck (tc 1 [0, 0x13881389, 1, 0, 0, 0, 4]) tWorld = true ∧
    tAccepts legModifySpec legModifyCheck (tc 0 [0x20000000, 0x13881389, 1, 0, 0, 0, 7]) tWorld = true ∧
    tAccepts legDestroySpec legDestroyCheck (tc 0 []) tWorld = true ∧
    tAccepts legQuerySpec legDestroyCheck (tc 0 []) tWorld = true ∧
    tAccepts streamCreateSpec streamCreateCheck (tc 5 [0, 99]) tWorld = true ∧
    tAccepts streamDestroySpec streamDestroyCheck (tc 0 []) tWorld = true ∧
    tAccepts streamSubscribeSpec streamSubscribeCheck (tc 2 [0]) tWorld = true ∧
    tAccepts streamModifySpec streamModifyCheck (tc 0 []) tWorld = true ∧
    tAccepts streamUnsubscribeSpec streamModifyCheck (tc 0 []) tWorld = true ∧
    tAccepts streamQuerySpec streamQueryCheck (tc 0 []) tWorld = true ∧
    tAccepts cascadePeerAddSpec cascadePeerAddCheck (tc 1 [8, 3, 5, 77]) ({ tWorld with net := { tWorld.net with peers := [] } }) = true ∧
    tAccepts cascadePeerRemoveSpec cascadePeerRemoveCheck (tc 0 []) tWorld = true ∧
    tAccepts cascadeSetDevidSpec (fun _ _ => 0) (tCmd (.mbx 0) 0 [5]) tWorld = true ∧
    tAccepts qosPolicerSetSpec qosPolicerSetCheck (tc 0 []) tWorld = true ∧
    tAccepts qosDscpMapSetSpec qosDscpMapSetCheck (tc 3 []) tWorld = true ∧
    tAccepts qosQueueCfgSpec qosQueueCfgCheck (tc 1 [0xFFFF]) tWorld = true ∧
    tAccepts qosShaperSetSpec qosShaperSetCheck (tc 0 [100, 9279]) tWorld = true ∧
    tAccepts qosClassSetSpec qosClassSetCheck (tCmd (.mbx 0) 63 []) tWorld = true ∧
    tAccepts qosPortSetSpec qosPortSetCheck (tCmd (.mbx 0) 7 []) tWorld = true ∧
    tAccepts qosGateSetSpec qosGateSetCheck (tCmd (.mbx 0) 0 []) tWorld = true ∧
    tAccepts qosTenantSetSpec qosTenantSetCheck (tCmd (.mbx 0) 31 []) tWorld = true ∧
    tAccepts qosEstCfgSpec qosEstCfgCheck (tc 0 []) tWorld = true ∧
    tAccepts qosSamplerSetSpec qosSamplerSetCheck (tc 0 []) tWorld = true ∧
    tAccepts qosQueueReleaseSpec qosQueueReleaseCheck (tc 0 []) tWorld = true ∧
    tAccepts qosQuerySpec qosQueryCheck (tc 0 []) tWorld = true := by decide +kernel

/-- Commands that firmware accepts: witnesses of ConferenceAndMixCommands. -/
theorem test_accepted_conference_mix_commands :
    tAccepts confCreateSpec confCreateCheck (tc 1 [0x00010000, 0, 0, 0, 0, 100, 100]) tWorld = true ∧
    tAccepts confModifySpec confModifyCheck (tc 0 [0x00020000, 0, 0, 0, 0, 16000, 262000]) tWorld = true ∧
    tAccepts confDestroySpec confDestroyCheck (tc 0 []) ({ tWorld with net := { tWorld.net with legs := [] } }) = true ∧
    tAccepts confPinSpec confPinCheck (tc 0 [0x80000000]) tWorld = true ∧
    tAccepts confQuerySpec confQueryCheck (tc 0 []) tWorld = true ∧
    tAccepts mixSourceModifySpec mixSourceModifyCheck (tc 0 []) tWorld = true ∧
    tAccepts mixSourceAddSpec mixSourceAddCheck (tc 1 [0]) tWorld = true ∧
    tAccepts mixSourceRemoveSpec mixSourceRemoveCheck (tc 0 []) tWorld = true ∧
    tAccepts mixClassCreateSpec mixClassCreateCheck (tc 1 [0, 0, 0, 0, 6, 64000]) tWorld = true ∧
    tAccepts mixClassModifySpec mixClassModifyCheck (tc 0 []) tWorld = true ∧
    tAccepts mixClassDestroySpec mixClassDestroyCheck (tc 0 []) tWorld = true ∧
    tAccepts mixLegJoinSpec mixLegJoinCheck (tc 2 [0, 0, 0xFFFF]) tWorld = true ∧
    tAccepts mixLegLeaveSpec mixLegLeaveCheck (tc 1 []) tWorld = true ∧
    tAccepts mixBatchSpec mixBatchCheck (tc 0 []) tWorld = true ∧
    tAccepts mixTapSetSpec mixTapSetCheck (tc 0 [0xC0000000]) tWorld = true ∧
    tAccepts mixQuerySpec mixQueryCheck (tc 0 []) tWorld = true := by decide +kernel

/-- Commands that firmware accepts: witnesses of VideoCommands. -/
theorem test_accepted_video_commands :
    tAccepts decCreateSpec decCreateCheck (tc 1 [0x80000001, 0x00100010, 0x1E000000, 0, 0]) tWorld = true ∧
    tAccepts decModifySpec decModifyCheck (tc 0 [0, 0, 0x1E000000]) tWorld = true ∧
    tAccepts decDestroySpec decDestroyCheck (tc 0 []) tWorld = true ∧
    tAccepts decQuerySpec decQueryCheck (tc 0 []) tWorld = true ∧
    tAccepts decSnapshotSpec decSnapshotCheck (tc 0 [0, 0, 384]) tWorld = true ∧
    tAccepts layoutCreateSpec layoutCreateCheck ({ tc 1 [] with host := tSheetWords }) tWorld = true ∧
    tAccepts layoutSetSpec layoutSetCheck ({ tc 0 [] with host := tSheetWords }) tWorld = true ∧
    tAccepts layoutCellSetSpec layoutCellSetCheck (tc 0 [0, 0, 0, 0, 0x00100010, 0, 0x10001000]) tWorld = true ∧
    tAccepts layoutDestroySpec layoutDestroyCheck (tc 0 []) tWorld = true ∧
    tAccepts layoutImageLoadSpec layoutImageLoadCheck (tc 1 [0, 0, 0x00100010]) tWorld = true ∧
    tAccepts layoutImageFreeSpec layoutImageFreeCheck (tc 0 []) tWorld = true ∧
    tAccepts layoutQuerySpec layoutQueryCheck (tc 0 []) tWorld = true ∧
    tAccepts encGroupCreateSpec encGroupCreateCheck (tc 1 [0x80000000, 0x00800080, 0x1E040000]) tWorld = true ∧
    tAccepts encGroupModifySpec encGroupModifyCheck (tc 0 [0, 0, 0x01040000]) tWorld = true ∧
    tAccepts encGroupDestroySpec encGroupDestroyCheck (tc 0 []) tWorld = true ∧
    tAccepts encRendAddSpec encRendAddCheck (tc 1 [0, 0, 0, 0, 6]) tWorld = true ∧
    tAccepts encRendModifySpec encRendModifyCheck (tc 0 [0, 0]) tWorld = true ∧
    tAccepts encRendRemoveSpec encRendRemoveCheck (tc 0 []) tWorld = true ∧
    tAccepts encRefreshSpec encRefreshCheck (tc 0 []) tWorld = true ∧
    tAccepts encQuerySpec encQueryCheck (tc 0 []) tWorld = true := by decide +kernel

/-- Commands that firmware accepts: witnesses of KernelAndKeyCommands, its KERNEL commands. -/
theorem test_accepted_kernel_commands :
    tAccepts kernelKeySetSpec kernelKeySetCheck (tc 3 []) tWorld = true ∧
    tAccepts kernelLoadSpec kernelLoadCheck ({ tc 300 [0, 0, 3437] with host := [0x50554B31, 0x00010000] }) tWorld = true ∧
    tAccepts kernelUnloadSpec kernelUnloadCheck (tc 257 []) tWorld = true ∧
    tAccepts kernelQueueCfgSpec kernelQueueCfgCheck (tc 49160 [0x11000000, 1, 0, 1]) tWorld = true ∧
    tAccepts kernelQueueReleaseSpec dispTarget (tc 49152 []) tWorld = true ∧
    tAccepts kernelChainSetSpec kernelChainSetCheck (tc 1 [1, 256, 0, 0, 0, 49152]) tWorld = true ∧
    tAccepts kernelQuerySpec kernelQueryCheck (tc 49152 []) tWorld = true ∧
    tAccepts kernelResumeSpec kernelTarget (tc 256 []) tWorld = true ∧
    tAccepts kernelTenantSetSpec kernelTenantSetCheck (tCmd (.mbx 0) 3 []) tWorld = true := by decide +kernel

/-- Commands that firmware accepts: witnesses of SystemAndTelemetryCommands. -/
theorem test_accepted_system_telemetry_commands :
    tAccepts sysNopSpec (fun _ _ => 0) (tc 0 []) tWorld = true ∧
    tAccepts sysHelloSpec sysHelloCheck (tc 0 [0x01000104]) tWorld = true ∧
    tAccepts sysCapsSpec sysCapsCheck (tc 0 [0, 0, 256]) tWorld = true ∧
    tAccepts sysInfoSpec (fun _ _ => 0) (tc 0 []) tWorld = true ∧
    tAccepts sysShutdownSpec (fun _ _ => 0) (tCmd (.mbx 0) 0 []) tWorld = true ∧
    tAccepts sysNotifyCfgSpec sysNotifyCfgCheck (tc 15 [12]) tWorld = true ∧
    tAccepts telemMeterSetSpec telemMeterSetCheck (tc 0 [6, 0, 0, 1, 0, 0, 1]) tWorld = true ∧
    tAccepts telemMeterStopSpec telemMeterStopCheck (tc 0 []) ({ tWorld with vusta := { tWorld.vusta with meters := [(0, {})] } }) = true ∧
    tAccepts telemMeterReadSpec telemMeterReadCheck (tc 0 [0, 0, 0, 0, 1]) tWorld = true ∧
    tAccepts telemCountersSpec telemCountersCheck (tCmd (.mbx 0) 0 [0, 0, 0xFFFF]) tWorld = true ∧
    tAccepts timeGetSpec (fun _ _ => 0) (tc 0 []) tWorld = true ∧
    tAccepts timeSourceSetSpec timeSourceSetCheck (tCmd (.mbx 0) 0 [1]) tWorld = true ∧
    tAccepts timeTodSpec timeTodCheck (tCmd (.mbx 0) 0 []) ({ tWorld with time := { tWorld.time with mode := .pps } }) = true ∧
    tAccepts timeOffsetSpec timeOffsetCheck (tCmd (.mbx 0) 0 []) ({ tWorld with time := { tWorld.time with mode := .offset } }) = true ∧
    tAccepts timePpsOutSetSpec timePpsOutSetCheck (tCmd (.mbx 0) 0 [1]) tWorld = true ∧
    tAccepts timeTimerSetSpec timeTimerSetCheck (tc 0 [49152, 1000]) tWorld = true ∧
    tAccepts timeQuerySpec (fun _ _ => 0) (tc 0 []) tWorld = true := by decide +kernel

/-- Commands that firmware accepts: witnesses of JournalAndTestCommands. -/
theorem test_accepted_journal_test_commands :
    tAccepts jrnlAttestSpec jrnlAttestCheck (tc 0 []) (tWorld.setRb .TRUST_STAT 0 30 false) = true ∧
    tAccepts jrnlIdentitySpec jrnlIdentityCheck (tc 0 [0, 0, 8192]) tWorld = true ∧
    tAccepts jrnlReadSpec (fun _ _ => 0) (tc 0 []) tWorld = true ∧
    tAccepts jrnlRestoreSpec jrnlRestoreCheck (tc 0 []) ({ tWorld with trust := { tWorld.trust with snaps := [(0, {})] } }) = true ∧
    tAccepts jrnlStatusSpec (fun _ _ => 0) (tc 0 []) tWorld = true ∧
    tAccepts testRunSpec testRunCheck (tCmd (.mbx 0) 0 []) tWorld = true ∧
    tAccepts testScheduleSpec testScheduleCheck (tCmd (.mbx 0) 0 [8760]) tWorld = true ∧
    tAccepts testResultSpec (fun _ _ => 0) (tc 0 []) tWorld = true ∧
    tAccepts testFenceSpec testFenceCheck (tCmd (.mbx 0) 0 [89]) tWorld = true ∧
    tAccepts testUnfenceSpec testUnfenceCheck (tCmd (.mbx 0) 0 [89]) tWorld = true ∧
    tAccepts testPolicySpec (fun _ _ => 0) (tCmd (.mbx 0) 0 []) tWorld = true ∧
    tAccepts jrnlSnapshotSpec jrnlSnapshotCheck (tc 0 []) (tBoot 0x40000000 0 0x62822BD9) = true ∧
    tAccepts jrnlFwStageSpec jrnlFwStageCheck (tCmd (.mbx 1) 0 [0]) (tBoot 0x40000000 0 0x62822BD9) = true ∧
    tAccepts jrnlFwActivateSpec jrnlFwActivateCheck (tCmd (.mbx 1) 0 []) (tBoot 0x40000000 0x20000000 0xE0E5A818) = true ∧
    tAccepts jrnlFwConfirmSpec jrnlFwConfirmCheck (tCmd (.mbx 1) 0 []) (tBoot 0x30000000 0x40000000 0x6CEC4FB1) = true ∧
    tAccepts jrnlRollbackSetSpec jrnlRollbackSetCheck (tCmd (.mbx 1) 0 []) (tBoot 0x40000000 0 0x62822BD9) = true ∧
    tAccepts jrnlKeyRevokeSpec jrnlKeyRevokeCheck (tCmd (.mbx 1) 0 [1]) (tBoot 0x40000000 0 0x62822BD9) = true ∧
    tAccepts jrnlTenantPinSpec (fun _ _ => 0) (tCmd (.mbx 1) 0 []) (tBoot 0x40000000 0 0x62822BD9) = true := by decide +kernel

/-- KEY commands that firmware accepts: witnesses of KernelAndKeyCommands. -/
theorem test_accepted_key_commands :
    tAccepts keyLoadSpec keyLoadCheck (tc 6 [0]) (tWorld.wipeKey (tc 6 [0])) = true ∧
    tAccepts keyLoadDtlsSpec keyLoadDtlsCheck ({ tc 6 [0] with host := [0] }) (tWorld.wipeKey ({ tc 6 [0] with host := [0] })) = true ∧
    tAccepts keyEraseSpec keyEraseCheck (tc 5 []) (tWorld.wipeKey (tc 5 [])) = true ∧
    tAccepts keyReleaseSpec keyEraseCheck (tc 5 []) (tWorld.wipeKey (tc 5 [])) = true ∧
    tAccepts keyQuerySpec keyTarget (tc 5 []) (tWorld.wipeKey (tc 5 [])) = true := by decide +kernel

/-- Ill-formed terms that WellFormed refuses: the payload's length, the path, the address, the items, the lists. -/
theorem test_wf_refuses :
    (Instr.sysNop { via := .mbx 4, pay := List.replicate 15 0 }).wf = false ∧
    (Instr.sysNop { via := .mbx 2 }).wf = false ∧
    (Instr.sysNop { via := .mbx 16 }).wf = false ∧
    (Instr.sysNop { via := .mbx 15, pay := List.replicate 14 0 }).wf = true ∧
    (Instr.registerWrite (.host 0) 0x10000 0).wf = false ∧
    (Instr.registerWrite (.fw 0) 0x10000000000 0).wf = false ∧
    (Instr.registerWrite (.fw 0) 2 0).wf = false ∧
    (Instr.counterLatchRead (.host 0) 0xFFFC).wf = true ∧
    (Instr.fifoPidxWrite (.host 0) (.ring 0) 1 [List.replicate 17 0]).wf = false ∧
    (Instr.fifoHwPublish (.decDone 0) [] false).wf = false ∧
    (Instr.estimateApply 0 0 { outs := [{ sub := 131072 }] } 0).wf = false ∧
    (Instr.sourceDeadline [{ stereo := true, samples := [0] }] 0).wf = false ∧
    (Instr.workItemStart 0 { ldm := [(8192, false)] }).wf = false ∧
    (Instr.reqAppend 0 0 []).wf = false ∧
    (Instr.refreshTimerExpiry 4096 0).wf = false ∧
    (Instr.coderStart 0 0 (some { off := 1048576, bits := 1 }) 0).wf = false ∧
    (Instr.affWaitTimeout 65536 0).wf = false ∧
    (Instr.kernelPost 0 [] 0).wf = false ∧
    (Instr.dmaComplete 0 0 (some 65528)).wf = false ∧
    (Instr.done 0 (some { src := 20480, event := 1, ms := 80 })).wf = false ∧
    (Instr.mfp 512 1 32).wf = false ∧
    (Instr.mtp 512 32 1).wf = false ∧
    (Instr.romcall 512 32).wf = false ∧
    (Instr.keywinLockAcquire 16 0).wf = false ∧
    (Instr.keywinRelease 16 0).wf = false ∧
    (Instr.keywinLoad 16 0 0).wf = false ∧
    (Instr.keywinErase 16 0 0).wf = false ∧
    (Instr.hbmRequest 0 0 true 0 none [] 0).wf = false ∧
    (Instr.ringDmaFail 0 32769).wf = false ∧
    (Instr.jrnlProgram 0 65536).wf = false ∧
    (Instr.jrnlErase 0 65536).wf = false ∧
    (Instr.jrnlFuse 0 65536).wf = false ∧
    (Instr.hbmRequest 0 0 false (2 ^ 40) none [] 0).wf = false := by decide +kernel

/-- A frame of more than 65,535 bytes is ill formed. -/
theorem test_wf_refuses_long_frame : (Instr.frameReceived 0 true (List.replicate 65536 0) {} 0).wf = false := by
  unfold Instr.wf
  exact decide_eq_false (by rw [List.length_replicate]; omega)

/-- A command ring of PF 0 with one command, its completion ring 1, and an event ring 2. -/
def tRing : State :=
  let s := ((tOn.setReg .RING_CTRL 0 0x80010000).setReg .RING_CTRL 1 0x90000000).setReg .RING_CTRL 2 0xA0000000
  { s with
    vusta := { s.vusta with posted := [.ring 0] }
    fifos := [(4096, { itemSize := 4, pidx := 1, items := [[0]] }), (4097, { itemSize := 3 }), (4098, { itemSize := 4 })] }

/-- Channel 4's registers as a message of an old epoch leaves them. -/
def tStale : State := tOn.setReg .MBX_STAT 4 0xA0000100

/-- Words of the acknowledge register: status and SEQ. -/
def tAck (t : State) (ch code seq : Nat) : Bool := t.rf .MBX_ACK ch 31 16 == code && t.rf .MBX_ACK ch 7 0 == seq

/-- CommandPath: a command that is not posted, one that is refused, a dry run, and the answers after 100 ms. -/
theorem test_command_path :
    tOn.takeable (tCmd (.mbx 5) 0 []) = false ∧
    tNext (.sysNop (tCmd (.mbx 5) 0 [])) tOn (fun t => t == tOn) = true ∧
    statusOf sysHelloSpec sysHelloCheck (tc 0 [0x01040100]) tOn = BAD_PARAM ∧
    tNext (.sysHello { tc 0 [0x01040100] with seq := 9 }) tOn (fun t => tAck t 4 BAD_PARAM 9 && t.vusta.posted == [.mbx 0, .mbx 1]) = true ∧
    statusOf legDestroySpec legDestroyCheck { tc 0 [] with flags := 2 } tWorld = 0 ∧
    tNext (.legDestroy { tc 0 [] with flags := 2 }) tWorld (fun t => t.net == tWorld.net && tAck t 4 0 0) = true ∧
    tRing.takeable (tCmd (.ring 0) 0 []) = true ∧
    tNext (.commandStale (tCmd (.ring 0) 0 [])) tRing (fun t => (t.fifo (.ring 1)).items == [[0x00010000, 0, 0, 0, 0, 0, 0, 0]]) = true ∧
    tOn.msgEpoch 4 = tOn.txEpoch 4 ∧ tOn.takeable (tc 0 []) = true ∧
    tNext (.commandStale (tc 0 [])) tOn (fun t => tAck t 4 BUSY 0) = true ∧
    tStale.msgEpoch 4 ≠ tStale.txEpoch 4 ∧ tStale.takeable (tc 0 []) = true ∧
    tNext (.commandStale (tc 0 [])) tStale (fun t => tAck t 4 BAD_STATE 0) = true := by decide +kernel

/-- CheckOrder: one command and state for each status of R509's shared checks, each with every later fault present too. -/
theorem test_check_order :
    statusOf sysNopSpec (fun _ _ => 0) { tc 0 [] with late := true } (tStale.setRb .MBX_STAT 4 26 true) = BAD_STATE ∧
    statusOf sysNopSpec (fun _ _ => 0) { tc 0 [] with flags := 8 } (tOn.setRb .MBX_STAT 4 26 true) = BUSY ∧
    statusOf sysNopSpec (fun _ _ => 0) { tc 0 [] with late := true, flags := 8 } tOn = BUSY ∧
    statusOf sysNopSpec (fun _ _ => 0) { tc 0 [] with flags := 8 } { tOn with vusta := { tOn.vusta with shutdown := true } } = BUSY ∧
    tOn.rb .TRUST_STAT 0 29 = false ∧ statusOf qosPortSetSpec (fun _ _ => 5) { tc 0 [1] with flags := 8 } { tOn with vusta := { tOn.vusta with fns := [] } } = BAD_PARAM ∧
    statusOf qosPortSetSpec (fun _ _ => 5) (tc 0 [1]) { tOn with vusta := { tOn.vusta with fns := [] } } = VERSION ∧
    statusOf decSnapshotSpec (fun _ _ => 5) (tc 0 [1]) { tOn with vusta := { tOn.vusta with fns := [(0, { ver := 0x103 })] } } = UNSUPPORTED ∧
    statusOf qosPortSetSpec (fun _ _ => 5) (tc 0 [1]) tOn = NOT_OWNER ∧
    statusOf streamQuerySpec (fun _ _ => 5) (tc 0 [0, 0, 2]) tOn = BAD_PARAM ∧
    statusOf streamQuerySpec (fun _ _ => 5) (tc 0 []) tOn = 5 ∧
    statusOf streamQuerySpec (fun _ _ => 0) (tc 0 []) { tOn with vusta := { tOn.vusta with fns := [(0, { ver := 0x104 })] } } = BAD_STATE ∧
    statusOf streamModifySpec (fun _ _ => 0) (tc 0 []) tOn = 0 := by decide +kernel

/-- The same objects, of tenant 1. -/
def tForeign : State :=
  let o : Own := { fn := 64 }
  { tOn with
    net := { tOn.net with legs := [(0, { own := o })], streams := [(0, { own := o })], flowqs := [(0, { own := o })] }
    mix := { tOn.mix with
      confs := [(0, { own := o }), (1, { orphan := true })], sources := [(0, { own := o })], classes := [(0, { own := o })] }
    video := { tOn.video with
      decs := [(0, { own := o })], layouts := [(0, { own := o })], images := [(0, { own := o })], groups := [(0, { own := o })]
      rends := [(0, { own := o })] }
    disp := { tOn.disp with kernels := [(300, { own := o })], qs := [(49152, { own := o })] } }

/-- ForeignObjects: every kind of object, of another tenant; a VF's command on the PF's object; an orphan. -/
theorem test_foreign_objects :
    (tc 0 []).fn = some 0 ∧ ((64 : Nat) / 64 ≠ (tc 0 []).tenant) ∧ tForeign.takeable (tc 0 []) = true ∧
    (tCmd (.ring 16) 0 []).fn = some 1 ∧ (tCmd (.ring 16) 0 []).isVf = true ∧ (0 : Nat) ≠ (tCmd (.ring 16) 0 []).fnN ∧
    tNext (.legDestroy (tc 0 [])) tForeign (fun t => tAck t 4 NOT_OWNER 0 && t.net == tForeign.net) = true ∧
    tNext (.streamDestroy (tc 0 [])) tForeign (fun t => tAck t 4 NOT_OWNER 0) = true ∧
    tNext (.qosQueueRelease (tc 0 [])) tForeign (fun t => tAck t 4 NOT_OWNER 0) = true ∧
    tNext (.confDestroy (tc 0 [])) tForeign (fun t => tAck t 4 NOT_OWNER 0) = true ∧
    tNext (.confDestroy (tc 1 [])) tForeign (fun t => tAck t 4 NOT_OWNER 0) = true ∧
    tNext (.mixSourceRemove (tc 0 [])) tForeign (fun t => tAck t 4 NOT_OWNER 0) = true ∧
    tNext (.mixClassDestroy (tc 0 [])) tForeign (fun t => tAck t 4 NOT_OWNER 0) = true ∧
    tNext (.decDestroy (tc 0 [])) tForeign (fun t => tAck t 4 NOT_OWNER 0) = true ∧
    tNext (.layoutDestroy (tc 0 [])) tForeign (fun t => tAck t 4 NOT_OWNER 0) = true ∧
    tNext (.layoutImageFree (tc 0 [])) tForeign (fun t => tAck t 4 NOT_OWNER 0) = true ∧
    tNext (.encGroupDestroy (tc 0 [])) tForeign (fun t => tAck t 4 NOT_OWNER 0) = true ∧
    tNext (.encRendRemove (tc 0 [])) tForeign (fun t => tAck t 4 NOT_OWNER 0) = true ∧
    tNext (.kernelUnload (tc 300 [])) tForeign (fun t => tAck t 4 NOT_OWNER 0) = true ∧
    tNext (.kernelQueueRelease (tc 49152 [])) tForeign (fun t => tAck t 4 NOT_OWNER 0) = true := by decide +kernel

/-- AnswerOnMailbox on a tenant's channel and on channel 0, AnswerOnRing. -/
theorem test_answers :
    tAck (tOn.answer sysNopSpec { tc 0 [] with seq := 7 } 65535 [1, 2, 3, 4]) 4 65535 7 = true ∧
    (tOn.answer sysNopSpec (tc 0 []) 5 [1, 2, 3, 4]).reg .MBX_RESP 19 = 4 ∧
    (tOn.answer sysNopSpec (tc 0 []) 5 [1]).full 4 = false ∧ (tOn.answer sysNopSpec (tc 0 []) 5 [1]).rb .MBX_STAT 4 30 = true ∧
    (tOn.answer sysNopSpec (tCmd (.mbx 0) 3 []) 5 [1]).out = [.sideReply 0 [0x00050000, 3, 1, 0, 0, 0]] ∧
    tRing.ringType 0 = 0 ∧ tRing.pairOf 0 = 1 ∧ tRing.ringType 1 = 1 ∧ (tRing.fifo (.ring 1)).discard = false ∧
    ((tRing.answer streamModifySpec { tCmd (.ring 0) 3 [] with seq := 8 } 5 [1, 2]).fifo (.ring 1)).items = [[0x00050008, 3, 1, 2, 0, 0, 0x02030000, 0]] ∧
    ((tRing.answer streamModifySpec (tCmd (.ring 0) 3 []) 5 []).fifo (.ring 0)).items = [] := by decide +kernel

/-- A media core that runs kernel 256, and a control core, with these registers. -/
def tCore (k : Core) : State :=
  let s := State.reset.setReg .CLKPWR_CL_STAT 0 0x40000000
  { s with
    cores := [(0, { k with running := true, kern := 256, qid := 49152 }), (512, k)]
    disp := { s.disp with kernels := [(256, { code := 65536 })], qs := [(49152, { kern := 256, mask := 1 })] } }

/-- Registers g1 = 7, g2 = -3, g3 = 2^31, g4 = 0x00020001, g5 = 0x7FFFFFFF, g6 = 0x7FFF8000. -/
def tRegs : Core := { g := [(1, 7), (2, 0xFFFFFFFD), (3, 0x80000000), (4, 0x00020001), (5, 0x7FFFFFFF), (6, 0x7FFF8000)], pc := 16 }
/-- The core that it makes. -/
def tC : State := tCore tRegs

/-- After the instruction on core 0, g8 holds `v` and pc has moved on. -/
def tGives (i : Instr) (v : Word) : Bool := tNext i tC fun t => (t.core 0).gr 8 == v && (t.core 0).pc == 20
/-- The instruction faults on core 0 with this cause, and pc stands (R245, R258). -/
def tFaults (i : Instr) (s : State) (cause : Nat) : Bool :=
  tNext i s fun t => (t.core 0).faulted == some cause && t.rf .CORE_FAULT 0 7 4 == cause && (t.core 0).pc == (s.core 0).pc

/-- The core statements' hypothesis, on a media core and a control core. -/
theorem test_core_runs :
    tC.coreRuns 0 = true ∧ tC.fetchFails 0 = false ∧ tC.coreRuns 512 = true ∧ tC.fetchFails 512 = false ∧
    (tC.core 0).icErr.contains (tC.core 0).line = false ∧ tC.wordAt 0 = none ∧ tC.wordAt 512 = none := by decide +kernel

/-- The same, the word at the media core's pc known, and a parity error in a line of its instruction cache or none. -/
def tIm (w : Word) (ic : List Nat) : State :=
  let s := tCore { tRegs with icErr := ic }
  { s with disp := { s.disp with kernels := [(256, { code := 65536, image := List.replicate 20 0 ++ [w] })] } }

/-- Words written out from R241, R242 and R442, of every format. -/
theorem test_core_words :
    decodeCore false 0 0x02022001 = .run (.sub 0 8 1 2) ∧ decodeCore false 0 0x0202038A = .run (.sar 0 8 1 7) ∧
    decodeCore false 0 0x1202BEEF = .run (.ork 0 8 1 0xBEEF) ∧ decodeCore false 0 0x3045FFFC = .run (.brLt 0 1 2 true 0xFFFC) ∧
    decodeCore false 0 0x4A001234 = .run (.movh 0 8 0x1234) ∧ decodeCore false 0 0x57FFFFFE = .run (.call 0 0x7FFFFFE) ∧
    decodeCore false 0 0x5A418801 = .run (.mfs 0 9 0x31) ∧ decodeCore false 0 0x580A0802 = .run (.mts 0 1 5) ∧
    decodeCore false 0 0x640C8009 = .run (.loop 0 2 false 100 0 9) ∧ decodeCore false 0 0x6300C009 = .run (.loop 0 1 true 0 6 9) ∧
    decodeCore false 0 0x68201020 = .run (.setx 0 1 0x1020) ∧ decodeCore false 0 0x6D670000 = .run (.movx 0 3 7) ∧
    decodeCore false 0 0x70089001 = .run (.stf 0 9 4) ∧ decodeCore false 0 0x70C86382 = .run (.dmai 0 3 4 6 7) ∧
    decodeCore false 0 0x783C0000 = .run (.jmpr 0 30) ∧ decodeCore false 0 0x9238FFF8 = .run (.ldW 0 8 7 0 0xFFF8) ∧
    decodeCore false 0 0xB2120000 = .run (.stD 0 8 2 1 0) ∧ decodeCore false 0 0xC6E0120A = .run (.vext 0 3 8 2 5) ∧
    decodeCore false 0 0xC1422190 = .run (.vacsx 0 6 2 4 8) ∧ decodeCore false 0 0xCA4D9000 = .run (.vmac 0 1 (.vm 3 1 4 2)) ∧
    decodeCore false 0 0xB8000000 = .illegal ∧ decodeCore false 0 0x02022080 = .illegal ∧
    decodeCore false 0 0x923A0004 = .illegal ∧ decodeCore false 0 0x6E000000 = .illegal ∧
    decodeCore false 0 0xE0000002 = .privileged ∧ decodeCore false 0 0xF8000000 = .privileged ∧
    decodeCore true 512 0xE2000180 = .run (.mfp 512 8 3) ∧ decodeCore true 512 0xE00A0201 = .run (.mtp 512 4 5) ∧
    decodeCore true 512 0xE0000003 = .run (.iret 512) ∧ decodeCore true 512 0xE8000000 = .illegal := by decide +kernel

/-- CoreFaultsAndIdle and `issues`, where the image is known: a word that spells the instruction and one that spells another, ILLEGAL,
PRIVILEGED, and a parity error in the cache. -/
theorem test_issue :
    (tIm 0x68201020 []).fetchFails 0 = false ∧ (tIm 0x68201020 []).wordAt 0 = some 0x68201020 ∧
    tNext (.setx 0 1 0x1020) (tIm 0x68201020 []) (fun t => (t.core 0).xr 1 == 0x1020) = true ∧
    tNext (.add 0 8 5 1) (tIm 0x68201020 []) (fun t => t == tIm 0x68201020 []) = true ∧
    tFaults (.add 0 8 5 1) (tIm 0xB8000000 []) 1 = true ∧ tFaults (.add 0 8 5 1) (tIm 0xE0000002 []) 2 = true ∧
    tNext (.setx 0 1 0x1020) (tIm 0x68201020 [0, 5]) (fun t => (t.core 0).xr 1 == 0x1020 && (t.core 0).icErr == [5] && t.rf .CORE_ECC 0 15 0 == 1) = true ∧
    (tIm 0 [5]).refetch 0 = tIm 0 [5] ∧ tFaults (.add 0 8 5 1) (tCore { tRegs with imgErr := [0] }) 9 = true := by decide +kernel

/-- AluResults on values at the edges of the ranges. -/
theorem test_alu :
    tGives (.add 0 8 5 1) 0x80000006 = true ∧
    tGives (.sub 0 8 3 1) 0x7FFFFFF9 = true ∧
    tGives (.and 0 8 5 2) 0x7FFFFFFD = true ∧
    tGives (.or 0 8 3 1) 0x80000007 = true ∧
    tGives (.xor 0 8 2 1) 0xFFFFFFFA = true ∧
    tGives (.shl 0 8 4 31) 0x80000000 = true ∧
    tGives (.shr 0 8 3 31) 1 = true ∧
    tGives (.sar 0 8 2 31) 0xFFFFFFFF = true ∧
    tGives (.shlv 0 8 1 2) 0xE0000000 = true ∧
    tGives (.shrv 0 8 2 1) 0x01FFFFFF = true ∧
    tGives (.sarv 0 8 3 1) 0xFF000000 = true ∧
    tGives (.cmplt 0 8 2 1) 1 = true ∧
    tGives (.cmpltu 0 8 2 1) 0 = true ∧
    tGives (.min 0 8 3 5) 0x80000000 = true ∧
    tGives (.max 0 8 3 5) 0x7FFFFFFF = true ∧
    tGives (.abs 0 8 2) 3 = true ∧
    tGives (.abs 0 8 3) 0x80000000 = true ∧
    tGives (.mul 0 8 2 1) 0xFFFFFFEB = true ∧
    tGives (.mulhi 0 8 3 5) 0xC0000000 = true ∧
    tGives (.addk 0 8 1 0xFFF8) 0xFFFFFFFF = true ∧
    tGives (.ork 0 8 1 0xFFF8) 0x0000FFFF = true ∧
    tGives (.andk 0 8 5 0xFFF8) 0x0000FFF8 = true ∧
    tGives (.cmpltk 0 8 2 0xFFFE) 1 = true ∧
    tGives (.movh 0 8 0x8001) 0x80010000 = true := by decide +kernel

/-- RegisterRules: g0, an even pair's lanes, and an odd pair as an operand. -/
theorem test_registers :
    tNext (.add 0 0 1 1) tC (fun t => (t.core 0).g == tRegs.g) = true ∧
    (1 : BitVec 5) ≠ 0 ∧ tRegs.lane 4 0 = 1 ∧ tRegs.lane 4 1 = 2 ∧ tRegs.lane 4 3 = 0x7FFF ∧
    oddPair 5 = true ∧ tFaults (.ldD 0 5 0 0 0) tC 1 = true ∧
    tFaults (.vadd 0 4 2 5) tC 1 = true := by decide +kernel

/-- BranchAndLoopResults: branches both ways, a backward offset, a call, a jump. -/
theorem test_branches :
    tNext (.brEq 0 1 1 0xFFFE) tC (fun t => (t.core 0).pc == 8) = true ∧
    tNext (.brEq 0 1 2 0xFFFE) tC (fun t => (t.core 0).pc == 20) = true ∧
    tNext (.brNe 0 1 2 3) tC (fun t => (t.core 0).pc == 28) = true ∧
    tNext (.brLt 0 2 1 false 3) tC (fun t => (t.core 0).pc == 28) = true ∧
    tNext (.brLt 0 2 1 true 3) tC (fun t => (t.core 0).pc == 20) = true ∧
    tNext (.brGe 0 2 1 true 3) tC (fun t => (t.core 0).pc == 28) = true ∧
    tNext (.brGe 0 1 1 false 3) tC (fun t => (t.core 0).pc == 28) = true ∧
    tNext (.call 0 0x7FFFFFC) tC (fun t => (t.core 0).pc == 0 && (t.core 0).gr 30 == 20) = true ∧
    tNext (.jmpr 0 1) tC (fun t => (t.core 0).pc == 7) = true := by decide +kernel

/-- Level 0 is active over 16 to 24; level 1 over the same end, from 20, with one pass left. -/
def tLoop (lc1 : Half) (pc : Word) : State :=
  tCore { tRegs with pc, act := [(0, true), (1, true)], ls := [(0, 16), (1, 20)], le := [(0, 24), (1, 24)], lc := [(0, 5), (1, lc1)] }

/-- Loops: a start, a reserved level, a nesting that is refused, an empty count, lbrk, and both ways at the end of a body. -/
theorem test_loops :
    tNext (.loop 0 2 false 3 0 2) tC (fun t => (t.core 0).pc == 20 && Tbl.get (t.core 0).ls 0 2 == 20 && Tbl.get (t.core 0).le 0 2 == 24
    && Tbl.get (t.core 0).lc 0 2 == 3 && Tbl.get (t.core 0).act false 2) = true ∧
    tFaults (.loop 0 3 false 3 0 2) tC 1 = true ∧
    tFaults (.loop 0 0 false 3 0 0) tC 1 = true ∧
    tFaults (.loop 0 0 false 3 0 2) (tLoop 1 16) 8 = true ∧
    tFaults (.loop 0 2 false 3 0 3) (tLoop 1 16) 8 = true ∧
    tNext (.loop 0 2 true 3 0 2) tC (fun t => (t.core 0).pc == 28 && !Tbl.get (t.core 0).act false 2) = true ∧
    tNext (.lbrk 0 1) (tLoop 1 16) (fun t => !Tbl.get (t.core 0).act false 1 && Tbl.get (t.core 0).act false 0) = true ∧
    tFaults (.lbrk 0 3) tC 1 = true ∧
    (tLoop 2 24).core 0 ≠ {} ∧ ((tLoop 2 24).core 0).loopAt 24 [] = some 1 ∧
    tNext (.add 0 8 1 1) (tLoop 2 24) (fun t => (t.core 0).pc == 20 && Tbl.get (t.core 0).lc 0 1 == 1) = true ∧
    tNext (.add 0 8 1 1) (tLoop 1 24) (fun t => (t.core 0).pc == 16 && Tbl.get (t.core 0).lc 0 0 == 4 && !Tbl.get (t.core 0).act false 1) = true ∧
    ((tLoop 1 24).core 0).loopAt 20 [] = none ∧
    tNext (.add 0 8 1 1) (tCore { tRegs with pc := 24, act := [(0, true)], ls := [(0, 16)], le := [(0, 24)], lc := [(0, 1)] }) (fun t => (t.core 0).pc == 28
    && Tbl.get (t.core 0).lc 9 0 == 0 && !Tbl.get (t.core 0).act true 0) = true := by decide +kernel

/-- Special registers that differ from their reset values. -/
def tSpec : State := tCore { tRegs with
  st := 5, sv := 0xABCD0123, cycHi := 9, x := [(7, 0x8001)], o := [(7, 0x8001)], cb := [(7, 0x8001)], cl := [(7, 0x8001)], lc := [(2, 0x8001)]
  ls := [(2, 100)], le := [(2, 200)] }
/-- `mfs` gives a value. -/
def tMfs (n : BitVec 6) (v : Word) : Bool := tNext (.mfs 0 8 n) tSpec fun t => (t.core 0).gr 8 == v

/-- SpecialRegisters at both ends of each range, the gaps between them, and writes to read-only numbers. -/
theorem test_special_registers :
    tMfs 0 5 = true ∧ tMfs 1 0xABCD0123 = true ∧ tMfs 2 0 = true ∧ tMfs 3 0 = true ∧ tMfs 5 9 = true ∧ tMfs 6 0 = true ∧
    tMfs 0x0F 0 = true ∧ tMfs 0x10 0 = true ∧ tMfs 0x17 0x8001 = true ∧ tMfs 0x18 0 = true ∧ tMfs 0x1F 0xFFFF8001 = true ∧
    tMfs 0x20 0 = true ∧ tMfs 0x27 0x8001 = true ∧ tMfs 0x28 0 = true ∧ tMfs 0x2F 0x8001 = true ∧ tMfs 0x30 0 = true ∧ tMfs 0x32 0x8001 = true ∧
    tMfs 0x33 0 = true ∧ tMfs 0x34 0 = true ∧ tMfs 0x36 100 = true ∧ tMfs 0x37 0 = true ∧ tMfs 0x38 0 = true ∧ tMfs 0x3A 200 = true ∧ tMfs 0x3B 0 = true ∧
    tMfs 0x3F 0 = true ∧
    tNext (.mts 0 0 4) tSpec (fun t => (t.core 0).st == 4) = true ∧
    tNext (.mts 0 1 4) tSpec (fun t => (t.core 0).sv == 0x00020001) = true ∧
    tNext (.mts 0 4 1) tSpec (fun t => (t.core 0).pc == 20 && (t.core 0).g == tRegs.g) = true ∧
    tNext (.mts 0 0x17 4) tSpec (fun t => (t.core 0).xr 7 == 1) = true ∧
    tNext (.mts 0 0x32 4) tSpec (fun t => Tbl.get (t.core 0).lc 0 2 == 1) = true ∧
    tFaults (.mts 0 3 1) tSpec 1 = true ∧ tFaults (.mts 0 0x3F 1) tSpec 1 = true ∧ tFaults (.mts 0 0x33 1) tSpec 1 = true := by decide +kernel

/-- AddressRegisters: the writes, a linear step that wraps, a circular step at both ends of the buffer. -/
theorem test_address_registers :
    tNext (.setx 0 7 0x8001) tC (fun t => (t.core 0).xr 7 == 0x8001) = true ∧
    tNext (.seto 0 7 0x8001) tC (fun t => Tbl.get (t.core 0).o 0 7 == 0x8001) = true ∧
    tNext (.setcb 0 7 0x8001) tC (fun t => Tbl.get (t.core 0).cb 0 7 == 0x8001) = true ∧
    tNext (.setcl 0 7 0x8001) tC (fun t => Tbl.get (t.core 0).cl 0 7 == 0x8001) = true ∧
    tNext (.movx 0 1 4) tC (fun t => (t.core 0).xr 1 == 1) = true ∧
    tNext (.addx 0 1 0xFFFF) tC (fun t => (t.core 0).xr 1 == 0xFFFF) = true ∧
    tNext (.addx 0 1 8) (tCore { tRegs with x := [(1, 0x108)], cb := [(1, 0x100)], cl := [(1, 16)] }) (fun t => (t.core 0).xr 1 == 0x100) = true ∧
    tNext (.addx 0 1 0xFFFF) (tCore { tRegs with x := [(1, 0x100)], cb := [(1, 0x100)], cl := [(1, 16)] }) (fun t => (t.core 0).xr 1 == 0x10F) = true := by decide +kernel

/-- LDM bytes 0x100 to 0x107 hold 0x81 to 0x88; x1 = 0x100, x7 = 0xFF00, o1 = -2; the units at 0x108 and 0x110 hold a double- and a
single-bit error. -/
def tLdm : State := tCore { tRegs with
  ldm := [(0x100, 0x81), (0x101, 0x82), (0x102, 0x83), (0x103, 0x84), (0x104, 0x85), (0x105, 0x86), (0x106, 0x87), (0x107, 0x88)]
  x := [(1, 0x100), (7, 0xFF00)], o := [(1, 0xFFFE)], ldmErr := [(0x21, true), (0x22, false)] }
/-- A load puts `v` in g8 and leaves x1 at `x`. -/
def tLoads (i : Instr) (v : Word) (x : Half) : Bool := tNext i tLdm fun t => (t.core 0).gr 8 == v && (t.core 0).xr 1 == x

/-- LoadResults: every width, sign and address form. -/
theorem test_loads :
    tLoads (.ldH 0 8 1 0 2) 0xFFFF8483 0x100 = true ∧
    tLoads (.ldHu 0 8 1 1 0) 0x00008281 0xFE = true ∧
    tLoads (.ldW 0 8 1 2 0) 0x84838281 0x104 = true ∧
    tLoads (.ldD 0 8 1 3 0) 0x84838281 0xF8 = true ∧
    tNext (.ldD 0 8 1 3 0) tLdm (fun t => (t.core 0).gr 9 == 0x88878685) = true ∧
    tNext (.ldW 0 8 1 0 16) tLdm (fun t => t.rf .CORE_ECC 0 31 16 == 1 && Tbl.find (t.core 0).ldmErr 0x22 == none) = true := by decide +kernel

/-- StoreResults: every width, and the prefetch slots, where a store has no effect. -/
theorem test_stores :
    tNext (.stH 0 4 1 2 0) tLdm (fun t => t.ldByte 0 (t.core 0) 0x100 == 1 && t.ldByte 0 (t.core 0) 0x101 == 0 && t.ldByte 0 (t.core 0) 0x102 == 0x83) = true ∧
    tNext (.stW 0 4 1 0 4) tLdm (fun t => t.ldByte 0 (t.core 0) 0x106 == 2 && t.ldByte 0 (t.core 0) 0x103 == 0x84) = true ∧
    tNext (.stD 0 4 1 3 0) tLdm (fun t => t.ldByte 0 (t.core 0) 0x107 == 0x7F && (t.core 0).xr 1 == 0xF8) = true ∧
    tNext (.stW 0 4 0 0 0xFF00) tC (fun t => (t.core 0).ldm == []) = true ∧
    tNext (.stW 512 4 0 0 8) (tCore { tRegs with win := 1 }) (fun t => t.csram == [(0x10008, 1), (0x1000A, 2)]) = true := by decide +kernel

/-- LdmFaults: misaligned, through x7 on both sides of the stack, a double-bit error. -/
theorem test_ldm_faults :
    tFaults (.ldW 0 8 1 0 2) tLdm 3 = true ∧ tFaults (.stD 0 4 1 0 4) tLdm 3 = true ∧
    tFaults (.ldW 0 8 7 0 0) tLdm 4 = true ∧ tFaults (.stW 0 4 7 0 0xDFC) (tCore { tRegs with x := [(7, 0xD200)] }) 4 = true ∧
    tNext (.stW 0 4 7 0 0xFFFC) tLdm (fun t => t.ldByte 0 (t.core 0) 0xFEFC == 1) = true ∧
    tFaults (.ldH 0 8 1 0 14) tLdm 7 = true := by decide +kernel

/-- Lanes of g4:g5 are 1, 2, -1, 32767; of g6:g7 -32768, 32767, 3, 1; accumulator 1 holds 2^39 - 1, -1, 0x18000, -0x18000. -/
def tVec : State := tCore { tRegs with
  g := [(4, 0x00020001), (5, 0x7FFFFFFF), (6, 0x7FFF8000), (7, 0x00010003)]
  acc := [(4, 0x7FFFFFFFFF), (5, 0xFFFFFFFFFF), (6, 0x18000), (7, 0xFFFFFE8000)], x := [(1, 0x100), (2, 0x200)]
  ldm := [(0x100, 2), (0x106, 0xFF), (0x107, 0xFF), (0x200, 3), (0x207, 0x80)] }
/-- The four lanes of an accumulator afterwards. -/
def tAcc (i : Instr) (a : Nat) (l : List Int) : Bool := tNext i tVec fun t => (List.range 4).map ((t.core 0).accL a) == l
/-- The four lanes of g8:g9 afterwards, and the status bits. -/
def tLanes (i : Instr) (l : List Int) (st : Word) : Bool :=
  tNext i tVec fun t => ((List.range 4).map fun n => ((t.core 0).lane 8 n).toInt) == l && (t.core 0).st == st

/-- VectorAccumulators: products, sums that wrap at 2^40 and set WRAP, LDM operands, shifts at 23, rounding, clamping. -/
theorem test_accumulators :
    tAcc (.vclr 0 1) 1 [0, 0, 0, 0] = true ∧
    tAcc (.vmpy 0 1 (.vr 4 6)) 1 [-32768, 65534, -3, 32767] = true ∧
    tAcc (.vmac 0 1 (.vr 4 4)) 1 [-549755813888, 3, 0x18001, 1073577985] = true ∧
    tNext (.vmac 0 1 (.vr 4 4)) tVec (fun t => (t.core 0).st == 4) = true ∧
    tAcc (.vmsu 0 1 (.vr 4 6)) 1 [-549755781121, -65535, 0x18003, -131071] = true ∧
    tAcc (.vmpy 0 0 (.vm 1 0 2 2)) 0 [6, 0, 0, 32768] = true ∧
    tAcc (.vmac 0 1 (.vm 1 0 2 0)) 1 [-549755813883, -1, 0x18000, -65536] = true ∧
    tAcc (.vmsu 0 1 (.vm 1 0 2 0)) 1 [549755813881, -1, 0x18000, -131072] = true ∧
    tNext (.vmpy 0 0 (.vm 1 2 2 3)) tVec (fun t => (t.core 0).xr 1 == 0x108 && (t.core 0).xr 2 == 0x1F8) = true ∧
    tAcc (.vld 0 1 (.vr 4) 23) 1 [8388608, 16777216, -8388608, 274869518336] = true ∧
    tAcc (.vld 0 1 (.vm 1 0) 1) 1 [4, 0, 0, -2] = true ∧
    tFaults (.vld 0 1 (.vr 4) 24) tVec 1 = true ∧
    tLanes (.vst 0 1 (.vr 8) 16) [32767, 0, 2, -1] 1 = true ∧
    tLanes (.vst 0 0 (.vr 8) 0) [0, 0, 0, 0] 0 = true ∧
    tNext (.vst 0 1 (.vm 1 2) 16) tVec (fun t => t.ldByte 0 (t.core 0) 0x101 == 0x7F && t.ldByte 0 (t.core 0) 0x104 == 2
    && (t.core 0).xr 1 == 0x108 && (t.core 0).st == 1) = true ∧
    tNext (.vred 0 1 8 8) tVec (fun t => (t.core 0).gr 8 == 0x7FFFFFFF && (t.core 0).st == 1) = true ∧
    tNext (.vext 0 1 8 3 16) tVec (fun t => (t.core 0).gr 8 == 0xFFFFFFFF) = true := by decide +kernel

/-- VectorLanes: sums that saturate and set ASAT, and add-compare-select with its survivor bits. -/
theorem test_lanes :
    oddPair 8 = false ∧ oddPair 4 = false ∧ oddPair 6 = false ∧
    tLanes (.vadd 0 8 4 6) [-32767, 32767, 2, 32767] 2 = true ∧
    tLanes (.vsub 0 8 4 6) [32767, -32765, -4, 32766] 2 = true ∧
    tLanes (.vacsx 0 8 4 4 6) [32767, 32767, 2, 32767] 2 = true ∧
    tNext (.vacsx 0 8 4 4 6) tVec (fun t => (t.core 0).sv == 1) = true ∧
    tLanes (.vacsn 0 8 4 4 6) [-32767, -32765, -4, 32766] 2 = true ∧
    tNext (.vacsn 0 8 4 4 6) tVec (fun t => (t.core 0).sv == 14) = true := by decide +kernel

/-- A control core with an interrupt pending but not enabled. -/
def tCtl : State := tCore { tRegs with win := 11, epc := 400, ie := 2, ip := 1, vbase := 13 }

/-- ControlCoreInstructions on a media core and a control core. -/
theorem test_control_core :
    tFaults (.mfp 0 8 0) tC 2 = true ∧ tFaults (.mtp 0 0 1) tC 2 = true ∧ tFaults (.wfi 0) tC 2 = true ∧ tFaults (.iret 0) tC 2 = true ∧
    tFaults (.fencef 0) tC 2 = true ∧ tFaults (.romcall 0 0) tC 2 = true ∧
    tNext (.mfp 512 8 4) tCtl (fun t => (t.core 512).gr 8 == 13) = true ∧ tNext (.mfp 512 8 5) tCtl (fun t => (t.core 512).gr 8 == 0) = true ∧
    tNext (.mtp 512 4 1) tCtl (fun t => (t.core 512).vbase == 7) = true ∧ tNext (.mtp 512 0 1) tCtl (fun t => (t.core 512).win == 7) = true ∧
    tNext (.mtp 512 1 1) tCtl (fun t => (t.core 512).epc == 7) = true ∧ tNext (.mtp 512 2 1) tCtl (fun t => (t.core 512).ie == 7) = true ∧
    tNext (.mtp 512 3 1) tCtl (fun t => t.rf .CORE_FAULT 512 7 4 == 1 || (t.core 512).faulted == some 1) = true ∧
    tNext (.wfi 512) tCtl (fun t => (t.core 512).waiting && (t.core 512).pc == 16) = true ∧
    tNext (.wfi 512) (tCore { tRegs with ip := 2, ie := 2 }) (fun t => !(t.core 512).waiting && (t.core 512).pc == 20) = true ∧
    tNext (.iret 512) tCtl (fun t => (t.core 512).pc == 400 && (t.core 512).intOn) = true ∧
    tNext (.fencef 512) tCtl (fun t => (t.core 512).pc == 20) = true ∧
    tNext (.fencef 512) (tCore { tRegs with tags := [(0, { inFlight := true, out := true })] }) (fun t => (t.core 512).pc == 16) = true ∧
    tNext (.romcall 512 0) tCtl (fun t => (t.core 512).inRom && t.power == tCtl.power) = true ∧
    tNext (.romcall 512 0) { tCtl with cores := [(512, {}), (513, { inRom := true }), (514, { inRom := true }), (515, { inRom := true })], time := { eacc := 2 ^ 32 * 77 } } (fun t =>
    t.power.kickAt == 77) = true ∧
    tNext (.romcall 512 1) tCtl (fun t => (t.core 512).faulted == some 1) = true := by decide +kernel

/-- The memory controller of stack 0 in a state (2 ACTIVE, 4 SELF_REFRESH), tenant 0's window 0 over the first 64 KB, four bytes
at 64; g10:g11 = 64, g12:g13 lies outside every region. -/
def tFar (st : Nat) : State :=
  let s := tCore { tRegs with g := [(1, 7), (10, 64), (12, 0), (13, 0x3F)] }
  let s := ((s.setRf .HBMC_STAT 0 31 29 st).setReg .CLKPWR_PD_STAT 28 0x40000000).setReg .HBMC_WIN_CTL 0 0xE0000000
  { s.setReg .HBMC_WIN_SIZE 0 1 with mem := [(64, 1), (65, 2), (66, 3), (67, 4)] }

/-- FarAccessAndDma, its far accesses: misaligned, done, refused by the fabric, and left to be tried again. -/
theorem test_far_access :
    tFaults (.ldf 0 8 14) (tCore { tRegs with g := [(14, 2)] }) 3 = true ∧ tFaults (.stf 0 8 14) (tCore { tRegs with g := [(14, 2)] }) 3 = true ∧
    ((tFar 2).busRead (coreAgent 0) 64).bus = .ok 0x04030201 ∧
    tNext (.ldf 0 8 10) (tFar 2) (fun t => (t.core 0).gr 8 == 0x04030201 && (t.core 0).pc == 20) = true ∧
    tNext (.stf 0 1 10) (tFar 2) (fun t => t.mem == [(64, 7)] && (t.core 0).pc == 20) = true ∧
    ((tFar 4).busRead (coreAgent 0) 64).bus = .none ∧ ((tFar 4).busWrite (coreAgent 0) 64 7).bus = .none ∧
    tNext (.ldf 0 8 10) (tFar 4) (fun t => (t.core 0).pc == 16) = true ∧
    ((tFar 2).busRead (coreAgent 0) 0x3F00000000).bus = .busError ∧
    tFaults (.ldf 0 8 12) (tFar 2) 5 = true ∧ tFaults (.stf 0 1 12) (tFar 2) 5 = true ∧
    tFaults (.ldf 0 8 10) ((tFar 2).setCore 0 { (tFar 2).core 0 with memErr := [1] }) 5 = true := by decide +kernel

/-- DMA operands: g10:g11 a bridge address, g18 an LDM address, g19 a length; tags 0 in flight, 1 failed. -/
def tDma : State := tCore { tRegs with
  g := [(1, 7), (10, 64), (11, 0), (12, 4), (18, 256), (19, 32)], tags := [(0, { inFlight := true, len := 32, bridge := 64 }), (1, { fail := some 99 })] }

/-- FarAccessAndDma, its transfers. -/
theorem test_dma :
    (2 : BitVec 5).toNat < 8 ∧ oddPair 10 = false ∧
    tNext (.dmai 0 2 10 18 19) tDma (fun t => (t.core 0).tag 2 == { inFlight := true, out := false, bridge := 64, ldm := 256, len := 32 } && (t.core 0).pc == 20) = true ∧
    tNext (.dmao 0 2 10 18 19) tDma (fun t => (t.core 0).tag 2 == { inFlight := true, out := true, bridge := 64, ldm := 256, len := 32 }) = true ∧
    tNext (.dmai 0 0 10 18 19) tDma (fun t => t == tDma) = true ∧
    tFaults (.dmao 0 1 10 18 19) tDma 6 = true ∧
    tFaults (.dmai 0 2 12 18 19) tDma 3 = true ∧
    tFaults (.dmaw 0 8) tDma 1 = true ∧
    tNext (.dmaw 0 0) tDma (fun t => t == tDma) = true ∧
    tNext (.dmaw 0 1) tDma (fun t => (t.core 0).faulted == some 6 && t.reg .CORE_FAULT_ADDR 0 == 99 && ((t.core 0).tag 1).fail == none) = true ∧
    tNext (.dmaw 0 7) tDma (fun t => (t.core 0).pc == 20) = true ∧
    tNext (.dmas 0 8) tDma (fun t => (t.core 0).gr 8 % 256 == 1) = true ∧
    tNext (.dmaComplete 0 1 none) tDma (fun t => t == tDma) = true ∧
    tNext (.dmaComplete 0 0 (some 0)) tDma (fun t => (t.core 0).tag 0 == { len := 32, bridge := 64, fail := some 64 }) = true ∧
    tNext (.dmaComplete 0 0 none) tDma (fun t => ((t.core 0).tag 0).inFlight == false) = true := by decide +kernel

/-- Core 0 runs an item of queue 49152 with status `st` in g2. -/
def tItem (st : Word) (retries : Word) (tags : Tbl Tag) (f : Option Nat) : State :=
  tCore { g := [(2, st)], tags, faulted := f, slots := [(0, { words := [retries] })], order := [] }

/-- ItemEnds: done with a tag in flight, with one that failed, each status, and the fault report. -/
theorem test_item_ends :
    (tItem 0 0 [] none).coreRuns 0 = true ∧ (tItem 0 0 [] none).fetchFails 0 = false ∧
    tNext (.done 0 none) (tItem 0 0 [(0, { inFlight := true })] none) (fun t => t == tItem 0 0 [(0, { inFlight := true })] none) = true ∧
    tFaults (.done 0 none) (tItem 0 0 [(3, { fail := some 5 })] none) 6 = true ∧
    tNext (.done 0 none) (tItem 0 0 [] none) (fun t => !(t.core 0).running && (Tbl.get t.disp.qs {} 49152).done == 1 && (Tbl.get t.disp.qs {} 49152).errors == 0) = true ∧
    tNext (.done 0 none) (tItem 1 0 [] none) (fun t => (Tbl.get t.disp.qs {} 49152).errors == 1) = true ∧
    tNext (.done 0 none) (tItem 2 0 [] none) (fun t => (Tbl.get t.disp.qs {} 49152).items.length == 1 && (Tbl.get t.disp.qs {} 49152).done == 0) = true ∧
    tNext (.done 512 none) (tItem 0 0 [] none) (fun t => (t.core 512).pc == 4) = true ∧
    (let s := { tItem 0 0 [] none with cores := [(0, { (tItem 0 0 [] none).core 0 with kern := 5 })], mix := { sources := [(7, {})] } }
    s.coreRuns 0 = true ∧ s.inFlr 0 = false ∧
    tNext (.done 0 (some { src := 7, event := 3, ms := 80 })) s (fun t => (Tbl.get t.vusta.notes {} 16).wait == [⟨0x0481, 7, [0x500003]⟩]) = true) ∧
    tNext (.kernelFaultReport 0 0) (tItem 0 0 [] none) (fun t => t == tItem 0 0 [] none) = true ∧
    tNext (.kernelFaultReport 0 0) (tItem 0 0 [(0, { inFlight := true })] (some 3)) (fun t => (t.core 0).faulted == some 3) = true ∧
    tNext (.kernelFaultReport 0 0) (tItem 0 0 [] (some 3)) (fun t => (t.core 0).faulted == none && !(t.core 0).running) = true := by decide +kernel

/-- CoreFaultsAndIdle and CoreFrame. -/
theorem test_core_faults_and_frame :
    (tC.coreRuns 1) = false ∧ coreOf (.add 1 8 1 1) = some 1 ∧ tNext (.add 1 8 1 1) tC (fun t => t == tC) = true ∧
    (tCore { tRegs with pc := 65536 }).fetchFails 0 = true ∧ tFaults (.add 0 8 1 1) (tCore { tRegs with pc := 65536 }) 9 = true ∧
    ((tC.coreFault 0 3 9).coreFault 0 4 8).rf .CORE_FAULT 0 7 4 = 3 ∧ ((tC.coreFault 0 3 9).coreFault 0 4 8).rb .CORE_FAULT 0 1 = true ∧
    ((tC.coreFault 0 3 9).coreFault 0 4 8).reg .CORE_FAULT_ADDR 0 = 9 ∧
    tNext (.stW 0 4 0 0 8) tC (fun t => t.core 512 == tC.core 512 && t.mem == tC.mem) = true := by decide +kernel

/-- Port 0 enabled, four lane rates and every FEC allowed (reset), width 1. -/
def tEth : State := tWorld.setReg .ETH_PCFG 0 0x8FC00000
/-- Its link up at 100 Gb/s, and the packet plane and the crypto lanes ON. -/
def tUp : State := ((((tEth.setReg .ETH_PSTAT 0 0xCF000000).setReg .EGS_PORT_CFG 0 0x70140000).setReg .STRATA_CTRL 0 0x80000000).setReg .CLKPWR_PD_STAT 26 0x40000000).setReg .CLKPWR_PD_STAT 27 0x40000000

/-- EthernetEventsComplete: configuration, a good and a hopeless negotiation, restart, links, scaled minimums. -/
theorem test_ethernet :
    tNext (.ethPcfgWrite 0 0xB0000000) tUp (fun t => t.linkUp 0 == false && t.ethResult 0 == ETH_CFG_ERR && t.bus == .ok 0) = true ∧
    tEth.ethOn 0 = true ∧ tEth.ethFixed 0 = false ∧ tEth.ethBad 0 = false ∧ tEth.ethResult 0 ≠ ETH_TRAIN_FAIL ∧ tEth.resolveAn 0 0xB 0xF = some (3, 3) ∧
    tNext (.anResolved 0 0xB 0xF true) tEth (fun t => t.rf .ETH_PSTAT 0 27 26 == 3 && t.rb .ETH_PSTAT 0 30) = true ∧
    tEth.resolveAn 0 8 7 = none ∧ tNext (.anResolved 0 8 7 true) tEth (fun t => t.ethResult 0 == ETH_NO_COMMON) = true ∧
    (tEth.setRf .ETH_PSTAT 0 23 20 3).ethResult 0 = ETH_TRAIN_FAIL ∧
    tNext (.anRestartTimeout 0) (tEth.setRf .ETH_PSTAT 0 23 20 3) (fun t => t.ethResult 0 == ETH_IN_PROGRESS) = true ∧
    (tEth.setReg .ETH_PSTAT 0 0x40000000).linkUp 0 = false ∧ (tEth.setReg .ETH_PSTAT 0 0x40000000).rb .ETH_PSTAT 0 30 = true ∧
    tNext (.linkChange 0 true) (tEth.setReg .ETH_PSTAT 0 0x4C000000) (fun t => t.linkUp 0 && t.rb .ETH_PSTAT 0 19 && t.rf .EGS_PORT_CFG 0 15 0 == 739) = true ∧
    tUp.linkUp 0 = true ∧ tNext (.linkChange 0 false) tUp (fun t => !t.linkUp 0 && t.net.legs == tUp.net.legs) = true := by decide +kernel

/-- Port 0's tenants ask together for more than the link can give, 100 and 80 Gb/s. -/
def tOver : State := { tUp with net := { tUp.net with ports := [(0, { tenants := [(0, { cfgMin := 100000000 }), (1, { cfgMin := 80000000 })] })] } }

/-- EthernetEventsComplete, scaled minimums. -/
theorem test_effective_minimum :
    tOver.linkUp 0 = true ∧ tOver.minLimit 0 = 100000000 ∧ (tOver.port 0).cfgSum = 180000000 ∧
    tNext (.effectiveMinApply 0) tOver (fun t => (t.tenantPort 0 1).mn.rate == 44444444 && (t.port 0).scaled) = true := by decide +kernel

/-- An ARP frame, and a UDP datagram of leg 0 (0.0.0.2:5001 to 0.0.0.1:5000) with an RTP packet of SSRC 10 and sequence number 1. -/
def tArp : List Byte := List.replicate 12 255 ++ [8, 6]
/-- The RTP packet. -/
def tRtp : List Byte := [0x80, 0x60, 0, 1, 0, 0, 0, 0, 0, 0, 0, 10]
/-- The frame. -/
def tUdp : List Byte := List.replicate 12 255 ++ [8, 0, 0x45, 0, 0, 40, 0, 0, 0, 0, 64, 17, 0, 0, 0, 0, 0, 2, 0, 0, 0, 1,
  0x13, 0x89, 0x13, 0x88, 0, 20, 0, 0] ++ tRtp
/-- Leg 0 carries SRTP, and stream 0 decrypts with slot 5; a packet waits at decrypt lane 5, another at encrypt lane 6. -/
def tPkt : State :=
  let s := (tUp.setReg .CRYPT_CTRL 0 0x80000000).setReg .STRATA_CTRL 0 0x80000009
  { s with
    keys := { slots := [(5, { own := some {}, st := .active, h0 := { live := true } }), (6, { own := some {}, enc := true, st := .active, h0 := { live := true } })] }
    net := { s.net with
      legs := [(0, { srtp := true, localIp := 1, remoteIp := 2, localUdp := 5000, remoteUdp := 5001 })]
      streams := [(0, { ssrc := 10, dest := 1, decSlot := 5 }), (2, { device := true })]
      dec := [(5, [{ bytes := tRtp, cap := some { slot := 5, halves := [0] } }])]
      enc := [(6, [{ seq := 9, cap := some { slot := 6, halves := [0] } }])]
      strata := [{ stream := 0 }], flowqs := [(0, { descs := [{ counted := 100 }] })] } }
/-- Encrypt lane 6 has used index 9. -/
def tUsed : State := { tPkt with keys := { slots := [(6, { own := some {}, enc := true, st := .active, h0 := { live := true, h := [(0, 10)], used := [(0, 1)] } })] } }

/-- A frame at each of the selector and encrypt lane 6, of output context 0, whose record is the units 0 to 2. -/
def tUnread : State := { tPkt with net := { tPkt.net with
  enc := [(6, [{ seq := 9, sub := some 0, cap := some { slot := 6, halves := [0] } }])], flowqs := [(0, { descs := [{ counted := 100, sub := some 0 }] })] } }

/-- PacketPathCompletes, what cannot be read (R341). -/
theorem test_unread_packets :
    tUnread.descUnread { ue := [2] } { sub := some 0 } = true ∧ tUnread.descUnread { ue := [3] } { sub := some 0 } = false ∧
    tUnread.capErased { slot := 6, halves := [0] } = false ∧ (tUnread.selectQ 0).map (fun x => x.1) = some 0 ∧
    tNext (.srtpEncrypt 6 { ue := [2] }) tUnread (fun t => t.cnt .CRYPT_CNT_LO K_ENC_PKTS == 0 && Tbl.get t.net.enc [] 6 == [] && t.out == []) = true ∧
    tNext (.egressSelect 0 { ue := [2] }) tUnread (fun t => (Tbl.get t.net.flowqs {} 0).descs == [] && (Tbl.get t.net.flowqs {} 0).sent == 0 && t.out == []) = true := by decide +kernel

/-- PacketPathCompletes: firmware's frame, a media frame, decrypt, forward, a device's packet, select, encrypt and a used index. -/
theorem test_packet_path :
    tPkt.linkUp 0 = true ∧ parseFrame true tArp = .control .arp ∧ parseFrame true tUdp = .udp false none 2 1 5001 5000 0 tRtp ∧
    tPkt.rf .STRATA_CTRL 0 15 0 = 9 ∧ tPkt.legOf false none 1 5000 2 5001 = some (0, false) ∧ isRtp tRtp = true ∧ isRtcp tRtp = false ∧
    tPkt.streamOf 0 (parseRtp tRtp).ssrc = some (0, false) ∧ (tPkt.capture 5 false false).2 = some { slot := 5, halves := [0] } ∧
    tNext (.frameReceived 0 true tUdp {} 0) tPkt (fun t => (Tbl.get t.net.dec [] 5).length == 2) = true ∧
    tPkt.pdOn 26 = true ∧ tPkt.pdOn 27 = true ∧ tPkt.keys.bleaching = false ∧ tPkt.rb .CRYPT_CTRL 0 31 = true ∧ tPkt.capErased { slot := 5, halves := [0] } = false ∧
    ((tPkt.slot 5).track 0).replayed (((tPkt.slot 5).track 0).estimate 1) = false ∧
    tNext (.srtpDecrypt 5 true [] {} 0) tPkt (fun t => t.cnt .CRYPT_CNT_LO K_DEC_PKTS == 1 && ((t.slot 5).track 0).win == 1) = true ∧
    tNext (.srtpDecrypt 5 false [] {} 0) tPkt (fun t => t.cnt .CRYPT_CNT_LO K_AUTH_FAIL == 1 && ((t.slot 5).track 0).win == 0) = true ∧
    tPkt.rb .STRATA_CTRL 0 31 = true ∧ tNext (.strataForward none 0) tPkt (fun t => t.net.strata == []) = true ∧
    (tPkt.allocPayload true [1] 1).2 = some 0 ∧ (tPkt.stream 2).device = true ∧ (tPkt.stream 2).kind = 0 ∧
    tNext (.strataForward (some { stream := 2, bytes := [1] }) 0) tPkt (fun t => t.net.nextPayload == 1) = true ∧
    (tPkt.selectQ 0).map (fun x => x.1) = some 0 ∧
    tNext (.egressSelect 0 {}) tPkt (fun t => (Tbl.get t.net.flowqs {} 0).sent == 1 && (Tbl.get t.net.flowqs {} 0).sentBytes == 100) = true ∧
    (let s := { tPkt with net := { tPkt.net with flowqs := [(0, { descs := [{ counted := 100, cap := some { slot := 6, halves := [0] } }] })] } }
    (s.selectQ 0).map (fun x => x.1) = some 0 ∧
      tNext (.egressSelect 0 {}) s (fun t => (Tbl.get t.net.flowqs {} 0).descs == [] && (Tbl.get t.net.flowqs {} 0).sent == 0) = true) ∧
    ((tPkt.slot 6).half ((tPkt.slot 6).serves { slot := 6, halves := [0] } 9)).mayUse 0 9 = true ∧
    tNext (.srtpEncrypt 6 {}) tPkt (fun t => t.cnt .CRYPT_CNT_LO K_ENC_PKTS == 1 && Tbl.get (t.slot 6).h0.h 0 0 == 10) = true ∧
    tNext (.srtpEncrypt 6 {}) { tPkt with keys := tUsed.keys } (fun t => t.cnt .CRYPT_CNT_LO K_ENC_PKTS == 0 && (t.slot 6).refused == 1) = true := by decide +kernel

/-- Port 0 up with a tenant minimum whose bucket is full, a frame of the tenant waiting, an active gate list and a pending one. -/
def tShape : State :=
  let g (i : Nat) : GateList := { entries := [{ gates := 255, interval := i }, { gates := 128, interval := i }], cycle := 2 * i }
  { tUp with
    time := { acc := 2 ^ 32 * 5000, eacc := 2 ^ 32 * 5000 }
    net := { tUp.net with
      ports := [(0, { active := some (g 1000), tenants := [(0, { mn := { rate := 1000, size := 9279, lvl := 9279 * 8000000 } })] }), (1, { pend := some (g 1000) })]
      flowqs := [(0, { descs := [{ counted := 100 }] }), (1, { leg := 0, sh := { adaptive := true, minRate := 100, maxRate := 900 } })]
      est := [(0, { enable := true, minK := 50, maxK := 70 })]
      samplers := [(0, { period := 100000, nextAt := 100000 }), (1023, { period := 100000 })]
      peers := [(0, { dev := 7, leg := 3, lastHeard := 0 }), (1023, { dev := 8 })] }
    disp := { tUp.disp with qs := [
      (0xC000, { own := { fn := 256 }, items := [{ words := [0x13000000, 0, 0, 0, 0, 0x48000000, 0, 0], src := 0 }] }),
      (0xC001, { own := { fn := 256 }, items := [{ words := [0x14000000, 0, 0, 0, 1, 1000, 0, 0], src := 0 }] }),
      (0xC002, { own := { fn := 256 }, items := [{ words := [0x15000000, 0, 0, 0, 0, 0, 0, 0] }] })] } }
/-- The same device without a gate list. -/
def tOpen : State := { tShape with net := { tShape.net with ports := Tbl.mapv tShape.net.ports fun _ p => { p with active := none } } }
/-- The same device three seconds later. -/
def tLater : State := { tShape with time := { acc := 2 ^ 32 * 3000000000, eacc := 2 ^ 32 * 3000000000 } }

/-- ShapingEventsComplete: each event where it has its effect, the targets also where they are rejected. -/
theorem test_shaping :
    (let x := tOpen.tenantPort 0 0
    (x.mn.refill tShape.ela).rate ≠ 0 ∧ (x.mn.refill tShape.ela).lvl = (x.mn.refill tShape.ela).size * unitsPerByte ∧ x.missed = false) ∧
    (0 : Nat) ≠ tOpen.audioTc 0 ∧ tOpen.eligibleQ (Tbl.get tOpen.net.flowqs {} 0) = true ∧
    tNext (.tenantBucketFull 0 0 0) tOpen (fun t => t.cnt .EGS_CNT_LO E_MIN_MISSED == 1) = true ∧
    (tShape.port 0).active.isSome = true ∧ tShape.gateDue 0 = none ∧ ((tShape.port 0).entryEnd ((tShape.port 0).active.getD {})).1 ≤ tShape.dev ∧
    tNext (.gateEntryAdvance 0 0) tShape (fun t => (t.port 0).entry == 1 && (t.port 0).entryAt == 1000) = true ∧
    (let s := { tShape with net := { tShape.net with ports := Tbl.mapv tShape.net.ports fun _ p => { p with waitStart := true, entryAt := 4000 } } }
    s.gateDue 0 = none ∧ tNext (.gateEntryAdvance 0 0) s (fun t => (t.port 0).entry == 0 && (t.port 0).entryAt == ((s.port 0).entryEnd ((s.port 0).active.getD {})).1) = true) ∧
    (tShape.port 1).pend.isSome = true ∧ (tShape.port 1).active = none ∧ ((tShape.port 1).pend.getD {}).change ≤ tShape.dev ∧
    tNext (.gateListSwitch 1 0) tShape (fun t => (t.port 1).pend == none && (t.port 1).entryAt == 5000) = true ∧
    tShape.rf .STRATA_TGT_QID 0 15 0 = 0xC000 ∧ ((tShape.popShared 0xC000).map fun x => x.1.event) = some 0x13 ∧
    tNext .layerTargetApply tShape (fun t => (t.sub 0).tgtS == 1 && (t.sub 0).tgtT == 1) = true ∧
    tNext .layerTargetApply { tShape with net := { tShape.net with subs := [] } } (fun t => t.cnt .STRATA_CNT_LO C_TGT_REJECT == 1) = true ∧
    tNext .layerTargetApply { tShape with net := { tShape.net with subs := [(0, { rxLeg := 5 })] } } (fun t => t.cnt .STRATA_CNT_LO C_TGT_REJECT == 1) = true ∧
    tShape.rf .EGS_TGT_QID 0 15 0 = 0xC001 ∧ (tShape.popShared 0xC001).isSome = true ∧
    tNext (.shaperTargetApply 0) tShape (fun t => (Tbl.get t.net.flowqs {} 1).sh.b.rate == 900) = true ∧
    tNext (.shaperTargetApply 0) { tShape with net := { tShape.net with flowqs := [(1, {})] } } (fun t => t.cnt .EGS_CNT_LO E_TGT_REJECT == 1 && t.net.flowqs == [(1, {})]) = true ∧
    tShape.disp.estQid = 0xC002 ∧ (tShape.popShared 0xC002).isSome = true ∧
    tNext (.estimateApply 0 0 { kbps := 60 } 0) tShape (fun t => (Tbl.get t.net.est {} 0).b == 60) = true ∧
    tNext (.estimateApply 0 0 { kbps := 90 } 0) tShape (fun t => (Tbl.get t.net.est {} 0).b == 70) = true ∧
    tNext (.loupeSample 1023 0 0) tShape (fun t => (Tbl.get t.net.samplers {} 1023).ring.pidx == 1) = true ∧
    tNext (.loupeSample 0 0 0) tShape (fun t => t.net == tShape.net) = true ∧
    tNext (.cascadePeerTimeout 1023 0) tLater (fun t => (Tbl.get t.net.peers {} 1023).lostPosted) = true ∧
    tNext (.cascadePeerTimeout 1023 0) tShape (fun t => t.net == tShape.net) = true := by decide +kernel

/-- AccessCodes: one field of each code that a write changes or does not, and what a read shows. -/
theorem test_access_codes :
    applyWrite [⟨31, 24, .rw, 0⟩, ⟨23, 16, .w1c, 0⟩, ⟨15, 8, .w1s, 0⟩, ⟨7, 4, .ro, 0⟩, ⟨3, 2, .wo, 0⟩, ⟨1, 0, .rsv, 0⟩] 0x55555555 0x33333333 = 0x33447751 ∧
    readMask [⟨31, 24, .rw, 0⟩, ⟨23, 16, .w1c, 0⟩, ⟨15, 8, .w1s, 0⟩, ⟨7, 4, .ro, 0⟩, ⟨3, 2, .wo, 0⟩, ⟨1, 0, .rsv, 0⟩] 0xFFFFFFFF = 0xFFFFFFF0 := by decide +kernel

/-- The packet plane's domain, both stacks' window table and stack 0 are ON. -/
def tBus : State :=
  let s := (tWorld.setReg .CLKPWR_PD_STAT 26 0x40000000).setReg .CLKPWR_PD_STAT 28 0x40000000
  { (s.setReg .HBMC_STAT 0 0x40000000).setReg .CLKPWR_CL_STAT 0 0x40000000 with cores := [(0, { running := true })], cnts := [(regKey .STRATA_CNT_LO 0, 0x500000007)] }
/-- A register write or a read answers `v`. -/
def tBusOk (i : Instr) (s : State) (v : Word) : Bool := tNext i s fun t => t.bus == .ok v

/-- ReservedOffsets and BusAndAbsentFunctions: reserved, plain and wide registers, memory, outside, asleep, a VF that does not exist. -/
theorem test_bus :
    tBus.locate 0x2009000FFC = .reserved 0 0x2009000FFC ∧ tBus.pdOn 0 = true ∧
    tBusOk (.counterLatchRead (.fw 0) 0x2009000FFC) tBus 0 = true ∧ tBusOk (.registerWrite (.fw 3) 0x2009000FFC 9) tBus 0 = true ∧
    hostLocate 0 0xFFFC = .reserved 0 0 ∧ tBus.fnExists 0 = true ∧ tBus.inFlr 0 = false ∧
    tBus.fnExists 1 = false ∧ tNext (.counterLatchRead (.host 1) 0) tBus (fun t => t.bus == .unsupported) = true ∧ tBusOk (.registerWrite (.host 1) 0 5) tBus 0 = true ∧
    tBusOk (.counterLatchRead (.host 0) 0xFFFC) tBus 0 = true ∧ tBusOk (.registerWrite (.host 0) 0xFFFC 1) tBus 0 = true ∧
    tBus.locate 0x2000110004 = .reg .STRATA_DEVID 0 ∧ tBus.pdOn (RegName.domain .STRATA_DEVID 0) = true ∧
    tNext (.registerWrite (.fw 0) 0x2000110004 0x7FFFFFFF) tBus (fun t => t.reg .STRATA_DEVID == 0x0003FFFF && t.bus == .ok 0) = true ∧
    tBusOk (.counterLatchRead (.fw 0) 0x2000110004) tBus 0x80000001 = true ∧
    hiOf .STRATA_CNT_LO = some .STRATA_CNT_HI ∧ tNext (.counterLatchRead (.fw 0) 0x2000110100) tBus (fun t => t.bus == .ok 7 && t.reg .STRATA_CNT_HI == 5) = true ∧
    inHbm 64 = true ∧ tBus.hbState (stackOf 64) = HB_ACTIVE ∧ tBusOk (.counterLatchRead (.fw 0) 0x80000042) { tBus with mem := [(0x80000043, 4)] } 0x04000000 = true ∧
    tNext (.registerWrite (.fw 0) 64 0x01020304) tBus (fun t => t.mem == [(64, 4), (65, 3), (66, 2), (67, 1)] && t.bus == .ok 0) = true ∧
    tBus.locate 0x3000000000 = .outside ∧ tNext (.registerWrite (.fw 0) 0x3000000000 1) tBus (fun t => t == { tBus with bus := .busError }) = true ∧
    tBus.answers (tBus.locate 0x2003000000) = false ∧ tNext (.counterLatchRead (.fw 0) 0x2003000000) tBus (fun t => t.bus == .busError) = true ∧
    tBus.windowOk 0 true 64 4 = false ∧ tNext (.registerWrite (.kernel 0) 64 1) tBus (fun t => t.bus == .busError && t.mem == [] && (t.core 0).faulted == some 5) = true ∧
    tNext (.registerWrite (.kernel 1) 64 1) tBus (fun t => t == { tBus with bus := .busError }) = true := by decide +kernel

/-- ReservedOffsets for a kernel and for the Safelight controller, and an access that a sleeping stack holds (R22). -/
theorem test_bus_reserved_and_held :
    tBus.locate 0x200011FFFC = .reserved 26 0x200011FFFC ∧ tBus.pdOn 26 = true ∧ kernelBlock 0 0x200011FFFC = true ∧
    tBusOk (.counterLatchRead (.kernel 0) 0x200011FFFC) tBus 0 = true ∧ tBusOk (.registerWrite (.kernel 0) 0x200011FFFC 9) tBus 0 = true ∧
    tBus.locate 0x200000FFFC = .reserved 0 0x200000FFFC ∧ tBus.pdOn 0 = true ∧ tBus.smcMay (.reserved 0 0x200000FFFC) = true ∧
    tBusOk (.counterLatchRead .smc 0x200000FFFC) tBus 0 = true ∧ tBusOk (.registerWrite .smc 0x200000FFFC 9) tBus 0 = true ∧
    (let s := { (tBus.setReg .HBMC_CTRL 0 0xC0000000).setHbState 0 4 with hbm := [] }
    s.hbState 0 = HB_SELF_REFRESH ∧ s.hbServes 0 = true ∧
      tNext (.counterLatchRead (.fw 0) 64) s (fun t => t.bus == .none && (t.hbmc 0).held == [⟨.fw 0, 64, none⟩]) = true ∧
      tNext (.registerWrite (.fw 0) 64 7) s (fun t => t.bus == .none && (t.hbmc 0).held == [⟨.fw 0, 64, some 7⟩] && t.mem == []) = true) := by decide +kernel

/-- A decode-completion FIFO of depth 16 and a command ring (ring 0, seen by firmware on core 1) with two items, one closed
packet and an open one; engine 0 is ON. -/
def tFifo : State :=
  let f : Fifo := { itemSize := 3, pidx := 2, items := [[1, 2, 3, 4, 5, 6, 7, 8], [9]], ends := [1], pktOpen := true }
  { tWorld.setReg .CLKPWR_PD_STAT 18 0x40000000 with
    fifos := [(fifoKey (.decDone 0), f), (fifoKey (.decDone 1), { f with items := [], ends := [], pidx := 0 }), (fifoKey (.ring 0), { f with itemSize := 4 })] }
/-- What the FIFO holds afterwards. -/
def tFifoIs (i : Instr) (f : FifoId) (p : Fifo → Bool) : Bool := tNext i tFifo fun t => p (t.fifo f)

/-- FifoCommands: each command, its refusal, and an agent that may not give it. -/
theorem test_fifo :
    tFifo.produces (.fw 0) (.ring 0) = true ∧ tFifo.produces (.fw 0) (.encIn 0) = false ∧ tFifo.consumes (.fw 0) (.decDone 0) = true ∧ tFifo.consumes (.host 0) (.decDone 0) = false ∧
    (tFifo.fifo (.decDone 0)).misconf = false ∧ (tFifo.fifo (.ring 0)).misconf = false ∧ (tFifo.fifo (.decDone 0)).level = 2 ∧
    tFifoIs (.fifoPidxWrite (.fw 0) (.ring 0) 0x80000004 [[5], [6]]) (.ring 0) (fun f => f.pidx == 4 && f.items.length == 4 && !f.overflow) = true ∧
    tFifoIs (.fifoPidxWrite (.fw 0) (.ring 0) 19 []) (.ring 0) (fun f => f.overflow && f.pidx == 2) = true ∧
    tFifoIs (.fifoCidxWrite (.fw 0) (.decDone 0) 2) (.decDone 0) (fun f => f.cidx == 2 && f.items == []) = true ∧
    tFifoIs (.fifoCidxWrite (.fw 0) (.decDone 0) 3) (.decDone 0) (fun f => f.underrun && f.cidx == 0) = true ∧
    tNext (.fifoDataRead (.fw 0) (.decDone 0)) tFifo (fun t => t.bus == .ok 1 && (t.fifo (.decDone 0)).wpos == 1) = true ∧
    tNext (.fifoDataRead (.fw 0) (.decDone 0)) (tFifo.setFifo (.decDone 0) { tFifo.fifo (.decDone 0) with wpos := 7 }) (fun t => t.bus == .ok 8 && (t.fifo (.decDone 0)).cidx == 1) = true ∧
    tNext (.fifoDataRead (.fw 0) (.decDone 1)) tFifo (fun t => (t.fifo (.decDone 1)).underrun) = true ∧
    tFifoIs (.fifoFlush (.fw 0) (.decDone 0)) (.decDone 0) (fun f => f.cidx == 2 && f.items == [] && f.ends == [] && f.discard) = true ∧
    tFifoIs (.dropRest (.fw 0) (.decDone 0)) (.decDone 0) (fun f => f.items == [[9]]) = true ∧
    tNext (.dropRest (.fw 0) (.decDone 0)) (tFifo.setFifo (.decDone 0) { tFifo.fifo (.decDone 0) with ends := [] }) (fun t => (t.fifo (.decDone 0)).items == [] && (t.fifo (.decDone 0)).discard) = true ∧
    tFifoIs (.fifoHwPublish (.decDone 0) [[7], [8]] true) (.decDone 0) (fun f => f.items.length == 4 && f.pidx == 4) = true ∧
    tFifo.fifoEv (.ring 0) = true ∧ tNext (.dropRest (.fw 0) (.ring 0)) tFifo (fun t => (t.fifo (.ring 0)).items == [[9]]) = true ∧
    tNext (.fifoPidxWrite (.fw 0) (.encIn 0) 0x80000004 [[5], [6]]) tFifo (fun t => t == { tFifo with bus := .ok 0 }) = true ∧
    tNext (.fifoFlush (.host 0) (.decDone 0)) tFifo (fun t => t == { tFifo with bus := .ok 0 }) = true ∧
    (let s := { tFifo with cores := [(3, { running := true })] }
    s.consumes (.kernel 3) (.encIn 0) = false ∧ (s.core 3).faulted = none
      ∧ tNext (.fifoDataRead (.kernel 3) (.encIn 0)) s (fun t => t.bus == .busError && (t.core 3).faulted.isSome) = true) := by decide +kernel

/-- Rings of PF 0 set up but disabled: 0 command, 1 completion. -/
def tRingOff : State := ((tRing.setReg .RING_CTRL 0 0).setReg .RING_CTRL 2 0).setReg .CLKPWR_PD_STAT 30 0x40000000
/-- A moderation period of ring 2 with an event due. -/
def tMod : State := { tRing with vusta := { tRing.vusta with rings := [(2, { intDue := true, quiet := false })] } }

/-- RingCommands: an enable and each of its errors, both disables, a DMA failure, the end of a moderation period. -/
theorem test_rings :
    tRingOff.ringOn 0 = false ∧ tNext (.ringEnable 0 0x80010000) tRingOff (fun t => t.ringOn 0 && t.rf .RING_CTRL 0 27 24 == 0) = true ∧
    tNext (.ringEnable 0 0x80020000) tRingOff (fun t => !t.ringOn 0 && t.rf .RING_CTRL 0 27 24 == 2) = true ∧
    tNext (.ringEnable 0 0xB0010000) tRingOff (fun t => !t.ringOn 0 && t.rf .RING_CTRL 0 27 24 == 1) = true ∧
    tNext (.ringEnable 0 0x80010000) { tRingOff with vusta := { tRingOff.vusta with fns := [] } } (fun t => t.rf .RING_CTRL 0 27 24 == 5) = true ∧
    tRing.ringOn 1 = true ∧ tRing.isPaired 1 = true ∧ tNext (.ringDisable 1 0) tRing (fun t => t.ringOn 1 && t.rf .RING_CTRL 1 27 24 == 4) = true ∧
    tRing.isPaired 0 = false ∧ tNext (.ringDisable 0 0) tRing (fun t => !t.ringOn 0 && t.vusta.posted == [] && (t.fifo (.ring 0)).items == []) = true ∧
    tNext (.ringDmaFail 0 0) tRing (fun t => !t.ringOn 0 && t.rf .RING_CTRL 0 27 24 == 3 && t.out.contains (.aer 0)) = true ∧
    (tMod.ringX 2).intDue = true ∧ (tMod.fn (ringFn 2)).bme = true ∧ tNext (.ringIntModExpiry 2 0) tMod (fun t => t.out == [.msix 0 18]) = true := by decide +kernel

/-- Channel 4 free, channel 5 asleep, channel 16 (local 12, a notification channel) free with a notification waiting; sideband ready. -/
def tMbx : State :=
  let s := ((State.reset.setReg .MBX_STAT 4 0x60000100).setReg .MBX_STAT 16 0x60000000).setReg .MBX_STAT 0 0x60000000
  { s with vusta := { s.vusta with notes := [(noteKeyMbx 16, { wait := [⟨0x0E82, 3, [1]⟩], seq := 255 })] } }

/-- MailboxCommands: free, full and asleep channels, each side, and the answers. -/
theorem test_mailboxes :
    isSender (.host 0) 4 = true ∧ sees tMbx (.host 0) 4 = true ∧ tMbx.rxOn 4 = true ∧ tMbx.full 4 = false ∧ isCmdCh 4 = true ∧
    tNext (.mbxPost (.host 0) 4) tMbx (fun t => t.full 4 && t.msgEpoch 4 == 1 && t.vusta.posted == [.mbx 4]) = true ∧
    tNext (.mbxPost (.host 0) 4) (tMbx.setRb .MBX_STAT 4 31 true) (fun t => t.rb .MBX_STAT 4 28 && t.vusta.posted == []) = true ∧
    tMbx.rxOn 5 = false ∧ isSender (.host 0) 5 = true ∧ tNext (.mbxPost (.host 0) 5) tMbx (fun t => !t.full 5) = true ∧
    tNext (.mbxMsgWrite (.host 0) 4 15 9) tMbx (fun t => t.reg .MBX_MSG 79 == 9) = true ∧
    tNext (.mbxMsgWrite (.host 0) 4 15 9) (tMbx.setRb .MBX_STAT 4 31 true) (fun t => t.rb .MBX_STAT 4 26) = true ∧
    tNext (.mbxMsgWrite (.host 0) 5 0 9) tMbx (fun t => t.bus == .completerAbort) = true ∧
    isSender (.fw 0) 4 = false ∧ sees tMbx (.fw 0) 4 = true ∧ tNext (.mbxMsgWrite (.fw 0) 4 0 9) tMbx (fun t => t.bus == .ok 0 && t.reg .MBX_MSG 64 == 0) = true ∧
    isReceiver (.fw 0) 4 = true ∧ tNext (.mbxAckWrite (.fw 0) 4 0x00050009) (tMbx.setRb .MBX_STAT 4 31 true) (fun t => tAck t 4 5 9 && !t.full 4) = true ∧
    isReceiver (.fw 0) 0 = true ∧ sees tMbx (.fw 0) 0 = true ∧ tNext (.mbxWord15Read (.fw 0) 0) (tMbx.setRb .MBX_STAT 0 31 true) (fun t => !t.full 0) = true ∧
    tNext (.mbxWord15Read (.fw 0) 4) (tMbx.setRb .MBX_STAT 4 31 true) (fun t => t.full 4 && t.bus == .ok 0) = true ∧
    tNext .mctpEndpointReassign tMbx (fun t => t.txEpoch 0 == 1 && t.msgEpoch 0 == 0) = true := by decide +kernel

/-- NotificationsAndSideband: a note taken, a full channel, and the sideband's types. -/
theorem test_notifications :
    isNoteCh 16 = true ∧ tMbx.rxOn 16 = true ∧ tMbx.full 16 = false ∧
    tNext (.notificationPost (.mbx 16)) tMbx (fun t => t.reg .MBX_MSG 256 == 0x0E8200FF && t.reg .MBX_MSG 257 == 3 && t.reg .MBX_MSG 258 == 1 && t.full 16) = true ∧
    tNext (.notificationPost (.mbx 16)) (tMbx.setRb .MBX_STAT 16 31 true) (fun t => t == tMbx.setRb .MBX_STAT 16 31 true) = true ∧
    tNext (.sidebandMctpMessage 0 [1]) tMbx (fun t => t.out == [.firmware .mctpControl 0 [1]]) = true ∧
    tMbx.rb .MBX_STAT 0 30 = true ∧ tNext (.sidebandMctpMessage 0x7F [0, 4, 3, 2, 1]) tMbx (fun t => t.reg .MBX_MSG 0 == 0x01020304 && t.vusta.posted == [.mbx 0]) = true := by decide +kernel

/-- SliceArithmetic on values worked out by hand from R120 to R122 and R124. -/
theorem test_slice_arithmetic :
    products [32767, -32768] [32768, 16384] [3, -32768] = [98301, 536870912] ∧
    nth (sumFrames [List.replicate 480 5, List.replicate 480 (-7)]) 0 479 = -2 ∧
    nth (sumFor 0x20000007 [100] [(7, [30])]) 0 0 = 70 ∧ nth (sumFor 7 [100] [(7, [30])]) 0 0 = 100 ∧
    (confOut [134217727, -134217728, 2047, 2048]).1 = [32767, -32768, 0, 1] ∧ (confOut [134217727, -134217728, 2047, 2048]).2 = 1 ∧
    (classOut [40960] [8192]).1 = [20] ∧
    (let r : Ramp := { g0 := 0, g1 := 1000, n := 100, lin := true, start := 0 }
    r.val (-1) = 0 ∧ r.val 0 = 10 ∧ r.val 98 = 990 ∧ r.val 99 = 1000) ∧
    (({ g0 := 5 } : Ramp).to 9 11 true 3).n = 12 ∧ (({ g0 := 5 } : Ramp).to 9 48001 true 3).n = 48000 ∧ (({ g0 := 5 } : Ramp).to 9 0 true 3).n = 240 ∧
    (let m : MeterSt := { hold := -100, timer := 2 }
    (m.hold' (-50) 7 3).hold = -50 ∧ (m.hold' (-50) 7 3).timer = 7 ∧ (m.hold' (-200) 7 3).timer = 1) ∧
    (({ hold := -100 } : MeterSt).hold' (-200) 7 3).hold = -103 := by decide +kernel

/-- The fabric enabled with slice 0, tile 0 and domain 34 ON; frame 5 began at 10 ms, it is 12 ms, its sources are not in. -/
def tMix : State :=
  let s := (tWorld.setReg .MIXF_CTRL 0 0x80000001).setReg .CLKPWR_PD_STAT 2 0x40000000
  { s with
    cnts := [(regKey .MIXF_FRAME_LO 0, 5)], time := { acc := 2 ^ 32 * 12000000, eacc := 2 ^ 32 * 12000000 }
    mix := { s.mix with nextAt := 20000000, boundAt := 10000000 } }
/-- The same at a later time, with the sources in. -/
def tMixAt (ms : Nat) (wr : Bool) : State := { tMix with
  time := { acc := 2 ^ 32 * 1000000 * ms, eacc := 2 ^ 32 * 1000000 * ms }
  mix := { tMix.mix with srcDone := true, written := [(0, wr)], tags := [(0, 7)], shadow := [(0, [0x80000000, 0x40000000])] } }
/-- Source 0 has left conference 0's sum and its ramp is over. -/
def tLeaving : State := { tMix with mix := { tMix.mix with
  confs := [(0, { members := [{ src := 0, leaving := true, m := { n := 0, start := -100 } }] })] } }

/-- MixEvents: each event before and at its time. -/
theorem test_mix_events :
    tMix.rb .MIXF_CTRL 0 31 = true ∧ tMix.pdOn 34 = true ∧ (tMixAt 20 true).mix.nextAt ≤ (tMixAt 20 true).ela ∧ (tMixAt 20 true).mix.srcDone = true ∧
    (tMixAt 20 true).sliceDone 0 = true ∧ (tMixAt 20 true).sliceOn 1 = false ∧
    tNext (.mixFrameBoundary 0) (tMixAt 20 true) (fun t => t.mix.boundAt == 20000000 && t.mix.nextAt == 30000000 && !t.mix.srcDone && t.cnt .MIXF_FRAME_LO 0 == 6) = true ∧
    tMix.ela < tMix.mix.nextAt ∧ tNext (.mixFrameBoundary 0) tMix (fun t => t == tMix) = true ∧
    tMix.armed 0 = false ∧ tNext (.safeLoadArm 0 0x80000200) (tMix.setReg .MIXF_SL_AT_LO 0 6) (fun t => t.armed 0 && t.armCount 0 == 1) = true ∧
    tNext (.safeLoadArm 0 0x80000200) (tMix.setReg .MIXF_SL_AT_LO 0 4) (fun t => !t.armed 0 && t.rb .MIXF_SL_ARM 0 30 && t.cnt .MIXF_CNT_LO 4 == 1) = true ∧
    (let s := ((tMixAt 12 false).setReg .MIXF_SL_AT_LO 0 5).setReg .MIXF_SL_ARM 0 0x80000200
    s.armed 0 = true ∧ s.sliceOn 0 = true ∧ s.armAt 0 = s.mixFrame ∧ s.sliceDone 0 = false ∧ s.armCount 0 = 1
      ∧ tNext (.safeLoadSwap 0) s (fun t => !t.armed 0 && (t.entry 0 7).words == [0x80000000, 0x40000000, 0, 0] && t.entry 0 8 == s.entry 0 8) = true) ∧
    (0 < tMix.mix.boundAt ∧ (tMixAt 14 false).mix.boundAt + tMix.srcDeadline ≤ (tMixAt 14 false).ela) ∧
    tNext (.sourceDeadline [] 0) { tMixAt 14 false with mix := tMix.mix } (fun t => t.mix.srcDone) = true ∧
    tNext (.sourceDeadline [] 0) (tMixAt 14 false) (fun t => t == tMixAt 14 false) = true ∧
    tNext (.memberRampEnd 0) tLeaving (fun t => (t.conf 0).members == [] && t.source 0 == tLeaving.source 0) = true ∧
    tNext (.classOutputWrite 0 0) (tMixAt 14 false) (fun t => t.sliceDone 0) = true ∧
    ((tMixAt 15 false).mix.boundAt + tMix.outDeadline ≤ (tMixAt 15 false).ela) ∧
    tNext (.outDeadlineExpiry 0 0) (tMixAt 15 false) (fun t => Tbl.get t.mix.late false 0 && t.cnt .MIXF_CNT_LO 6 == 1) = true := by decide +kernel

/-- A pool whose buffer 0 has generation 1: unmarked and free, DISPLAYed, at the limit of COMP, or BUSY. -/
def tPool (e : PoolEnt) : State := { tWorld with video := { tWorld.video with pool := { ents := [(0, e)], regions := [(0, { fresh := 1 })] } } }
/-- Buffer 0 after a pool operation on control core 0; the operation's result rests on a free value and is not read here. -/
def tEnt (i : Instr) (e : PoolEnt) (p : PoolEnt → Bool) : Bool := tNext i (tPool e) fun t => p (t.ent 0) && t.bus == .ok 0

/-- PoolAndDecodeEvents, the pool: an old generation, a free buffer, a full count, a mark, and the last mark's end. -/
theorem test_pool :
    tWorld.poolOn = true ∧ (tPool {}).regionOf 0 = some 0 ∧ (tPool {}).regionOf 16 = none ∧
    tEnt (.poolSet 0 0x08200000) { gen := 1, marks := 1 } (fun e => e == { gen := 1, marks := 1 }) = true ∧
    tEnt (.poolSet 0 0x08100000) { gen := 1 } (fun e => e == { gen := 1 }) = true ∧
    ({ gen := 1, comp := 63 } : PoolEnt).atLimit 2 = true ∧ tEnt (.poolSet 0 0x08100000) { gen := 1, comp := 63 } (fun e => e.comp == 63) = true ∧
    tEnt (.poolSet 0 0x08100000) { gen := 1, marks := 1 } (fun e => e.comp == 1 && e.gen == 1) = true ∧
    tEnt (.poolClear 0 0x04100000) { gen := 1, marks := 1 } (fun e => e == { gen := 1, marks := 1 }) = true ∧
    tEnt (.poolClear 0 0x00100000) { gen := 1, marks := 3 } (fun e => e.marks == 2 && e.gen == 1) = true ∧
    tEnt (.poolClear 0 0x00100000) { gen := 1, marks := 1 } (fun e => e.marks == 0 && e.gen == 2) = true ∧
    tNext (.poolClear 0 0x00100000) (tPool { gen := 1, marks := 1 }) (fun t => (t.region 0).freed == [0]) = true ∧
    tEnt (.poolQuery 0 0) { gen := 1, marks := 1 } (fun e => e == { gen := 1, marks := 1 }) = true ∧
    tEnt (.slotQuery 0 0) {} (fun e => e == {}) = true := by decide +kernel

/-- Engine 0 ON and its decode pipe enabled; core 0 runs a kernel of tenant 0 and has staged a request of context 0. -/
def tDec : State :=
  let s := (((tWorld.setReg .CLKPWR_PD_STAT 18 0x40000000).setReg .PICT_DEC_CTRL 0 0x800007D0).setReg .PICT_ENC_CTRL 0 0x800001F4)
  { s with
    cores := [(0, { running := true })], time := { acc := 2 ^ 32 * 900000000, eacc := 2 ^ 32 * 900000000 }
    video := { s.video with
      pool := { regions := [(0, {})] }, eng := [(0, { ports := [(0, { staged := [[0, 99, 0, 1]] })], reqs := [{ head := [0, 99, 0, 1] }] })] } }
/-- The same with a job in the pipe, and the pool's region empty or not. -/
def tJob (b : Option Buf) (fresh : Nat) : State := { tDec with video := { tDec.video with
  pool := { regions := [(0, { fresh })] }, eng := [(0, { job := some { head := [0, 99, 0, 1], buf := b } })] } }
/-- A request with `RP` in front of the pipe, which has waited for a buffer since `since` or not. -/
def tReq (since : Option Nat) (fresh : Nat) : State := { tDec with video := { tDec.video with
  pool := { regions := [(0, { fresh })] }, eng := [(0, { reqs := [{ head := [0xE0800000, 99, 0, 1] }], job := since.map fun t => { since := t } })] } }
/-- The status of the first completion item of pipe 0. -/
def tStatus (i : Instr) (s : State) (n : Nat) : Bool :=
  tNext i s fun t => (t.eng 0).job == none && (t.fifo (.decDone 0)).items.length == 1 && fld (nth ((t.fifo (.decDone 0)).items.headD []) 0 0) 31 24 == n

/-- PoolAndDecodeEvents, the decode pipe: staging, a full port, a commit and its refusals, a start, a wait, completion, a timer. -/
theorem test_decode :
    (tDec.core 0).running = true ∧ tDec.pdOn 18 = true ∧ tDec.pipeOn 0 = true ∧
    tNext (.reqAppend 0 0 [1, 2]) tDec (fun t => (Tbl.get (t.eng 0).ports {} 0).staged.length == 2) = true ∧
    tNext (.reqAppend 0 0 [1]) { tDec with video := { tDec.video with eng := [(0, { ports := [(0, { staged := List.replicate 33 [] })] })] } } (fun t =>
    (Tbl.get (t.eng 0).ports {} 0).res == 2) = true ∧
    tNext (.reqDiscard 0 0) tDec (fun t => (Tbl.get (t.eng 0).ports {} 0).staged == []) = true ∧
    tDec.reqRefused 0 0 [0, 99, 0, 1] [] = false ∧ (tDec.fifo (.decReq 0)).accepts false 1 true = true ∧
    tNext (.reqCommit 0 0) tDec (fun t => (t.eng 0).reqs.length == 2 && (t.fifo (.decReq 0)).items == [[0, 99, 0, 1]] && (Tbl.get (t.eng 0).ports {} 0).staged == []) = true ∧
    (let s := tDec.setFifo (.decReq 0) { log2 := 0, pidx := 1, items := [[]] }
    (s.fifo (.decReq 0)).accepts false 1 true = false ∧ tNext (.reqCommit 0 0) s (fun t => (Tbl.get (t.eng 0).ports {} 0).res == 1) = true) ∧
    (let s : State := { tDec with cores := [(0, { running := true, tenant := 1 })] }
    s.reqRefused 0 0 [0, 99, 0, 1] [] = true ∧ tNext (.reqCommit 0 0) s (fun t => (Tbl.get (t.eng 0).ports {} 0).res == 3) = true) ∧
    tNext (.reqAppend 0 1 []) tDec (fun t => t == { tDec with bus := .busError }) = true ∧
    tNext (.reqAppend 1 0 []) tDec (fun t => t.bus == .busError && (t.core 0).faulted == some 5 && t.reg .CORE_FAULT_ADDR == 0x0310801C) = true ∧
    (tDec.eng 0).job = none ∧ (tDec.eng 0).front = some { head := [0, 99, 0, 1] } ∧ (tReq none 3).waitOver 0 = false ∧
    tStatus (.decodeStart 0 {} 0) tDec 3 = true ∧ tStatus (.decodeStart 0 { width := 8 } 0) tDec 6 = true ∧
    tNext (.decodeStart 0 {} 0) (tReq none 3) (fun t => (t.eng 0).job.map (·.buf) == some (some { fbh := 3, gen := 0 }) && (t.ent 3).busy && (t.eng 0).reqs == []) = true ∧
    tNext (.decodeStart 0 {} 0) (tReq none 16) (fun t => (t.eng 0).job.map (·.buf) == some none && (t.eng 0).reqs.length == 1) = true ∧
    (tReq (some 0) 16).waitOver 0 = true ∧ tStatus (.decodeStart 0 {} 0) (tReq (some 0) 16) 5 = true ∧
    tStatus (.allocWaitTimeout 0 0) (tReq (some 0) 16) 5 = true ∧
    tNext (.allocWaitTimeout 0 0) (tReq (some 899000000) 16) (fun t => t == tReq (some 899000000) 16) = true ∧
    tNext (.decodeComplete 0 { error := true, cycles := 77 } 0) (tJob (some {}) 3) (fun t => (t.eng 0).job == none && nth ((t.fifo (.decDone 0)).items.headD []) 0 3 == 77) = true ∧
    tNext (.decodeComplete 0 {} 0) (tJob (some { fbh := 3 }) 3) (fun t => (t.eng 0).job == none) = true ∧
    (let s : State := { tDec with video := { tDec.video with decs := [(4095, { st := .concealed, timer := some 600000000 })] } }
    tNext (.refreshTimerExpiry 4095 0) s (fun t => (t.dec 4095).timer == some 900000000 && (t.dec 4095).st == .concealed) = true) := by decide +kernel

/-- Engine 0 ON with its composition unit enabled, and one layout. -/
def tLay (l : Layout) : State :=
  let s := tDec.setReg .PICT_COMP_CTRL 0 0x80000000
  { s with video := { s.video with layouts := [(0, { l with sheet := tSheet })], decs := [] } }

/-- Two layouts of the engine, due at 333 ms and at 166 ms. -/
def tTwo : State :=
  let s := tLay {}
  { s with video := { s.video with layouts := [(0, { sheet := tSheet, next := 10 }), (1, { sheet := tSheet, next := 5, idx := 1 })] } }

/-- CompositionEvents: a tick without an engine, without the unit, a late tick, a picture's start, a tick that waits, a tick before its
time, and the notification of a missed tick. -/
theorem test_composition :
    tDec.compOn 0 = false ∧ (tLay {}).compOn 0 = true ∧ ((tLay {}).layout 0).tick 0 ≤ (tLay {}).dev ∧ (tLay {}).dev < ((tLay {}).layout 0).tick 100 ∧
    (let v := { tDec.video with layouts := [(0, ({ sheet := tSheet } : Layout))] }
    tWorld.pdOn 18 = false ∧ tNext (.layoutTick 0 0) { tWorld with video := v } (fun t => (t.layout 0).next == 1 && Tbl.get (t.layout 0).cnt 0 L_LATE == 1) = true ∧
    tDec.pdOn 18 = true ∧ tNext (.layoutTick 0 0) { tDec with video := v } (fun t => t.layout 0 == { sheet := tSheet, next := 1 }) = true) ∧
    tTwo.tickWaits 0 = true ∧ tNext (.layoutTick 0 0) tTwo (fun t => t == tTwo) = true ∧
    tTwo.tickWaits 1 = false ∧ (tLay {}).tickWaits 0 = false ∧
    (let s := { tLay {} with time := { acc := 2 ^ 32 * 3000000000, eacc := 2 ^ 32 * 3000000000 } }
    ((s.missTick 0).layout 0).late = [3000000000] ∧ ((s.missTick 0).layout 0).lateAt = 3000000001) ∧
    tNext (.layoutTick 0 0) (tLay { job := some { n := 4 } }) (fun t => (t.layout 0).job == some { n := 4 } && (t.layout 0).next == 1 && t.mem == []) = true ∧
    tNext (.layoutTick 0 0) (tLay {}) (fun t => (t.layout 0).next == 1 && (t.layout 0).job.map (·.n) == some 0) = true ∧
    tNext (.layoutTick 0 0) (tLay { next := 100 }) (fun t => t == tLay { next := 100 }) = true ∧
    ((tLay {}).groupsOf 0).all (fun g => ((tLay {}).fifo (encInId g.2.pe)).accepts false 1 true) = true ∧ ((tLay {}).groupsOf 0).length = 1 := by decide +kernel

/-- The same as a sheet of 16 by 16 samples whose picture is in progress. -/
def tComp (gone : Bool) : State :=
  let s := tLay {}
  { s with video := { s.video with
    layouts := [(0, { sheet := { hdr := [0x00100010, 0x1E000000, 0, 0, 0] }, job := some { bufs := [(0, { fbh := 3 })] }, removed := gone })] } }

/-- CompositionEvents: a completed picture, of a layout that goes and of one that stays, one that a full input FIFO stalls, and the
end of a copy. -/
theorem test_composition_end :
    tNext (.composeComplete 0 {}) (tComp true) (fun t => !Tbl.has t.video.layouts 0) = true ∧
    tNext (.composeComplete 0 {}) (tComp false) (fun t => (t.layout 0).job == none && (t.layout 0).disp.buf == some { fbh := 3 } && (t.layout 0).canvas == [{ fbh := 3 }]) = true ∧
    (let s := (tLay { job := some { bufs := [(0, { fbh := 3 })], posts := some [0] } }).setFifo (.encIn 0) { log2 := 0 }
    (s.fifo (.encIn 0)).accepts false 1 true = false ∧ Tbl.has s.video.groups 0 = true
      ∧ tNext (.composeComplete 0 {}) s (fun t => (t.layout 0).job == (s.layout 0).job && t.fifos == s.fifos) = true) ∧
    (let s := (tComp false).updLayout 0 fun l => { l with job := some { bufs := [(0, { fbh := 3 })], shown := [{ buf := some { fbh := 4 }, w := 16, h := 16 }] } }
    tNext (.composeComplete 0 { ue := [s.bufAddr 4 / 64] }) s (fun t => (t.layout 0).shown == [{}] && Tbl.get (t.layout 0).cnt 0 3 == 1) = true) ∧
    (let s : State := { tWorld with video := { tWorld.video with snaps := [{ dec := 9 }] } }
    tNext (.snapshotCopyDone 0 true 0) s (fun t => t.video.snaps == []) = true) := by decide +kernel

/-- An item in the input FIFO of pipe 0. -/
def tEncIn (group : Nat) : State := tDec.setFifo (.encIn 0) { items := [[BitVec.ofNat 32 group]], ends := [1] }
/-- One picture of group 0, of 8 by 8 samples, for rendition 0, and what analysis has of it. -/
def tAn (an : Option (Nat × Nat)) (begun : Bool) : State := { tDec with video := { tDec.video with
  groups := [(0, { w := 8, h := 8, pics := [(0, { begun, todo := if begun then [0] else [] })], nextPic := 1 })], enc := [(0, { an })] } }
/-- Coder 0 with a job, or a picture in rendition 0's queue; the pool's region empty or not. -/
def tCoder (j : Option CoderJob) (fresh : Nat) : State := { tDec with video := { tDec.video with
  groups := [(0, { pics := [(0, { begun := true, todo := [0], since := 1 })], nextPic := 1 })]
  rends := [(0, { outStream := 3, queue := [{ seq := 0 }] })]
  pool := { regions := [(0, { fresh })] }
  enc := [(0, { coders := match j with | some x => [(0, x)] | none => [] })] } }
/-- The same with a job that began its wait a millisecond ago or less. -/
def tNew (h : Option Nat) (p : RendPic) : State := tCoder (some { since := 899500000, header := h, pic := p }) 0
/-- The status of the first completion item of pipe 0, whose coder 0 is free again. -/
def tEnds (i : Instr) (s : State) (n : Nat) : Bool :=
  tNext i s fun t => fld (nth ((t.fifo (encDoneId 0)).items.headD []) 0 0) 31 24 == n && (t.fifo (encDoneId 0)).items.length == 1 && (t.encEng 0).coders == []

/-- EncodeEvents: input, a dropped picture, analysis, starvation. -/
theorem test_encode_input :
    (tEncIn 0).encOn 0 = true ∧ (tEncIn 0).encRoom 0 = true ∧ ((tEncIn 0).fifo (.encIn 0)).items = [[0]] ∧ ((tEncIn 0).fifo (.encIn 0)).ends = [1] ∧
    tNext (.encInputAccept 0 0) (tEncIn 0) (fun t => (t.group 0).nextPic == 1) = true ∧ (tEncIn 0).group 0 = {} ∧
    Tbl.find (tEncIn 5).video.groups 5 = none ∧ tNext (.encInputAccept 0 0) (tEncIn 5) (fun t => t.cnt .PICT_ENC_CNT_LO 8 == 1) = true ∧
    Tbl.has ((tAn none false).group 0).pics 0 = true ∧ ((tAn none false).lateDrop 0 0).cnt .PICT_ENC_CNT_LO 7 = 1 ∧
    (tAn none false).nextAnalysis 0 = some (0, 0) ∧
    tNext (.analysisStart 0 0) (tAn none false) (fun t => (t.encEng 0).an == some (0, 0) && (t.encEng 0).ptr == 1 && (Tbl.get (t.group 0).pics {} 0).begun) = true ∧
    ((tAn (some (0, 0)) true).rend 0).live = true ∧ (tAn (some (0, 0)) true).rendDims ((tAn (some (0, 0)) true).rend 0) = (8, 8) ∧
    tNext (.analysisComplete 0 false 0) (tAn (some (0, 0)) true) (fun t => (t.encEng 0).an == none && t.cnt .PICT_ENC_CNT_LO 0 == 1 && ((t.rend 0).queue.map fun p => (p.seq, p.rows.length)) == [(0, 1)]) = true ∧
    tEnds (.analysisComplete 0 true 0) (tAn (some (0, 0)) true) 5 = true ∧
    tNext (.starvedRaise 0 0) tDec (fun t => (t.group 0).starved && (t.group 0).raise == 6 && t.cnt .PICT_ENC_CNT_LO 10 == 1) = true ∧
    (let s : State := { tDec with video := { tDec.video with groups := [(0, { hit := true })] } }
    tNext (.starvedRaise 0 0) s (fun t => t == s) = true) ∧
    ({ raise := 6, peak := 6, starved := true } : Group).endPicture.raise = 4 ∧ ({ raise := 6, peak := 6, hit := true } : Group).endPicture.raise = 6 := by decide +kernel

/-- A search of a flat canvas of 16 by 8 samples against a flat reference, in a wave that runs across and has come to column `lo`. -/
def tSearch (starved : Bool) (lo : Nat) : Search :=
  { w := 16, h := 8, codec := 4, deep := false, cur := fun _ _ => 9, ref := fun _ _ => 9, hasRef := true, qe := 6, starved
    gmv := [(0, ⟨16, 0⟩)], co := [], prev := [(0, { mv := ⟨11, -5000⟩ })], prev2 := [], rows := false, lo, skip := [] }

/-- EncodeEvents, the candidates (R183, R192, R201): clamped and rounded, no two alike, none that breaks the wave; and the rate of a
vector (R185). -/
theorem test_search :
    (tSearch false 0).cands [] 0 0 = [⟨0, 0⟩, ⟨8, -1024⟩, ⟨24, -1024⟩, ⟨16, 0⟩] ∧ (tSearch true 0).cands [] 0 0 = [⟨0, 0⟩, ⟨8, -1024⟩] ∧
    (tSearch false 8).cands [] 0 0 = [⟨0, 0⟩] ∧ (tSearch false 4).cands [] 0 0 = (tSearch false 0).cands [] 0 0 ∧
    lambdaR 12 3 = 3 ∧ lambdaR 18 3 = 6 ∧ mvdBits ⟨0, 0⟩ ⟨1, -4⟩ = 8 := by decide +kernel

/-- EncodeEvents, a coder: its start, its waits and what it does not code. -/
theorem test_coder_start :
    (tCoder none 0).encOn 0 = true ∧ (tCoder none 0).encRoom 0 = true ∧ (tCoder none 0).nextRend 0 0 = some (0, 1) ∧ (tCoder none 0).ela = 900000000 ∧
    tNext (.coderStart 0 0 none 0) (tCoder none 0) (fun t => (Tbl.find (t.encEng 0).coders 0).map (·.since) == some t.ela && (t.rend 0).queue == []) = true ∧
    tEnds (.coderStart 0 0 none 0) (tCoder (some {}) 0) 4 = true ∧
    tNext (.coderStart 0 0 (some { bits := 320 }) 0) (tNew none {}) (fun t =>
      (Tbl.find (t.encEng 0).coders 0).map (fun j => (j.header, j.grey, j.buf.isSome)) == some (some 40, true, true)) = true ∧
    tNext (.coderStart 0 0 none 0) (tNew none {}) (fun t => t == tNew none {}) = true ∧
    tEnds (.coderStart 0 0 none 0) (tCoder (some { header := some 40 }) 0) 3 = true ∧
    tNext (.coderStart 0 0 none 0) (tNew (some 40) {}) (fun t => ((Tbl.find (t.encEng 0).coders 0).bind (·.buf)).isSome) = true ∧
    tEnds (.coderStart 0 0 (some { bits := 320 }) 0) (tNew none { epoch := 1 }) 5 = true ∧
    tEnds (.coderStart 0 0 (some { bits := 320 }) 0) (tNew none { caps := some { pic := 39, win := 99 } }) 1 = true ∧
    ((tNew none {}).rend 0).avail { caps := some { pic := 39, win := 99 } } = some 39 ∧
    tEnds (.headerWaitTimeout 0 0 0) (tCoder (some {}) 0) 4 = true ∧
    tEnds (.reconAllocTimeout 0 0 0) (tCoder (some { header := some 40 }) 16) 3 = true := by decide +kernel

/-- A coder at its picture's rows, with 100 bytes left. -/
def tRows (grey : Bool) : State :=
  tCoder (some { buf := some { fbh := 3 }, header := some 40, pic := { rows := [(9, 3, 3), (9, 3, 1)] }, budget := some 100, grey }) 0
/-- What a row's commit leaves: bytes used, rows skipped, rows done, items published. -/
def tRow (bytes : Nat) (s : State) (l : Nat × List Nat × Nat × Nat) : Bool :=
  tNext (.coderRowCommit 0 0 bytes false 0) s fun t => (Tbl.find (t.encEng 0).coders 0).map (fun k => (k.used, k.skipped, k.row, k.items)) == some l

/-- EncodeEvents: rows coded, skipped and grey, a coded picture, and what it makes of its rendition. -/
theorem test_coder_rows :
    ((tRows false).fifo (encOutId 0 0)).discard = false ∧ tRow 99 (tRows false) (99, [], 1, 1) = true ∧ tRow 100 (tRows false) (2, [0], 1, 0) = true ∧
    tRow 100 (tRows true) (2, [], 1, 0) = true ∧ tEnds (.coderRowCommit 0 0 9 true 0) (tRows false) 5 = true ∧
    tNext (.pictureCoded 0 0 0) (tCoder (some { buf := some { fbh := 3 }, header := some 40, tail := List.replicate 10 0 }) 0) (fun t =>
      (t.fifo (encOutId 0 0)).items.length == 2 && (t.encEng 0).coders == [] && fld (nth ((t.fifo (encDoneId 0)).items.headD []) 0 0) 31 24 == 0) = true ∧
    (let r : Rend := { st := .wave, k := 2, n := 4, planN := 3, stale := [1, 5] }
    (r.coded { grey := true }).st = .wave ∧ (r.coded { grey := true }).n = 3 ∧ (r.coded {}).k = 2 ∧ (r.coded { k := 4, n := 4 }).st = .steady ∧
      (r.coded { k := 3, n := 4 }).st = .wave ∧ (r.coded { pic := { epoch := 1 }, k := 4, n := 4 }).st = .wave ∧
      (r.coded { refresh := [1], skipped := [9] }).stale = [5, 9]) := by decide +kernel

/-- Cluster 0 ON, the dispatcher enabled, core 0 as given, and queue 0xC010 with two items. -/
def tDisp (k : Core) : State :=
  let s := (tDec.setReg .CLKPWR_CL_STAT 0 0x40000000).setReg .DISP_CTRL 0 0x80000000
  { s with
    cores := [(0, k)]
    disp := { s.disp with qs := [(49168, { kern := 256, mask := 1, rank := 2, limit := 2, items := [{ words := [0xC010, 5] }, { words := [0xC010, 6] }] })] } }
/-- A core with an item in its prefetch slot 1. -/
def tSlot : Core := { order := [1], slots := [(1, { words := [0xC010, 5] })], prev := some (256, 1), prevT := some 1, ldm := [(0, 1)], warm := true }

/-- DispatchEvents: placing by affinity and late, an item's start warm and cold, a post and its refusals, the watchdog. -/
theorem test_dispatch :
    (tDisp tSlot).clOn 0 = true ∧ Tbl.get (tDisp tSlot).disp.draining false 0 = false ∧
    tNext (.workItemStart 0 {}) (tDisp tSlot) (fun t => (t.core 0).running && (t.core 0).gr 1 == 0xFF20 && (t.core 0).gr 2 == 0 && (t.core 0).ldm == []) = true ∧
    tNext (.workItemStart 0 {}) (tDisp { tSlot with prev := some (256, 0), prevT := some 0 }) (fun t => (t.core 0).gr 2 == 1 && (t.core 0).ldm == [(0, 1)]) = true ∧
    ((tDisp {}).placeable 49168 ((tDisp {}).dispQ 49168 |>.getD {}) false).map (fun x => (x.1, x.2.2.1, x.2.2.2)) = some (0, 0, false) ∧
    ((tDisp {}).placeable 49168 ((tDisp {}).dispQ 49168 |>.getD {}) true).isSome = true ∧
    ((tDisp {}).serve.map fun x => (x.1, x.2.2.1)) = some (49168, 0) ∧ (tDisp {}).disp.qs.wf = true ∧
    (let l := [(3, 1), (7, 0), (9, 0), (12, 2)]
    arbitrate (fun _ => 8) l = some (0, 9) ∧ arbitrate (fun _ => 10) l = some (0, 7) ∧ arbitrate (fun k => 9 * k) l = some (0, 7) ∧
      arbitrate (fun _ => 8) [] = none ∧ (l.map (·.1)).Pairwise (· < ·)) ∧
    tNext (.itemPlace {}) (tDisp {}) (fun t => (t.core 0).order == [0] && ((t.dispQ 49168).getD {}).items.length == 1) = true ∧
    tNext (.itemPlace { ue := [0] }) (tDisp {}) (fun t => (t.core 0).order == [] && ((t.dispQ 49168).getD {}).items.length == 1) = true ∧
    tNext (.affWaitTimeout 49168 0) (tDisp { running := true, slot := 1, order := [] }) (fun t => (t.core 0).order == [0]) = true ∧
    (let s := tDisp { running := true }
    s.postResult 0 49151 = 3 ∧ s.postResult 0 49168 = 1 ∧ s.postResult 0 61439 = 2 ∧ s.postResult 0 61440 = 3 ∧ s.postResult 0 0xC002 = 0) ∧
    (tDisp { running := true, posts := 16 }).postResult 0 49168 = 4 ∧ (tDisp { running := true, tenant := 1 }).postResult 0 49168 = 2 ∧
    tNext (.kernelPost 0 [0xC002] 0) (tDisp { running := true }) (fun t => t.rf .DISP_POST_RES 0 2 0 == 0 && (t.core 0).posts == 1) = true ∧
    tNext (.kernelPost 0 [0xC010] 0) (tDisp { running := true }) (fun t => t.rf .DISP_POST_RES 0 2 0 == 1 && t.disp == (tDisp {}).disp) = true ∧
    (tDisp {}).ela = 900000000 ∧ ((tDisp {}).dispQ 49168).map (·.itemLimit) = some 1000 ∧
    tNext (.itemWatchdog 0 0) (tDisp { running := true, qid := 49168, since := 898999999 }) (fun t => (t.core 0).faulted == some 10) = true ∧
    tNext (.itemWatchdog 0 0) (tDisp { running := true, qid := 49168, since := 899000000 }) (fun t => (t.core 0).faulted == none) = true := by decide +kernel

/-- The key window held by master 2 since 1 ms, at 2 ms, with a commit under way or none. -/
def tKw (pend : Option Word) (slots : Tbl KeySlot) : State :=
  let s := (tWorld.setReg .KEYWIN_LOCK_STAT 0 0xC0000002).setReg .KEYWIN_DATA 3 77
  { s with
    time := { acc := 2 ^ 32 * 2000000, eacc := 2 ^ 32 * 2000000 }
    keys := { s.keys with since := 1000000, pend, slots } }
/-- After the commit on an empty window: `KEYWIN_RESULT`'s code. -/
def tDone (v : Word) (k : KeySlot) (code : Nat) (st : SlotSt) : Bool :=
  tNext .keywinCommitDone (tKw (some v) [(5, k)]) (fun t => t.rf .KEYWIN_RESULT 0 31 29 == code && (t.slot 5).st == st && t.keys.pend == none)

/-- KeyWindowEvents: who may take the lock, its release and timeout, and commits. -/
theorem test_key_window :
    tWorld.kwOwner = 0 ∧ (tKw none []).kwOwner = 2 ∧ (tKw none []).bleached = false ∧
    tNext (.keywinLockAcquire 0 0) tWorld (fun t => t.bus == .busError) = true ∧ tNext (.keywinLockAcquire 6 0) tWorld (fun t => t.bus == .busError) = true ∧
    tNext (.keywinLockAcquire 5 0) tWorld (fun t => t.kwOwner == 5 && t.bus == .ok 0x40000005) = true ∧
    tNext (.keywinLockAcquire 2 0) (tKw none []) (fun t => t.bus == .ok 0x40000002) = true ∧
    tNext (.keywinLockAcquire 1 0) (tKw none []) (fun t => t.bus == .ok 0x80000002) = true ∧
    tNext (.keywinRelease 2 1) (tKw none []) (fun t => t.kwOwner == 0) = true ∧ tNext (.keywinRelease 1 1) (tKw none []) (fun t => t.kwOwner == 2) = true ∧
    tNext (.keywinLockTimeout 0) (tKw none []) (fun t => t.kwOwner == 0 && t.rb .KEYWIN_LOCK_STAT 0 29 && t.reg .KEYWIN_DATA 3 == 0) = true ∧
    tNext (.keywinLoad 1 5 0) (tKw none []) (fun t => t.bus == .busError) = true ∧
    tNext (.keywinLoad 2 5 0) (tKw none []) (fun t => t.rf .KEYWIN_RESULT 0 31 29 == 1 && t.keys.pend == some 0x40000005) = true ∧
    tNext (.keywinErase 2 5 0) ((tKw none []).setRb .CRYPT_STAT 0 31 true) (fun t => t.rf .KEYWIN_RESULT 0 31 29 == 6 && t.keys.pend == none) = true ∧
    tDone 0x80000005 { own := some {}, st := .active } 2 .empty = true ∧
    tDone 0x60000005 {} 4 .empty = true ∧ ((tKw (some 0x60000005) []).kwLoad 0x60000005).suite = 4 ∧
    tDone 0x40000005 { st := .draining } 3 .draining = true ∧
    tDone 0x40000005 {} 2 .active = true ∧ tDone 0x40000005 { st := .exhausted } 2 .active = true ∧
    tDone 0x41000005 { st := .active } 2 .pending = true := by decide +kernel

/-- TamperAndBleach: each sensor, arming, Bleach's start and end, and the two ways in which BLEACHED clears. -/
theorem test_tamper :
    tWorld.armedSensors = 7 ∧ (tWorld.setReg .CRYPT_TAMPER_EN 0 0x38).armedSensors = 63 ∧
    tNext (.tamperAlarm 0) tWorld (fun t => t.keys.bleaching && t.rb .CRYPT_TAMPER_STAT 0 0 && t.rb .CRYPT_TAMPER_STAT 0 10) = true ∧
    tNext (.tamperAlarm 5) tWorld (fun t => !t.keys.bleaching && !t.rb .CRYPT_TAMPER_STAT 0 5 && t.rb .CRYPT_TAMPER_STAT 0 15) = true ∧
    tNext (.tamperArm 0x20 0) tWorld (fun t => t.armedSensors == 39 && !t.keys.bleaching) = true ∧
    tNext (.tamperArm 0x20 0x20) tWorld (fun t => t.armedSensors == 39 && t.keys.bleaching) = true ∧
    tNext .cryptBleach (tKw (some 5) []) (fun t => t.keys.bleaching && t.keys.pend == none && t.kwOwner == 0 && t.reg .KEYWIN_DATA 3 == 0) = true ∧
    tNext .bleachComplete { tWorld with keys := { tWorld.keys with bleaching := true } } (fun t => t.bleached && (t.slot 5).st == .empty && t.rb .TRUST_STAT 0 31) = true ∧
    tNext (.bleachPoll 1) (tWorld.setRb .CRYPT_STAT 0 31 true) (fun t => t.bleached) = true ∧ tNext (.bleachPoll 32) (tWorld.setRb .CRYPT_STAT 0 31 true) (fun t => !t.bleached) = true ∧
    tNext (.bleachedClear 1) (tWorld.setRb .CRYPT_STAT 0 31 true) (fun t => t.bleached) = true ∧ tNext (.bleachedClear 0) (tWorld.setRb .CRYPT_STAT 0 31 true) (fun t => !t.bleached) = true := by decide +kernel

/-- A command for frame 0 of the fabric, sample 0. -/
def tLate : Cmd := tc 0 [0, 0, 0, 0, 0, 0, 0, 0, 0, 0, 0x40000000]
/-- One source in conference 0 and class 0 at the fabric of `tMix`. -/
def tJoined : State := { tMix with mix := { tMix.mix with confs := [(0, { k := 2 })] } }
/-- Leg 0 is a leg of conference 0, of tenant 1's. -/
def tLegs : State := { tWorld with net := { tWorld.net with legs := [(0, { own := { fn := 64 }, conf := 0 })] } }

/-- ConferenceAndMixCommands: the commands that are late, and a conference with legs. -/
theorem test_late_boundary :
    (tMix.advance 0).takeable tLate = true ∧ tLate.dry = false ∧ statusOf mixSourceModifySpec mixSourceModifyCheck tLate tMix = LATE_BOUNDARY ∧
    tNext (.mixSourceModify tLate) tMix (fun t => t.rb .MIXF_SL_ARM 0 30) = true ∧
    statusOf mixClassModifySpec mixClassModifyCheck tLate tMix = LATE_BOUNDARY ∧ tNext (.mixClassModify tLate) tMix (fun t => t.rb .MIXF_SL_ARM 0 30) = true ∧
    statusOf confDestroySpec confDestroyCheck (tc 0 []) tLegs = CONF_HAS_LEGS ∧ tNext (.confDestroy (tc 0 [])) tLegs (fun t => (t.conf 0).closing) = true := by decide +kernel

/-- VideoCommands and SystemAndTelemetryCommands where one command has several outcomes. -/
theorem test_command_branches :
    tWorld.allocFit 0 (frameBytes 16 16 false) ≠ none ∧ tWorld.allocFit 1 (frameBytes 16 16 false) = none ∧
    tAccepts layoutImageLoadSpec layoutImageLoadCheck (tc 1 [0, 0, 0x00100010, 1]) tWorld = false ∧ (tPool {}).allocFit 0 (frameBytes 16 16 false) ≠ none ∧
    (let s : State := { tWorld with video := { tWorld.video with pool := { regions := [(0, { fresh := 16 })] } } }
    s.allocFit 0 (frameBytes 16 16 false) = none ∧ statusOf layoutImageLoadSpec layoutImageLoadCheck (tc 1 [0, 0, 0x00100010]) s = NO_RESOURCE) ∧
    (let c := tc 0 [0x01000104]
    let s : State := { tWorld with vusta := { tWorld.vusta with fns := [(0, { bme := true })] } }
    c.fn = some 0 ∧ (s.fn 0).ver = 0 ∧ (tWorld.fn 0).ver = 0x104 ∧ tAccepts sysHelloSpec sysHelloCheck c s = true
      ∧ tNext (.sysHello c) s (fun t => (t.fn 0).ver == 0x104) = true) ∧
    (let s : State := { tWorld with vusta := { tWorld.vusta with fns := [(0, { bme := true })] } }
    min 0x2FF verHi < max 0x200 verLo ∧ tAccepts sysHelloSpec sysHelloCheck (tc 0 [0x020002FF]) s = true
      ∧ tNext (.sysHello (tc 0 [0x020002FF])) s (fun t => (t.fn 0).ver == 0) = true) ∧
    tNext (.sysHello (tc 0 [0x01000104])) tWorld (fun t => (t.fn 0).ver == 0x104) = true ∧ tNext (.sysHello (tc 0 [0x01000103])) tWorld (fun t => (t.fn 0).ver == 0x104) = true ∧
    tAccepts sysHelloSpec sysHelloCheck (tc 0 [0x01000103]) tWorld = true := by decide +kernel

/-- JournalAndTestCommands: a commit that runs, a bank that is charged, and one that is not. -/
theorem test_journal_commits :
    (let s := tBoot 0x40000000 0 0x62822BD9
    s.trust.job = none ∧ (jrnlTenantPinApply (tCmd (.mbx 1) 0 []) (s.withPower (tCmd (.mbx 1) 0 []))).code = 0
      ∧ (jrnlSnapshotApply (tc 0 []) (s.withPower (tc 0 []))).code = 0) ∧
    (let s := (tBoot 0x40000000 0 0x62822BD9).setReg .JRNL_HUP_CFG 0 0
    (jrnlTenantPinApply (tCmd (.mbx 1) 0 []) (s.withPower (tCmd (.mbx 1) 0 []))).code ≠ 0 ∧ (jrnlSnapshotApply (tc 0 []) (s.withPower (tc 0 []))).code ≠ 0) := by decide +kernel

/-- Controller 0 ON, enabled and in a state; a port 0 read or posted write of unit 0. -/
def tHbm (st : Nat) (h : Hbm) : State :=
  let s := ((tWorld.setReg .CLKPWR_PD_STAT 28 0x40000000).setReg .HBMC_CTRL 0 0xC0000000).setReg .HBMC_SCRUB 0 0x80000000
  { s.setHbState 0 st with hbm := [(0, h)], mem := [(5, 7)] }
def tRead : UnitReq := { seq := 3, addr := 0 }
def tWrite : UnitReq := { seq := 4, addr := 8, write := true, data := [1, 2] }

/-- HbmStatesAndRequests: enabling, training, self-refresh and fences. -/
theorem test_hbm_states :
    tWorld.pdOn 28 = false ∧ tNext (.hbmcEnable 0 0x80000000) tWorld (fun t => t.bus == .busError) = true ∧
    (let s := { (tHbm 0 {}).setReg .HBMC_CTRL 0 0 with mem := [(5, 7), (0x600000000, 9)] }
    tNext (.hbmcEnable 0 0x80000000) s (fun t => t.hbState 0 == HB_TRAINING && t.mem == [(0x600000000, 9)]) = true
      ∧ tNext (.hbmcEnable 0 0xA0000000) s (fun t => t.hbState 0 == HB_SR_EXIT && t.mem == s.mem) = true) ∧
    tNext (.hbmcEnable 0 0) (tHbm 2 { seq := 4 }) (fun t => t.hbState 0 == HB_OFF && t.hbmc 0 == {}) = true ∧
    tNext (.hbmcEnable 0 0x80000000) (tHbm 2 { seq := 4 }) (fun t => t.hbState 0 == HB_ACTIVE && t.hbmc 0 == { seq := 4 }) = true ∧
    tNext (.hbmTrainingComplete 0 true) (tHbm 1 {}) (fun t => t.hbState 0 == HB_ACTIVE) = true ∧ tNext (.hbmTrainingComplete 0 false) (tHbm 1 {}) (fun t => t.hbState 0 == HB_FAILED) = true ∧
    (tHbm 2 {}).allAsleep = true ∧ (tHbm 2 {}).hbQuiet 0 = true ∧ tNext (.srIdleTimeout 0) (tHbm 2 {}) (fun t => t.hbState 0 == HB_SR_ENTRY) = true ∧
    tNext (.srEntryComplete 0) (tHbm 3 {}) (fun t => t.hbState 0 == HB_SELF_REFRESH) = true ∧ tNext (.srEntryComplete 0) (tHbm 3 { srWait := true }) (fun t => t.hbState 0 == HB_SR_EXIT) = true ∧
    tNext (.srExitComplete 0) (tHbm 5 {}) (fun t => t.hbState 0 == HB_ACTIVE && t.rb .HBMC_STAT 0 28) = true ∧
    tNext (.srExitComplete 0) (tHbm 5 { held := [⟨.fw 0, 8, some 0x0201⟩] }) (fun t => (t.hbmc 0).held == [] && t.mem == [(5, 7), (8, 1), (9, 2)] && t.out.head? == some (.served (.fw 0) 8 (.ok 0))) = true ∧
    tNext (.srExitComplete 0) { tHbm 5 { held := [⟨.fw 0, 0x40000004, none⟩] } with mem := [(0x40000005, 7)] } (fun t => t.mem == [(0x40000005, 7)] && t.out.head? == some (.served (.fw 0) 0x40000004 (.ok 0x0700))) = true ∧
    tNext .winFence (tHbm 2 { seq := 9 }) (fun t => (t.hbmc 0).fence == (9, 0) && t.rb .HBMC_WIN_FENCE 0 0) = true ∧
    ({} : Hbm).holdsChecked 9 = false ∧ tNext .winFenceClear ((tHbm 2 {}).setRb .HBMC_WIN_FENCE 0 0 true) (fun t => !t.rb .HBMC_WIN_FENCE 0 0) = true := by decide +kernel

/-- HbmStatesAndRequests: requests accepted and refused, a drain, and an issue of each kind. -/
theorem test_hbm_requests :
    splitUnits 2 63 [1, 2] = [(63, [1]), (64, [2])] ∧ stackOf 0x5FFFFFFFF = 0 ∧ stackOf 0x600000000 = 1 ∧
    (tHbm 2 {}).hbServes 0 = true ∧ inHbm 0 = true ∧ inHbm 0xBFFFFFFFF = true ∧ inHbm 0xC00000000 = false ∧
    tNext (.hbmRequest 0 0 true 63 none [1, 2] 0) (tHbm 2 {}) (fun t => (((t.hbmc 0).port 0).posted.map (·.addr)) == [63, 64] && t.mem == [(5, 7)]) = true ∧
    tNext (.hbmRequest 0 0 false 70 none [] 0) (tHbm 4 {}) (fun t => (((t.hbmc 0).port 0).reads.map (·.addr)) == [70] && t.hbState 0 == HB_SR_EXIT) = true ∧
    tNext (.hbmRequest 0 0 false 0x600000000 none [] 0) (tHbm 2 {}) (fun t => t.bus == .busError) = true ∧
    (tHbm 2 {}).windowOk 3 false 0 1 = false ∧ tNext (.hbmRequest 0 0 false 0 (some 3) [] 0) (tHbm 2 {}) (fun t => t.bus == .busError) = true ∧
    (let s := tHbm 2 { ports := [(0, { posted := [tWrite] })] }
    (s.hbArb 0 (s.hbmc 0).ptrs (fun q => !((s.hbmc 0).port q).posted.isEmpty)).map (·.2) = some 0
      ∧ tNext (.postedWriteDrain 0) s (fun t => t.mem == [(5, 7), (8, 1), (9, 2)] && ((t.hbmc 0).port 0).posted == []) = true) ∧
    ((tHbm 2 {}).hbGrant 0 0 1024).hbPick 0 0 = none ∧ tNext (.hbmUnitIssue 0 0) (tHbm 2 {}) (fun t => t.mem == [(5, 7)]) = true ∧
    (let s := tHbm 2 { ports := [(0, { reads := [tRead] })] }
    ((s.hbGrant 0 0 1024).hbPick 0 0).isSome = true ∧ tNext (.hbmUnitIssue 0 0) s (fun t => ((t.hbmc 0).flying.map fun r => nth r.data 0 5) == [7]) = true) ∧
    (let s := tHbm 2 { pcs := [(0, { queue := [tWrite] })] }
    ((s.hbGrant 0 0 1024).hbPick 0 0).map (·.1) = some tWrite ∧ tNext (.hbmUnitIssue 0 0) s (fun t => (t.hbmc 0).flying.length == 1) = true) ∧
    (let s := tHbm 2 { pcs := [(0, { queue := [{ tWrite with addr := 0, data := List.replicate 64 1 }] })] }
    ((s.hbGrant 0 0 1024).hbPick 0 0).isSome = true ∧ tNext (.hbmUnitIssue 0 0) s (fun t => (t.hbmc 0).flying == [] && ((t.hbmc 0).pc 0).queue == []) = true) := by decide +kernel

/-- HbmReadsAndCare: each outcome of a read, refreshes, temperatures and scrub reads. -/
theorem test_hbm_care :
    tNext (.hbmReadComplete 0 { inner := 0, outer := .clean }) (tHbm 2 { flying := [tRead] }) (fun t => (t.hbmc 0).flying == [] && t.bus != .busError) = true ∧
    tNext (.hbmReadComplete 0 { inner := 1, outer := .corrected 1 }) (tHbm 2 { flying := [tWrite] }) (fun t => t.bus == .ok 0) = true ∧
    tNext (.hbmReadComplete 0 { inner := 2, outer := .uncorrectable }) (tHbm 2 { flying := [tRead] }) (fun t => t.bus == .busError && t.rb .HBMC_UE_INFO 0 31 && !t.rb .HBMC_UE_INFO 0 30) = true ∧
    tNext (.hbmReadComplete 0 { inner := 2, outer := .uncorrectable }) ((tHbm 2 { flying := [tRead] }).setRb .HBMC_UE_INFO 0 31 true) (fun t => t.rb .HBMC_UE_INFO 0 30) = true ∧
    (tHbm 2 {}).rb .HBMC_STAT 0 25 = false ∧ tNext (.refreshDue 0 0) (tHbm 2 { pcs := [(0, { owed := 3 })] }) (fun t => ((t.hbmc 0).pc 0).owed == 0) = true ∧
    (let s := (tHbm 2 { pcs := [(0, { owed := 3, queue := [tWrite] })] }).setRf .HBMC_THERM 0 7 4 4
    tNext (.refreshDue 0 0) s (fun t => ((t.hbmc 0).pc 0).owed == 4) = true) ∧
    (let s := (tHbm 2 { pcs := [(0, { owed := 4, queue := [tWrite] })] }).setRf .HBMC_THERM 0 7 4 4
    tNext (.refreshDue 0 0) s (fun t => ((t.hbmc 0).pc 0).owed == 4 && t.cnt .HBMC_CNT_LO 10 == 1) = true) ∧
    tNext (.hbmTempRead 0 none) (tHbm 2 {}) (fun t => t.rb .HBMC_STAT 0 26 && t.rb .HBMC_STAT 0 28) = true ∧
    tNext (.hbmTempRead 0 (some 20)) (tHbm 2 {}) (fun t => t.rf .HBMC_STAT 0 7 0 == 20 && t.rb .HBMC_STAT 0 28 == false) = true ∧
    tNext (.hbmTempRead 0 (some 120)) (tHbm 2 {}) (fun t => t.rb .HBMC_STAT 0 27 && t.rb .HBMC_STAT 0 28) = true ∧
    tNext (.scrubRead 0 { inner := 0, outer := .clean }) (tHbm 2 {}) (fun t => t.rf .HBMC_SCRUB_POS 0 28 0 == 1) = true ∧
    tNext (.scrubRead 0 { inner := 0, outer := .clean }) ((tHbm 2 {}).setReg .HBMC_SCRUB_POS 0 (BitVec.ofNat 32 (stackUnits - 1))) (fun t => t.rf .HBMC_SCRUB_POS 0 28 0 == 0 && t.reg .HBMC_SCRUB_PASS 0 == 1) = true := by decide +kernel

/-- Two VFs of tenant 0; PF 1 in reset. -/
def tFn : State :=
  let s := tWorld.setReg .HP_FLR_LO 1 1
  { s with vusta := { s.vusta with sriov := [(0, { enable := true, numVfs := 2 })], fns := (1, { ver := 0x104, epoch := 255, bme := true }) :: s.vusta.fns } }
/-- The function is in reset, its version and bus mastering gone. -/
def tGone (f ep : Nat) (t : State) : Bool := t.inFlr f && (t.fn f).ver == 0 && !(t.fn f).bme && (t.fn f).epoch == ep

/-- FunctionResets: a PF's and a VF's function-level reset, VF Enable, a port's resets, and the end of a reset. -/
theorem test_function_resets :
    tFn.fnExists 1 = true ∧ tFn.fnExists 2 = true ∧ tFn.fnExists 3 = false ∧ tFn.inFlr 1 = false ∧ tFn.inFlr 64 = true ∧
    tNext (.functionLevelReset 1) tFn (fun t => tGone 1 0 t && (t.fn 0).ver == 0x104 && !t.inFlr 0) = true ∧
    tNext (.functionLevelReset 0) tFn (fun t => tGone 0 1 t && tGone 1 0 t && tGone 2 1 t) = true ∧
    tNext (.functionLevelReset 3) tFn (fun t => t == tFn) = true ∧
    tNext (.vfEnableClear 0) tFn (fun t => tGone 1 0 t && (t.fn 0).ver == 0x104 && !(Tbl.get t.vusta.sriov {} 0).enable) = true ∧
    (let s := tFn.setReg .HP_LINK_STAT 0 0x80000500
    tNext (.hotReset 0) s (fun t => tGone 0 1 t && t.reg .HP_LINK_STAT 0 == 0x80000000) = true
      ∧ tNext (.perstAssert 0) s (fun t => tGone 2 1 t && t.reg .HP_LINK_STAT 0 == 0x00800000) = true
      ∧ tNext (.pcieLinkChange 0 false 0 0 false) s (fun t => tGone 1 0 t && t.reg .HP_LINK_STAT 0 == 0x00800000) = true) ∧
    tNext (.flrReady 64) tFn (fun t => !t.inFlr 64 && t.rb .MBX_STAT 31 29) = true ∧ tNext (.flrReady 63) tFn (fun t => t == tFn) = true := by decide +kernel

/-- Port 0 of the host ports enabled and on. -/
def tPort (stat : Word) : State := ((tFn.setReg .CLKPWR_PD_STAT 30 0x40000000).setReg .HP_CTRL 0 0xD8000000).setReg .HP_LINK_STAT 0 stat

/-- LinkConfigurationAndEnds: the link, configuration writes and unclaimed requests. -/
theorem test_link :
    (tPort 0).rb .HP_CTRL 0 31 = true ∧ (tPort 0).pdOn 30 = true ∧ (tPort 0).maxSpeed 0 = 5 ∧
    tNext (.pcieLinkChange 0 true 4 3 false) (tPort 0) (fun t => t.rf .HP_LINK_STAT 0 31 28 == 12 && t.rb .HP_LINK_STAT 0 25 && t.rf .HP_LINK_STAT 0 15 8 == 0) = true ∧
    tNext (.pcieLinkChange 0 true 5 3 true) (tPort 0x8000FF00) (fun t => t.rf .HP_LINK_STAT 0 15 8 == 255 && t.rb .HP_LINK_STAT 0 24) = true ∧
    tNext (.pcieLinkChange 1 true 5 3 true) (tPort 0) (fun t => t == tPort 0) = true ∧
    tNext (.pcieConfigWrite 3 (.busMaster true)) tFn (fun t => t.bus == .unsupported) = true ∧
    tNext (.pcieConfigWrite 64 (.busMaster true)) tFn (fun t => t == { tFn with bus := .ok 0 }) = true ∧
    tNext (.pcieConfigWrite 1 (.busMaster false)) tFn (fun t => !(t.fn 1).bme) = true ∧
    tNext (.pcieConfigWrite 0 (.numVfs 3)) tFn (fun t => (Tbl.get t.vusta.sriov {} 0).numVfs == 2) = true ∧ tNext (.pcieConfigWrite 128 (.numVfs 3)) tFn (fun t => (Tbl.get t.vusta.sriov {} 2).numVfs == 3) = true ∧
    tNext (.pcieConfigWrite 1 .vfEnable) tFn (fun t => t.vusta == tFn.vusta) = true ∧ tNext (.pcieConfigWrite 128 .vfEnable) tFn (fun t => (Tbl.get t.vusta.sriov {} 2).enable) = true ∧
    tNext (.unclaimedRequest 3 false) tFn (fun t => t.bus == .unsupported) = true ∧ tNext (.unclaimedRequest 64 true) tFn (fun t => t.bus == .ok 0) = true ∧ tNext (.unclaimedRequest 1 true) tFn (fun t => t == tFn) = true := by decide +kernel

/-- LinkConfigurationAndEnds: the ends of what destruction took time over, and samples of a metering stream. -/
theorem test_ends :
    (let s : State := { tMix with video := { tMix.video with layouts := [(0, { own := { dying := true } })] } }
    (s.layout 0).own.dying = true ∧ (s.layout 0).job = none ∧ tNext (.objectDestructionEnd { kind := .layout, num := 0 }) s (fun t => t.video.layouts == []) = true) ∧
    (let s : State := { tMix with mix := { tMix.mix with confs := [(1, { own := { dying := true } })] } }
    s.confLegs 1 = [] ∧ tNext (.objectDestructionEnd { kind := .conf, num := 1 }) s (fun t => t.mix.confs == []) = true) ∧
    (let s : State := { tMix with disp := { tMix.disp with kernels := [(257, { own := { dying := true } })] } }
    (s.cores.any fun kv => kv.2.running && kv.2.kern == 257) = false ∧ tNext (.objectDestructionEnd { kind := .kernel, num := 257 }) s (fun t => t.disp.kernels == []) = true) ∧
    tNext (.objectDestructionEnd { kind := .tap, num := 0 }) tMix (fun t => t == tMix) = true ∧
    Tbl.find tMix.vusta.meters 4 = none ∧
    (let s : State := { tMix with vusta := { tMix.vusta with meters := [(4, { period := 5 })] } }
    tMix.mixFrame = 5 ∧ tNext (.meterSample 4 0 0) s (fun t => (Tbl.find t.vusta.meters 4).map (·.seen) == some 6) = true) ∧
    (let s : State := { tMix with vusta := { tMix.vusta with meters := [(4, { period := 4 })] } }
    tNext (.meterSample 4 0 0) s (fun t => t == s) = true) := by decide +kernel

/-- A domain or cluster in a state, with its request, and the powering of another. -/
def tPd (d st req : Nat) : State := (tWorld.setPd d st).setRf (pdCtrl d).1 (pdCtrl d).2 31 30 req
/-- Four domains power up. -/
def tFull : State := ((((tPd 2 0 0).setPd 40 1).setPd 41 1).setPd 42 1).setPd 43 1

/-- PowerRequests: a refused and a reserved request, a stop, a power-up with and without a place, and DOM_RESET. -/
theorem test_power :
    (tPd 0 2 0).pdRefused 0 1 = true ∧ tNext (.pdReqWrite 0 0x40000000) (tPd 0 2 0) (fun t => t.rb .CLKPWR_PD_STAT 0 27 && t.pdState 0 == 2) = true ∧
    tNext (.pdReqWrite 2 0xC0000000) (tPd 2 2 1) (fun t => t.rf .CLKPWR_PD_CTRL 2 31 30 == 1 && t.pdState 2 == 2) = true ∧
    (tPd 18 2 0).pdRefused 18 2 = false ∧ tNext (.pdReqWrite 18 0x80000000) (tPd 18 2 0) (fun t => t.pdState 18 == 3 && (Tbl.get t.power.doms {} 18).target == 2) = true ∧
    (tPd 2 0 2).pdRefused 2 0 = false ∧ (tPd 2 0 2).rb .SAFE_THERM 0 22 = false ∧ tNext (.pdReqWrite 2 0) (tPd 2 0 2) (fun t => t.pdState 2 == 1) = true ∧
    4 ≤ tFull.powering ∧ tNext (.pdReqWrite 2 0) tFull (fun t => t.pdState 2 == 0 && t.power.wakeQ.contains 2) = true ∧
    tNext (.domainReset 2) (tPd 2 0 0) (fun t => t == { tPd 2 0 0 with bus := .ok 0 }) = true ∧ tNext (.domainReset 2) (tPd 2 1 0) (fun t => t.pdState 2 == 1) = true ∧
    tNext (.domainReset 2) ((tPd 2 6 0).setRb .CLKPWR_PD_CTRL 2 28 true) (fun t => t.pdState 2 == 6) = true ∧ tNext (.domainReset 2) ((tPd 2 6 0).setRb .CLKPWR_PD_CTRL 2 28 false) (fun t => t.pdState 2 == 1) = true ∧
    (let s := (tPd 2 2 0).setRf .CLKPWR_CL_CTRL 0 31 30 0
    let u := { s with power := { s.power with doms := [(35, { wakeWait := true })] } }
    u.wakeAsked 35 = true ∧ u.pdRefused 2 2 = false ∧ s.wakeAsked 35 = false ∧
      tNext (.pdReqWrite 2 0x80000000) u (fun t => t.pdState 2 == 2 && t.rf .CLKPWR_PD_CTRL 2 31 30 == 2) = true) ∧
    (let s := (tLay { job := some { bufs := [(0, { fbh := 3 })] } }).setPd 18 2
    (s.layout 0).pe = 0 ∧ tNext (.domainReset 18) s (fun t => (t.layout 0).job == none && t.bus == .ok 0) = true) ∧
    (let s := { tPd 35 2 0 with cores := [(7, { pc := 8 }), (8, { pc := 8 })], mem := [(0x10001FFFFF, 1), (0x1000200000, 1)] }
    tNext (.domainReset 35) s (fun t => t.pdState 35 == 2 && t.core 7 == {} && t.core 8 != {} && t.mem == [(0x1000200000, 1)]) = true) := by decide +kernel

/-- SleepAndWake: entries that end in each state, wakes, and power good that comes too late. -/
theorem test_sleep :
    (let go (d st target : Nat) (w : Bool) : State := { tPd d st 0 with power := { tWorld.power with doms := [(d, { target, wakeWait := w })] } }
    tNext (.sleepEntryComplete 18) (go 18 3 1 false) (fun t => t.pdState 18 == 4) = true
      ∧ tNext (.sleepEntryComplete 18) (go 18 3 2 false) (fun t => t.pdState 18 == 0) = true
      ∧ tNext (.sleepEntryComplete 98) (go 98 5 2 false) (fun t => t.pdState 98 == 0) = true
      ∧ tNext (.sleepEntryComplete 18) (go 18 4 2 false) (fun t => t == go 18 4 2 false) = true
      ∧ tNext (.wakeComplete 18) (go 18 4 1 true) (fun t => t.pdState 18 == 2) = true) ∧
    (tPd 18 1 0).tileReady 18 = true ∧ tNext (.wakeComplete 18) (tPd 18 1 0) (fun t => t.pdState 18 == 2 && t.rf .CLKPWR_PD_STAT 18 15 0 == 1) = true ∧
    (tPd 98 1 0).tileReady 98 = false ∧ tNext (.wakeComplete 98) (tPd 98 1 0) (fun t => t.pdState 98 == 1) = true ∧
    (tPd 18 1 0).power.wakeQ = [] ∧ tNext (.powerGoodTimeout 18) (tPd 18 1 0) (fun t => t.pdState 18 == 6 && (testUnit 18).all t.tst.fenced.contains) = true ∧
    tNext (.powerGoodTimeout 18) (tPd 18 2 0) (fun t => t == tPd 18 2 0) = true := by decide +kernel

/-- The watchdog runs since 1 ms with a limit of 10 ms; it is `ms` ms. -/
def tDog (ms : Nat) : State :=
  let s := tWorld.setReg .CLKPWR_WDOG 0 0x8000000A
  { s with time := { acc := 2 ^ 32 * 1000000 * ms, eacc := 2 ^ 32 * 1000000 * ms }, power := { s.power with kickAt := 1000000 } }
/-- Reset is no longer held. -/
def tFreed : State := { tWorld with power := { tWorld.power with porst := false } }

/-- DeviceResets: the watchdog, a warm reset, a power-on reset, the straps and the trip. -/
theorem test_device_resets :
    tNext (.wdogEnable 0x80000009 0) tWorld (fun t => t.rb .CLKPWR_WDOG 0 31 && t.rf .CLKPWR_WDOG 0 15 0 == tWorld.rf .CLKPWR_WDOG 0 15 0) = true ∧
    tNext (.wdogEnable 0x8000000A 0) tWorld (fun t => t.reg .CLKPWR_WDOG 0 == 0x8000000A) = true ∧
    tNext (.wdogKick 0x4000000B 0) (tDog 5) (fun t => t.rf .CLKPWR_WDOG 0 15 0 == 10 && t.power.kickAt == 5000000) = true ∧
    tNext (.watchdogExpiry 0) (tDog 10) (fun t => t == tDog 10) = true ∧ (tDog 11).power.kickAt + (tDog 11).rf .CLKPWR_WDOG 0 15 0 * 1000000 ≤ (tDog 11).ela ∧ (tDog 11).rb .CLKPWR_WDOG 0 31 = true ∧
    tNext .powerOnReset { tKw none [] with mem := [(5, 7)], pending := [.brownOut] } (fun t => t.mem == [] && t.regs == State.reset.regs && t.pending == [.brownOut]) = true ∧
    tWorld.power.porst = true ∧ tNext (.porstRelease 5 true true none) tWorld (fun t => t == tWorld) = true ∧ tNext (.porstRelease 5 true false none) tFreed (fun t => t == tFreed) = true ∧
    sx (tWorld.rf .SAFE_THERM 0 7 0) 8 = 110 ∨ sx (tWorld.rf .SAFE_THERM 0 7 0) 8 ≤ 127 ∧
    tNext (.thermalTrip 20) tWorld (fun t => t == tWorld) = true ∧ tNext (.thermalTrip 127) tWorld (fun t => t.rb .SAFE_THERM 0 22 && t.pdState 98 == 0) = true := by decide +kernel

/-- The device on its crystal at 0.6 s of elapsed time, its servo and timers as given. -/
def tClk (t : Time) : State :=
  let s := (tWorld.setReg .TIME_STAT 0 0x80000000).setReg .TIME_PPS_OUT 0 0x80000064
  { s with time := { t with eacc := 2 ^ 32 * 600000000 } }

/-- ClockTimeAndThermalEvents: the slow clock, steps, the pulses, holdover, timers, and Tj. -/
theorem test_clock_and_time :
    tNext .xtalFail ((tClk {}).setReg .SAFE_CLK 0 0xC0000000) (fun t => t.rf .SAFE_CLK 0 31 29 == 1) = true ∧ tNext .xtalFail ((tClk {}).setReg .SAFE_CLK 0 0x40000000) (fun t => t.rf .SAFE_CLK 0 31 29 == 0) = true ∧
    tNext .xtalReturn ((tClk {}).setReg .SAFE_CLK 0 0x10000000) (fun t => t.rf .SAFE_CLK 0 31 28 == 12) = true ∧
    tNext .sysrefSwitch ((tClk {}).setReg .SAFE_CLK 0 0x20000000) (fun t => !t.rb .SAFE_CLK 0 31) = true ∧ tNext .sysrefSwitch ((tClk {}).setReg .SAFE_CLK 0 0) (fun t => t.rb .SAFE_CLK 0 31) = true ∧
    tNext (.timeStepCommit 0xFFFFFFFF 0xFFFFFFFF) (tClk {}) (fun t => t.time.step == some (-1)) = true ∧
    tNext .timeStepApply (tClk {}) (fun t => t.dev == 40) = true ∧
    tNext .timeStepApply (tClk { step := some (-40) }) (fun t => t.dev == 0 && t.time.step == none) = true ∧ tNext .timeStepApply (tClk { step := some (-41) }) (fun t => t.dev == 40 && t.rb .TIME_STAT 0 28) = true ∧
    (let s := (tClk {}).setReg .TIME_STAT 0 0
    tNext (.ppsInEdge 0) { s with time := { s.time with ppsAt := 100000002 } } (fun t => t.rf .TIME_STAT 0 15 0 == 1) = true
      ∧ tNext (.ppsInEdge 0) { s with time := { s.time with ppsAt := 100000001, tod := some 3, mode := .pps } } (fun t => t.rb .TIME_STAT 0 27 && t.time.offsets == [3000000000]) = true) ∧
    tNext (.ppsOutPulse true 0) (tClk {}) (fun t => t.time.ppsOut && t.out == [.pin 0 1]) = true ∧
    tNext (.ppsOutPulse false 0) (tClk { ppsOut := true }) (fun t => !t.time.ppsOut && t.out == [.pin 0 0]) = true ∧
    (let s : State := { tClk {} with time := { eacc := 2 ^ 32 * 3000000000, mode := .pps, lock := .locked } }
    tNext (.servoHoldover 0) s (fun t => t.time.lock == .holdover) = true) ∧
    tNext (.servoHoldover 0) (tClk { mode := .pps, lock := .locked }) (fun t => t.time.lock == .locked) = true ∧
    tNext (.safelightTimerExpiry 7 0) (tClk { timers := [(7, { period := 1000, next := 600000000 })] }) (fun t => (Tbl.find t.time.timers 7).map (·.next) == some 600001000) = true ∧
    tNext (.safelightTimerExpiry 7 0) (tClk { timers := [(7, { period := 1000, next := 600000001 })] }) (fun t => (Tbl.find t.time.timers 7).map (·.next) == some 600000001) = true ∧
    tWorld.tst.run = none ∧ tNext (.thermalSample 20 false) tWorld (fun t => t.rf .SAFE_THERM 0 31 24 == 20 && !t.rb .SAFE_THERM 0 23) = true ∧
    tNext (.thermalSample 20 true) tWorld (fun t => t.rb .SAFE_THERM 0 23 && t.rb .SAFE_FAN 3 23) = true ∧
    tNext (.fanWriteTimeout 0) tWorld (fun t => t == tWorld) = true ∧ tNext (.fanWriteTimeout 0) { tWorld with time := { eacc := 2 ^ 32 * 5000000000 } } (fun t => t.power.fanStale && t.rb .SAFE_FAN 0 23) = true := by decide +kernel

/-- A bank that holds 1,000 mV of a scale of 256 at code 1, and 2 J; commits take 100 µs of 1 W and 1 J is reserved. -/
def tBank (stat : Word) (job : Option Commit) : State :=
  let s := ((((tWorld.setReg .JRNL_HUP_CFG 0 0x1003D090).setReg .JRNL_HUP_LOAD 0 0).setReg .JRNL_HUP_TIME 0 0).setReg .JRNL_HUP_RSV 0 1).setReg .JRNL_STAT 0 stat
  { s with trust := { s.trust with job } }
/-- `JRNL_RESULT` after a JRNL command. -/
def tJ (i : Instr) (s : State) (r : Nat) : Bool := tNext i s (fun t => t.rf .JRNL_RESULT 0 31 29 == r && t.trust.flash == s.trust.flash)

/-- JournalBlockAndSigning: each answer of the JRNL block, the ends of a commit, power failing, and TRUST_SIGN. -/
theorem test_journal_block :
    tJ (.jrnlProgram 0x100 4000) (tBank 0 (some { op := 1, addr := 0, page := [] })) J_BUSY = true ∧ tJ (.jrnlProgram 0x101 4000) (tBank 0 none) J_BAD_PARAM = true ∧
    tJ (.jrnlErase 0x100 4000) (tBank 0 none) J_BAD_PARAM = true ∧ tJ (.jrnlFuse 64 4000) (tBank 0 none) J_BAD_PARAM = true ∧
    tJ (.jrnlFuse 63 4000) (tBank 0x80000000 none) J_PFAIL = true ∧ tJ (.jrnlFuse 63 0) (tBank 0 none) J_NO_HOLDUP = true ∧
    (tBank 0 none).commitNeed true = 1 ∧ tJ (.jrnlFuse 63 4000) (tBank 0 none) J_BUSY = true ∧ tNext (.jrnlErase 0x1000 4000) (tBank 0 none) (fun t => t.trust.job == some { op := 2, addr := 0x1000, page := [] }) = true ∧
    tNext (.commitComplete true) (tBank 0 (some { op := 1, addr := 512, page := [0x0F] })) (fun t => t.rf .JRNL_RESULT 0 31 29 == J_DONE && Flash.read t.trust.flash 512 1 == [0x0F]) = true ∧
    tNext (.commitComplete true) (tBank 0 (some { op := 3, addr := 5, page := [] })) (fun t => t.trust.otp == tWorld.trust.otp ||| 32) = true ∧
    tNext (.commitComplete false) (tBank 0 (some { op := 2, addr := 0, page := [] })) (fun t => t.rf .JRNL_RESULT 0 31 29 == J_FLASH_ERR && t.trust.job == none) = true ∧
    tNext (.commitComplete true) (tBank 0 none) (fun t => t == tBank 0 none) = true ∧ (tBank 0 none).trust.audits = [] ∧
    tNext .pfailAssert (tBank 0 none) (fun t => t.rf .JRNL_STAT 0 31 30 == 3) = true ∧ tNext .pfailRelease (tBank 0xC0000000 none) (fun t => t.rf .JRNL_STAT 0 31 30 == 1) = true ∧
    tNext (.trustSign 0x20000005) (tWorld.setReg .TRUST_SIGN 0 0x40000001) (fun t => t.reg .TRUST_SIGN 0 == 0x40000001) = true ∧
    tNext (.trustSign 0x20000005) (tWorld.setRb .TRUST_STAT 0 30 true) (fun t => t.rf .TRUST_SIGN 0 31 30 == 3) = true ∧
    tNext (.trustSign 0x20000005) (tWorld.setRb .TRUST_STAT 0 30 false) (fun t => t.rf .TRUST_SIGN 0 31 29 == 3 && t.rf .TRUST_SIGN 0 25 0 == 5) = true ∧
    tNext (.trustSign 5) (tWorld.setReg .TRUST_SIGN 0 0x80000001) (fun t => t.reg .TRUST_SIGN 0 == 0x80000005) = true ∧
    tNext .signComplete (tWorld.setReg .TRUST_SIGN 0 0x80000001) (fun t => t.reg .TRUST_SIGN 0 == 0x80000001) = true ∧
    tNext .signComplete ((tWorld.setReg .TRUST_SIGN 0 0x40000001).setRb .TRUST_STAT 0 30 true) (fun t => t.rf .TRUST_SIGN 0 31 30 == 3 && t.mem == []) = true := by decide +kernel

/-- Position 3 tests unit 7; position 4 is free. -/
def tTst : State := { tWorld with tst := { tWorld.tst with pos := [(3, 7)], period := 2, nextAt := 0 } }

/-- TestStripEvents: a start, an abort, an end, the schedule, and the retry of a record. -/
theorem test_test_strip :
    Tbl.has tTst.tst.pos 4 = false ∧ tTst.tst.run = none ∧
    tNext (.tstripGo 4 0x80000059) tTst (fun t => t.posState 4 == 1 && t.rb .TSTRIP_CTRL 4 31 && Tbl.find t.tst.pos 4 == some 89) = true ∧
    tNext (.tstripGo 4 0x59) tTst (fun t => t.rf .TSTRIP_CTRL 4 6 0 == 0x59 && t.tst == tTst.tst) = true ∧
    tNext (.tstripAbort 4) tTst (fun t => t == { tTst with bus := .ok 0 }) = true ∧ tNext (.tstripAbort 3) tTst (fun t => t.posState 3 == 3 && t.tst.pos == []) = true ∧
    tNext (.unitTestDone 4 0 false) tTst (fun t => t == tTst) = true ∧ Tbl.find tTst.tst.pos 3 = some 7 ∧
    tNext (.testScheduleExpiry 0) { tTst with tst := { tTst.tst with nextAt := 1 } } (fun t => t.tst.nextAt == 1) = true ∧
    tNext (.testScheduleExpiry 0) { tTst with tst := { tTst.tst with run := some {} } } (fun t => t.tst.nextAt == 7200000000000 && t.tst.run == some {}) = true ∧
    tNext (.testScheduleExpiry 0) { tTst with tst := { tTst.tst with pos := [] } } (fun t => t.tst.nextAt == 7200000000000 && t.tst.run.isSome) = true ∧
    tNext (.testResultRetry 0) tTst (fun t => t == tTst) = true ∧
    (let s := tBoot 0x40000000 0 0x62822BD9
    tNext (.testResultRetry 0) { s with tst := { s.tst with retry := some (0, [1]) } } (fun t => t.tst.retry == none) = true) ∧
    (let s : State := { tWorld with tst := { tWorld.tst with retry := some (0, [1]) } }
    tNext (.testResultRetry 0) (s.setReg .JRNL_HUP_CFG 0 0) (fun t => t.tst.retry == some (0, [1])) = true
      ∧ tNext (.testResultRetry 0) { s.setReg .JRNL_HUP_CFG 0 0 with time := { eacc := 2 ^ 32 * 1000000000 } } (fun t => t.tst.retry == none) = true) := by decide +kernel

/-- ResetValues and the queue: at reset nothing waits. -/
theorem test_idle_and_reset :
    State.reset.pending = [] ∧ (match step { tTst with pending := [.tstripAbort 4] } with | .next t => t.pending == [] | _ => false) = true := by decide +kernel

end Sys2Proof.Tests
end

section
/-! Values at reset (R15). No register is stored then, so each reads the value that its field table gives. -/

namespace Sys2Proof.Machine

theorem reset_rf (n : RegName) (i hi lo : Nat) : State.reset.rf n i hi lo = fld (n.rst i) hi lo := rfl
theorem reset_rb (n : RegName) (i b : Nat) : State.reset.rb n i b = bit (n.rst i) b := rfl

/-- A register whose reset value does not depend on the index reads at every index as at 0. -/
theorem reset_rf_any {n : RegName} {i hi lo v : Nat} (hn : n.rst i = n.rst 0) (h : State.reset.rf n 0 hi lo = v) :
    State.reset.rf n i hi lo = v := by rw [reset_rf, hn, ← reset_rf, h]

theorem reset_rb_any {n : RegName} {i b : Nat} {v : Bool} (hn : n.rst i = n.rst 0) (h : State.reset.rb n 0 b = v) :
    State.reset.rb n i b = v := by rw [reset_rb, hn, ← reset_rb, h]

/-- The core's number is the one field of `CORE_STAT` that is not zero. -/
theorem rst_coreStat {c : Nat} (h : c < 512) : RegName.CORE_STAT.rst c = BitVec.ofNat 32 c := by
  change putF 0 8 0 c = _
  have hm : c % 2 ^ (8 + 1 - 0) * 2 ^ 0 = c := by omega
  rw [putF, hm]
  simp

/-- A ring's number stands above its owner's. -/
theorem rst_ringInfo {r : Nat} (h : r < 4096) : fld (RegName.RING_INFO.rst r) 31 16 = 61440 + r := by
  change fld (putF (putF 0 31 16 (61440 + r)) 15 8 _) 31 16 = _
  rw [fld_putF_ne _ (by decide) (by decide), fld_putF_same _ (by decide) (by decide)]
  omega

theorem reset_cluster_off (c : Nat) : State.reset.pdState (35 + c) = 0 := by
  rw [State.pdState, if_neg (by omega)]
  exact reset_rf_any rfl rfl

/-- Domains 0, 1 and 34 are on at reset. -/
theorem reset_domain : ∀ d : Fin 35, State.reset.pdState d.val = if d.val ≤ 1 ∨ d.val = 34 then 2 else 0 := by decide

/-- Ports 13 and 14 are the real-time ones. -/
theorem reset_port_cfg : ∀ p : Fin 16, State.reset.rb .HBMC_PORT_CFG p.val 31 = (p.val == 13 || p.val == 14) ∧
    State.reset.rf .HBMC_PORT_CFG p.val 27 22 = 48 := by decide

theorem reset_network_ports (p : Nat) : State.reset.rf .ETH_PCFG p 27 26 = 3 ∧ State.reset.rf .ETH_PCFG p 25 22 = 0xF ∧
    State.reset.rf .EGS_PORT_CFG p 30 28 = 7 ∧ State.reset.rf .EGS_PORT_CFG p 22 16 = 0x14 :=
  ⟨reset_rf_any rfl rfl, reset_rf_any rfl rfl, reset_rf_any rfl rfl, reset_rf_any rfl rfl⟩

theorem reset_controllers (n : Nat) : State.reset.rf .HBMC_CTRL n 15 0 = 100 ∧ State.reset.rf .HBMC_THERM n 31 24 = 85 ∧
    State.reset.rf .HBMC_THERM n 23 16 = 80 ∧ State.reset.rf .HBMC_THERM n 15 8 = 105 ∧ State.reset.rf .HBMC_TREFI n 11 0 = 390 :=
  ⟨reset_rf_any rfl rfl, reset_rf_any rfl rfl, reset_rf_any rfl rfl, reset_rf_any rfl rfl, reset_rf_any rfl rfl⟩

/-- Settles O3: by index where the value depends on it, at index 0 elsewhere. -/
theorem resetValues : Obligations.ResetValues :=
  ⟨fun _ => ⟨rfl, rfl⟩, fun _ => ⟨reset_rf_any rfl rfl, reset_rf_any rfl rfl⟩, rfl, rfl, rfl, rfl,
    fun p => reset_network_ports p.val, rfl, rfl, rfl, rfl, fun c => rst_coreStat c.isLt, rfl, rfl,
    fun _ => ⟨reset_rf_any rfl rfl, reset_rf_any rfl rfl⟩, fun n => reset_controllers n.val, reset_port_cfg,
    fun _ => ⟨reset_rf_any rfl rfl, reset_rb_any rfl rfl⟩, rfl, rfl, reset_domain, fun c => reset_cluster_off c.val,
    fun r => ⟨rst_ringInfo r.isLt, reset_rb_any rfl rfl⟩, rfl, rfl, rfl⟩

end Sys2Proof.Machine
end

section
/-! Access codes (R10, R11). A register's fields do not overlap, so the one field that holds a bit decides what a write leaves in
it and what a read shows of it. -/

namespace Sys2Proof.Machine

/-- The bit that a write of `new` leaves in a field where the register held `old`. -/
def Acc.left (old new : Bool) : Acc → Bool
  | .rw | .wo => new
  | .w1c => old && !new
  | .w1s => old || new
  | .ro | .rc | .rsv => old

/-- The bit that a read returns from a field that holds `old`. -/
def Acc.shown (old : Bool) : Acc → Bool
  | .wo | .rsv => false
  | .ro | .rw | .w1c | .w1s | .rc => old

/-- The field has a bit `b`. -/
def Fld.Holds (f : Fld) (b : Nat) : Prop := f.lo ≤ b ∧ b ≤ f.hi

/-- The fields are places of a word. -/
def FldsFit (l : List Fld) : Prop := ∀ f ∈ l, f.lo ≤ f.hi ∧ f.hi < 32

variable {f : Fld} {l : List Fld} {old new w : Word} {b : Nat}

theorem applyWrite_cons : applyWrite (f :: l) old new = applyWrite l (applyWrite [f] old new) new := rfl
theorem readMask_cons : readMask (f :: l) w = readMask l (readMask [f] w) := rfl

theorem bit_maskW_in (hf : f.lo ≤ f.hi) (h32 : f.hi < 32) (hb : f.Holds b) : bit (maskW f.hi f.lo) b = true := by
  obtain ⟨hlo, hhi⟩ := hb
  rw [bit_maskW _ _ _ hf]
  exact decide_eq_true ⟨by omega, hlo, hhi⟩

theorem bit_maskW_out (hf : f.lo ≤ f.hi) (hb : b < f.lo ∨ f.hi < b) : bit (maskW f.hi f.lo) b = false := by
  rw [bit_maskW _ _ _ hf]
  exact decide_eq_false (by omega)

theorem bit_applyWrite_one (hf : f.lo ≤ f.hi) (h32 : f.hi < 32) (hb : f.Holds b) :
    bit (applyWrite [f] old new) b = f.acc.left (bit old b) (bit new b) := by
  obtain ⟨hlo, hhi⟩ := hb
  have hm : bit (maskW f.hi f.lo) b = true := bit_maskW_in hf h32 ⟨hlo, hhi⟩
  have hp : bit (putF old f.hi f.lo (fld new f.hi f.lo)) b = bit new b := by
    rw [bit_putF _ _ _ _ _ hf, if_pos ⟨by omega, hlo, hhi⟩, testBit_fld, decide_eq_true (by omega), Bool.true_and,
      Nat.add_sub_cancel' hlo]
  have hb32 : b < 32 := by omega
  cases ha : f.acc <;> simp [applyWrite, Acc.left, ha, bit_and, bit_or, bit_not, hm, hp, hb32]

theorem bit_applyWrite_one_out (hf : f.lo ≤ f.hi) (hb : b < f.lo ∨ f.hi < b) : bit (applyWrite [f] old new) b = bit old b := by
  have hm : bit (maskW f.hi f.lo) b = false := bit_maskW_out hf hb
  have hp : bit (putF old f.hi f.lo (fld new f.hi f.lo)) b = bit old b := bit_putF_ne old hf hb
  by_cases hb32 : b < 32
  · cases ha : f.acc <;> simp [applyWrite, ha, bit_and, bit_or, bit_not, hm, hp, hb32]
  · rw [bit_high _ (by omega), bit_high _ (by omega)]

theorem bit_readMask_one (hf : f.lo ≤ f.hi) (h32 : f.hi < 32) (hb : f.Holds b) :
    bit (readMask [f] w) b = f.acc.shown (bit w b) := by
  have hm : bit (maskW f.hi f.lo) b = true := bit_maskW_in hf h32 hb
  cases ha : f.acc <;> simp [readMask, Acc.shown, ha, bit_and, bit_not, hm]

theorem bit_readMask_one_out (hf : f.lo ≤ f.hi) (hb : b < f.lo ∨ f.hi < b) : bit (readMask [f] w) b = bit w b := by
  have hm : bit (maskW f.hi f.lo) b = false := bit_maskW_out hf hb
  by_cases hb32 : b < 32
  · cases ha : f.acc <;> simp [readMask, ha, bit_and, bit_not, hm, hb32]
  · rw [bit_high _ (by omega), bit_high _ (by omega)]

/-- Bits outside every field keep their value. -/
theorem bit_applyWrite_out (hl : FldsFit l) (hb : ∀ f ∈ l, b < f.lo ∨ f.hi < b) : bit (applyWrite l old new) b = bit old b := by
  induction l generalizing old with
  | nil => rfl
  | cons f l ih =>
    obtain ⟨⟨hf, -⟩, hl⟩ := List.forall_mem_cons.mp hl
    obtain ⟨hbf, hb⟩ := List.forall_mem_cons.mp hb
    rw [applyWrite_cons, ih hl hb, bit_applyWrite_one_out hf hbf]

theorem bit_readMask_out (hl : FldsFit l) (hb : ∀ f ∈ l, b < f.lo ∨ f.hi < b) : bit (readMask l w) b = bit w b := by
  induction l generalizing w with
  | nil => rfl
  | cons f l ih =>
    obtain ⟨⟨hf, -⟩, hl⟩ := List.forall_mem_cons.mp hl
    obtain ⟨hbf, hb⟩ := List.forall_mem_cons.mp hb
    rw [readMask_cons, ih hl hb, bit_readMask_one_out hf hbf]

/-- No two fields share a bit. -/
def FldsApart (l : List Fld) : Prop := l.Pairwise fun f g => f.hi < g.lo ∨ g.hi < f.lo

theorem FldsApart.out_of_head {g : Fld} (h : FldsApart (f :: l)) (hb : f.Holds b) (hg : g ∈ l) : b < g.lo ∨ g.hi < b := by
  have := (List.pairwise_cons.mp h).1 g hg
  obtain ⟨hlo, hhi⟩ := hb
  omega

theorem FldsApart.out_of_tail {g : Fld} (h : FldsApart (g :: l)) (hf : f ∈ l) (hb : f.Holds b) : b < g.lo ∨ g.hi < b := by
  have := (List.pairwise_cons.mp h).1 f hf
  obtain ⟨hlo, hhi⟩ := hb
  omega

/-- The field that holds the bit decides what a write leaves in it. -/
theorem bit_applyWrite (hl : FldsFit l) (ha : FldsApart l) (hm : f ∈ l) (hb : f.Holds b) :
    bit (applyWrite l old new) b = f.acc.left (bit old b) (bit new b) := by
  induction l generalizing old with
  | nil => cases hm
  | cons g l ih =>
    obtain ⟨⟨hg, hg32⟩, ht⟩ := List.forall_mem_cons.mp hl
    rw [applyWrite_cons]
    rcases List.mem_cons.mp hm with rfl | hm
    · rw [bit_applyWrite_out ht fun _ => ha.out_of_head hb, bit_applyWrite_one hg hg32 hb]
    · rw [ih ht ha.of_cons hm, bit_applyWrite_one_out hg (ha.out_of_tail hm hb)]

/-- The field that holds the bit decides what a read shows of it. -/
theorem bit_readMask (hl : FldsFit l) (ha : FldsApart l) (hm : f ∈ l) (hb : f.Holds b) :
    bit (readMask l w) b = f.acc.shown (bit w b) := by
  induction l generalizing w with
  | nil => cases hm
  | cons g l ih =>
    obtain ⟨⟨hg, hg32⟩, ht⟩ := List.forall_mem_cons.mp hl
    rw [readMask_cons]
    rcases List.mem_cons.mp hm with rfl | hm
    · rw [bit_readMask_out ht fun _ => ha.out_of_head hb, bit_readMask_one hg hg32 hb]
    · rw [ih ht ha.of_cons hm, bit_readMask_one_out hg (ha.out_of_tail hm hb)]

/-- Settles O30: the field that holds a bit decides, and a bit of no field is left alone. -/
theorem accessCodes : Obligations.AccessCodes := by
  intro l old new hl ha
  refine ⟨fun f hf b hlo hhi => ⟨?_, ?_⟩, fun b hb => ⟨bit_applyWrite_out hl hb, bit_readMask_out hl hb⟩⟩
  · rw [bit_applyWrite hl ha hf ⟨hlo, hhi⟩]
    cases f.acc <;> rfl
  · rw [bit_readMask hl ha hf ⟨hlo, hhi⟩]
    cases f.acc <;> rfl

end Sys2Proof.Machine
end

section
/-! An access of one word (R10, R22, R26, R27, R73): where it is refused, where its place takes it, and what becomes of an answer. -/

namespace Sys2Proof.Machine

variable {s t : State} {a : Agent} {addr m : Nat} {v : Word} {write : Bool} {go : Loc → State} {l : Loc}

/-! ### From the bus to the command's answer -/

theorem State.holdAcc_of_answered {w : Option Word} (h : s.bus ≠ .none) : s.holdAcc a addr w = s := if_neg fun e => h e.1

theorem State.kernelErr_of_no_error (h : s.bus ≠ .busError) : s.kernelErr a addr = s := by
  unfold State.kernelErr
  split
  · exact if_neg fun e => h e.1
  · rfl

/-- A read that the bus answers without error has no further effect. -/
theorem exec_counterLatchRead_of_answered (h : s.busRead a addr = t) (hn : t.bus ≠ .none) (he : t.bus ≠ .busError) :
    exec (.counterLatchRead a addr) s = .next t :=
  congrArg Host.Outcome.next <| by rw [h, State.holdAcc_of_answered hn, State.kernelErr_of_no_error he]

theorem exec_registerWrite_of_answered (h : s.busWrite a addr v = t) (hn : t.bus ≠ .none) (he : t.bus ≠ .busError) :
    exec (.registerWrite a addr v) s = .next t :=
  congrArg Host.Outcome.next <| by rw [h, State.holdAcc_of_answered hn, State.kernelErr_of_no_error he]

/-- A bus error faults no one but a kernel (R27). -/
theorem exec_counterLatchRead_of_refused (h : s.busRead a addr = { s with bus := .busError }) (ha : ∀ k, a ≠ .kernel k) :
    exec (.counterLatchRead a addr) s = .next { s with bus := .busError } :=
  congrArg Host.Outcome.next <| by
    rw [h, State.holdAcc_of_answered Bus.noConfusion]
    cases a with
    | kernel k => exact absurd rfl (ha k)
    | _ => rfl

theorem exec_registerWrite_of_refused (h : s.busWrite a addr v = { s with bus := .busError }) (ha : ∀ k, a ≠ .kernel k) :
    exec (.registerWrite a addr v) s = .next { s with bus := .busError } :=
  congrArg Host.Outcome.next <| by
    rw [h, State.holdAcc_of_answered Bus.noConfusion]
    cases a with
    | kernel k => exact absurd rfl (ha k)
    | _ => rfl

/-! ### What the place makes of an access -/

/-- A function that does not exist or is in reset reaches nothing (R512). -/
theorem State.access_absent {f : Fin 256} (h : s.fnExists f.val = false ∨ s.inFlr f.val = true) :
    s.access (.host f) addr write go = { s with bus := if write then .ok 0 else .unsupported } :=
  if_pos (by rcases h with h | h <;> simp [h])

theorem State.access_host {f : Fin 256} (he : s.fnExists f.val = true) (hr : s.inFlr f.val = false) :
    s.access (.host f) addr write go = go (hostLocate f (addr / 4 * 4)) := if_neg (by simp [he, hr])

/-- A place that does not exist, is not the agent's or does not answer makes a bus error. -/
theorem State.access_refused (ha : ∀ f, a ≠ .host f) (hl : s.locate (addr / 4 * 4) = l)
    (h : l = .outside ∨ s.may a write l = false ∨ s.answers l = false) :
    s.access a addr write go = { s with bus := .busError } := by
  subst hl
  cases a with
  | host f => exact absurd rfl (ha f)
  | _ => exact if_pos h

/-- A place other than memory takes the access of an agent that may make it. -/
theorem State.access_taken (ha : ∀ f, a ≠ .host f) (hl : s.locate (addr / 4 * 4) = l) (ho : l ≠ .outside)
    (hm : s.may a write l = true) (hv : s.answers l = true) (hne : ∀ m, l ≠ .mem m) : s.access a addr write go = go l := by
  have hr : ¬(l = .outside ∨ s.may a write l = false ∨ s.answers l = false) := by simp [ho, hm, hv]
  cases a with
  | host f => exact absurd rfl (ha f)
  | _ =>
    rw [← hl] at hr
    refine (if_neg hr).trans ?_
    rw [hl]
    cases l with
    | mem m => exact absurd rfl (hne m)
    | _ => rfl

/-- What HBM makes of an access that the agent may make: served, or waiting while the stack sleeps (R22, R345). -/
theorem State.access_hbm (ha : ∀ f, a ≠ .host f) (hl : s.locate (addr / 4 * 4) = .mem m) (hm : s.may a write (.mem m) = true)
    (hv : s.answers (.mem m) = true) (hb : inHbm m = true) :
    (s.hbAnswer m = 0 → s.access a addr write go = go (.mem m)) ∧
      (s.hbAnswer m = 1 → s.access a addr write go = { s.srRequest (stackOf m) with bus := .none }) := by
  have hr : ¬(Loc.mem m = .outside ∨ s.may a write (.mem m) = false ∨ s.answers (.mem m) = false) := by simp [hm, hv]
  cases a with
  | host f => exact absurd rfl (ha f)
  | _ =>
    rw [← hl] at hr
    exact ⟨fun h0 => (if_neg hr).trans (by simp [hl, hb, h0]), fun h0 => (if_neg hr).trans (by simp [hl, hb, h0])⟩

end Sys2Proof.Machine
end

section
/-! Reserved offsets (R16, R391). -/

namespace Sys2Proof.Machine

variable {s : State} {a : Agent} {addr d b : Nat} {v : Word}

/-- Where a reserved offset takes the access, a read returns zero and a write has no effect. -/
theorem exec_of_reserved (h : ∀ w go, s.access a addr w go = go (.reserved d b)) :
    exec (.counterLatchRead a addr) s = .next { s with bus := .ok 0 } ∧
      exec (.registerWrite a addr v) s = .next { s with bus := .ok 0 } :=
  ⟨exec_counterLatchRead_of_answered (h _ _) nofun nofun, exec_registerWrite_of_answered (h _ _) nofun nofun⟩

theorem State.answers_reserved (h : s.pdOn d = true) : s.answers (.reserved d b) = true := by simp [State.answers, Loc.domain, h]

theorem State.access_reserved {w : Bool} {go : Loc → State} (ha : ∀ f, a ≠ .host f) (hl : s.locate (addr / 4 * 4) = .reserved d b)
    (hd : s.pdOn d = true) (hm : s.may a w (.reserved d b) = true) : s.access a addr w go = go (.reserved d b) :=
  State.access_taken ha hl nofun hm (State.answers_reserved hd) nofun

/-- Settles O31: each agent that reaches the block gets to the place, and the place answers zero. -/
theorem reservedOffsets : Obligations.ReservedOffsets := by
  refine ⟨?firmware, ?host, ?kernel, ?smc⟩
  case firmware => exact fun _ _ _ _ _ _ hl hd => exec_of_reserved fun _ _ => State.access_reserved nofun hl hd rfl
  case host =>
    intro f addr d b v s hl he hr
    exact exec_of_reserved fun _ _ => (State.access_host he hr).trans (by rw [hl])
  case kernel => exact fun _ _ _ _ _ _ hl hd hk => exec_of_reserved fun _ _ => State.access_reserved nofun hl hd hk
  case smc => exact fun _ _ _ _ _ hl hd hm => exec_of_reserved fun _ _ => State.access_reserved nofun hl hd hm

end Sys2Proof.Machine
end

section
/-! Accesses of registers and memory over the bridge fabric (R10, R22, R26, R27, R73, R512). -/

namespace Sys2Proof.Machine

variable {s : State} {addr i a : Nat} {n hi : RegName} {v : Word} {c : Fin 4}

/-! ### Registers -/

theorem State.answers_reg (h : s.pdOn (n.domain i) = true) : s.answers (.reg n i) = true := by simp [State.answers, Loc.domain, h]

/-- Firmware reaches every register of a domain that is on. -/
theorem State.access_reg {w : Bool} {go : Loc → State} (hl : s.locate (addr / 4 * 4) = .reg n i) (hd : s.pdOn (n.domain i) = true) :
    s.access (.fw c) addr w go = go (.reg n i) :=
  State.access_taken nofun hl nofun rfl (State.answers_reg hd) nofun

/-- Registers whose read and write do what their access codes say and no more. -/
def plainRegs : List RegName :=
  [.SAFE_RET, .STRATA_CTRL, .STRATA_DEVID, .STRATA_TGT_QID, .STRATA_OCTX_BASE, .EGS_PORT_CFG, .EGS_TGT_QID,
    .CRYPT_SLOT_SEL, .DISP_CTRL, .DISP_POOL, .DISP_AFF, .DISP_WAKE_THRESH, .CORE_FAULT, .MIXF_SCHED, .PICT_DEC_CTRL,
    .PICT_ENC_CTRL, .POOL_TBL_BASE, .HBMC_THERM, .HBMC_TREFI, .HBMC_PORT_CFG, .HBMC_SCRUB, .TIME_RATE, .TIME_STEP_LO,
    .TIME_PPS_OUT]

/-- None of them is a mailbox register, one of the key window or a LO register. -/
theorem plainRegs_apart : ∀ n ∈ plainRegs, n.isMbx = false ∧ n ≠ .KEYWIN_LOCK ∧ hiOf n = none ∧
    (decide (0x2000210000 ≤ n.base.getD 0) && decide (n.base.getD 0 < 0x2000220000)) = false := by decide

/-- A write of one does nothing of its own, and it shows what is stored. -/
theorem plainRegs_effect (h : n ∈ plainRegs) :
    s.ownWrite (.fw c) n i v = s.plainWrite n i v ∧ s.regShown (.fw c) n i = s.reg n i := by
  simp only [plainRegs, List.mem_cons, List.not_mem_nil, or_false] at h
  rcases h with rfl | rfl | rfl | rfl | rfl | rfl | rfl | rfl | rfl | rfl | rfl | rfl | rfl | rfl | rfl | rfl | rfl | rfl |
    rfl | rfl | rfl | rfl | rfl | rfl <;> exact ⟨rfl, rfl⟩

theorem State.regWrite_plain (h : n ∈ plainRegs) :
    s.regWrite (.fw c) n i v = { s.setReg n i (applyWrite n.flds (s.reg n i) v) with bus := .ok 0 } := by
  obtain ⟨hm, -, -, hk⟩ := plainRegs_apart n h
  simp only [State.regWrite, hm, hk, Bool.false_eq_true, if_false, (plainRegs_effect h).1, State.plainWrite]

theorem State.regRead_plain (h : n ∈ plainRegs) : s.regRead (.fw c) n i = { s with bus := .ok (readMask n.flds (s.reg n i)) } := by
  obtain ⟨hm, hk, hh, -⟩ := plainRegs_apart n h
  simp only [State.regRead, hm, hk, hh, Bool.false_eq_true, if_false, (plainRegs_effect (v := 0) h).2]

/-- The mailbox registers and the key window's lock hold no half of a 64-bit value. -/
theorem hiOf_mbx (h : n.isMbx = true) : hiOf n = none := by
  simp only [RegName.isMbx, List.contains_eq_mem, decide_eq_true_eq, List.mem_cons, List.not_mem_nil, or_false] at h
  rcases h with rfl | rfl | rfl | rfl | rfl <;> rfl

theorem State.regRead_lo (h : hiOf n = some hi) : s.regRead (.fw c) n i = s.latchRead n hi i := by
  have hm : n.isMbx = false := Bool.eq_false_iff.mpr fun e => nomatch (hiOf_mbx e).symm.trans h
  have hk : n ≠ .KEYWIN_LOCK := by
    rintro rfl
    exact nomatch h
  simp only [State.regRead, hm, hk, Bool.false_eq_true, if_false, h]

/-! ### HBM -/

theorem inMem_of_inHbm (h : inHbm a = true) : inMem a = true := by simp [inMem, h]

theorem not_inTile_of_inHbm (h : inHbm a = true) : inTile a = false := by
  unfold inHbm at h
  unfold inTile
  simp at h ⊢
  omega

theorem not_inPkt_of_inHbm (h : inHbm a = true) : inPkt a = false := by
  unfold inHbm at h
  unfold inPkt
  simp at h ⊢
  omega

theorem State.locate_hbm (h : inHbm a = true) : s.locate a = .mem a := if_pos (inMem_of_inHbm h)

theorem State.answers_hbm (h : inHbm a = true) : s.answers (.mem a) = true := by
  simp [State.answers, Loc.domain, h, not_inTile_of_inHbm h]

theorem State.may_fw_hbm {w : Bool} (h : inHbm a = true) : s.may (.fw c) w (.mem a) = true := by
  simp [State.may, not_inPkt_of_inHbm h]

theorem State.access_hbm_active {w : Bool} {go : Loc → State} (h : inHbm (addr / 4 * 4) = true)
    (hs : s.hbState (stackOf (addr / 4 * 4)) = HB_ACTIVE) : s.access (.fw c) addr w go = go (.mem (addr / 4 * 4)) :=
  (State.access_hbm (a := .fw c) nofun (State.locate_hbm h) (State.may_fw_hbm h) (State.answers_hbm h) h).1 (if_pos hs)

theorem State.access_hbm_asleep {w : Bool} {go : Loc → State} (h : inHbm (addr / 4 * 4) = true)
    (hs : s.hbState (stackOf (addr / 4 * 4)) ≠ HB_ACTIVE) (hv : s.hbServes (stackOf (addr / 4 * 4)) = true) :
    s.access (.fw c) addr w go = { s.srRequest (stackOf (addr / 4 * 4)) with bus := .none } :=
  (State.access_hbm (a := .fw c) nofun (State.locate_hbm h) (State.may_fw_hbm h) (State.answers_hbm h) h).2 ((if_neg hs).trans (if_pos hv))

/-- The words of one address lie in one region and in one stack. -/
theorem inHbm_word (h : inHbm (addr / 4 * 4) = true) : inHbm addr = true := by
  unfold inHbm at h ⊢
  simp at h ⊢
  omega

theorem stackOf_word : stackOf (addr / 4 * 4) = stackOf addr := if_congr (by omega) rfl rfl

/-- An access without an answer waits at its stack. -/
theorem State.holdAcc_waiting {w : Option Word} (hb : s.bus = .none) (h : inHbm (addr / 4 * 4) = true) :
    s.holdAcc (.fw c) addr w =
      s.updHbm (stackOf (addr / 4 * 4)) fun x => { x with held := x.held ++ [⟨.fw c, addr / 4 * 4, w⟩] } := by
  rw [stackOf_word]
  exact if_pos ⟨hb, inHbm_word h, nofun⟩

/-! ### The word that a write stores -/

theorem leNat_toLe (k n : Nat) : leNat (toLe k n) = n % 256 ^ k := by
  induction k generalizing n with
  | zero => simp [toLe, leNat, Nat.mod_one]
  | succ k ih =>
    rw [toLe, leNat, ih, Nat.pow_succ', Nat.mod_mul, BitVec.toNat_ofNat]

theorem length_toLe (k n : Nat) : (toLe k n).length = k := by
  induction k generalizing n with
  | zero => rfl
  | succ k ih => rw [toLe, List.length_cons, ih]

theorem Mem.word_write (m : List Host.Cell) (a : Nat) (v : Word) : Mem.word (Mem.write m a (toLe 4 v.toNat)) a = v := by
  have h : Mem.read (Mem.write m a (toLe 4 v.toNat)) a 4 = toLe 4 v.toNat := by
    simpa only [length_toLe] using Mem.read_write_same m a (toLe 4 v.toNat)
  rw [Mem.word, h, leNat_toLe, Nat.mod_eq_of_lt (by simpa using v.isLt), BitVec.ofNat_toNat, BitVec.setWidth_eq]

/-! ### The clauses -/

theorem exec_of_absent {f : Fin 256} (h : s.fnExists f.val = false ∨ s.inFlr f.val = true) :
    exec (.counterLatchRead (.host f) addr) s = .next { s with bus := .unsupported } ∧
      exec (.registerWrite (.host f) addr v) s = .next { s with bus := .ok 0 } :=
  ⟨exec_counterLatchRead_of_answered (State.access_absent h) nofun nofun,
    exec_registerWrite_of_answered (State.access_absent h) nofun nofun⟩

theorem exec_of_plain (hl : s.locate (addr / 4 * 4) = .reg n i) (hd : s.pdOn (n.domain i) = true) (hn : n ∈ plainRegs) :
    exec (.registerWrite (.fw c) addr v) s = .next { s.setReg n i (applyWrite n.flds (s.reg n i) v) with bus := .ok 0 } ∧
      exec (.counterLatchRead (.fw c) addr) s = .next { s with bus := .ok (readMask n.flds (s.reg n i)) } :=
  ⟨exec_registerWrite_of_answered ((State.access_reg hl hd).trans (State.regWrite_plain hn)) nofun nofun,
    exec_counterLatchRead_of_answered ((State.access_reg hl hd).trans (State.regRead_plain hn)) nofun nofun⟩

theorem exec_of_lo (hl : s.locate (addr / 4 * 4) = .reg n i) (hd : s.pdOn (n.domain i) = true) (hn : hiOf n = some hi) :
    exec (.counterLatchRead (.fw c) addr) s = .next (s.latchRead n hi i) :=
  exec_counterLatchRead_of_answered ((State.access_reg hl hd).trans (State.regRead_lo hn)) nofun nofun

theorem exec_of_hbm (h : inHbm (addr / 4 * 4) = true) (hs : s.hbState (stackOf (addr / 4 * 4)) = HB_ACTIVE) :
    exec (.counterLatchRead (.fw c) addr) s = .next { s with bus := .ok (s.memWord (addr / 4 * 4)) } ∧
      exec (.registerWrite (.fw c) addr v) s = .next { s.memWrite (addr / 4 * 4) (toLe 4 v.toNat) with bus := .ok 0 } :=
  ⟨exec_counterLatchRead_of_answered (State.access_hbm_active h hs) nofun nofun,
    exec_registerWrite_of_answered (State.access_hbm_active h hs) nofun nofun⟩

theorem exec_of_unanswered (h : s.locate (addr / 4 * 4) = .outside ∨ s.answers (s.locate (addr / 4 * 4)) = false) :
    exec (.counterLatchRead (.fw c) addr) s = .next { s with bus := .busError } ∧
      exec (.registerWrite (.fw c) addr v) s = .next { s with bus := .busError } := by
  have hr (w : Bool) (go : Loc → State) : s.access (.fw c) addr w go = { s with bus := .busError } :=
    State.access_refused nofun rfl (h.imp_right .inr)
  exact ⟨exec_counterLatchRead_of_refused (hr _ _) nofun, exec_registerWrite_of_refused (hr _ _) nofun⟩

/-- A kernel's write outside its tenant's windows faults the item it runs. -/
theorem exec_of_foreign_window {k : Fin 512} (h : inHbm (addr / 4 * 4) = true)
    (hw : s.windowOk (s.core k.val).tenant true (addr / 4 * 4) 4 = false) :
    exec (.registerWrite (.kernel k) addr v) s = .next (({ s with bus := .busError } : State).kernelErr (.kernel k) addr) := by
  have hm : s.may (.kernel k) true (.mem (addr / 4 * 4)) = false := by
    simp [State.may, State.kernelMay, h, hw]
  have hb : s.busWrite (.kernel k) addr v = { s with bus := .busError } :=
    State.access_refused nofun (State.locate_hbm h) (.inr (.inl hm))
  refine congrArg Host.Outcome.next ?_
  rw [hb, State.holdAcc_of_answered Bus.noConfusion]

theorem State.kernelErr_busError {k : Fin 512} (hb : s.bus = .busError) : s.kernelErr (.kernel k) addr =
    if (s.core k.val).running = true ∧ (s.core k.val).faulted = none then s.coreFault k.val 5 addr else s :=
  if_congr ⟨And.right, And.intro hb⟩ rfl rfl

theorem exec_of_asleep (h : inHbm (addr / 4 * 4) = true) (hs : s.hbState (stackOf (addr / 4 * 4)) ≠ HB_ACTIVE)
    (hv : s.hbServes (stackOf (addr / 4 * 4)) = true) :
    let b := { s.srRequest (stackOf (addr / 4 * 4)) with bus := .none }
    exec (.counterLatchRead (.fw c) addr) s = .next (b.updHbm (stackOf (addr / 4 * 4)) fun x =>
        { x with held := x.held ++ [⟨.fw c, addr / 4 * 4, none⟩] }) ∧
      exec (.registerWrite (.fw c) addr v) s = .next (b.updHbm (stackOf (addr / 4 * 4)) fun x =>
        { x with held := x.held ++ [⟨.fw c, addr / 4 * 4, some v⟩] }) := by
  have hr : s.busRead (.fw c) addr = { s.srRequest (stackOf (addr / 4 * 4)) with bus := .none } := State.access_hbm_asleep h hs hv
  have hw : s.busWrite (.fw c) addr v = { s.srRequest (stackOf (addr / 4 * 4)) with bus := .none } := State.access_hbm_asleep h hs hv
  constructor
  · exact congrArg Host.Outcome.next <| by rw [hr, State.holdAcc_waiting rfl h]; rfl
  · exact congrArg Host.Outcome.next <| by rw [hw, State.holdAcc_waiting rfl h]; rfl

/-- Settles O32: a clause for each kind of place. -/
theorem busAndAbsentFunctions : Obligations.BusAndAbsentFunctions := by
  refine ⟨?absent, ?plain, ?lo, ?memory, ?unanswered, ?window, ?asleep⟩
  case absent => exact fun _ _ _ _ => exec_of_absent
  case plain => exact fun _ _ _ _ _ _ => exec_of_plain
  case lo => exact fun _ _ _ _ _ _ => exec_of_lo
  case memory =>
    intro c addr v s a h hs
    obtain ⟨hr, hw⟩ := exec_of_hbm (c := c) (v := v) h hs
    refine ⟨hr, _, hw, rfl, Mem.word_write _ _ _, fun x hx => Mem.get_write_out _ _ ?_, rfl⟩
    rw [length_toLe]
    exact hx
  case unanswered => exact fun _ _ _ _ => exec_of_unanswered
  case window =>
    intro k addr v s h hw e
    exact (exec_of_foreign_window h hw).trans (congrArg _ (State.kernelErr_busError rfl))
  case asleep => exact fun _ _ _ _ => exec_of_asleep

end Sys2Proof.Machine
end

section
/-! The canonical form (R15, R26, R73) is kept by every step. A store keeps it when its own update does (the laws of tables and
memory), and nothing else of the state matters; so each function of the model has one lemma, `State.Canon.<function>`, that
follows the function's text: an update after an update is a dot, a branch is `ite`, a loop is `foldl`. -/

namespace Sys2Proof.Machine

/-- What a named update of the other parts of the state leaves: the four sparse stores as they were. -/
theorem State.Canon.frame {s : State} (h : s.Canon) {pending fifos bus out freeCtr time power vusta net cores disp keys mix
    video hbm trust tst} :
    State.Canon ⟨pending, s.regs, s.cnts, fifos, bus, s.mem, s.csram, out, freeCtr, time, power, vusta, net, cores, disp, keys,
      mix, video, hbm, trust, tst⟩ := ⟨h.mem, h.csram, h.regs, h.cnts⟩

theorem State.Canon.withMem {s : State} (h : s.Canon) {pending fifos bus out freeCtr time power vusta net cores disp keys mix
    video hbm trust tst} {x : List Host.Cell} (hx : Mem.wf x = true) :
    State.Canon ⟨pending, s.regs, s.cnts, fifos, bus, x, s.csram, out, freeCtr, time, power, vusta, net, cores, disp, keys,
      mix, video, hbm, trust, tst⟩ := ⟨hx, h.csram, h.regs, h.cnts⟩

theorem State.Canon.withCsram {s : State} (h : s.Canon) {pending fifos bus out freeCtr time power vusta net cores disp keys mix
    video hbm trust tst} {x : List Host.Cell} (hx : Mem.wf x = true) :
    State.Canon ⟨pending, s.regs, s.cnts, fifos, bus, s.mem, x, out, freeCtr, time, power, vusta, net, cores, disp, keys,
      mix, video, hbm, trust, tst⟩ := ⟨h.mem, hx, h.regs, h.cnts⟩

theorem State.Canon.withRegs {s : State} (h : s.Canon) {pending fifos bus out freeCtr time power vusta net cores disp keys mix
    video hbm trust tst} {x : Tbl Word} (hx : Tbl.wf x = true) :
    State.Canon ⟨pending, x, s.cnts, fifos, bus, s.mem, s.csram, out, freeCtr, time, power, vusta, net, cores, disp, keys,
      mix, video, hbm, trust, tst⟩ := ⟨h.mem, h.csram, hx, h.cnts⟩

theorem State.Canon.withCnts {s : State} (h : s.Canon) {pending fifos bus out freeCtr time power vusta net cores disp keys mix
    video hbm trust tst} {x : Tbl DWord} (hx : Tbl.wf x = true) :
    State.Canon ⟨pending, s.regs, x, fifos, bus, s.mem, s.csram, out, freeCtr, time, power, vusta, net, cores, disp, keys,
      mix, video, hbm, trust, tst⟩ := ⟨h.mem, h.csram, h.regs, hx⟩

theorem State.Canon.ite {p : Prop} {_ : Decidable p} {a b : State} (ha : a.Canon) (hb : b.Canon) :
    (if p then a else b).Canon := by
  split
  · exact ha
  · exact hb

theorem State.Canon.foldl {s : State} {α : Type} {f : State → α → State} {l : List α} (h : s.Canon)
    (hf : ∀ {t : State} {x : α}, t.Canon → (f t x).Canon) : (l.foldl f s).Canon :=
  List.foldlRecOn l f h fun _ ht _ _ => hf ht

/-! ### Results that carry a state -/

/-- The state that a pair carries first is in canonical form. -/
def CanonFst {α : Type} (p : State × α) : Prop := p.1.Canon

theorem CanonFst.mk {α : Type} {s : State} {a : α} (h : s.Canon) : CanonFst (s, a) := h

theorem CanonFst.of_eq {α : Type} {p : State × α} {t : State} {a : α} (e : p = (t, a)) (h : CanonFst p) : t.Canon := by
  subst e
  exact h

theorem CanonFst.ite {α : Type} {p : Prop} {_ : Decidable p} {a b : State × α} (ha : CanonFst a) (hb : CanonFst b) :
    CanonFst (if p then a else b) := by
  split
  · exact ha
  · exact hb

theorem CanonFst.foldl {α β : Type} {f : State × β → α → State × β} {l : List α} {p : State × β} (h : CanonFst p)
    (hf : ∀ {q : State × β} {x : α}, CanonFst q → CanonFst (f q x)) : CanonFst (l.foldl f p) :=
  List.foldlRecOn l f h fun _ hq _ _ => hf hq

/-- The state that a pair carries second is in canonical form. -/
def CanonSnd {α : Type} (p : α × State) : Prop := p.2.Canon

theorem CanonSnd.mk {α : Type} {s : State} {a : α} (h : s.Canon) : CanonSnd (a, s) := h

theorem CanonSnd.of_eq {α : Type} {p : α × State} {t : State} {a : α} (e : p = (a, t)) (h : CanonSnd p) : t.Canon := by
  subst e
  exact h

theorem CanonSnd.ite {α : Type} {p : Prop} {_ : Decidable p} {a b : α × State} (ha : CanonSnd a) (hb : CanonSnd b) :
    CanonSnd (if p then a else b) := by
  split
  · exact ha
  · exact hb

/-- The state that a command's reply leaves is in canonical form. -/
def Reply.Canon (r : Reply) : Prop := r.st.Canon

theorem Reply.Canon.mk {s : State} {c : Nat} {l : List Nat} {k : Bool} (h : s.Canon) : Reply.Canon ⟨s, c, l, k⟩ := h

theorem Reply.Canon.ite {p : Prop} {_ : Decidable p} {a b : Reply} (ha : a.Canon) (hb : b.Canon) :
    (if p then a else b).Canon := by
  split
  · exact ha
  · exact hb

/-- An outcome that is a next state in canonical form. -/
def Res.Canon (r : Res) : Prop := ∃ t, r = .next t ∧ t.Canon

theorem Res.Canon.next {s : State} (h : s.Canon) : Res.Canon (.next s) := ⟨s, rfl, h⟩

theorem Res.Canon.of_eq {r : Res} {t : State} (e : r = .next t) (h : Res.Canon r) : t.Canon := by
  obtain ⟨u, hu, h⟩ := h
  cases hu.symm.trans e
  exact h

theorem Res.Canon.ite {p : Prop} {_ : Decidable p} {a b : Res} (ha : Res.Canon a) (hb : Res.Canon b) :
    Res.Canon (if p then a else b) := by
  split
  · exact ha
  · exact hb

/-! ### Memories and tables -/

theorem Mem.wf_foldl {α : Type} {f : List Host.Cell → α → List Host.Cell} {l : List α} {m : List Host.Cell}
    (h : Mem.wf m = true) (hf : ∀ {m : List Host.Cell} {x : α}, Mem.wf m = true → Mem.wf (f m x) = true) :
    Mem.wf (l.foldl f m) = true :=
  List.foldlRecOn l f (motive := fun m => Mem.wf m = true) h fun _ hm _ _ => hf hm

theorem Mem.wf_ite {p : Prop} {_ : Decidable p} {a b : List Host.Cell} (ha : Mem.wf a = true) (hb : Mem.wf b = true) :
    Mem.wf (if p then a else b) = true := by
  split
  · exact ha
  · exact hb

theorem Tbl.wf_foldl {α β : Type} {f : Tbl β → α → Tbl β} {l : List α} {t : Tbl β} (h : Tbl.wf t = true)
    (hf : ∀ {t : Tbl β} {x : α}, Tbl.wf t = true → Tbl.wf (f t x) = true) : Tbl.wf (l.foldl f t) = true :=
  List.foldlRecOn l f (motive := fun t => Tbl.wf t = true) h fun _ ht _ _ => hf ht

theorem Tbl.wf_ite {β : Type} {p : Prop} {_ : Decidable p} {a b : Tbl β} (ha : Tbl.wf a = true) (hb : Tbl.wf b = true) :
    Tbl.wf (if p then a else b) = true := by
  split
  · exact ha
  · exact hb

variable {s : State}

/-! ### Registers, counters, power and notifications -/

theorem State.Canon.setReg (h : s.Canon) {n : RegName} {i : Nat} {v : Word} : (s.setReg n i v).Canon :=
  State.canon_setReg h _ _ _

theorem State.Canon.setRf (h : s.Canon) {n : RegName} {i hi lo v : Nat} : (s.setRf n i hi lo v).Canon :=
  State.canon_setRf h _ _ _ _ _

theorem State.Canon.setRb (h : s.Canon) {n : RegName} {i b : Nat} {v : Bool} : (s.setRb n i b v).Canon :=
  State.canon_setRb h _ _ _ _

theorem State.Canon.bump (h : s.Canon) {n : RegName} {i k : Nat} : (s.bump n i k).Canon := State.canon_bump h _ _ _

theorem State.Canon.satRf (h : s.Canon) {n : RegName} {i hi lo : Nat} : (s.satRf n i hi lo).Canon := .ite h h.setRf

theorem State.Canon.rstReg (h : s.Canon) {n : RegName} {i : Nat} : (s.rstReg n i).Canon := State.canon_rstReg h _ _

theorem State.Canon.rstRegs (h : s.Canon) {p : RegName → Nat → Bool} : (s.rstRegs p).Canon := State.canon_rstRegs h _

theorem State.Canon.memWrite (h : s.Canon) {a : Nat} {l : List Byte} : (s.memWrite a l).Canon :=
  State.canon_memWrite h _ _

theorem State.Canon.memWords (h : s.Canon) {a : Nat} {l : List Nat} : (s.memWords a l).Canon := h.memWrite

theorem State.Canon.advance (h : s.Canon) {n : Nat} : (s.advance n).Canon := h.frame

theorem State.Canon.setPd (h : s.Canon) {d st : Nat} : (s.setPd d st).Canon := h.setRf

theorem State.Canon.updDom (h : s.Canon) {d : Nat} {f : Dom → Dom} : (s.updDom d f).Canon := h.frame

theorem State.Canon.startUp (h : s.Canon) {d : Nat} {rank2 : Bool} : (s.startUp d rank2).Canon :=
  .ite h (.ite h.setPd (.ite h h.frame))

theorem State.Canon.wake (h : s.Canon) {d : Nat} {rank2 : Bool} : (s.wake d rank2).Canon := by
  unfold State.wake
  split
  · exact h.startUp
  · exact .ite h.frame h
  · exact .ite h.updDom h.setPd
  · exact h.updDom
  · exact h.updDom
  · exact h

theorem State.Canon.wakeUp (h : s.Canon) {d : Nat} {rank2 : Bool} : (s.wakeUp d rank2).Canon :=
  .ite h.wake.wake h.wake

theorem State.Canon.reqOn (h : s.Canon) {d : Nat} : (s.reqOn d).Canon := .ite h.setRf h

theorem State.Canon.demand (h : s.Canon) {d : Nat} {rank2 : Bool} : (s.demand d rank2).Canon :=
  .ite (.wakeUp (.reqOn (.ite h.reqOn h))) h

theorem State.Canon.setCore (h : s.Canon) {c : Nat} {k : Core} : (s.setCore c k).Canon := h.frame

theorem State.Canon.coreFault (h : s.Canon) {c cause addr : Nat} : (s.coreFault c cause addr).Canon :=
  .ite h.setCore (.ite h.setCore.setRb h.setCore.setReg.setReg.setReg)

theorem State.Canon.kernelErr (h : s.Canon) {a : Agent} {addr : Nat} : (s.kernelErr a addr).Canon := by
  unfold State.kernelErr
  split
  · exact .ite h.coreFault h
  · exact h

theorem State.Canon.emit (h : s.Canon) {o : Out} : (s.emit o).Canon := h.frame

theorem State.Canon.updFn (h : s.Canon) {f : Nat} {g : Fn → Fn} : (s.updFn f g).Canon := h.frame

theorem State.Canon.dma (h : s.Canon) {f a : Nat} {l : List Nat} : (s.dma f a l).Canon := .ite h h.emit

theorem State.Canon.dmaBytes (h : s.Canon) {f a : Nat} {l : List Byte} : (s.dmaBytes f a l).Canon := .ite h h.emit

theorem State.Canon.msix (h : s.Canon) {f v : Nat} : (s.msix f v).Canon := .ite h h.emit

theorem State.Canon.notify (h : s.Canon) {f op handle : Nat} {words : List Nat} :
    (s.notify f op handle words).Canon := .ite h h.frame

theorem State.Canon.notifyAll (h : s.Canon) {op handle : Nat} {words : List Nat} :
    (s.notifyAll op handle words).Canon := h.foldl fun h1 => h1.notify

theorem State.Canon.freeWord (h : s.Canon) : CanonSnd s.freeWord := .mk h.frame

/-! ### FIFOs and host rings -/

theorem State.Canon.setFifo (h : s.Canon) {f : FifoId} {v : Fifo} : (s.setFifo f v).Canon := h.frame

theorem State.Canon.rstFifo (h : s.Canon) {f : FifoId} : (s.rstFifo f).Canon := h.frame

theorem State.Canon.writeBack (h : s.Canon) {r : Nat} : (s.writeBack r).Canon := .ite h h.dma

theorem State.Canon.setRingX (h : s.Canon) {r : Nat} {x : RingX} : (s.setRingX r x).Canon := h.frame

theorem State.Canon.ringEvent (h : s.Canon) {r : Nat} : (s.ringEvent r).Canon :=
  .ite h (.ite h.setRingX.msix h.setRingX)

theorem State.Canon.ringPublish (h : s.Canon) {r : Nat} {item : List Nat} {eop : Bool} :
    (s.ringPublish r item eop).Canon := h.dma.setFifo.writeBack.ringEvent

theorem State.Canon.ringConsume (h : s.Canon) {r n : Nat} : (s.ringConsume r n).Canon :=
  .ite h.setFifo.writeBack.ringEvent h.setFifo.writeBack

theorem State.Canon.denied (h : s.Canon) {a : Agent} {f : FifoId} {off : Nat} : (s.denied a f off).Canon :=
  h.frame.kernelErr

theorem State.Canon.postRing (h : s.Canon) {r : Fin 4096} {n : Nat} : (s.postRing r n).Canon := .ite h.frame h

theorem State.Canon.execFifoPidxWrite (h : s.Canon) {a : Agent} {f : FifoId} {v : Word} {items : List (List Word)} :
    Res.Canon (execFifoPidxWrite a f v items s) := by
  unfold Machine.execFifoPidxWrite
  refine .ite ?_ (.next h.denied)
  extract_lets ev old new s1 n
  have h1 : s1.Canon := h.setFifo
  split
  · extract_lets s2 s3
    have h2 : s2.Canon := .ite h1 h1.writeBack
    have h3 : s3.Canon := .ite h2.postRing h2
    split
    · exact .next (.ite h3.frame.demand h3.frame)
    · exact .next h3.frame
  · exact .next h1.frame

theorem State.Canon.execFifoCidxWrite (h : s.Canon) {a : Agent} {f : FifoId} {v : Word} :
    Res.Canon (execFifoCidxWrite a f v s) :=
  .ite (.next (.frame (by split; exacts [.ite h.setFifo.frame h.setFifo.frame.writeBack, h.setFifo]))) <|
    .next h.denied

theorem State.Canon.execFifoDataRead (h : s.Canon) {a : Agent} {f : FifoId} : Res.Canon (execFifoDataRead a f s) := by
  unfold Machine.execFifoDataRead
  split
  · exact .next h.frame
  · exact .ite (.next h.setFifo.frame) (.next h.denied)

theorem State.Canon.execFifoFlush (h : s.Canon) {a : Agent} {f : FifoId} : Res.Canon (execFifoFlush a f s) :=
  .ite (.next (.frame (by split; exacts [h.setFifo.writeBack, h.setFifo]))) (.next h.denied)

theorem State.Canon.execDropRest (h : s.Canon) {a : Agent} {f : FifoId} : Res.Canon (execDropRest a f s) :=
  .ite (.next (.frame (by split; exacts [h.setFifo.writeBack, h.setFifo]))) (.next h.denied)

theorem State.Canon.execFifoHwPublish (h : s.Canon) {f : FifoId} {items : List (List Word)} {eop : Bool} :
    Res.Canon (execFifoHwPublish f items eop s) := by
  unfold Machine.execFifoHwPublish
  refine .ite ?_ (.next h)
  split
  · exact .ite (.next h.setFifo.dma.writeBack.ringEvent) (.next h)
  · exact .next h.setFifo

theorem State.Canon.execRingEnable (h : s.Canon) {r : Fin 4096} {v : Word} : Res.Canon (execRingEnable r v s) :=
  .ite (.next h.setReg.frame) (.next h.setReg.frame)

theorem State.Canon.execRingDisable (h : s.Canon) {r : Fin 4096} {v : Word} : Res.Canon (execRingDisable r v s) :=
  .ite (.ite (.next h.setReg.frame) (.next h.setReg.setFifo.frame.writeBack.frame)) (.next h.setReg.frame)

/-! ### Mailboxes and the path of a command -/

theorem State.Canon.freeChan (h : s.Canon) {ch : Nat} : (s.freeChan ch).Canon := h.setRb.setRb

theorem State.Canon.ctrlIrq (h : s.Canon) {ch : Nat} : (s.ctrlIrq ch).Canon :=
  h.emit.foldl fun h1 => h1.freeWord.frame

theorem State.Canon.intReceiver (h : s.Canon) {ch : Nat} : (s.intReceiver ch).Canon := .ite h.msix h.ctrlIrq

theorem State.Canon.doPost (h : s.Canon) {ch : Fin 64} : (s.doPost ch).Canon :=
  .ite h.setRb (.intReceiver (.ite h.setReg.frame h.setReg))

theorem State.Canon.wakeReceiver (h : s.Canon) {ch : Nat} : (s.wakeReceiver ch).Canon := .ite h h.demand

theorem State.Canon.execMbxPost (h : s.Canon) {a : Agent} {ch : Fin 64} : Res.Canon (execMbxPost a ch s) :=
  .ite (.ite (.next h.doPost.frame) (.next h.wakeReceiver.frame)) (.next h.frame)

theorem State.Canon.execMbxWake (h : s.Canon) {a : Agent} {ch : Fin 64} : Res.Canon (execMbxWake a ch s) :=
  .ite (.next h.wakeReceiver.frame) (.next h.frame)

theorem State.Canon.execMbxMsgWrite (h : s.Canon) {a : Agent} {ch : Fin 64} {w : Fin 16} {v : Word} :
    Res.Canon (execMbxMsgWrite a ch w v s) :=
  .ite (.next h.frame) <|
    .ite (.next h.frame) (.ite (.next (.frame (.ite h.setReg.setRb.setRb h.setReg))) (.next h.frame))

theorem State.Canon.intSender (h : s.Canon) {ch : Nat} : (s.intSender ch).Canon := .ite h.ctrlIrq h.msix

theorem State.Canon.execMbxAckWrite (h : s.Canon) {a : Agent} {ch : Fin 64} {v : Word} :
    Res.Canon (execMbxAckWrite a ch v s) :=
  .ite (.next h.frame) (.ite (.next h.frame) (.ite (.next h.setReg.frame.freeChan.intSender.frame) (.next h.frame)))

theorem State.Canon.execMbxWord15Read (h : s.Canon) {a : Agent} {ch : Fin 64} :
    Res.Canon (execMbxWord15Read a ch s) :=
  .ite (.next h.frame) (.ite (.next h.frame) (.ite (.next h.freeChan.frame) (.next h.frame)))

theorem State.Canon.unpost (h : s.Canon) {p : Path} : (s.unpost p).Canon := h.frame

theorem State.Canon.answer (h : s.Canon) {k : CmdSpec} {c : Cmd} {code : Nat} {res : List Nat} :
    (s.answer k c code res).Canon := by
  unfold State.answer
  extract_lets r4 s1 s2
  have h2 : s2.Canon := by
    unfold s2
    cases c.via with
    | mbx ch => exact .ite h.unpost.freeChan.emit (.intSender (.freeChan (.setReg (h.unpost.foldl fun h1 => h1.setReg))))
    | ring r => exact h.unpost.ringConsume.ringPublish
  split
  · exact h2.notify
  · exact h2

theorem State.Canon.runCmd {s0 : State} (h : s0.Canon) {k : CmdSpec} {check : Cmd → State → Nat}
    {apply : Cmd → State → Reply} {c : Cmd} (ha : ∀ {t : State}, t.Canon → (apply c t).Canon) :
    (runCmd k check apply c s0).Canon :=
  .ite
    (.ite
      h.advance.answer
      (.ite h.advance.answer (.ite (.answer (.ite (ha h.advance) h.advance)) (ha h.advance).answer)))
    h.advance

theorem State.Canon.execNotificationPost (h : s.Canon) {dest : NoteDest} : Res.Canon (execNotificationPost dest s) := by
  unfold Machine.execNotificationPost
  dsimp only
  split
  · exact .next h
  · split
    · exact .ite (.next (.doPost (h.frame.foldl fun h1 => h1.setReg))) (.next h)
    · exact .ite (.next h.frame.ringPublish) (.next h)

theorem State.Canon.execSidebandMctpMessage (h : s.Canon) {typ : Byte} {body : List Byte} :
    Res.Canon (execSidebandMctpMessage typ body s) := by
  unfold Machine.execSidebandMctpMessage
  refine .ite (.next h.emit) ?_
  refine .ite (.next h.emit) ?_
  refine .ite ?_ (.next h)
  split
  · exact .ite (.next h) <|
      .ite (.next h) (.ite (.next h.wakeReceiver) (.next (.doPost (h.foldl fun h1 => h1.setReg))))
  · exact .next h

/-! ### What the core instructions share -/

theorem State.Canon.stN (h : s.Canon) {c : Nat} {k : Core} {a n v : Nat} : CanonFst (s.stN c k a n v) :=
  .ite (.mk (h.withCsram (Mem.wf_foldl h.csram fun h1 => Mem.wf_put _ _ h1))) (.mk h)

theorem State.Canon.scrubLdm (h : s.Canon) {c : Nat} {k : Core} {a size : Nat} : CanonFst (s.scrubLdm c k a size) :=
  .ite (.mk h) (CanonFst.foldl (.mk h) fun h1 => .ite (.mk h1.satRf) h1)

theorem State.Canon.refetch (h : s.Canon) {c : Nat} : (s.refetch c).Canon := .ite h.setCore.satRf h

theorem State.Canon.issue (h : s.Canon) {c : Fin 516} {i : Instr} {f : State → Res}
    (hf : ∀ {t : State}, t.Canon → Res.Canon (f t)) : Res.Canon (s.issue c i f) := by
  unfold State.issue
  refine .ite (hf h) ?_
  cases s.wordAt c.val with
  | none => exact hf h.refetch
  | some w =>
    cases hd : decodeCore (isCtl c.val) c w with
    | run j => simpa only [hd] using Res.Canon.ite (hf h.refetch) (.next h)
    | illegal => simpa only [hd] using Res.Canon.next h.refetch.coreFault
    | privileged => simpa only [hd] using Res.Canon.next h.refetch.coreFault

theorem State.Canon.runCore (h : s.Canon) {c : Nat} {f : State → Core → State × Eff}
    (hf : ∀ {t : State} {k : Core}, t.Canon → CanonFst (f t k)) : (s.runCore c f).Canon := by
  have hr := hf (k := { s.core c with waiting := false }) h
  unfold State.runCore
  refine .ite h (.ite h.coreFault ?_)
  dsimp only
  split
  · next heq => exact (CanonFst.of_eq heq hr).setCore
  · next heq => exact (CanonFst.of_eq heq hr).setCore
  · exact h.coreFault
  · next heq => exact CanonFst.of_eq heq hr

theorem State.Canon.runK (h : s.Canon) {c : Nat} {f : Core → Eff} : (s.runK c f).Canon := h.runCore fun h1 => .mk h1

theorem State.Canon.alu (h : s.Canon) {c : Nat} {d : BitVec 5} {f : Core → Word} : (s.alu c d f).Canon := h.runK

/-! ### Arithmetic and branches -/

theorem State.Canon.branch (h : s.Canon) {c : Nat} {ofs : Half} {p : Core → Bool} : (branch s c ofs p).Canon := h.runK

theorem State.Canon.execMfs (h : s.Canon) {c : Fin 516} {d : BitVec 5} {n : BitVec 6} : Res.Canon (execMfs c d n s) :=
  h.issue fun h1 => .next (h1.runCore fun h2 => .mk h2)

theorem State.Canon.loadL (h : s.Canon) {c : Nat} {r : BitVec 5} {n : BitVec 3} {pm : BitVec 2} {disp : Half}
    {size : Nat} {put : Core → Nat → Core} : (loadL s c r n pm disp size put).Canon :=
  h.runCore (fun h1 => .ite (.mk h1) (.ite (.mk h1) (.mk h1.scrubLdm)))

theorem State.Canon.storeL (h : s.Canon) {c : Nat} {r : BitVec 5} {n : BitVec 3} {pm : BitVec 2} {disp : Half}
    {size : Nat} {val : Core → Nat} : (storeL s c r n pm disp size val).Canon :=
  h.runCore (fun h1 => .ite (.mk h1) (.ite (.mk h1) (.mk h1.stN)))

/-! ### Vector instructions -/

theorem State.Canon.vecMac (h : s.Canon) {c : Nat} {acc : Nat} {src : VSrc2} {f : Int → Int → Int → Int}
    {aov : Bool} : (vecMac s c acc src f aov).Canon := by
  refine h.runCore fun h1 => ?_
  cases src with
  | vr gs gt => exact .ite (.mk h1) (.mk h1)
  | vm xA pmA xB pmB => exact .ite (.mk h1) (.ite (.mk h1) (.mk h1.scrubLdm.scrubLdm))

theorem State.Canon.execVld (h : s.Canon) {c : Fin 516} {acc : BitVec 2} {src : VSrc1} {sh : BitVec 5} :
    Res.Canon (execVld c acc src sh s) := by
  refine h.issue fun h1 => .next (h1.runCore fun h2 => .ite (.mk h2) ?_)
  cases src with
  | vr g => exact .ite (.mk h2) (.mk h2)
  | vm x pm => exact .ite (.mk h2) (.mk h2.scrubLdm)

theorem State.Canon.execVst (h : s.Canon) {c : Fin 516} {acc : BitVec 2} {dst : VSrc1} {sh : BitVec 5} :
    Res.Canon (execVst c acc dst sh s) := by
  refine h.issue fun h1 => .next (h1.runCore fun h2 => ?_)
  cases dst with
  | vr g => exact .ite (.mk h2) (.mk h2)
  | vm x pm => exact .ite (.mk h2) (.mk h2.stN)

theorem State.Canon.vecAdd (h : s.Canon) {c : Nat} {d a b : BitVec 5} {f : Int → Int → Int} :
    (vecAdd s c d a b f).Canon := h.runK

theorem State.Canon.vecAcs (h : s.Canon) {c : Nat} {d gs gt gb : BitVec 5} {pick1 : Int → Int → Bool} :
    (vecAcs s c d gs gt gb pick1).Canon := h.runK

/-! ### Payloads, buckets and rings of samples -/

theorem State.Canon.updNet (h : s.Canon) {f : Net → Net} : (s.updNet f).Canon := h.frame

theorem State.Canon.cntStrata (h : s.Canon) {k : Nat} {n : Nat} : (s.cntStrata k n).Canon := h.bump

theorem State.Canon.cntEgs (h : s.Canon) {port k : Nat} {n : Nat} : (s.cntEgs port k n).Canon := h.bump

theorem State.Canon.bufStat (h : s.Canon) : s.bufStat.Canon := h.setReg

theorem State.Canon.allocPayload (h : s.Canon) {audio : Bool} {bytes : List Byte} {refs : Nat} :
    CanonFst (s.allocPayload audio bytes refs) := by
  unfold State.allocPayload
  split
  · exact .mk h.cntStrata
  · exact .mk (.bufStat (.ite h.memWrite.updNet.cntStrata h.memWrite.updNet))

theorem State.Canon.refPayload (h : s.Canon) {id : Nat} : (s.refPayload id).Canon := h.updNet

theorem State.Canon.releasePayload (h : s.Canon) {id : Nat} : (s.releasePayload id).Canon := by
  unfold State.releasePayload
  split
  · exact h
  · exact .ite h.updNet h.updNet.bufStat

theorem State.Canon.releaseOpt (h : s.Canon) {p : Option Nat} : (s.releaseOpt p).Canon := by
  unfold State.releaseOpt
  split
  · exact h.releasePayload
  · exact h

theorem State.Canon.loupePut (h : s.Canon) {fn : Nat} {r : Loupe} {a : Nat} {l : List Nat} :
    (s.loupePut fn r a l).Canon := .ite h.memWords h.dma

theorem State.Canon.loupeInit (h : s.Canon) {fn : Nat} {r : Loupe} : (s.loupeInit fn r).Canon := h.loupePut.loupePut

theorem State.Canon.loupeWrite (h : s.Canon) {fn : Nat} {r : Loupe} {cons : Nat} {entry : List Nat} :
    CanonFst (s.loupeWrite fn r cons entry) := .ite (.mk h.loupePut) (.mk h.loupePut.loupePut.loupePut)

/-! ### The dispatcher -/

theorem State.Canon.updDisp (h : s.Canon) {f : Disp → Disp} : (s.updDisp f).Canon := h.frame

theorem State.Canon.cntDisp (h : s.Canon) {k : Nat} : (s.cntDisp k).Canon := h.bump

theorem State.Canon.setDispQ (h : s.Canon) {q : Nat} {d : DispQ} : (s.setDispQ q d).Canon := h.updDisp

theorem State.Canon.addUsed (h : s.Canon) {k : Nat} : (s.addUsed k).Canon := h.updDisp

theorem State.Canon.subUsed (h : s.Canon) {k : Nat} : (s.subUsed k).Canon := h.updDisp

theorem State.Canon.dispStat (h : s.Canon) : s.dispStat.Canon := h.setRf

theorem State.Canon.drawItem (h : s.Canon) {t pool : Nat} : (s.drawItem t pool).Canon := h.addUsed.addUsed.dispStat

theorem State.Canon.returnItem (h : s.Canon) {t pool : Nat} : (s.returnItem t pool).Canon :=
  h.subUsed.subUsed.dispStat

theorem State.Canon.wakeCheck (h : s.Canon) {q : Nat} : (s.wakeCheck q).Canon := by
  unfold State.wakeCheck
  split
  · exact h
  · refine .ite h ?_
    split
    · exact h
    · exact .ite h.setDispQ.demand.cntDisp h

theorem State.Canon.wakeEngines (h : s.Canon) {q : Nat} : (s.wakeEngines q).Canon :=
  h.foldl fun h1 => .ite h1.demand h1

theorem State.Canon.enqueue (h : s.Canon) {q producer : Nat} {it : Item} : (s.enqueue q producer it).Canon := by
  unfold State.enqueue
  split
  · exact h
  · exact .wakeCheck (.wakeEngines (.ite h.setDispQ.cntDisp.demand h.setDispQ.cntDisp))

theorem State.Canon.postHw (h : s.Canon) {q producer : Nat} {it : Item} : (s.postHw q producer it).Canon := by
  unfold State.postHw
  split
  · exact h.releaseOpt.cntDisp
  · split
    · exact h.setDispQ.releaseOpt.cntDisp
    · exact h.drawItem.enqueue

theorem State.Canon.kernelPost (h : s.Canon) {c : Nat} {words : List Word} : (s.kernelPost c words).Canon := by
  unfold State.kernelPost
  extract_lets k it q r s0 res src tk
  have h0 : s0.Canon := h.foldl fun h1 => h1.setReg
  refine .ite h0.setReg.cntDisp ?_
  split
  · exact h0
  · extract_lets p s1 _ _ s2
    have h1 : s1.Canon := h0.drawItem.setCore
    have h2 : s2.Canon := by
      unfold s2 src
      split
      · exact .ite h1.setDispQ.setDispQ h1.enqueue
      · exact h1.enqueue
    exact h2.setReg

theorem State.Canon.place (h : s.Canon) {q : Nat} {d : DispQ} {i : Nat} {it : Item} {c : Nat} {hit : Bool} :
    (s.place q d i it c hit).Canon := h.setDispQ.setCore.updDisp.cntDisp

theorem State.Canon.execAffWaitTimeout (h : s.Canon) {qid : Nat} {el : Nat} :
    Res.Canon (execAffWaitTimeout qid el s) := by
  unfold Machine.execAffWaitTimeout
  dsimp only
  split
  · exact .next h.advance
  · split
    · exact .next h.advance.place
    · exact .next h.advance

theorem State.Canon.execWorkItemStart (h : s.Canon) {core : Fin 512} {start : Upsets} :
    Res.Canon (execWorkItemStart core start s) := by
  unfold Machine.execWorkItemStart
  dsimp only
  split
  · exact .next h.advance
  · exact .ite (.next h.advance) (.next h.advance.setCore.setReg.setReg.setReg.setReg.setReg)

theorem State.Canon.deliver (h : s.Canon) {producer : Nat} {l : List (Nat × Item)} : (s.deliver producer l).Canon := by
  induction l generalizing s with
  | nil => exact h
  | cons p l ih =>
    unfold State.deliver
    split
    · exact ih h
    · exact ih h.setDispQ.enqueue

theorem State.Canon.finishTicket (h : s.Canon) {q tk producer : Nat} {withPosts : Bool} :
    (s.finishTicket q tk producer withPosts).Canon := by
  unfold State.finishTicket
  split
  · exact h
  · exact .deliver (.setDispQ (h.foldl fun h1 => by split; exacts [h1.setDispQ.returnItem, h1]))

theorem State.Canon.endItem (h : s.Canon) {c : Nat} {clean : Bool} : (s.endItem c clean).Canon := h.setCore.setReg

theorem State.Canon.complete (h : s.Canon) {c status : Nat} : (s.complete c status).Canon := by
  unfold State.complete
  extract_lets k it s0 _ _
  have h0 : s0.Canon := h.endItem
  split
  · exact h0.releaseOpt
  · refine .ite (h0.setDispQ.cntDisp.foldl fun h1 => ?_) ?_
    · split
      · exact h1.setDispQ.returnItem
      · exact h1
    · exact
        have h2 := State.Canon.cntDisp (State.Canon.ite h0.setDispQ.cntDisp h0.setDispQ)
        have h3 := h2.releaseOpt.returnItem
        .ite h3.finishTicket h3

theorem State.Canon.countFault (h : s.Canon) {kern : Nat} : (s.countFault kern).Canon := by
  unfold State.countFault
  split
  · exact h
  · exact .ite h.updDisp.notify h.updDisp

theorem State.Canon.unplace (h : s.Canon) {c : Nat} : (s.unplace c).Canon :=
  .setCore (h.foldl fun h1 => by dsimp only; split; exacts [h1, h1.setDispQ])

theorem State.Canon.discardItem (h : s.Canon) {q : Nat} {d : DispQ} {i : Nat} {it : Item} {c : Nat} :
    (s.discardItem q d i it c).Canon :=
  .ite h.setDispQ.releaseOpt.returnItem.finishTicket h.setDispQ.releaseOpt.returnItem

theorem State.Canon.flushQ (h : s.Canon) {q : Nat} : (s.flushQ q).Canon := by
  unfold State.flushQ
  split
  · exact h
  · exact h.setDispQ.foldl fun h1 => h1.releaseOpt.returnItem

/-! ### Safelight -/

theorem State.Canon.chan2 (h : s.Canon) {what arg : Nat} : (s.chan2 what arg).Canon :=
  .ite (.doPost (h.emit.demand.foldl fun h1 => h1.freeWord.setReg)) h.emit.demand

theorem State.Canon.commitStep (h : s.Canon) {v : Int} {servo : Bool} : (s.commitStep v servo).Canon := h.setRb.frame

theorem State.Canon.moveTicks (h : s.Canon) {v : Int} : (s.moveTicks v).Canon := h.frame

theorem State.Canon.execTimeStepApply (h : s.Canon) : Res.Canon (execTimeStepApply s) := by
  unfold Machine.execTimeStepApply
  dsimp only
  split
  · exact .next h.advance
  · exact .ite (.next (.notifyAll (.moveTicks (.ite h.advance.setRb.frame.frame.setRb h.advance.setRb.frame.frame))))
      (.next h.advance.setRb.frame.setRb)

theorem State.Canon.setLock (h : s.Canon) {l : Lock} : (s.setLock l).Canon := .ite h h.frame.notifyAll

theorem State.Canon.servoSample (h : s.Canon) {off : Int} : (s.servoSample off).Canon :=
  .setLock (.ite h.frame.commitStep h.frame.freeWord.setReg)

theorem State.Canon.execPpsInEdge (h : s.Canon) {el : Nat} : Res.Canon (execPpsInEdge el s) := by
  unfold Machine.execPpsInEdge
  extract_lets s0 _ _ s1
  have h0 : s0.Canon := h.advance
  refine .ite (.next h0.satRf) ?_
  have h1 : s1.Canon := h0.setRb.withCnts (Tbl.wf_set _ _ h0.cnts)
  split
  · exact .next h1.servoSample
  · exact .next h1

theorem State.Canon.setPps (h : s.Canon) {on : Bool} : (s.setPps on).Canon := .ite h h.frame.emit

theorem State.Canon.execPpsOutPulse (h : s.Canon) {rise : Bool} {el : Nat} : Res.Canon (execPpsOutPulse rise el s) :=
  .ite (.ite (.next h.advance.frame.setPps) (.next h.advance)) (.ite (.next h.advance.setPps) (.next h.advance))

theorem State.Canon.postTimer (h : s.Canon) {n : Nat} {t : Timer} : (s.postTimer n t).Canon := h.postHw

theorem State.Canon.postDueTimers (h : s.Canon) : s.postDueTimers.Canon :=
  h.foldl fun h1 => by split; exacts [h1.frame.postTimer, h1]

theorem State.Canon.execSafelightTimerExpiry (h : s.Canon) {timer : Fin 256} {el : Nat} :
    Res.Canon (execSafelightTimerExpiry timer el s) := by
  unfold Machine.execSafelightTimerExpiry
  dsimp only
  split
  · exact .next h.advance
  · exact .ite (.next h.advance) (.next (.ite h.advance.frame.postTimer h.advance.frame.demand))

theorem State.Canon.fanUpdate (h : s.Canon) : s.fanUpdate.Canon := h.foldl fun h1 => h1.setRb

theorem State.Canon.fanWrite (h : s.Canon) {n : Nat} {v : Word} : (s.fanWrite n v).Canon := h.setReg.frame.fanUpdate

theorem State.Canon.thermal (h : s.Canon) {tj : Byte} {hbmCrit : Bool} : (s.thermal tj hbmCrit).Canon :=
  .ite h.setRf.setRb.fanUpdate.chan2 h.setRf.setRb.fanUpdate

theorem State.Canon.timeGetApply (h : s.Canon) {c : Cmd} : (timeGetApply c s).Canon := .mk h.freeWord

theorem State.Canon.timeSourceSetApply (h : s.Canon) {c : Cmd} : (timeSourceSetApply c s).Canon :=
  .ite (.mk h.frame) (.mk h.frame.setLock)

theorem State.Canon.timeTodApply (h : s.Canon) {c : Cmd} : (timeTodApply c s).Canon := .mk h.frame

theorem State.Canon.timeOffsetApply (h : s.Canon) {c : Cmd} : (timeOffsetApply c s).Canon := .mk h.servoSample

theorem State.Canon.timePpsOutSetApply (h : s.Canon) {c : Cmd} : (timePpsOutSetApply c s).Canon := .mk h.setReg.setReg

theorem State.Canon.timeTimerSetApply (h : s.Canon) {c : Cmd} : (timeTimerSetApply c s).Canon := .mk h.frame

theorem State.Canon.timeQueryApply (h : s.Canon) {c : Cmd} : (timeQueryApply c s).Canon := .mk h.dma

/-! ### Flash, commits and images -/

theorem State.Canon.updTrust (h : s.Canon) {f : Trust → Trust} : (s.updTrust f).Canon := h.frame

theorem State.Canon.jrnlResult (h : s.Canon) {r : Nat} : (s.jrnlResult r).Canon := h.setRf

theorem State.Canon.pfailOn (h : s.Canon) : s.pfailOn.Canon := .ite h h.setRb.setRb.chan2.notifyAll

theorem State.Canon.convert (h : s.Canon) : s.convert.Canon := .setRf (by split; exacts [h.updTrust, h])

theorem State.Canon.refuseCommit (h : s.Canon) {code : Nat} : CanonFst (s.refuseCommit code) :=
  .mk h.updTrust.jrnlResult

theorem State.Canon.mayCommit {s0 : State} (h : s0.Canon) {erase : Bool} : CanonFst (s0.mayCommit erase) := by
  unfold State.mayCommit
  extract_lets s s1 s2
  have h0 : s.Canon := by
    unfold s
    split
    · exact h.updTrust.pfailOn
    · exact h.updTrust
    · exact h
  have h2 : s2.Canon := h0.convert.setReg.setReg
  exact .ite h0.refuseCommit (.ite (.mk h2) h2.refuseCommit)

theorem State.Canon.progPage (h : s.Canon) {a : Nat} {page : List Byte} : CanonFst (s.progPage a page) := by
  unfold State.progPage
  split
  · next t heq => exact .mk ((CanonFst.of_eq heq h.mayCommit).updTrust.jrnlResult)
  · exact h.mayCommit

theorem State.Canon.eraseSector (h : s.Canon) {a : Nat} : CanonFst (s.eraseSector a) := by
  unfold State.eraseSector
  split
  · next t heq => exact .mk ((CanonFst.of_eq heq h.mayCommit).updTrust.jrnlResult)
  · exact h.mayCommit

theorem State.Canon.otpShow (h : s.Canon) : s.otpShow.Canon := h.setRf

theorem State.Canon.burnStep (h : s.Canon) {n : Nat} : (s.burnStep n).Canon := h.updTrust.otpShow

theorem State.Canon.fuseStep (h : s.Canon) : CanonFst s.fuseStep := by
  unfold State.fuseStep
  split
  · next t heq => exact .mk ((CanonFst.of_eq heq h.mayCommit).burnStep.jrnlResult)
  · exact h.mayCommit

theorem State.Canon.withPower (h : s.Canon) {c : Cmd} : (s.withPower c).Canon := h.updTrust

theorem State.Canon.endPower (h : s.Canon) : s.endPower.Canon := h.updTrust

theorem State.Canon.writeHdr (h : s.Canon) {slots : List Nat} : CanonFst (s.writeHdr slots) := by
  unfold State.writeHdr
  split
  · split
    · next t heq => exact (CanonFst.of_eq heq h.eraseSector).progPage
    · exact h.eraseSector

theorem State.Canon.setSlotWord (h : s.Canon) {i w : Nat} : CanonFst (s.setSlotWord i w) := h.writeHdr

theorem State.Canon.markBad (h : s.Canon) {i : Nat} : CanonFst (s.markBad i) := h.setSlotWord

theorem State.Canon.progPages (h : s.Canon) {n : Nat} {l : List Byte} : CanonFst (s.progPages n l) := by
  induction n generalizing s l with
  | zero => exact .mk h
  | succ n ih =>
    unfold State.progPages
    split
    · next t heq => exact ih (CanonFst.of_eq heq h.progPage).updTrust
    · exact h.progPage

theorem State.Canon.jrnlRet (h : s.Canon) : s.jrnlRet.Canon := h.setReg.setReg.setReg.setReg

theorem State.Canon.putRec (h : s.Canon) {r : JRec} : CanonFst (s.putRec r) := by
  unfold State.putRec
  refine .ite h.refuseCommit ?_
  split
  · next t heq => exact .mk ((CanonFst.of_eq heq h.progPages).updTrust.jrnlRet)
  · next t e heq => exact .mk ((CanonFst.of_eq heq h.progPages).jrnlRet)

theorem State.Canon.copyForward (h : s.Canon) {a : Nat} : CanonFst (s.copyForward a) :=
  CanonFst.foldl (.mk h) fun h1 => .ite h1 h1.putRec

theorem State.Canon.reclaim (h : s.Canon) {n : Nat} : (s.reclaim n).Canon := by
  induction n generalizing s with
  | zero => exact h
  | succ n ih =>
    unfold State.reclaim
    refine .ite h ?_
    dsimp only
    split
    · next t heq =>
      have ht := CanonFst.of_eq heq h.copyForward
      split
      · next u heq => exact ih (CanonFst.of_eq heq ht.eraseSector).updTrust.jrnlRet
      · next u _ _ heq => exact CanonFst.of_eq heq ht.eraseSector
    · next t _ _ heq => exact CanonFst.of_eq heq h.copyForward

theorem State.Canon.commitRec (h : s.Canon) {typ tenant : Nat} {payload : List Byte} :
    CanonFst (s.commitRec typ tenant payload) := by
  unfold State.commitRec
  dsimp only
  split
  · next t heq => exact .mk ((CanonFst.of_eq heq h.reclaim.putRec).updTrust)
  · exact h.reclaim.putRec

theorem State.Canon.flushAudits (h : s.Canon) {n : Nat} : (s.flushAudits n).Canon := by
  induction n generalizing s with
  | zero => exact h
  | succ n ih =>
    unfold State.flushAudits
    split
    · exact h
    · refine .ite h ?_
      split
      · next t heq => exact ih (CanonFst.of_eq heq h.commitRec).updTrust
      · next t _ _ heq => exact CanonFst.of_eq heq h.commitRec

theorem State.Canon.audit (h : s.Canon) {code : Nat} {fields : List Nat} : (s.audit code fields).Canon :=
  h.updTrust.flushAudits

theorem State.Canon.commitCmdRec (h : s.Canon) {typ tenant : Nat} {payload : List Byte} :
    CanonFst (s.commitCmdRec typ tenant payload) := h.flushAudits.commitRec

theorem State.Canon.scanJournal (h : s.Canon) : s.scanJournal.Canon := by
  unfold State.scanJournal
  exact h.updTrust

/-! ### KERNEL commands -/

theorem State.Canon.queryReply (h : s.Canon) {c : Cmd} {rec : List Nat} : (queryReply c s rec).Canon := .mk h.dma

theorem State.Canon.kernelKeySetApply (h : s.Canon) {c : Cmd} : (kernelKeySetApply c s).Canon := .mk h.updDisp

theorem State.Canon.kernelLoadApply (h : s.Canon) {c : Cmd} : (kernelLoadApply c s).Canon :=
  .mk h.freeWord.updDisp.audit

theorem State.Canon.kernelUnloadApply (h : s.Canon) {c : Cmd} : (kernelUnloadApply c s).Canon := .mk h.updDisp

theorem State.Canon.kernelQueueCfgApply (h : s.Canon) {c : Cmd} : (kernelQueueCfgApply c s).Canon := .mk h.setDispQ

theorem State.Canon.kernelQueueReleaseApply (h : s.Canon) {c : Cmd} : (kernelQueueReleaseApply c s).Canon :=
  .mk h.flushQ.updDisp

theorem State.Canon.kernelChainSetApply (h : s.Canon) {c : Cmd} : (kernelChainSetApply c s).Canon := .mk h.updDisp

theorem State.Canon.kernelQueryApply (h : s.Canon) {c : Cmd} : (kernelQueryApply c s).Canon :=
  .ite h.queryReply h.queryReply

theorem State.Canon.kernelResumeApply (h : s.Canon) {c : Cmd} : (kernelResumeApply c s).Canon := .mk h.updDisp

theorem State.Canon.kernelTenantSetApply (h : s.Canon) {c : Cmd} : (kernelTenantSetApply c s).Canon := .mk h.updDisp

/-! ### Key slots and the key window -/

theorem State.Canon.cntCrypt (h : s.Canon) {k : Nat} : (s.cntCrypt k).Canon := h.bump

theorem State.Canon.setSlot (h : s.Canon) {k : Nat} {v : KeySlot} : (s.setSlot k v).Canon := h.frame

theorem State.Canon.updSlot (h : s.Canon) {k : Nat} {f : KeySlot → KeySlot} : (s.updSlot k f).Canon := h.setSlot

theorem State.Canon.capture (h : s.Canon) {k : Nat} {enc srtcp : Bool} : CanonFst (s.capture k enc srtcp) :=
  .ite (.mk h.cntCrypt) (.ite (.mk h.cntCrypt) (.mk h.setSlot))

theorem State.Canon.releaseCap (h : s.Canon) {c : Option Cap} : (s.releaseCap c).Canon := by
  unfold State.releaseCap
  split
  · exact h
  · exact .ite h h.setSlot

theorem State.Canon.dropErased (h : s.Canon) {c : Cap} : (s.dropErased c).Canon := h.cntCrypt.updSlot

theorem State.Canon.dropDesc (h : s.Canon) {d : Desc} : (s.dropDesc d).Canon := h.releaseCap.releasePayload

theorem State.Canon.keyNote (h : s.Canon) {k op : Nat} {words : List Nat} : (s.keyNote k op words).Canon := by
  unfold State.keyNote
  split
  · exact h.notify
  · exact h

theorem State.Canon.advanceTrack (h : s.Canon) {k tr i : Nat} : (s.advanceTrack k tr i).Canon :=
  .ite (.keyNote (.updSlot (.ite h.setSlot.keyNote h.setSlot))) (.ite h.setSlot.keyNote h.setSlot)

theorem State.Canon.switchAt (h : s.Canon) {k i : Nat} : (s.switchAt k i).Canon := by
  unfold State.switchAt
  dsimp only
  split
  · exact .ite h.setSlot.keyNote h
  · exact h

theorem State.Canon.kwFree (h : s.Canon) : s.kwFree.Canon := h.setRf.setRf

theorem State.Canon.kwZero (h : s.Canon) : s.kwZero.Canon := h.foldl fun h1 => h1.rstReg

theorem State.Canon.kwResult (h : s.Canon) {r gen slot : Nat} : (s.kwResult r gen slot).Canon := h.setReg

theorem State.Canon.execKeywinLockAcquire (h : s.Canon) {owner el : Nat} :
    Res.Canon (execKeywinLockAcquire owner el s) :=
  .ite (.next h.advance.frame) <|
    .ite (.next h.advance.setRf.setRf.frame) (.ite (.next h.advance.frame) (.next h.advance.frame))

theorem State.Canon.execKeywinRelease (h : s.Canon) {owner : Nat} {v : Word} :
    Res.Canon (execKeywinRelease owner v s) := .ite (.next h.frame) (.ite (.next h.kwFree.frame) (.next h.frame))

theorem State.Canon.kwCommit (h : s.Canon) {owner : Nat} {v : Word} : (s.kwCommit owner v).Canon :=
  .ite h.frame (.ite h.frame (.ite h.kwResult.frame h.kwResult.frame))

theorem State.Canon.execKeywinCommitDone (h : s.Canon) : Res.Canon (execKeywinCommitDone s) := by
  unfold Machine.execKeywinCommitDone
  split
  · exact .next h
  · exact .ite (.next h.frame.setSlot.kwZero.kwResult) <|
      .ite (.next h.frame.kwZero.kwResult) <|
        .ite (.next h.frame.kwZero.kwResult) (.next h.frame.setSlot.kwZero.kwResult)

theorem State.Canon.wipeKey (h : s.Canon) {c : Cmd} : (s.wipeKey c).Canon := by
  unfold State.wipeKey
  refine .ite ?_ h
  split
  · exact h.foldl fun h1 => h1.setReg
  · exact h.dma

theorem State.Canon.fwLoad (h : s.Canon) {l : Load} : (s.fwLoad l).Canon := h.setSlot.kwZero.kwResult

theorem State.Canon.keyLoadApply (h : s.Canon) {c : Cmd} : (keyLoadApply c s).Canon := .mk h.fwLoad

theorem State.Canon.keyLoadDtlsApply (h : s.Canon) {c : Cmd} : (keyLoadDtlsApply c s).Canon := .mk h.fwLoad

theorem State.Canon.keyEraseApply (h : s.Canon) {c : Cmd} : (keyEraseApply c s).Canon := .mk h.updSlot.kwZero.kwResult

theorem State.Canon.releaseSlot (h : s.Canon) {k : Nat} : (s.releaseSlot k).Canon := h.updSlot

theorem State.Canon.keyReleaseApply (h : s.Canon) {c : Cmd} : (keyReleaseApply c s).Canon :=
  .mk h.releaseSlot.kwZero.kwResult

theorem State.Canon.keyQueryApply (h : s.Canon) {c : Cmd} : (keyQueryApply c s).Canon := h.queryReply

/-! ### Ethernet ports -/

theorem State.Canon.updPort (h : s.Canon) {n : Nat} {f : Port → Port} : (s.updPort n f).Canon := h.updNet

theorem State.Canon.setLink (h : s.Canon) {n : Nat} {up : Bool} : (s.setLink n up).Canon :=
  .ite h (.ite (.ite h.setRb.setRb.setRf h.setRb.setRb) (h.setRb.setRb.foldl fun h1 => .ite h1.notify h1))

theorem State.Canon.ethDown (h : s.Canon) {n res : Nat} : (s.ethDown n res).Canon := h.setLink.setRb.setRf

theorem State.Canon.ethStart (h : s.Canon) {n : Nat} : (s.ethStart n).Canon :=
  .ite h.ethDown.updPort.setReg h.ethDown.updPort

theorem State.Canon.ethCheck (h : s.Canon) : s.ethCheck.Canon :=
  h.foldl (fun h1 => .ite h1 (.ite h1.ethDown (.ite h1.ethStart h1)))

theorem State.Canon.execEthPcfgWrite (h : s.Canon) {port : Fin 8} {v : Word} :
    Res.Canon (execEthPcfgWrite port v s) :=
  .next (.frame (.ethCheck (.ite h.setReg (.ite h.setReg.ethStart h.setReg.ethDown))))

theorem State.Canon.execAnResolved (h : s.Canon) {port : Fin 8} {rates fecs : BitVec 4} {trained : Bool} :
    Res.Canon (execAnResolved port rates fecs trained s) := by
  unfold Machine.execAnResolved
  refine .ite (.next h) ?_
  split
  · exact .next h.ethDown
  · exact .ite (.next h.setReg.updPort) (.next h.updPort.ethDown)

theorem State.Canon.scalePort (h : s.Canon) {n : Nat} : (s.scalePort n).Canon := h.updPort.foldl fun h1 => h1.notify

/-! ### The parser and the decrypt lanes -/

theorem State.Canon.updLeg (h : s.Canon) {i : Nat} {f : Leg → Leg} : (s.updLeg i f).Canon := h.updNet

theorem State.Canon.updStream (h : s.Canon) {i : Nat} {f : Stream → Stream} : (s.updStream i f).Canon := h.updNet

theorem State.Canon.unknownSsrc (h : s.Canon) {leg ssrc : Nat} : (s.unknownSsrc leg ssrc).Canon :=
  .ite h.cntStrata.updLeg.notify h.cntStrata

theorem State.Canon.police (h : s.Canon) {leg n dscp : Nat} {audio : Bool} : CanonFst (s.police leg n dscp audio) := by
  unfold State.police
  split
  · exact .mk h
  · refine .ite (.mk h) ?_
    extract_lets pre
    split
    extract_lets s1 act
    clear_value act
    split
    · exact .mk h.updNet
    · exact .mk h.updNet
    · exact .ite (.mk h.updNet) (.mk h.updNet.updLeg)

theorem State.Canon.noInfo (h : s.Canon) {i : Nat} {st : Stream} : (s.noInfo i st).Canon := .ite h h.updStream.notify

theorem State.Canon.deliverRtcp (h : s.Canon) {leg : Nat} {de : Bool} {plain : List Byte} :
    (s.deliverRtcp leg de plain).Canon := by
  unfold State.deliverRtcp
  split
  · next s1 heq => exact CanonFst.of_eq heq h.allocPayload
  · next s1 p heq => exact (CanonFst.of_eq heq h.allocPayload).postHw

theorem State.Canon.conceal (h : s.Canon) {stream sc ts : Nat} : (s.conceal stream sc ts).Canon := by
  unfold State.conceal
  dsimp only
  split
  · exact h
  · exact .ite h h.updNet.cntStrata

theorem State.Canon.place' (h : s.Canon) {i : Nat} {st : Stream} {leg : Nat} {de : Bool} {plain : List Byte}
    {p : SrcPkt} : (s.place' i st leg de plain p).Canon := by
  unfold State.place'
  refine .ite h ?_
  split
  · next heq => exact CanonFst.of_eq heq h.allocPayload
  · next heq =>
    exact
      have h1 := CanonFst.of_eq heq h.allocPayload
      have h2 := State.Canon.ite h1.updNet h1
      .ite h2.postHw h2

theorem State.Canon.deliverRtp (hs : s.Canon) {k : Pkt} {h : Rtp} {plain : List Byte} {f : MediaFacts} :
    (s.deliverRtp k h plain f).Canon := by
  unfold State.deliverRtp
  split
  · exact hs
  · exact .ite hs.updStream.place' (.place' (.ite hs.updStream hs.updStream.noInfo))

theorem State.Canon.deliverTolku (hs : s.Canon) {k : Pkt} {h : Rtp} {plain : List Byte} :
    (s.deliverTolku k h plain).Canon := by
  unfold State.deliverTolku
  split
  · exact .ite hs.updNet.cntStrata (.ite hs.updNet.emit (.place' (.ite hs.updNet.conceal hs.updNet)))
  · exact hs.updNet.cntStrata
  · exact hs.cntStrata

theorem State.Canon.deliver' (h : s.Canon) {k : Pkt} {plain : List Byte} {f : MediaFacts} :
    (s.deliver' k plain f).Canon := .ite h.deliverRtcp (.ite h.deliverTolku h.deliverRtp)

theorem State.Canon.toLane (h : s.Canon) {k : Pkt} {slot : Nat} {f : MediaFacts} : (s.toLane k slot f).Canon := by
  unfold State.toLane
  refine .ite ?_ h.deliver'
  split
  · next s1 heq => exact CanonFst.of_eq heq h.capture
  · next s1 c heq => exact (CanonFst.of_eq heq h.capture).updNet

theorem State.Canon.rxRtcp (h : s.Canon) {leg : Nat} {k : Pkt} {f : MediaFacts} : (s.rxRtcp leg k f).Canon := h.toLane

theorem State.Canon.rxRtp (h : s.Canon) {leg : Nat} {k : Pkt} {f : MediaFacts} : (s.rxRtp leg k f).Canon := by
  unfold State.rxRtp
  dsimp only
  split
  · exact h.unknownSsrc
  · exact .ite h.unknownSsrc h.toLane

theorem State.Canon.rxLeg (h : s.Canon) {m : Option (Nat × Bool)} {src len dscp : Nat} {d : List Byte}
    {f : MediaFacts} : (s.rxLeg m src len dscp d f).Canon := by
  unfold State.rxLeg
  split
  · exact .ite h.emit h.cntStrata
  · refine .ite h.emit ?_
    refine .ite h.emit ?_
    refine .ite ?_ ?_
    · split
      · next s1 de heq => exact (CanonFst.of_eq heq h.police).rxRtcp
      · next s1 heq => exact CanonFst.of_eq heq h.police
    · refine .ite ?_ h
      split
      · next s1 de heq => exact (CanonFst.of_eq heq h.police).rxRtp
      · next s1 heq => exact CanonFst.of_eq heq h.police

theorem State.Canon.rxTolku (h : s.Canon) {m : Option (Nat × Bool)} {len dscp : Nat} {d : List Byte}
    {f : MediaFacts} : (s.rxTolku m len dscp d f).Canon := by
  unfold State.rxTolku
  split
  · exact h.cntStrata
  · refine .ite h.cntStrata ?_
    split
    · next heq => exact CanonFst.of_eq heq h.police
    · next heq =>
      have h1 := CanonFst.of_eq heq h.police
      exact .ite h1.emit (.ite h1.emit (.ite h1.rxRtcp (.ite h1.rxRtp h1)))

theorem State.Canon.execFrameReceived (h : s.Canon) {port : Fin 8} {macOk : Bool} {bytes : List Byte}
    {facts : MediaFacts} {el : Nat} : Res.Canon (execFrameReceived port macOk bytes facts el s) := by
  unfold Machine.execFrameReceived
  refine .ite (.next h.advance) ?_
  split
  · exact .next h.advance
  · exact .next h.advance.cntStrata
  · exact .next h.advance.cntStrata
  · exact .next h.advance.emit
  · exact .ite (.next h.advance.rxTolku) (.next h.advance.rxLeg)

theorem State.Canon.execSrtpDecrypt (h : s.Canon) {lane : Fin 16} {authOk : Bool} {plain : List Byte}
    {facts : MediaFacts} {el : Nat} : Res.Canon (execSrtpDecrypt lane authOk plain facts el s) := by
  unfold Machine.execSrtpDecrypt
  refine .ite (.next h.advance) ?_
  split
  · exact .next h.advance
  · dsimp only
    split
    · exact .next h.advance.updNet.deliver'
    · exact .ite (.next h.advance.updNet.releaseCap) <|
        .ite (.next h.advance.updNet.dropErased) <|
          .ite (.next h.advance.updNet.cntCrypt.updSlot.releaseCap) <|
            .ite (.next h.advance.updNet.cntCrypt.updSlot.releaseCap) <|
              .next h.advance.updNet.updSlot.advanceTrack.switchAt.cntCrypt.releaseCap.deliver'

/-! ### Forwarding -/

theorem State.Canon.setFlowq (h : s.Canon) {q : Nat} {f : FlowQ} : (s.setFlowq q f).Canon := h.updNet

theorem State.Canon.updSamplers (h : s.Canon) {q : Nat} {f : Sampler → Sampler} : (s.updSamplers q f).Canon :=
  h.updNet

theorem State.Canon.drawDesc (h : s.Canon) {t pool : Nat} : (s.drawDesc t pool).Canon := h.updNet

theorem State.Canon.returnDesc (h : s.Canon) {t pool : Nat} : (s.returnDesc t pool).Canon := h.updNet

theorem State.Canon.refuseDesc (h : s.Canon) {q : Nat} {f : FlowQ} {d : Desc} {k : Nat} :
    (s.refuseDesc q f d k).Canon := h.cntEgs.setFlowq.updSamplers.dropDesc

theorem State.Canon.enterQueue (h : s.Canon) {q : Nat} {d : Desc} : (s.enterQueue q d).Canon := by
  unfold State.enterQueue
  split
  · exact h.cntStrata.dropDesc
  · refine .ite h.refuseDesc ?_
    refine .ite h.refuseDesc ?_
    split
    · exact h.refuseDesc
    · exact h.drawDesc.setFlowq

theorem State.Canon.sendDesc (h : s.Canon) {q : Nat} {d : Desc} : (s.sendDesc q d).Canon :=
  have hr := CanonFst.ite h.capture (.mk h)
  have h1 := State.Canon.refPayload hr
  .ite h.cntStrata (.ite hr (.enterQueue (.ite h1 h1.cntStrata)))

theorem State.Canon.setSub (h : s.Canon) {i : Nat} {x : Sub} : (s.setSub i x).Canon := h.updNet

theorem State.Canon.countSwitch (h : s.Canon) {x y : Sub} : (s.countSwitch x y).Canon :=
  .ite h (.ite h.cntStrata h.cntStrata)

theorem State.Canon.keyWanted (h : s.Canon) {i : Nat} {stream : Nat} : (s.keyWanted i stream).Canon :=
  .ite h.cntStrata.setSub.updNet h.cntStrata.setSub.postHw

theorem State.Canon.forward (h : s.Canon) {i : Nat} {x : Sub} {st : Stream} {p : SrcPkt} {out : Nat} :
    (s.forward i x st p out).Canon := h.sendDesc

theorem State.Canon.forwardTo (h : s.Canon) {i : Nat} {x0 : Sub} {st : Stream} {p : SrcPkt} :
    (s.forwardTo i x0 st p).Canon := by
  unfold State.forwardTo
  split
  · exact .ite h.setSub (.ite h.setSub.forward h.setSub.cntStrata)
  · refine .ite h.setSub.forward ?_
    split
    · exact h.setSub.forward
    · exact h.setSub.cntStrata

theorem State.Canon.strataOne (h : s.Canon) {st0 : Stream} {p : SrcPkt} {i : Nat} {x0 : Sub} :
    (s.strataOne st0 p i x0).Canon := by
  unfold State.strataOne
  split
  · exact h
  · refine .ite h ?_
    split
    extract_lets s1 s2 y
    have h1 : s1.Canon := h.setSub.countSwitch
    have h2 : s2.Canon := .ite h1.keyWanted h1
    split
    · exact h2.forwardTo
    · exact h2.setSub.cntStrata
    · exact h2.cntStrata
    · exact h2

theorem State.Canon.strata (h : s.Canon) {p : SrcPkt} : (s.strata p).Canon := by
  unfold State.strata
  split
  · exact h.releasePayload
  · exact .releasePayload (h.updStream.foldl fun h1 => h1.strataOne)

theorem State.Canon.devPacket (h : s.Canon) {k : DevPkt} : (s.devPacket k).Canon := by
  unfold State.devPacket
  split
  · exact h
  · refine .ite h ?_
    split
    · next s1 heq => exact CanonFst.of_eq heq h.allocPayload
    · next s1 id heq => exact (CanonFst.of_eq heq h.allocPayload).strata

theorem State.Canon.execStrataForward (h : s.Canon) {dev : Option DevPkt} {el : Nat} :
    Res.Canon (execStrataForward dev el s) := by
  unfold Machine.execStrataForward
  refine .ite (.next h.advance) ?_
  split
  · exact .next h.advance.devPacket
  · split
    · exact .next h.advance
    · exact .ite (.next h.advance.updNet.strata) (.next h.advance.updNet.releasePayload)

theorem State.Canon.retarget (h : s.Canon) {i : Nat} {x : Sub} : (s.retarget i x).Canon := h.setSub

theorem State.Canon.popShared (h : s.Canon) {q : Nat} {it : Item} {t : State} (e : s.popShared q = some (it, t)) :
    t.Canon := by
  unfold State.popShared at e
  split at e
  · cases e
  · split at e
    · cases e
    · cases e
      exact h.setDispQ.releaseOpt.returnItem

theorem State.Canon.execLayerTargetApply (h : s.Canon) : Res.Canon (execLayerTargetApply s) := by
  unfold Machine.execLayerTargetApply
  refine .ite (.next h) ?_
  split
  · exact .next h
  · next it t heq =>
      dsimp only
      split
      · exact .next ((h.popShared heq).cntStrata)
      · exact .ite (.next ((h.popShared heq).cntStrata)) (.next ((h.popShared heq).retarget))

/-! ### Egress and gates -/

theorem State.Canon.sendRecord (h : s.Canon) {d : Desc} {cls : Nat} : (s.sendRecord d cls).Canon := by
  unfold State.sendRecord
  split
  · exact .ite h h.memWords
  · exact h

theorem State.Canon.wire (h : s.Canon) {d : Desc} {bytes : List Byte} : (s.wire d bytes).Canon :=
  h.cntEgs.cntEgs.updNet.updSamplers.sendRecord.emit.releasePayload

theorem State.Canon.release (h : s.Canon) {r : Reads} {d : Desc} : (s.release r d).Canon := by
  unfold State.release
  split
  · exact h.updNet
  · exact .ite h.dropDesc h.wire

theorem State.Canon.indexRefused (h : s.Canon) {k : Nat} : (s.indexRefused k).Canon :=
  .ite h.cntCrypt.setSlot.keyNote.updSlot h.cntCrypt.setSlot

theorem State.Canon.execSrtpEncrypt (h : s.Canon) {lane : Fin 16} {reads : Reads} :
    Res.Canon (execSrtpEncrypt lane reads s) := by
  unfold Machine.execSrtpEncrypt
  refine .ite (.next h.advance) ?_
  split
  · exact .next h.advance
  · dsimp only
    split
    · exact .next h.advance.updNet.releasePayload
    · exact .ite (.next h.advance.updNet.dropDesc) <|
        .ite (.next h.advance.updNet.dropErased.releasePayload) <|
          .ite (.next h.advance.updNet.dropDesc) <|
            .ite (.next h.advance.updNet.indexRefused.dropDesc) <|
              .next h.advance.updNet.setSlot.advanceTrack.switchAt.cntCrypt.releaseCap.wire

theorem State.Canon.execEgressSelect (h : s.Canon) {port : Fin 8} {reads : Reads} :
    Res.Canon (execEgressSelect port reads s) := by
  unfold Machine.execEgressSelect
  refine .ite (.next h.advance) ?_
  split
  · exact .next h.advance
  · split
    · exact .next h.advance
    · exact .ite (.next h.advance.updPort.setFlowq.returnDesc.release) <|
        .next h.advance.updPort.setFlowq.returnDesc.updLeg.release

theorem State.Canon.gateStat (h : s.Canon) {n : Nat} : (s.gateStat n).Canon := h.setReg

theorem State.Canon.gateLose (h : s.Canon) {n units : Nat} : (s.gateLose n units).Canon :=
  .ite h.updPort h.updPort.cntEgs

theorem State.Canon.loseOne (h : s.Canon) {n cls : Nat} {b : Bucket} : (s.loseOne n cls b).Canon := .ite h h.gateLose

theorem State.Canon.gateLoss (h : s.Canon) {n cls : Nat} {opens : Bool} : CanonFst (s.gateLoss n cls opens) :=
  .mk h.updPort.updNet

theorem State.Canon.gatesTo (h : s.Canon) {n old new : Nat} : (s.gatesTo n old new).Canon := by
  unfold State.gatesTo
  split
  next t u heq =>
  have ht : t.Canon := CanonFst.of_eq heq <| .foldl (.mk h) fun {p c} hp =>
    .ite hp (hp.gateLoss (n := n) (cls := c) (opens := new.testBit c))
  exact ht.gateLose.gateStat

theorem State.Canon.gateSwitch (h : s.Canon) {n : Nat} {q : GateList} {at' : Nat} : (s.gateSwitch n q at').Canon :=
  h.updPort.gatesTo

theorem State.Canon.execGateListSwitch (h : s.Canon) {port : Fin 8} {el : Nat} :
    Res.Canon (execGateListSwitch port el s) := by
  unfold Machine.execGateListSwitch
  refine .ite (.next h.advance) ?_
  split
  · exact .next h.advance.gateSwitch
  · exact .next h.advance

theorem State.Canon.execGateEntryAdvance (h : s.Canon) {port : Fin 8} {el : Nat} :
    Res.Canon (execGateEntryAdvance port el s) := by
  unfold Machine.execGateEntryAdvance
  extract_lets t n p
  split
  · exact .next h.advance
  · split
    refine .ite (.next h.advance) ?_
    split
    · exact .next h.advance.gateSwitch
    · exact .next h.advance.updPort.gatesTo

theorem State.Canon.execShaperTargetApply (h : s.Canon) {el : Nat} : Res.Canon (execShaperTargetApply el s) := by
  unfold Machine.execShaperTargetApply
  refine .ite (.next h.advance) ?_
  split
  · exact .next h.advance
  · next it t heq =>
      dsimp only
      split
      · exact .next (h.advance.popShared heq)
      · exact .ite (.next ((h.advance.popShared heq).cntEgs)) (.next ((h.advance.popShared heq).loseOne.setFlowq))

theorem State.Canon.execLoupeSample (h : s.Canon) {sampler : Fin 1024} {cons : Nat} {el : Nat} :
    Res.Canon (execLoupeSample sampler cons el s) := by
  unfold Machine.execLoupeSample
  dsimp only
  split
  · exact .next h.advance
  · exact .ite (.next h.advance) (.next h.advance.loupeWrite.updNet)

theorem State.Canon.keepalive (h : s.Canon) {i : Nat} {p : Peer} : (s.keepalive i p).Canon := by
  unfold State.keepalive
  refine .ite h ?_
  split
  · next s1 heq => exact CanonFst.of_eq heq h.allocPayload
  · next s1 pay heq => exact (CanonFst.of_eq heq h.allocPayload).freeWord.updNet.sendDesc.releasePayload

theorem State.Canon.execCascadePeerTimeout (h : s.Canon) {peer : Fin 1024} {el : Nat} :
    Res.Canon (execCascadePeerTimeout peer el s) := by
  unfold Machine.execCascadePeerTimeout
  dsimp only
  split
  · exact .next h.advance
  · exact .ite (.next h.advance.updNet.notify) (.next h.advance)

/-! ### The mix fabric's objects -/

theorem State.Canon.updMix (h : s.Canon) {f : Mix → Mix} : (s.updMix f).Canon := h.frame

theorem State.Canon.updConf (h : s.Canon) {i : Nat} {f : Conf → Conf} : (s.updConf i f).Canon := h.updMix

theorem State.Canon.updSource (h : s.Canon) {i : Nat} {f : Source → Source} : (s.updSource i f).Canon := h.updMix

theorem State.Canon.updCls (h : s.Canon) {i : Nat} {f : MixClass → MixClass} : (s.updCls i f).Canon := h.updMix

theorem State.Canon.mixStart (h : s.Canon) : s.mixStart.Canon := h.updMix

theorem State.Canon.cntMix (h : s.Canon) {slice k : Nat} {n : Nat} : (s.cntMix slice k n).Canon := h.bump

theorem State.Canon.putEntry (h : s.Canon) {slice i : Nat} {ws : List Word} {k : Int} {safe : Bool} :
    (s.putEntry slice i ws k safe).Canon := h.updMix

theorem State.Canon.writeEntry (h : s.Canon) {slice i : Nat} {ws : List Word} {k : Int} {safe : Bool} :
    (s.writeEntry slice i ws k safe).Canon := by
  unfold State.writeEntry
  refine .ite h.putEntry ?_
  split
  · exact .ite h.putEntry (h.putEntry.foldl fun h1 => h1.putEntry)
  · exact h.putEntry

theorem State.Canon.directWords (h : s.Canon) {slice i : Nat} {ws : List Word} {n : Nat} :
    (s.directWords slice i ws n).Canon := .cntMix (.ite h h.writeEntry)

theorem State.Canon.directEntry (h : s.Canon) {slice i : Nat} {ws : List Word} : (s.directEntry slice i ws).Canon :=
  h.directWords

theorem State.Canon.swapNow (h : s.Canon) {n : Nat} : (s.swapNow n).Canon := by
  unfold State.swapNow
  exact .updMix (.cntMix (.setRb (h.foldl fun h1 => .ite h1.writeEntry h1)))

theorem State.Canon.swapDue (h : s.Canon) {n : Nat} : (s.swapDue n).Canon := .ite h.swapNow h

theorem State.Canon.execSafeLoadArm (h : s.Canon) {slice : Fin 16} {v : Word} :
    Res.Canon (execSafeLoadArm slice v s) :=
  .ite (.next h.setReg.frame) (.ite (.next h.setReg.frame) (.next h.setReg.frame.setRb.setRb.cntMix))

theorem State.Canon.shadowAdd (h : s.Canon) {n frame sample : Nat} {i : Nat} {ws : List Word} :
    (s.shadowAdd n frame sample i ws).Canon := h.updMix.setReg.setReg.setReg

theorem State.Canon.changeEntry (h : s.Canon) {w : When} {n i : Nat} {ws : List Word} :
    (s.changeEntry w n i ws).Canon := .ite h.directEntry h.shadowAdd

theorem State.Canon.markLate (h : s.Canon) {n : Nat} : (s.markLate n).Canon := h.setRb.cntMix

theorem State.Canon.addClassStream (h : s.Canon) {id : Nat} {own : Own} {codec : Nat} :
    (s.addClassStream id own codec).Canon := h.updNet

theorem State.Canon.srcGone (h : s.Canon) {i : Nat} : (s.srcGone i).Canon := h.setSub.notify

theorem State.Canon.dropStream (h : s.Canon) {i : Nat} : (s.dropStream i).Canon := by
  unfold State.dropStream
  split
  · exact h
  · exact h.updNet.foldl fun h1 => by dsimp only; split; exacts [h1.srcGone, h1.setSub]

theorem State.Canon.sweepStreams (h : s.Canon) : s.sweepStreams.Canon := h.foldl fun h1 => .ite h1 h1.updNet

theorem State.Canon.freeSource (h : s.Canon) {i : Nat} : (s.freeSource i).Canon := by
  unfold State.freeSource
  split
  · exact h
  · exact h.updMix.directEntry

theorem State.Canon.removeSource (h : s.Canon) {i : Nat} : (s.removeSource i).Canon := by
  unfold State.removeSource
  split
  · exact h
  · exact .ite h.updSource h.freeSource

theorem State.Canon.freeClass (h : s.Canon) {i : Nat} : (s.freeClass i).Canon := by
  unfold State.freeClass
  split
  · exact h
  · exact h.directEntry.updMix

theorem State.Canon.destroyClass (h : s.Canon) {i : Nat} : (s.destroyClass i).Canon :=
  .ite h (.updMix (h.foldl fun h1 => h1.dropStream.freeClass))

theorem State.Canon.endRamp (h : s.Canon) {i : Nat} : (s.endRamp i).Canon :=
  .ite (.ite h.updMix.freeSource h.updMix) h

/-! ### The mix frame schedule -/

theorem State.Canon.meterWrite (h : s.Canon) {index : Nat} {m : MeterSt} {xs : List Int} :
    (s.meterWrite index m xs).Canon := h.memWords

theorem State.Canon.ringPacket (h : s.Canon) {r : Nat} {items : List (List Nat)} : (s.ringPacket r items).Canon :=
  .ringEvent (.writeBack (.setFifo (h.foldl fun h1 => h1.dma)))

theorem State.Canon.injected (h : s.Canon) {k r n : Nat} : CanonFst (State.injected k s r n) := by
  induction k generalizing s with
  | zero => exact .mk h
  | succ k ih => exact .ite (.mk h) (.ite (.mk h.ringConsume) (.ite (ih h.ringConsume) (.mk h)))

theorem State.Canon.sourceFrame (h : s.Canon) {frames : List SrcFrame} {i : Nat} {x : Source} :
    CanonFst (s.sourceFrame frames i x) := by
  unfold State.sourceFrame
  refine .ite (.mk h) ?_
  refine .ite (.mk h.injected) ?_
  refine .ite (.mk h.updSource) ?_
  split
  · exact .ite (.mk h.updSource.cntMix) (.mk h.updSource)
  · exact .mk h.updSource

theorem State.Canon.takeFrame (h : s.Canon) {frames : List SrcFrame} {i : Nat} : (s.takeFrame frames i).Canon :=
  .ite h.sourceFrame.updSource.meterWrite h.sourceFrame.updSource

theorem State.Canon.talker (h : s.Canon) {i src : Nat} {entered : Bool} : (s.talker i src entered).Canon :=
  .ite h.notify h

theorem State.Canon.leave (h : s.Canon) {i src : Nat} : (s.leave i src).Canon :=
  .ite h.updConf.updMix.talker h.updConf.updMix

theorem State.Canon.enter (h : s.Canon) {i src : Nat} : (s.enter i src).Canon := h.updConf.updMix.talker

theorem State.Canon.candidates (h : s.Canon) {i : Nat} {l : List Nat} {k : Nat} : (s.candidates i l k).Canon := by
  induction l generalizing s k with
  | nil => exact h
  | cons q l ih =>
    unfold State.candidates
    refine .ite h (.ite (ih h.enter) ?_)
    dsimp only
    split
    · exact h
    · exact .ite (ih h.leave.enter) (ih h)

theorem State.Canon.talkers (h : s.Canon) {i : Nat} : (s.talkers i).Canon :=
  .candidates <|
    .foldl (.foldl (.updConf (h.foldl fun h1 => .ite h1 h1.enter)) fun h1 => .ite h1.leave h1) fun h1 => h1.leave

theorem State.Canon.noteFork (h : s.Canon) {cls sub : Nat} {fork : Bool} : (s.noteFork cls sub fork).Canon := h.notify

theorem State.Canon.switchClass (h : s.Canon) {sub cls : Nat} : (s.switchClass sub cls).Canon :=
  .ite h.updMix.setSub h.updMix.setSub

theorem State.Canon.merge (h : s.Canon) {d : Nat} : (s.merge d).Canon := by
  unfold State.merge
  split
  · exact h
  · split
    · exact h
    · exact .sweepStreams (.freeClass (.updNet (h.foldl fun h1 => h1.switchClass.noteFork)))

theorem State.Canon.fork (h : s.Canon) {i named q : Nat} : CanonFst (s.fork i named q) := by
  unfold State.fork
  dsimp only
  split
  · exact .mk (.cntMix (.updMix (.addClassStream (.ite (by split; exacts [h.merge, h]) h))))
  · refine .mk ?_
    refine .ite ?_ h
    split
    · exact h.merge
    · exact h

theorem State.Canon.derived (h : s.Canon) {i named q : Nat} : CanonFst (s.derived i named q) := by
  unfold State.derived
  split
  · exact .mk h.updCls
  · exact h.fork

theorem State.Canon.forks (h : s.Canon) {i : Nat} : (s.forks i).Canon := by
  refine h.foldl fun {t kv} ht => ?_
  dsimp only
  split
  · refine .ite ?_ ht
    split
    · next u d heq =>
      have hu := CanonFst.of_eq heq ht.derived
      exact .ite hu hu.switchClass.noteFork
    · next u heq => exact CanonFst.of_eq heq ht.derived
  · exact ht

theorem State.Canon.moves (h : s.Canon) {i : Nat} : (s.moves i).Canon := by
  refine h.foldl fun {t kv} ht => ?_
  extract_lets j
  split
  · next c self f _ =>
    refine .ite ?_ ht
    extract_lets s1 s2
    have h2 : s2.Canon := .ite ht.updMix.updCls ht.updMix
    split
    · refine .ite ?_ h2.switchClass
      split
      · next u d heq => exact (CanonFst.of_eq heq h2.derived).switchClass.noteFork
      · next u heq => exact (CanonFst.of_eq heq h2.derived).switchClass
    · exact h2.switchClass
  · exact ht

theorem State.Canon.merges (h : s.Canon) {i : Nat} : (s.merges i).Canon :=
  h.foldl (fun h1 => .ite h1 (.ite h1.merge (by split; exacts [.ite h1.merge h1, h1])))

theorem State.Canon.changeBoundary (h : s.Canon) {i : Nat} : (s.changeBoundary i).Canon :=
  .ite h h.talkers.forks.moves.merges

theorem State.Canon.swapFirst (h : s.Canon) {n : Nat} : (s.swapFirst n).Canon := .ite h.swapDue h

theorem State.Canon.sourceStep (h : s.Canon) {frames : List SrcFrame} : (s.sourceStep frames).Canon := by
  unfold State.sourceStep
  exact .updMix <|
    .foldl (.foldl (h.foldl fun h1 => h1.swapFirst) fun h1 => h1.changeBoundary) fun h1 => h1.takeFrame

theorem State.Canon.tapWrite (h : s.Canon) {k : Nat} {t : Tap} {xs : List Int} {flags : Nat} :
    (s.tapWrite k t xs flags).Canon := .ite h.ringPacket h.updMix

theorem State.Canon.tapsOf (h : s.Canon) {kind ident : Nat} {xs : List Int} {flags : Nat} :
    (s.tapsOf kind ident xs flags).Canon := h.foldl fun h1 => .ite h1.tapWrite h1

theorem State.Canon.frameReady (h : s.Canon) {cls frame : Nat} : (s.frameReady cls frame).Canon :=
  .ite h.updCls.postHw h

theorem State.Canon.stage (h : s.Canon) {cls frame k : Nat} : (s.stage cls frame k).Canon := by
  unfold State.stage
  dsimp only
  split
  · exact h.frameReady
  · exact .ite h.postHw h.frameReady

theorem State.Canon.chainNext (h : s.Canon) {it : Item} : (s.chainNext it).Canon := .ite h.stage h

theorem State.Canon.writeClass (h : s.Canon) {home i : Nat} {a : List Int} {p : List (Nat × List Int)} :
    (s.writeClass home i a p).Canon := h.updCls.cntMix.meterWrite.memWrite.stage.tapsOf

theorem State.Canon.writeConf (h : s.Canon) {home i : Nat} : (s.writeConf home i).Canon :=
  .tapsOf (h.updConf.cntMix.meterWrite.foldl fun h1 => h1.writeClass)

theorem State.Canon.lateOut (h : s.Canon) {n : Nat} : (s.lateOut n).Canon := .ite h.updMix.cntMix h

theorem State.Canon.writeSlice (h : s.Canon) {n : Nat} : (s.writeSlice n).Canon :=
  .ite (.updMix (.cntMix (.foldl (h.swapDue.foldl fun h1 => h1.writeConf) fun h1 => .ite h1.tapsOf h1))) h

theorem State.Canon.finishFrame (h : s.Canon) : s.finishFrame.Canon :=
  .ite h (.foldl (.ite h h.sourceStep) fun h1 => h1.lateOut.writeSlice)

theorem State.Canon.boundary (h : s.Canon) : s.boundary.Canon :=
  .sweepStreams (.foldl (h.finishFrame.updMix.bump.foldl fun h1 => h1.endRamp) fun h1 => .ite h1.postHw h1)

/-! ### CONF and MIX commands -/

theorem State.Canon.confCreateApply (h : s.Canon) {c : Cmd} : (confCreateApply c s).Canon := .mk h.updMix

theorem State.Canon.confModifyApply (h : s.Canon) {c : Cmd} : (confModifyApply c s).Canon := .mk h.updConf

theorem State.Canon.destroyConf (h : s.Canon) {i : Nat} : (s.destroyConf i).Canon := by
  unfold State.destroyConf
  exact .updMix <|
    .foldl (.foldl (h.foldl fun h1 => h1.destroyClass) fun h1 => h1.destroyClass) fun h1 => h1.freeSource

theorem State.Canon.confDestroyApply (h : s.Canon) {c : Cmd} : (confDestroyApply c s).Canon := .mk h.destroyConf

theorem State.Canon.confClosing (h : s.Canon) {i t : Nat} : (s.confClosing i t).Canon :=
  .ite h (.updConf (h.foldl fun h1 => h1.notify))

theorem State.Canon.execConfDestroy (h : s.Canon) {c : Cmd} : Res.Canon (execConfDestroy c s) :=
  .ite (.next (.confClosing (h.runCmd fun h1 => h1.confDestroyApply))) <|
    .next (h.runCmd fun h1 => h1.confDestroyApply)

theorem State.Canon.confPinApply (h : s.Canon) {c : Cmd} : (confPinApply c s).Canon :=
  .mk (.ite (.shadowAdd (.ite h.updSource.directWords h.updSource)) (.ite h.updSource.directWords h.updSource))

theorem State.Canon.confQueryApply (h : s.Canon) {c : Cmd} : (confQueryApply c s).Canon := h.queryReply

theorem State.Canon.mixSourceAddApply (h : s.Canon) {c : Cmd} : (mixSourceAddApply c s).Canon := by
  unfold Machine.mixSourceAddApply
  dsimp only
  split
  · exact .mk h
  · exact .mk h.updMix.changeEntry

theorem State.Canon.lateOf (h : s.Canon) {t : State} {k : CmdSpec} {check : Cmd → State → Nat} {c : Cmd}
    {slice : Nat} : (s.lateOf t k check c slice).Canon := .ite h.markLate h

theorem State.Canon.modifySource (h : s.Canon) {c : Cmd} {w : When} : (s.modifySource c w).Canon :=
  h.updSource.changeEntry

theorem State.Canon.mixSourceModifyApply (h : s.Canon) {c : Cmd} : (mixSourceModifyApply c s).Canon :=
  .mk h.modifySource

theorem State.Canon.mixSourceRemoveApply (h : s.Canon) {c : Cmd} : (mixSourceRemoveApply c s).Canon :=
  .mk h.removeSource

theorem State.Canon.mixClassCreateApply (h : s.Canon) {c : Cmd} : (mixClassCreateApply c s).Canon :=
  .mk h.addClassStream.updMix.directEntry

theorem State.Canon.modifyClass (h : s.Canon) {c : Cmd} {w : When} : (s.modifyClass c w).Canon :=
  .changeEntry (h.updCls.foldl fun h1 => h1.updCls)

theorem State.Canon.mixClassModifyApply (h : s.Canon) {c : Cmd} : (mixClassModifyApply c s).Canon := .mk h.modifyClass

theorem State.Canon.mixClassDestroyApply (h : s.Canon) {c : Cmd} : (mixClassDestroyApply c s).Canon :=
  .mk h.destroyClass

theorem State.Canon.mixLegJoinApply (h : s.Canon) {c : Cmd} : (mixLegJoinApply c s).Canon := by
  unfold Machine.mixLegJoinApply
  refine .ite (.mk h.updMix) ?_
  extract_lets had
  split
  next t d heq =>
  have ht : t.Canon := by
    refine CanonFst.of_eq heq ?_
    split
    · exact .ite h.derived (.mk h)
    · exact .mk h
  exact .mk (.ite ht.setSub.updMix.noteFork ht.setSub.updMix)

theorem State.Canon.dropSub (h : s.Canon) {i : Nat} : (s.dropSub i).Canon := h.updNet.updMix

theorem State.Canon.mixLegLeaveApply (h : s.Canon) {c : Cmd} : (mixLegLeaveApply c s).Canon := .mk h.dropSub

theorem State.Canon.mixBatchApply (h : s.Canon) {c : Cmd} : (mixBatchApply c s).Canon :=
  .mk (h.foldl fun h1 => .ite h1.modifySource h1.modifyClass)

theorem State.Canon.mixTapSetApply (h : s.Canon) {c : Cmd} : (mixTapSetApply c s).Canon := .mk h.updMix

theorem State.Canon.mixQueryApply (h : s.Canon) {c : Cmd} : (mixQueryApply c s).Canon :=
  .ite h.queryReply h.queryReply

/-! ### The reference pool -/

theorem State.Canon.updVideo (h : s.Canon) {f : Video → Video} : (s.updVideo f).Canon := h.frame

theorem State.Canon.updPool (h : s.Canon) {f : Pool → Pool} : (s.updPool f).Canon := h.updVideo

theorem State.Canon.setEnt (h : s.Canon) {b : Nat} {e : PoolEnt} : (s.setEnt b e).Canon := h.updPool

theorem State.Canon.poolAlloc (h : s.Canon) {r : Nat} {b : Buf} {t : State} (e : s.poolAlloc r = some (b, t)) :
    t.Canon := by
  unfold State.poolAlloc at e
  dsimp only at e
  split at e
  · cases e
  · split at e
    · cases e
      exact h.setEnt.updPool
    · split at e
      · cases e
        exact h.setEnt.updPool
      · cases e

theorem State.Canon.settle (h : s.Canon) {b : Nat} {e : PoolEnt} : (s.settle b e).Canon :=
  .ite h.setEnt.updPool h.setEnt

theorem State.Canon.markSet (h : s.Canon) {b : Buf} {m : Nat} : CanonSnd (s.markSet b m) :=
  .ite (.mk h) (.ite (.mk h) (.ite (.mk h) (.ite (.mk h) (.mk h.setEnt))))

theorem State.Canon.markClear (h : s.Canon) {b : Buf} {m : Nat} : CanonSnd (s.markClear b m) :=
  .ite (.mk h) (.ite (.mk h) (.ite (.mk h.updPool) (.mk h.settle)))

theorem State.Canon.unmark (h : s.Canon) {b : Buf} {m : Nat} : (s.unmark b m).Canon := h.markClear

theorem State.Canon.mark (h : s.Canon) {b : Buf} {m : Nat} : (s.mark b m).Canon := h.markSet

theorem State.Canon.poolDone (h : s.Canon) {b : Buf} {marks : List Nat} {f : PoolEnt → PoolEnt} :
    (s.poolDone b marks f).Canon := h.settle

theorem State.Canon.poolDrop (h : s.Canon) {b : Buf} : (s.poolDrop b).Canon := h.poolDone

theorem State.Canon.greyFill (hs : s.Canon) {b : Buf} {w h : Nat} {p010 : Bool} : (s.greyFill b w h p010).Canon :=
  hs.memWrite

theorem State.Canon.decodedFill (hs : s.Canon) {b : Buf} {w h : Nat} {p010 deep mono : Bool} :
    (s.decodedFill b w h p010 deep mono).Canon := hs.memWrite.frame

theorem State.Canon.publish (h : s.Canon) {old new : Slot} : (s.publish old new).Canon := by
  unfold State.publish
  dsimp only
  split
  · refine .ite ?_ (.unmark (by split; exacts [h.mark, h]))
    split
    · exact h.mark
    · exact h
  · split
    · exact h.mark
    · exact h

theorem State.Canon.acquire (h : s.Canon) {x : Slot} : CanonSnd (s.acquire x) := by
  unfold State.acquire
  split
  · exact .mk h
  · split
    · next s1 heq => exact .mk (CanonSnd.of_eq heq h.markSet)
    · next fst snd heq => exact .mk h

theorem State.Canon.opRes (h : s.Canon) {core code gen : Nat} {v : Option Nat} : (s.opRes core code gen v).Canon := by
  unfold State.opRes
  split
  next w t heq =>
  have ht : t.Canon := by
    refine CanonSnd.of_eq heq ?_
    split
    · exact .mk h
    · exact .mk h.freeWord
  exact ht.updPool

theorem State.Canon.poolOp (h : s.Canon) {core op : Nat} {v : Word} : (s.poolOp core op v).Canon := by
  unfold State.poolOp
  dsimp only
  split
  · exact h.markSet.opRes
  · exact h.markClear.opRes
  · exact .ite h.opRes h.opRes
  · exact .ite h.opRes h.opRes
  · exact h

theorem State.Canon.poolRes (h : s.Canon) {core : Fin 4} {op : Nat} {v : Word} : Res.Canon (poolRes core op v s) :=
  .next h.poolOp.frame

/-! ### The decode pipes -/

theorem State.Canon.updEng (h : s.Canon) {pe : Nat} {f : DecEng → DecEng} : (s.updEng pe f).Canon := h.updVideo

theorem State.Canon.updDec (h : s.Canon) {i : Nat} {f : DecCtx → DecCtx} : (s.updDec i f).Canon := h.updVideo

theorem State.Canon.cntDec (h : s.Canon) {pe dec k : Nat} {n : Nat} : (s.cntDec pe dec k n).Canon := h.bump.updDec

theorem State.Canon.updReqPort (h : s.Canon) {pe core : Nat} {f : ReqPort → ReqPort} :
    (s.updReqPort pe core f).Canon := h.updEng

theorem State.Canon.reqAccess (h : s.Canon) {pe core off : Nat} {f : State → State}
    (hf : ∀ {t : State}, t.Canon → (f t).Canon) : (s.reqAccess pe core off f).Canon :=
  .ite h.frame.kernelErr (hf h).frame

theorem State.Canon.execReqAppend (h : s.Canon) {pe : Fin 8} {core : Fin 512} {words : List Word} :
    Res.Canon (execReqAppend pe core words s) := .next (h.reqAccess fun h1 => h1.updReqPort)

theorem State.Canon.reqCommit (h : s.Canon) {pe core : Nat} : (s.reqCommit pe core).Canon := by
  unfold State.reqCommit
  dsimp only
  split
  · exact h.bump.updReqPort
  · exact .ite (.updReqPort (.ite h.cntDec h.bump)) (.ite h.setFifo.updReqPort.updEng h.updReqPort)

theorem State.Canon.dropStaged (h : s.Canon) {core : Nat} : (s.dropStaged core).Canon := h.updVideo

theorem State.Canon.sweepReqs (h : s.Canon) {pe : Nat} : (s.sweepReqs pe).Canon := .ite h h.setFifo.updEng

theorem State.Canon.decDone (h : s.Canon) {pe dec status ts : Nat} {buf : Option Buf} {pub refresh : Bool}
    {cycles : Nat} : (s.decDone pe dec status ts buf pub refresh cycles).Canon := h.setFifo.updEng

theorem State.Canon.decTo (h : s.Canon) {i : Nat} {st : DecSt} : (s.decTo i st).Canon :=
  .ite h (.ite h.updDec.notify h.updDec)

theorem State.Canon.refreshReq (h : s.Canon) {i : Nat} : (s.refreshReq i).Canon := by
  unfold State.refreshReq
  dsimp only
  split
  · exact h
  · exact .ite h.updNet h.freeWord.postHw

theorem State.Canon.unlayer (h : s.Canon) {i : Nat} {p : Pic → Bool} : (s.unlayer i p).Canon :=
  h.updDec.foldl fun h1 => h1.unmark

theorem State.Canon.newUnit (h : s.Canon) {i ts : Nat} : (s.newUnit i ts).Canon := .ite h h.unlayer.updDec

theorem State.Canon.applyRp (h : s.Canon) {i l : Nat} {f : PicFacts} : (s.applyRp i l f).Canon := by
  unfold State.applyRp
  dsimp only
  split
  · exact h.updDec.decTo
  · exact .ite (.ite (.ite h.updDec h) h.updDec.decTo) h
  · exact h
  · exact h

theorem State.Canon.decWait (h : s.Canon) {i : Nat} : (s.decWait i).Canon := h.updDec.decTo

theorem State.Canon.greyFor (h : s.Canon) {j : DecJob} : CanonSnd (s.greyFor j) := by
  unfold State.greyFor
  refine .ite ?_ (.mk h)
  split
  · next b s1 heq => exact .mk ((h.poolAlloc heq).setEnt.greyFill)
  · exact .mk h

theorem State.Canon.dropJob (h : s.Canon) {j : DecJob} : (s.dropJob j).Canon := by
  unfold State.dropJob
  dsimp only
  split
  · exact .poolDrop (by split; exacts [h.poolDrop, h])
  · split
    · exact h.poolDrop
    · exact h

theorem State.Canon.takeReq (h : s.Canon) {pe : Nat} {r : DecReq} : (s.takeReq pe r).Canon := h.updEng.sweepReqs

theorem State.Canon.loseTold (hs : s.Canon) {i : Nat} {h : List Word} : (s.loseTold i h).Canon := .ite hs.updDec hs

theorem State.Canon.beginUnit {s0 : State} (h : s0.Canon) {pe : Nat} {r : DecReq} {f : PicFacts} {b : Buf}
    {region : Nat} : (s0.beginUnit pe r f b region).Canon :=
  .updEng (.greyFor (.ite (.ite h.loseTold.updDec.applyRp.updDec h.loseTold.updDec.applyRp) h.loseTold))

theorem State.Canon.tryUnit {s0 : State} (h : s0.Canon) {pe : Nat} {r : DecReq} {f : PicFacts} :
    (s0.tryUnit pe r f).Canon := by
  unfold State.tryUnit
  refine .ite
    (.decDone (.cntDec (.updDec (.decWait (.ite h.newUnit.updDec.takeReq h.newUnit.updDec.takeReq.notify)))))
    ?_
  refine .ite h.newUnit.updDec.takeReq.loseTold.cntDec.decDone ?_
  dsimp only
  split
  · next b s1 heq => exact (h.newUnit.updDec.poolAlloc heq).takeReq.beginUnit
  · exact h.newUnit.updDec.updEng

theorem State.Canon.noBuffer (h : s.Canon) {pe : Nat} {r : DecReq} : (s.noBuffer pe r).Canon :=
  h.takeReq.loseTold.updDec.cntDec.decDone

theorem State.Canon.execDecodeStart (h : s.Canon) {pe : Fin 8} {facts : PicFacts} {el : Nat} :
    Res.Canon (execDecodeStart pe facts el s) := by
  unfold Machine.execDecodeStart
  refine .ite (.next h.advance) ?_
  split
  · exact .next h.advance
  · exact .next (.ite h.advance.noBuffer h.advance.tryUnit)

theorem State.Canon.execAllocWaitTimeout (h : s.Canon) {pe : Fin 8} {el : Nat} :
    Res.Canon (execAllocWaitTimeout pe el s) := by
  unfold Machine.execAllocWaitTimeout
  dsimp only
  split
  · exact .next h.advance
  · exact .ite (.next h.advance.noBuffer) (.next h.advance)

theorem State.Canon.takeSlots (h : s.Canon) {i : Nat} {p : Pic} {takes empties : List Nat} :
    (s.takeSlots i p takes empties).Canon := h.updDec.foldl fun h1 => h1.unmark

theorem State.Canon.reportConc (h : s.Canon) {i l ts : Nat} : (s.reportConc i l ts).Canon :=
  .ite h.conceal.updDec.refreshReq.updDec.notify h.conceal.updDec.refreshReq

theorem State.Canon.endUnit {s0 : State} (h : s0.Canon) {pe : Nat} {j : DecJob} {b : Buf} {f : PicFacts} :
    (s0.endUnit pe j b f).Canon := by
  unfold State.endUnit
  extract_lets _ l ts s1 s2 _ conc _ s3 s4 _ d _ p _ _ _ _ s5 s6 s7 oldHold s8 _ s9 s10 s11 s12 s13 s14 s15 s16 s17
  have h1 : s1.Canon := h.updDec
  have h2 : s2.Canon := .ite h1.decTo h1
  have h3 : s3.Canon := h2.updDec
  have h4 : s4.Canon := .ite h3.updDec h3
  have h8 : s8.Canon := h4.decodedFill.poolDone.takeSlots.updDec
  have h9 : s9.Canon := .ite h8.publish.updDec h8
  have h10 : s10.Canon := by
    unfold s10 oldHold
    split
    · exact h9.unmark
    · exact h9
  have h11 : s11.Canon := .ite h10.unlayer h10
  have h12 : s12.Canon := .ite h11.reportConc h11
  have h14 : s14.Canon := .ite h12.cntDec.cntDec h12.cntDec
  have h15 : s15.Canon := .ite h14 h14.cntDec
  have h16 : s16.Canon := by
    unfold s16
    split
    · exact h15.poolDrop
    · exact h15
  exact h16.updEng.decDone

theorem State.Canon.execDecodeComplete (h : s.Canon) {pe : Fin 8} {facts : PicFacts} {el : Nat} :
    Res.Canon (execDecodeComplete pe facts el s) := by
  unfold Machine.execDecodeComplete
  dsimp only
  split
  · exact .next h.advance
  · split
    · exact .next h.advance
    · exact .ite (.next h.advance) (.ite (.next h.advance.dropJob.updDec.cntDec.decDone) (.next h.advance.endUnit))

theorem State.Canon.execRefreshTimerExpiry (h : s.Canon) {ctx : Nat} {el : Nat} :
    Res.Canon (execRefreshTimerExpiry ctx el s) := by
  unfold Machine.execRefreshTimerExpiry
  dsimp only
  split
  · exact .next h.advance
  · split
    · exact .next h.advance
    · exact .ite (.next h.advance.updDec.refreshReq) (.next h.advance)

/-! ### DEC commands -/

theorem State.Canon.dropRequests (h : s.Canon) {i : Nat} : (s.dropRequests i).Canon :=
  .sweepReqs (.updEng (by split; exacts [.ite h.dropJob.updEng h, h]))

theorem State.Canon.clearDecMarks (h : s.Canon) {i : Nat} : (s.clearDecMarks i).Canon :=
  .updDec (.foldl (.foldl (h.foldl fun h1 => h1.unmark) fun h1 => h1.unmark) fun h1 => h1.unmark)

theorem State.Canon.emptySlot (h : s.Canon) {i : Nat} : (s.emptySlot i).Canon := h.publish.updDec

theorem State.Canon.sourceGone (h : s.Canon) {i : Nat} : (s.sourceGone i).Canon :=
  h.foldl fun h1 => .updVideo (h1.foldl fun h2 => h2.notify)

theorem State.Canon.destroyDec (h : s.Canon) {i : Nat} : (s.destroyDec i).Canon :=
  .ite h.dropRequests.clearDecMarks.emptySlot.updVideo.sourceGone h

theorem State.Canon.moveDec (h : s.Canon) {i pe : Nat} : (s.moveDec i pe).Canon :=
  h.dropRequests.clearDecMarks.updDec.refreshReq

theorem State.Canon.decCreateApply (h : s.Canon) {c : Cmd} : (decCreateApply c s).Canon := .mk h.updVideo

theorem State.Canon.decModifyApply (h : s.Canon) {c : Cmd} : (decModifyApply c s).Canon :=
  .mk (.ite h.updDec h.updDec.moveDec)

theorem State.Canon.decDestroyApply (h : s.Canon) {c : Cmd} : (decDestroyApply c s).Canon := .mk h.destroyDec

theorem State.Canon.decQueryApply (h : s.Canon) {c : Cmd} : (decQueryApply c s).Canon := h.queryReply

theorem State.Canon.decSnapshotApply (h : s.Canon) {c : Cmd} : (decSnapshotApply c s).Canon := .mk h.mark.updVideo

theorem State.Canon.execSnapshotCopyDone (h : s.Canon) {tenant : Fin 4} {ok : Bool} {el : Nat} :
    Res.Canon (execSnapshotCopyDone tenant ok el s) := by
  unfold Machine.execSnapshotCopyDone
  dsimp only
  split
  · exact .next h.advance
  · exact .next (.notify (.ite h.advance.unmark.updVideo.dmaBytes h.advance.unmark.updVideo))

/-! ### The encode pipes -/

theorem State.Canon.updGroup (h : s.Canon) {i : Nat} {f : Group → Group} : (s.updGroup i f).Canon := h.updVideo

theorem State.Canon.updRend (h : s.Canon) {i : Nat} {f : Rend → Rend} : (s.updRend i f).Canon := h.updVideo

theorem State.Canon.updEnc (h : s.Canon) {pe : Nat} {f : EncEng → EncEng} : (s.updEnc pe f).Canon := h.updVideo

theorem State.Canon.cntEnc (h : s.Canon) {pe k : Nat} {n : Nat} : (s.cntEnc pe k n).Canon := h.bump

theorem State.Canon.outPublish (h : s.Canon) {pe c : Nat} {items : List (List Word)} {eop : Bool} :
    (s.outPublish pe c items eop).Canon := .setFifo (h.foldl fun h1 => h1.memWords)

theorem State.Canon.tryPost (h : s.Canon) {pe : Nat} {p : EncPost} {t : State} (e : s.tryPost pe p = some t) :
    t.Canon := by
  cases p with
  | out c l =>
    simp only [State.tryPost] at e
    split at e
    · cases e
      exact h.outPublish
    · cases e
  | done it =>
    simp only [State.tryPost] at e
    split at e
    · cases e
      exact h.setFifo
    · cases e

theorem State.Canon.payOwed (h : s.Canon) {pe : Nat} : (s.payOwed pe).Canon := by
  unfold State.payOwed
  refine .ite ?_ h
  split
  next t left heq =>
  have ht : t.Canon := by
    refine CanonFst.of_eq heq (.foldl (.mk h) fun {a p} ha => .ite ha ?_)
    split
    · next u hu => exact .mk (ha.tryPost hu)
    · exact ha
  exact ht.updEnc

theorem State.Canon.encPost (h : s.Canon) {pe : Nat} {p : EncPost} : (s.encPost pe p).Canon := h.updEnc.payOwed

theorem State.Canon.encStep (h : s.Canon) {pe el : Nat} : (s.encStep pe el).Canon := h.advance.payOwed

theorem State.Canon.encDone (h : s.Canon) {pe status r ts : Nat} {starved : Bool} {waveK bytes floor skip : Nat} :
    (s.encDone pe status r ts starved waveK bytes floor skip).Canon := h.encPost

theorem State.Canon.sweepPics (h : s.Canon) {gi : Nat} : (s.sweepPics gi).Canon :=
  .updGroup (h.foldl (fun h1 => .ite (.updGroup (h1.foldl fun h2 => h2.unmark)) h1))

theorem State.Canon.finishRend (h : s.Canon) {r seq : Nat} : (s.finishRend r seq).Canon := h.updGroup.sweepPics

theorem State.Canon.lateDrop (h : s.Canon) {gi seq : Nat} : (s.lateDrop gi seq).Canon := by
  unfold State.lateDrop
  dsimp only
  split
  · exact h
  · exact .foldl (.cntEnc (.updGroup (h.foldl fun h1 => h1.unmark))) fun h1 => .ite h1.updRend.encDone h1

theorem State.Canon.acceptItem (h : s.Canon) {pe : Nat} {it : List Word} : (s.acceptItem pe it).Canon := by
  unfold State.acceptItem
  extract_lets w gi
  split
  · exact h.cntEnc
  · refine .ite h.cntEnc ?_
    extract_lets dmg gmv seq t p
    have ht : t.Canon := h.updGroup
    split
    next u got ok heq =>
    have hu : u.Canon := by
      refine CanonFst.of_eq heq (.foldl (.mk ht) fun {a x} ha => .ite ?_ ha)
      split
      · next v heq => exact .mk (CanonSnd.of_eq heq ha.markSet)
      · next v _ heq => exact .mk (CanonSnd.of_eq heq ha.markSet)
    refine .ite (State.Canon.cntEnc (hu.foldl fun h1 => h1.unmark)) ?_
    extract_lets s2
    split
    · exact hu.updGroup.lateDrop
    · exact hu.updGroup

theorem State.Canon.acceptOne (h : s.Canon) {pe : Nat} : (s.acceptOne pe).Canon := by
  unfold State.acceptOne
  dsimp only
  split
  · exact .ite h.setFifo.acceptItem h
  · exact h

theorem State.Canon.acceptAll (h : s.Canon) {pe : Nat} : (s.acceptAll pe).Canon := h.foldl fun h1 => h1.acceptOne

theorem State.Canon.starve (h : s.Canon) {gi : Nat} : (s.starve gi).Canon := by
  unfold State.starve
  split
  · exact h
  · exact .ite h (.ite h.updGroup.cntEnc.updEnc.updGroup.notify h.updGroup.cntEnc.updEnc)

theorem State.Canon.takeWaveReq (h : s.Canon) {gi : Nat} : (s.takeWaveReq gi).Canon := .ite h.updNet.updGroup h

theorem State.Canon.waveDue (h : s.Canon) {gi : Nat} : CanonSnd (s.waveDue gi) := by
  unfold State.waveDue
  refine .ite (.mk (.ite h.updGroup.updGroup.cntEnc h.updGroup)) ?_
  refine .ite (.mk h.updGroup) ?_
  refine .ite (.mk h.updGroup.updGroup.cntEnc.updGroup) ?_
  split
  · exact .ite (.mk h.updGroup.updGroup.cntEnc) (.mk h.updGroup)
  · exact .mk h.updGroup

theorem State.Canon.execAnalysisStart (h : s.Canon) {pe : Fin 8} {el : Nat} : Res.Canon (execAnalysisStart pe el s) := by
  unfold Machine.execAnalysisStart
  refine .ite (.next h.encStep) ?_
  split
  · exact .next h.encStep
  · exact .next <|
      .updEnc <|
        .updGroup <|
          .foldl (CanonSnd.ite h.encStep.updGroup.takeWaveReq.waveDue (.mk h.encStep.updGroup.takeWaveReq)) fun h1 =>
            h1.updRend

theorem State.Canon.queuePic (h : s.Canon) {g : Group} {p : EncPic} {d : Tbl BlkDec} {seq i : Nat} :
    (s.queuePic g p d seq i).Canon := .ite h.updRend.frame h.finishRend

theorem State.Canon.abortPlanned (h : s.Canon) {g : Group} {p : EncPic} {seq i : Nat} :
    (s.abortPlanned g p seq i).Canon := .ite h.updRend.encDone.finishRend h.finishRend

theorem State.Canon.execAnalysisComplete (h : s.Canon) {pe : Fin 8} {unread : Bool} {el : Nat} :
    Res.Canon (execAnalysisComplete pe unread el s) := by
  unfold Machine.execAnalysisComplete
  dsimp only
  split
  · exact .next h.encStep
  · exact .ite (.next h.encStep) <|
      .ite (.next (.sweepPics (h.encStep.updEnc.foldl fun h1 => h1.abortPlanned))) <|
        .next (.sweepPics (.updGroup (h.encStep.cntEnc.updEnc.foldl fun h1 => h1.queuePic)))

/-! ### The residual coders -/

theorem State.Canon.dropQueue (h : s.Canon) {r : Nat} : (s.dropQueue r).Canon :=
  h.updRend.foldl fun h1 => h1.finishRend

theorem State.Canon.dropRefs (h : s.Canon) {r : Nat} : (s.dropRefs r).Canon := h.updRend.foldl fun h1 => h1.unmark

theorem State.Canon.sweepGroup (h : s.Canon) {gi : Nat} : (s.sweepGroup gi).Canon :=
  .ite (.updVideo (h.foldl fun h1 => h1.foldl fun h2 => h2.unmark)) h

theorem State.Canon.sweepRend (h : s.Canon) {r : Nat} : (s.sweepRend r).Canon :=
  .ite (.sweepGroup (.updVideo (h.dropQueue.dropRefs.foldl fun h1 => h1.finishRend))) h

theorem State.Canon.endJob (h : s.Canon) {pe c : Nat} {j : CoderJob} : (s.endJob pe c j).Canon :=
  h.updEnc.finishRend.sweepRend

theorem State.Canon.setJob (h : s.Canon) {pe c : Nat} {j : CoderJob} : (s.setJob pe c j).Canon := h.updEnc

theorem State.Canon.jobDone (h : s.Canon) {pe status : Nat} {j : CoderJob} : (s.jobDone pe status j).Canon :=
  h.encDone

theorem State.Canon.notCoded (h : s.Canon) {pe c status : Nat} {j : CoderJob} : (s.notCoded pe c status j).Canon :=
  h.updRend.jobDone.endJob

theorem State.Canon.allocFit (h : s.Canon) {r bytes : Nat} {b : Buf} {t : State}
    (e : s.allocFit r bytes = some (b, t)) : t.Canon := by
  unfold State.allocFit at e
  split at e
  · cases e
  · exact h.poolAlloc e

theorem State.Canon.reconAlloc (h : s.Canon) {pe c : Nat} {j : CoderJob} : (s.reconAlloc pe c j).Canon := by
  unfold State.reconAlloc
  dsimp only
  split
  · next b s1 heq => exact (h.allocFit heq).setJob
  · exact h.setJob

theorem State.Canon.encNoBuffer (h : s.Canon) {pe c : Nat} {j : CoderJob} : (s.encNoBuffer pe c j).Canon :=
  h.cntEnc.notCoded

theorem State.Canon.capDrop (h : s.Canon) {pe c : Nat} {j : CoderJob} : (s.capDrop pe c j).Canon :=
  .notCoded (.ite h.cntEnc.updRend.updRend.notify h.cntEnc.updRend)

theorem State.Canon.beginPic (h : s.Canon) {pe c : Nat} {j : CoderJob} {hdr : EncHdr} :
    (s.beginPic pe c j hdr).Canon := .ite h.notCoded (.ite h.capDrop h.frame.reconAlloc)

theorem State.Canon.execCoderStart (h : s.Canon) {pe : Fin 8} {coder : Fin 4} {header : Option EncHdr} {el : Nat} :
    Res.Canon (execCoderStart pe coder header el s) := by
  unfold Machine.execCoderStart
  refine .ite (.next h.encStep) ?_
  split
  · refine .ite (.next h.encStep) ?_
    refine .ite (.next (.ite h.encStep.encNoBuffer h.encStep.reconAlloc)) ?_
    refine .next ?_
    refine .ite h.encStep.notCoded ?_
    split
    · exact h.encStep.beginPic
    · exact h.encStep.setJob
  · split
    · exact .next h.encStep
    · refine .next ?_
      split
      · exact h.encStep.updRend.updEnc.beginPic
      · exact h.encStep.updRend.updEnc.setJob

theorem State.Canon.execHeaderWaitTimeout (h : s.Canon) {pe : Fin 8} {coder : Fin 4} {el : Nat} :
    Res.Canon (execHeaderWaitTimeout pe coder el s) := by
  unfold Machine.execHeaderWaitTimeout
  dsimp only
  split
  · exact .next h.encStep
  · exact .ite (.next h.encStep.notCoded) (.next h.encStep)

theorem State.Canon.execReconAllocTimeout (h : s.Canon) {pe : Fin 8} {coder : Fin 4} {el : Nat} :
    Res.Canon (execReconAllocTimeout pe coder el s) := by
  unfold Machine.execReconAllocTimeout
  dsimp only
  split
  · exact .next h.encStep
  · exact .ite (.next h.encStep.encNoBuffer) (.next h.encStep)

theorem State.Canon.drain (h : s.Canon) {pe c : Nat} {j : CoderJob} : CanonFst (s.drain pe c j) :=
  .ite (.mk h) (.mk h.outPublish)

theorem State.Canon.stallJob (h : s.Canon) {pe c : Nat} {j : CoderJob} : (s.stallJob pe c j).Canon :=
  .ite h.setJob.starve h.setJob

theorem State.Canon.abortJob (h : s.Canon) {pe c by' : Nat} {lost : Bool} : (s.abortJob pe c by' lost).Canon := by
  unfold State.abortJob
  split
  · exact h
  · exact .endJob (.jobDone (.ite (by split; exacts [h.poolDrop, h]) (.encPost (by split; exacts [h.poolDrop, h]))))

theorem State.Canon.execCoderRowCommit (h : s.Canon) {pe : Fin 8} {coder : Fin 4} {bytes : Nat} {unread : Bool}
    {el : Nat} : Res.Canon (execCoderRowCommit pe coder bytes unread el s) := by
  unfold Machine.execCoderRowCommit
  dsimp only
  split
  · exact .next h.encStep
  · exact .ite (.next h.encStep) <|
      .ite (.next h.encStep.updRend.abortJob) <|
        .ite (.next h.encStep.drain.stallJob) <|
          .ite (.next h.encStep.drain.setJob) <|
            .next (.ite h.encStep.drain.frame.drain.stallJob h.encStep.drain.frame.drain.setJob)

theorem State.Canon.takeRecon (h : s.Canon) {i t : Nat} {b : Buf} {seq : Nat} : (s.takeRecon i t b seq).Canon :=
  h.updRend.foldl fun h1 => h1.unmark

theorem State.Canon.trimHist (h : s.Canon) {gi : Nat} : (s.trimHist gi).Canon := by
  unfold State.trimHist
  dsimp only
  split
  · exact h.updGroup
  · exact h

theorem State.Canon.finishRecon (h : s.Canon) {j : CoderJob} {b : Buf} : (s.finishRecon j b).Canon :=
  .takeRecon (.poolDone (.ite h.greyFill h.decodedFill))

theorem State.Canon.execPictureCoded (h : s.Canon) {pe : Fin 8} {coder : Fin 4} {el : Nat} :
    Res.Canon (execPictureCoded pe coder el s) := by
  unfold Machine.execPictureCoded
  extract_lets pe' t c
  have ht : t.Canon := h.encStep
  split
  · exact .next ht
  · split
    · exact .next ht
    · refine .ite (.next ht) ?_
      split
      next u j heq =>
      have hu : u.Canon := CanonFst.of_eq heq ht.drain
      refine .ite (.next hu.stallJob) ?_
      split
      extract_lets gi g skips s1 late s2 j s3 s4 s5 s6
      have h2 : s2.Canon := .ite hu.outPublish.finishRecon.starve hu.outPublish.finishRecon
      have h4 : s4.Canon := h2.updRend.cntEnc.cntEnc.cntEnc
      have h5 : s5.Canon := (State.Canon.ite h4.cntEnc h4).cntEnc
      exact .next h5.updEnc.jobDone.endJob.trimHist

theorem State.Canon.removeRend (h : s.Canon) {i : Nat} : (s.removeRend i).Canon :=
  .ite h.dropStream.updRend.dropQueue.sweepRend h

theorem State.Canon.removeGroup (h : s.Canon) {gi : Nat} : (s.removeGroup gi).Canon :=
  .sweepGroup (h.updGroup.foldl fun h1 => h1.removeRend)

theorem State.Canon.moveGroup (h : s.Canon) {gi pe : Nat} {lost : Bool} : (s.moveGroup gi pe lost).Canon :=
  have h1 := State.Canon.foldl h fun h1 => h1.abortJob
  have h2 := State.Canon.foldl h1 fun h1 => h1.dropQueue.updRend
  have h4 := State.Canon.foldl h2.updEnc fun h1 => h1.foldl fun h2 => h2.unmark
  h4.updGroup.sweepGroup

/-! ### Pixels of a composition -/

theorem State.Canon.writeCanvas (h : s.Canon) {pe : Nat} {sh : Sheet} {shown : List Shown} {b : Buf} :
    (s.writeCanvas pe sh shown b).Canon := h.memWrite

theorem State.Canon.writeScaled (h : s.Canon) {pe : Nat} {sh : Sheet} {one : Buf} {code : Nat} {b : Buf} :
    (s.writeScaled pe sh one code b).Canon := h.memWrite

/-! ### Composition -/

theorem State.Canon.updLayout (h : s.Canon) {i : Nat} {f : Layout → Layout} : (s.updLayout i f).Canon := h.updVideo

theorem State.Canon.cntComp (h : s.Canon) {i k : Nat} {n : Nat} : (s.cntComp i k n).Canon := h.bump.updLayout

theorem State.Canon.dropHeld (h : s.Canon) {i k : Nat} : (s.dropHeld i k).Canon := by
  unfold State.dropHeld
  split
  · exact h
  · exact .updLayout (by split; exacts [h.unmark, h])

theorem State.Canon.takeSheet (h : s.Canon) {i : Nat} {sh : Sheet} : (s.takeSheet i sh).Canon :=
  .updLayout (h.foldl fun h1 => .ite h1 h1.dropHeld)

theorem State.Canon.ratioCheck (h : s.Canon) {i : Nat} {c : List Word} {x : Shown} : CanonFst (s.ratioCheck i c x) :=
  .ite (.mk h.cntComp) (.mk h)

theorem State.Canon.missTick (h : s.Canon) {i : Nat} : (s.missTick i).Canon :=
  .ite h.cntComp.updLayout.updLayout.notify h.cntComp.updLayout

theorem State.Canon.lateTick (h : s.Canon) {i : Nat} : (s.lateTick i).Canon := h.missTick.updLayout

theorem State.Canon.allocScales (h : s.Canon) {sh : Sheet} {l : List Nat} {bs : Tbl Buf} {t : State}
    (e : s.allocScales sh l = some (bs, t)) : t.Canon := by
  induction l generalizing s bs t with
  | nil =>
    cases e
    exact h
  | cons c l ih =>
    unfold State.allocScales at e
    split at e
    · cases e
    · next heq =>
      obtain ⟨x, hx, ex⟩ := Option.map_eq_some_iff.mp e
      cases ex
      exact ih (h.allocFit heq) hx

theorem State.Canon.writeMaps (h : s.Canon) {i n : Nat} {shown : List Shown} : CanonFst (s.writeMaps i n shown) :=
  .mk h.memWords.memWords.updLayout.cntComp.cntComp

theorem Gather.canon_cell {g : Gather} (h : g.st.Canon) {i k : Nat} {c : List Word} : (g.cell i k c).st.Canon := by
  unfold Gather.cell
  extract_lets s add slot clean
  have ha : ∀ {u : State} {x : Shown} {l : List Buf} {b : Bool}, u.Canon → (add u x l b).st.Canon := fun hu => hu
  have hr : ∀ {u : State} {x : Shown}, u.Canon → CanonFst (u.ratioCheck i c x) := fun hu => hu.ratioCheck
  split
  · exact ha h
  · split
    · split
      · exact ha h
      · exact ha (hr h)
    · split
      · exact ha h
      · split
        · next t heq => exact ha (CanonSnd.of_eq heq h.acquire).cntComp
        · next b t heq =>
          have ht : t.Canon := CanonSnd.of_eq heq h.acquire
          extract_lets e x held other v
          have ho : ∀ {u : State}, u.Canon → (other u).Canon := fun hu => .ite hu hu.dropHeld
          split
          · exact ha (.ite (ho (hr ht)) (hr ht))
          · split
            next u y heq =>
            have hu : u.Canon := CanonFst.of_eq heq (hr ht)
            split
            · exact ha hu
            · exact ha hu.dropHeld.updLayout
          · have hv : v.Canon := ht.unmark.cntComp
            clear_value held
            split
            · exact ha (hr hv)
            · exact ha hv
          · exact ha (.ite (ho (hr ht)) (hr ht))
          · exact ha ht.cntComp

theorem State.Canon.gather (h : s.Canon) {i : Nat} : (s.gather i).st.Canon :=
  List.foldlRecOn _ _ (motive := (fun g : Gather => g.st.Canon)) h fun _ hg _ _ => Gather.canon_cell hg

theorem State.Canon.startPicture (h : s.Canon) {i n : Nat} : (s.startPicture i n).Canon := by
  unfold State.startPicture
  extract_lets l0 s1 s2 g sh
  have h1 : s1.Canon := by
    unfold s1
    split
    · exact .ite h.takeSheet.updLayout h
    · exact h
  have h2 : s2.Canon := h1.updLayout
  have hg : g.st.Canon := h2.gather
  split
  · exact (h2.withCnts hg.cnts).updLayout.cntComp
  · next bufs t heq =>
    split
    next u valid gm heq2 =>
    exact (CanonFst.of_eq heq2 (hg.allocScales heq).writeMaps).updLayout

theorem State.Canon.execLayoutTick (h : s.Canon) {layout : Fin 1024} {el : Nat} :
    Res.Canon (execLayoutTick layout el s) := by
  unfold Machine.execLayoutTick
  dsimp only
  split
  · exact .next h.advance
  · exact .ite (.next h.advance) <|
      .ite (.next h.advance.lateTick) <|
        .ite (.next h.advance.updLayout) <|
          .ite (.next h.advance.lateTick) (.ite (.next h.advance) (.next h.advance.updVideo.startPicture))

theorem State.Canon.freeLayout (h : s.Canon) {i : Nat} : (s.freeLayout i).Canon := by
  unfold State.freeLayout
  exact .updVideo (.publish (.foldl (h.foldl fun h1 => h1.unmark) fun h1 => h1.dropHeld))

theorem State.Canon.destroyLayout (h : s.Canon) {i : Nat} : (s.destroyLayout i).Canon :=
  .ite h.updLayout (.ite h.freeLayout h)

theorem State.Canon.dropPicture (h : s.Canon) {i : Nat} : (s.dropPicture i).Canon := by
  unfold State.dropPicture
  split
  · exact h
  · exact .updLayout (.foldl (h.foldl fun h1 => h1.poolDrop) fun h1 => h1.unmark)

theorem State.Canon.composePicture (h : s.Canon) {i : Nat} {j : CompJob} : (s.composePicture i j).Canon :=
  .updLayout (.publish (.foldl (h.writeCanvas.foldl fun h1 => h1.writeScaled) fun h1 => h1.setEnt))

theorem State.Canon.postInputs (h : s.Canon) {i : Nat} {j : CompJob} {l : List Nat} : CanonFst (s.postInputs i j l) := by
  induction l generalizing s with
  | nil => exact .mk h
  | cons g l ih => exact .ite (ih h) (.ite (ih h.setFifo.acceptAll) (.mk h))

theorem State.Canon.endPicture (h : s.Canon) {i : Nat} {j : CompJob} : (s.endPicture i j).Canon :=
  have h1 := State.Canon.foldl (State.Canon.foldl h fun h1 => h1.poolDone) fun h1 => h1.unmark
  have h2 := h1.cntComp.updVideo.updLayout
  .ite h2.freeLayout h2

theorem State.Canon.damageMore (h : s.Canon) {i n : Nat} {l : List Nat} : (s.damageMore i n l).Canon :=
  h.memWords.foldl fun h1 => h1.memWords

theorem State.Canon.blankUnread (h : s.Canon) {i : Nat} {j : CompJob} {r : Reads} : CanonFst (s.blankUnread i j r) :=
  .ite (.mk h) (.mk h.damageMore.cntComp)

theorem State.Canon.execComposeComplete (h : s.Canon) {pe : Fin 8} {reads : Reads} :
    Res.Canon (execComposeComplete pe reads s) := by
  unfold Machine.execComposeComplete
  dsimp only
  split
  · exact .next h.advance
  · exact
      have h1 := CanonFst.ite h.advance.blankUnread (.mk h.advance)
      have h2 := State.Canon.postInputs (State.Canon.ite (State.Canon.composePicture h1) h1)
      .ite (.next h.advance) (.next (.ite (.endPicture h2) (.updLayout h2)))

theorem State.Canon.breakLayout (h : s.Canon) {i : Nat} : (s.breakLayout i).Canon :=
  .ite h.dropPicture.updLayout.missTick h.dropPicture.updLayout

theorem State.Canon.moveLayout (h : s.Canon) {i pe : Nat} : (s.moveLayout i pe).Canon := h.updLayout.breakLayout

/-! ### LAYOUT commands -/

theorem State.Canon.layoutCreateApply (h : s.Canon) {c : Cmd} : (layoutCreateApply c s).Canon := .mk h.updVideo

theorem State.Canon.pendSheet (h : s.Canon) {c : Cmd} {sh : Sheet} : (s.pendSheet c sh).Canon := h.updLayout

theorem State.Canon.layoutSetApply (h : s.Canon) {c : Cmd} : (layoutSetApply c s).Canon := .mk h.pendSheet

theorem State.Canon.layoutCellSetApply (h : s.Canon) {c : Cmd} : (layoutCellSetApply c s).Canon := .mk h.pendSheet

theorem State.Canon.layoutDestroyApply (h : s.Canon) {c : Cmd} : (layoutDestroyApply c s).Canon := .mk h.destroyLayout

theorem State.Canon.layoutQueryApply (h : s.Canon) {c : Cmd} : (layoutQueryApply c s).Canon := h.queryReply

theorem State.Canon.layoutImageLoadApply (h : s.Canon) {c : Cmd} : (layoutImageLoadApply c s).Canon := by
  unfold Machine.layoutImageLoadApply
  dsimp only
  split
  · exact .mk h
  · next b s1 heq =>
      exact .mk <|
        .updVideo (by split; exacts [(h.allocFit heq).memWrite.poolDone.unmark, (h.allocFit heq).memWrite.poolDone])

theorem State.Canon.freeImage (h : s.Canon) {i : Nat} : (s.freeImage i).Canon := by
  unfold State.freeImage
  split
  · exact h
  · exact h.unmark.updVideo

theorem State.Canon.layoutImageFreeApply (h : s.Canon) {c : Cmd} : (layoutImageFreeApply c s).Canon := .mk h.freeImage

/-! ### ENC commands -/

theorem State.Canon.encGroupCreateApply (h : s.Canon) {c : Cmd} : (encGroupCreateApply c s).Canon := .mk h.updVideo

theorem State.Canon.encGroupModifyApply (h : s.Canon) {c : Cmd} : (encGroupModifyApply c s).Canon := .mk h.updGroup

theorem State.Canon.encGroupDestroyApply (h : s.Canon) {c : Cmd} : (encGroupDestroyApply c s).Canon :=
  .mk h.removeGroup

theorem State.Canon.encRefreshApply (h : s.Canon) {c : Cmd} : (encRefreshApply c s).Canon := .mk h.updGroup

theorem State.Canon.encRendAddApply (h : s.Canon) {c : Cmd} : (encRendAddApply c s).Canon := .mk h.updVideo.updNet

theorem State.Canon.encRendModifyApply (h : s.Canon) {c : Cmd} : (encRendModifyApply c s).Canon :=
  .ite (.mk h.updRend.updRend.dropQueue) <|
    .ite (.mk h.updRend.updRend.dropQueue) (.ite (.mk h.updRend.updRend) (.mk h.updRend))

theorem State.Canon.encRendRemoveApply (h : s.Canon) {c : Cmd} : (encRendRemoveApply c s).Canon := .mk h.removeRend

theorem State.Canon.encQueryApply (h : s.Canon) {c : Cmd} : (encQueryApply c s).Canon :=
  .ite h.queryReply h.queryReply

/-! ### Legs, streams and cascades -/

theorem State.Canon.flushFlowq (h : s.Canon) {q : Nat} : (s.flushFlowq q).Canon := by
  unfold State.flushFlowq
  split
  · exact h
  · exact h.setFlowq.foldl fun h1 => h1.returnDesc.dropDesc

theorem State.Canon.destroyStream (h : s.Canon) {i : Nat} : (s.destroyStream i).Canon :=
  .dropStream <|
    .foldl (.foldl (h.foldl fun h1 => h1.removeSource) fun h1 => h1.destroyDec) fun h1 => h1.removeRend

theorem State.Canon.dropLegSubs (h : s.Canon) {i : Nat} : (s.dropLegSubs i).Canon := h.foldl fun h1 => h1.dropSub

theorem State.Canon.dropLegPeers (h : s.Canon) {i : Nat} : (s.dropLegPeers i).Canon := h.updNet

theorem State.Canon.sweepConf (h : s.Canon) {i : Nat} : (s.sweepConf i).Canon := .ite h.destroyConf h

theorem State.Canon.destroyLeg (h : s.Canon) {i : Nat} : (s.destroyLeg i).Canon := by
  unfold State.destroyLeg
  split
  · exact h
  · exact .sweepConf <|
      .updNet (.foldl (.dropLegPeers (.dropLegSubs (h.foldl fun h1 => h1.destroyStream))) fun h1 => h1.flushFlowq)

theorem State.Canon.legCreateApply (h : s.Canon) {c : Cmd} : (legCreateApply c s).Canon := .mk h.updNet

theorem State.Canon.legModifyApply (h : s.Canon) {c : Cmd} : (legModifyApply c s).Canon := .mk h.updLeg

theorem State.Canon.legDestroyApply (h : s.Canon) {c : Cmd} : (legDestroyApply c s).Canon := .mk h.destroyLeg

theorem State.Canon.legQueryApply (h : s.Canon) {c : Cmd} : (legQueryApply c s).Canon := h.queryReply

theorem State.Canon.streamCreateApply (h : s.Canon) {c : Cmd} : (streamCreateApply c s).Canon := .mk h.updNet

theorem State.Canon.streamDestroyApply (h : s.Canon) {c : Cmd} : (streamDestroyApply c s).Canon := .mk h.destroyStream

theorem State.Canon.streamSubscribeApply (h : s.Canon) {c : Cmd} : (streamSubscribeApply c s).Canon := .mk h.setSub

theorem State.Canon.streamModifyApply (h : s.Canon) {c : Cmd} : (streamModifyApply c s).Canon := .mk h.retarget

theorem State.Canon.streamUnsubscribeApply (h : s.Canon) {c : Cmd} : (streamUnsubscribeApply c s).Canon :=
  .mk h.dropSub

theorem State.Canon.streamQueryApply (h : s.Canon) {c : Cmd} : (streamQueryApply c s).Canon :=
  .ite h.queryReply h.queryReply

theorem State.Canon.cascadePeerAddApply (h : s.Canon) {c : Cmd} : (cascadePeerAddApply c s).Canon :=
  .mk h.freeWord.updNet

theorem State.Canon.cascadePeerRemoveApply (h : s.Canon) {c : Cmd} : (cascadePeerRemoveApply c s).Canon :=
  .mk h.destroyStream.updNet

theorem State.Canon.cascadeSetDevidApply (h : s.Canon) {c : Cmd} : (cascadeSetDevidApply c s).Canon :=
  .mk h.setRf.setRb

/-! ### QOS commands -/

theorem State.Canon.qosPolicerSetApply (h : s.Canon) {c : Cmd} : (qosPolicerSetApply c s).Canon := .mk h.updNet

theorem State.Canon.qosDscpMapSetApply (h : s.Canon) {c : Cmd} : (qosDscpMapSetApply c s).Canon := .mk h.updNet

theorem State.Canon.qosQueueCfgApply (h : s.Canon) {c : Cmd} : (qosQueueCfgApply c s).Canon := .mk h.loseOne.setFlowq

theorem State.Canon.qosShaperSetApply (h : s.Canon) {c : Cmd} : (qosShaperSetApply c s).Canon :=
  .mk h.loseOne.setFlowq

theorem State.Canon.qosQueueReleaseApply (h : s.Canon) {c : Cmd} : (qosQueueReleaseApply c s).Canon :=
  .mk h.loseOne.updNet

theorem State.Canon.qosClassSetApply (h : s.Canon) {c : Cmd} : (qosClassSetApply c s).Canon := .mk h.loseOne.updPort

theorem State.Canon.qosPortSetApply (h : s.Canon) {c : Cmd} : (qosPortSetApply c s).Canon := .mk h.setRf.setRf.updNet

theorem State.Canon.qosTenantSetApply (h : s.Canon) {c : Cmd} : (qosTenantSetApply c s).Canon :=
  .mk (.ite h.updPort.updNet.scalePort h.updPort.updNet)

theorem State.Canon.qosGateSetApply (h : s.Canon) {c : Cmd} : (qosGateSetApply c s).Canon := by
  unfold Machine.qosGateSetApply
  refine .mk ?_
  split
  · exact .ite h.setRf.updPort.gateStat.gateSwitch h.setRf.updPort.gateStat
  · exact h.setRf.updPort.gateStat

theorem State.Canon.qosEstCfgApply (h : s.Canon) {c : Cmd} : (qosEstCfgApply c s).Canon := .mk h.updNet

theorem State.Canon.estPost (h : s.Canon) {core tenant ev q : Nat} {w : List Nat} :
    (s.estPost core tenant ev q w).Canon := by
  unfold State.estPost
  split
  · exact h.cntDisp
  · split
    · exact h.cntDisp
    · exact h.drawItem.enqueue

theorem State.Canon.estTargets (h : s.Canon) {core leg : Nat} {e : Est} {outs : List EstOut} :
    (s.estTargets core leg e outs).Canon := .foldl (h.foldl fun h1 => h1.estPost) fun h1 => .ite h1 h1.estPost

theorem State.Canon.setCaps (h : s.Canon) {r : Nat} : (s.setCaps r).Canon := by
  unfold State.setCaps
  split
  · exact h
  · exact .ite h h.updRend

theorem State.Canon.execEstimateApply (h : s.Canon) {core : Fin 512} {leg : Fin 16384} {run : EstRun} {el : Nat} :
    Res.Canon (execEstimateApply core leg run el s) := by
  unfold Machine.execEstimateApply
  extract_lets s0
  have h0 : s0.Canon := h.advance
  split
  · exact .next h0
  · next heq =>
    have h1 := h0.popShared heq
    split
    · exact .next h1
    · exact
        have h2 := State.Canon.estTargets h1.updNet
        .next (State.Canon.foldl (.ite h2.notify h2) fun h3 => h3.setCaps)

theorem State.Canon.qosSamplerSetApply (h : s.Canon) {c : Cmd} : (qosSamplerSetApply c s).Canon :=
  .mk (.ite h.updNet h.updNet.loupeInit)

theorem State.Canon.qosQueryApply (h : s.Canon) {c : Cmd} : (qosQueryApply c s).Canon :=
  .ite h.queryReply h.queryReply

/-! ### The HBM controllers -/

theorem State.Canon.updHbm (h : s.Canon) {n : Nat} {f : Hbm → Hbm} : (s.updHbm n f).Canon := h.frame

theorem State.Canon.updHport (h : s.Canon) {n p : Nat} {f : HbmPort → HbmPort} : (s.updHport n p f).Canon := h.updHbm

theorem State.Canon.updHpc (h : s.Canon) {n c : Nat} {f : HbmPc → HbmPc} : (s.updHpc n c f).Canon := h.updHbm

theorem State.Canon.setHbState (h : s.Canon) {n st : Nat} : (s.setHbState n st).Canon := h.setRf

theorem State.Canon.cntHbm (h : s.Canon) {n k : Nat} {by' : Nat} : (s.cntHbm n k by').Canon := h.bump

theorem State.Canon.hbSpend (h : s.Canon) {n p : Nat} : (s.hbSpend n p).Canon := h.updHport

theorem State.Canon.hbLevel (h : s.Canon) {n p : Nat} : (s.hbLevel n p).Canon :=
  .setRb (.ite h.setRf.setRb.cntHbm h.setRf.setRb)

theorem State.Canon.srRequest (h : s.Canon) {n : Nat} : (s.srRequest n).Canon :=
  .ite (.ite h.setHbState h.updHbm) (.ite h.setHbState h)

theorem State.Canon.hbEnter (h : s.Canon) {n port : Nat} {write checked : Bool} {a : Nat} {data : List Byte} :
    (s.hbEnter n port write checked a data).Canon :=
  .ite h.updHbm.updHport (.ite h.updHbm.updHport.cntHbm h.updHbm.updHport)

theorem State.Canon.execHbmRequest (h : s.Canon) {n : Fin 2} {port : Fin 16} {write : Bool} {addr : Nat}
    {tenant : Option (Fin 4)} {data : List Byte} {el : Nat} : Res.Canon
    (execHbmRequest n port write addr tenant data el s) :=
  .ite (.next h.advance) <|
    .ite (.next h.advance.frame) <|
      .ite (.next h.advance) (.next (.frame (.hbLevel (.srRequest (h.advance.foldl fun h1 => h1.hbEnter)))))

theorem State.Canon.hbDrain (h : s.Canon) {n p : Nat} : (s.hbDrain n p).Canon := by
  unfold State.hbDrain
  split
  · exact h
  · exact h.updHport.hbSpend.updHbm.updHpc.memWrite

theorem State.Canon.execPostedWriteDrain (h : s.Canon) {n : Fin 2} : Res.Canon (execPostedWriteDrain n s) := by
  unfold Machine.execPostedWriteDrain
  refine .ite (.next h) ?_
  split
  · exact .next h
  · exact .next h.updHbm.hbDrain

theorem State.Canon.hbMode (h : s.Canon) {n c : Nat} : (s.hbMode n c).Canon := .ite h.updHpc.cntHbm h.updHpc

theorem State.Canon.hbGrant (h : s.Canon) {n c k : Nat} : (s.hbGrant n c k).Canon := by
  induction k generalizing s with
  | zero => exact h
  | succ k ih =>
    unfold State.hbGrant
    split
    · exact h
    · split
      · exact h
      · exact ih h.updHport.hbSpend.updHbm.updHpc.hbMode.hbLevel

theorem State.Canon.hbOwed (h : s.Canon) {n : Nat} : (s.hbOwed n).Canon := h.setRf

theorem State.Canon.hbPay (h : s.Canon) {n c : Nat} : (s.hbPay n c).Canon := .ite h.updHpc.hbOwed h

theorem State.Canon.execHbmUnitIssue (h : s.Canon) {n : Fin 2} {pc : Fin 64} : Res.Canon (execHbmUnitIssue n pc s) := by
  unfold Machine.execHbmUnitIssue
  refine .ite (.next h) ?_
  dsimp only
  split
  · exact .next h.hbGrant.hbPay
  · exact .next (.hbPay (.ite h.hbGrant.updHpc.hbMode.cntHbm h.hbGrant.updHpc.hbMode.updHbm.cntHbm))

theorem State.Canon.latchUe (h : s.Canon) {n a : Nat} {scrub rmw : Bool} {port : Nat} :
    (s.latchUe n a scrub rmw port).Canon := by
  unfold State.latchUe
  refine .ite h.cntHbm.setRb ?_
  dsimp only
  split
  · exact h.cntHbm.setReg.setReg.setReg.notify
  · exact h.cntHbm.setReg.setReg.setReg

theorem State.Canon.innerCount (h : s.Canon) {n : Nat} {inner : Fin 3} : (s.innerCount n inner).Canon :=
  .ite h.cntHbm (.ite h.cntHbm h)

theorem State.Canon.corrected (h : s.Canon) {n symbols : Nat} {passed : Bool} :
    (s.corrected n symbols passed).Canon := h.cntHbm.cntHbm.cntHbm

theorem State.Canon.reapply (h : s.Canon) {n : Nat} {r : UnitReq} : (s.reapply n r).Canon :=
  h.foldl fun h1 => h1.memWrite

theorem State.Canon.execHbmReadComplete (h : s.Canon) {n : Fin 2} {ecc : EccFact} :
    Res.Canon (execHbmReadComplete n ecc s) := by
  unfold Machine.execHbmReadComplete
  split
  · exact .next h
  · dsimp only
    split
    · exact .next h.updHbm.innerCount.frame
    · exact .ite (.next h.updHbm.innerCount.cntHbm.cntHbm.frame) (.next h.updHbm.innerCount.corrected.frame)
    · exact .ite (.next h.updHbm.innerCount.cntHbm.cntHbm.memWrite.memWrite.reapply.frame) <|
        .next (.frame (.ite h.updHbm.innerCount.corrected h.updHbm.innerCount.corrected.memWrite))
    · exact .ite (.next h.updHbm.innerCount.memWrite.reapply.latchUe.frame) (.next h.updHbm.innerCount.latchUe.frame)

theorem State.Canon.execRefreshDue (h : s.Canon) {n : Fin 2} {pc : Fin 64} : Res.Canon (execRefreshDue n pc s) :=
  .ite (.next h) (.ite (.next h) (.ite (.next h.hbPay) (.ite (.next h.updHpc.hbOwed) (.next h.cntHbm))))

theorem State.Canon.execHbmTempRead (h : s.Canon) {n : Fin 2} {temp : Option Byte} :
    Res.Canon (execHbmTempRead n temp s) := by
  unfold Machine.execHbmTempRead
  refine .ite (.next h) ?_
  split
  · exact .next h.setRb.setRb
  · exact
      have h1 := h.setRf
      have h2 := State.Canon.ite h1.setRb (State.Canon.ite h1.setRb h1)
      .next (.ite h2.setRb.chan2 h2)

theorem State.Canon.execScrubRead (h : s.Canon) {n : Fin 2} {ecc : EccFact} : Res.Canon (execScrubRead n ecc s) := by
  unfold Machine.execScrubRead
  extract_lets i u a s1 s2 wrap s3
  refine .ite (.next h) ?_
  have h2 : s2.Canon := by
    unfold s2
    split
    · exact h.innerCount
    · exact h.innerCount.corrected.cntHbm
    · exact h.innerCount.corrected.cntHbm.memWrite
    · exact h.innerCount.latchUe
  exact .next (.ite h2.setRf.setReg h2.setRf)

theorem State.Canon.hbCtrl (h : s.Canon) {n : Nat} {v : Word} : (s.hbCtrl n v).Canon :=
  .ite (.ite h.setReg.setHbState (h.setReg.setHbState.withMem (Mem.wf_clear _ _ h.setReg.mem))) <|
    .ite (.frame (.setHbState (h.setReg.foldl fun h1 => h1.emit))) h.setReg

theorem State.Canon.hbSettle (h : s.Canon) {n : Nat} : (s.hbSettle n).Canon :=
  .cntHbm (.cntHbm (.hbOwed (.updHbm (h.foldl fun h1 => h1.foldl fun h2 => h2.hbDrain))))

theorem State.Canon.winFence (h : s.Canon) : s.winFence.Canon := .ite h h.setRb.updHbm

/-! ### Loss of a domain, and fences -/

theorem State.Canon.cycRun (h : s.Canon) {k : Nat} {on : Bool} : (s.cycRun k on).Canon := h.frame

theorem State.Canon.returnPosts (h : s.Canon) {l : List (Nat × Item)} : (s.returnPosts l).Canon :=
  h.foldl fun h1 => by split; exacts [h1.setDispQ.returnItem, h1]

theorem State.Canon.retryRunning (h : s.Canon) {c : Nat} : (s.retryRunning c).Canon := by
  unfold State.retryRunning
  refine .ite h ?_
  dsimp only
  split
  · exact h.releaseOpt
  · exact h.returnPosts.setDispQ

theorem State.Canon.loseCore (h : s.Canon) {c : Nat} : (s.loseCore c).Canon := by
  unfold State.loseCore
  exact h.unplace.retryRunning.frame.rstRegs

theorem State.Canon.loseCluster (h : s.Canon) {c : Nat} : (s.loseCluster c).Canon := by
  unfold State.loseCluster
  exact .updDisp <|
    .frame <|
      .withMem (h.foldl fun h1 => h1.loseCore) <|
        Mem.wf_clear _ _ (State.Canon.mem (h.foldl fun h1 => h1.loseCore))

theorem State.Canon.moveSource (h : s.Canon) {i : Nat} {ws : List Word} : (s.moveSource i ws).Canon := by
  unfold State.moveSource
  dsimp only
  split
  · exact h
  · exact h.updSource.updMix.directEntry

theorem State.Canon.moveEncode (h : s.Canon) {i : Nat} {ws : List Word} : (s.moveEncode i ws).Canon := by
  unfold State.moveEncode
  dsimp only
  split
  · exact h
  · exact h.updCls.directEntry

theorem State.Canon.moveConf (h : s.Canon) {i : Nat} {words : Nat → List Word} : (s.moveConf i words).Canon := by
  unfold State.moveConf
  dsimp only
  split
  · exact h
  · exact h.updConf.foldl fun h1 => h1.updCls.updMix.directEntry.cntMix.cntMix

theorem State.Canon.loseSlice (h : s.Canon) {t : Nat} : (s.loseSlice t).Canon :=
  .foldl (.foldl (h.updMix.rstRegs.foldl fun h1 => h1.moveSource) fun h1 => h1.moveConf) fun h1 => h1.moveEncode

theorem State.Canon.loseTile (h : s.Canon) {t : Nat} : (s.loseTile t).Canon :=
  .loseSlice (h.foldl fun h1 => h1.loseCluster)

theorem State.Canon.moveEngine (h : s.Canon) {pe : Nat} {lost : Bool} : (s.moveEngine pe lost).Canon := by
  refine .foldl (.foldl (.foldl h fun {t i} h1 => ?layout) fun {t i} h1 => ?group) fun {t i} h1 => ?decoder
  case layout =>
    extract_lets
    split
    · exact h1.moveLayout
    · exact .ite h1.breakLayout h1
  case group =>
    split
    · exact h1.moveGroup
    · exact .ite h1.moveGroup h1
  case decoder => split <;> exact h1.moveDec

theorem State.Canon.loseEngine (h : s.Canon) {pe : Nat} : (s.loseEngine pe).Canon := by
  unfold State.loseEngine
  exact .updVideo (h.rstRegs.moveEngine.foldl fun h1 => h1.rstFifo)

theorem State.Canon.loseDomain (h : s.Canon) {d : Nat} : (s.loseDomain d).Canon :=
  .ite h.loseCluster (.ite h.loseTile (.ite h.loseEngine h))

theorem State.Canon.stopping (h : s.Canon) {d : Nat} : (s.stopping d).Canon :=
  .ite (h.setPd.updDom.foldl fun h1 => h1.unplace) h.setPd.updDom

theorem State.Canon.goDown (h : s.Canon) {d target : Nat} : (s.goDown d target).Canon :=
  .ite (.ite h.updDom.updDisp h.updDom.updDisp.stopping) h.updDom.stopping

theorem State.Canon.drainCheck (h : s.Canon) {c : Nat} : (s.drainCheck c).Canon := .ite h.stopping h

theorem State.Canon.holdOff (h : s.Canon) {d : Nat} : (s.holdOff d).Canon := by
  unfold State.holdOff
  split
  · dsimp only
    split
    · exact .ite h.setRf.setRb h.setRf.setRb.goDown
    · exact h.setRf.setRb.updDom
    · exact h.setRf.setRb.setPd
    · exact h.setRf.setRb

theorem State.Canon.setFence (h : s.Canon) {c : Nat} {on : Bool} : (s.setFence c on).Canon := .ite h.setRb h.setRb

theorem State.Canon.fenceCluster (h : s.Canon) {c : Nat} : (s.fenceCluster c).Canon := h.setFence.holdOff.updDisp

theorem State.Canon.fenceUnit (h : s.Canon) {u : Nat} : (s.fenceUnit u).Canon :=
  .ite h.fenceCluster <|
    .ite (.holdOff (.loseSlice (.setRb (h.foldl fun h1 => h1.fenceCluster)))) (.ite h.setRb.moveEngine.holdOff h)

theorem State.Canon.fence (h : s.Canon) {u : Nat} {runtime : Bool} : (s.fence u runtime).Canon :=
  .ite h h.frame.fenceUnit.notifyAll.audit

theorem State.Canon.unfence (h : s.Canon) {u : Nat} : (s.unfence u).Canon :=
  .ite (.ite h.frame h.frame.setFence.setRb) <|
    .ite (h.frame.setRb.foldl fun h1 => .ite h1 h1.setFence.setRb) (.ite h.frame.setRb h.frame)

theorem State.Canon.ueCount (h : s.Canon) {u : Nat} : (s.ueCount u).Canon := .ite h.frame.fence h.frame

theorem State.Canon.ceCount (h : s.Canon) {u n : Nat} : (s.ceCount u n).Canon := .ite h.frame.fence h.frame

/-! ### The Test strip -/

theorem State.Canon.updTst (h : s.Canon) {f : Tst → Tst} : (s.updTst f).Canon := h.frame

theorem State.Canon.cntTst (h : s.Canon) {k : Nat} : (s.cntTst k).Canon := h.setReg

theorem State.Canon.setUnit (h : s.Canon) {p u : Nat} : (s.setUnit p u).Canon := h.setRf.setReg.setReg

theorem State.Canon.testGo (h : s.Canon) {p u : Nat} : (s.testGo p u).Canon := h.setUnit.setRb.setReg.updTst

theorem State.Canon.tstripGo (h : s.Canon) {p : Nat} {v : Word} : (s.tstripGo p v).Canon :=
  .ite h.setUnit h.setUnit.testGo

theorem State.Canon.testAbort (h : s.Canon) {p : Nat} : (s.testAbort p).Canon := by
  unfold State.testAbort
  split
  · exact h
  · exact h.setRf.setRb.updTst.loseDomain

theorem State.Canon.testHold (h : s.Canon) {u : Nat} {on : Bool} : (s.testHold u on).Canon :=
  .ite h (.ite (.ite (.ite h h.setFence) h) (.setRb (.ite (.ite h h.setFence) h)))

theorem State.Canon.takeVerdicts (h : s.Canon) : s.takeVerdicts.Canon := by
  unfold State.takeVerdicts
  dsimp only
  split <;> exact h.frame

theorem State.Canon.clearTested (h : s.Canon) : s.clearTested.Canon :=
  .ite h.setReg.setReg.setReg.setReg h.setReg.setReg.setReg

theorem State.Canon.writeResult (h : s.Canon) {r : TestRun} : (s.writeResult r).Canon :=
  .setReg (h.foldl fun h1 => h1.setReg)

theorem State.Canon.powerDown (h : s.Canon) : s.powerDown.Canon := .ite h.frame.setReg h

theorem State.Canon.endRun (h : s.Canon) {r : TestRun} : (s.endRun r).Canon := by
  unfold State.endRun
  extract_lets s1 s2 p s3 s4 s5
  have h3 : s3.Canon := by
    unfold s3
    split
    · next t heq => exact (CanonFst.of_eq heq h.updTst.writeResult.commitCmdRec).updTst
    · next t _ _ heq => exact CanonFst.of_eq heq h.updTst.writeResult.commitCmdRec
  exact (State.Canon.ite h3.notifyAll (h3.notifyAll.foldl fun h1 => h1.fence)).powerDown

theorem State.Canon.nextSlot (h : s.Canon) : s.nextSlot.Canon := by
  unfold State.nextSlot
  split
  · exact h
  · refine .ite h ?_
    dsimp only
    split
    · exact h.endRun
    · exact .ite h (.foldl (.ite (h.updTst.foldl fun h1 => h1.testHold) h.updTst) fun h1 => .ite h1.testGo h1)

theorem State.Canon.startRun (h : s.Canon) {kind : Nat} {units : List Nat} : (s.startRun kind units).Canon :=
  .ite h h.cntTst.updTst.nextSlot

theorem State.Canon.verdict (h : s.Canon) {u : Nat} {pass : Bool} : (s.verdict u pass).Canon :=
  .ite (.ite h.updTst.unfence h.updTst) h.updTst.cntTst

theorem State.Canon.lift (h : s.Canon) {l : List Nat} : (s.lift l).Canon := by
  unfold State.lift
  split
  · exact .ite (h.foldl fun h1 => h1.testHold) h
  · exact h

theorem State.Canon.execUnitTestDone (h : s.Canon) {pos : Fin 16} {sig : DWord} {memFail : Bool} :
    Res.Canon (execUnitTestDone pos sig memFail s) := by
  unfold Machine.execUnitTestDone
  dsimp only
  split
  · exact .next h
  · exact .next h.setReg.setRb.setReg.setReg.updTst.lift.verdict.nextSlot

theorem State.Canon.dropTest (h : s.Canon) {p : Nat} : (s.dropTest p).Canon := by
  unfold State.dropTest
  split
  · exact h.testAbort.lift
  · exact h

theorem State.Canon.tstripWrite (h : s.Canon) {p : Nat} {v : Word} : (s.tstripWrite p v).Canon :=
  .ite h.setUnit.dropTest.nextSlot h.tstripGo

theorem State.Canon.cutRun (h : s.Canon) : s.cutRun.Canon := by
  unfold State.cutRun
  split
  · exact h
  · dsimp only
    split
    · exact .endRun (h.foldl fun h1 => h1.dropTest)
    · exact h.foldl fun h1 => h1.dropTest

theorem State.Canon.yieldCluster (h : s.Canon) {c : Nat} : (s.yieldCluster c).Canon :=
  .nextSlot (.updTst (.cntTst (h.foldl fun h1 => h1.dropTest)))

theorem State.Canon.yieldCheck (h : s.Canon) {q : Nat} : (s.yieldCheck q).Canon := by
  unfold State.yieldCheck
  split
  · exact h
  · refine .ite ?_ h
    split
    · exact h.yieldCluster.wakeCheck
    · exact h

theorem State.Canon.execItemPlace (h : s.Canon) {reads : Reads} : Res.Canon (execItemPlace reads s) := by
  unfold Machine.execItemPlace
  dsimp only
  split
  · exact .next (.ite h.advance.place h.advance.discardItem)
  · exact .next (h.advance.foldl fun h1 => h1.wakeCheck.yieldCheck)

theorem State.Canon.execTestResultRetry (h : s.Canon) {el : Nat} : Res.Canon (execTestResultRetry el s) := by
  unfold Machine.execTestResultRetry
  extract_lets s0
  have h0 : s0.Canon := h.advance
  split
  · exact .next h0
  · refine .ite (.next h0) ?_
    split
    · next heq => exact .next (CanonFst.of_eq heq h0.commitCmdRec).updTst.powerDown
    · next heq =>
      have h1 := CanonFst.of_eq heq h0.commitCmdRec
      exact .ite (.next h1.cntTst.updTst.powerDown) (.next h1)

theorem State.Canon.pfailRun (h : s.Canon) : s.pfailRun.Canon := .ite h.cutRun h

theorem State.Canon.testRunApply (h : s.Canon) {c : Cmd} : (testRunApply c s).Canon := .mk h.startRun

theorem State.Canon.testScheduleApply (h : s.Canon) {c : Cmd} : (testScheduleApply c s).Canon := .mk h.updTst

theorem State.Canon.testResultApply (h : s.Canon) {c : Cmd} : (testResultApply c s).Canon := .mk h.dma

theorem State.Canon.testFenceApply (h : s.Canon) {c : Cmd} : (testFenceApply c s).Canon := .mk h.fence

theorem State.Canon.testUnfenceApply (h : s.Canon) {c : Cmd} : (testUnfenceApply c s).Canon := .mk (.ite h.unfence h)

theorem State.Canon.testPolicyApply (h : s.Canon) {c : Cmd} : (testPolicyApply c s).Canon := .mk h.updTst

/-! ### Boot and warm reset -/

theorem State.Canon.dropRecords (h : s.Canon) : s.dropRecords.Canon :=
  h.withMem (Mem.wf_foldl h.mem fun h1 => Mem.wf_clear _ _ h1)

theorem State.Canon.poolWarm (h : s.Canon) : s.poolWarm.Canon := h.foldl fun h1 => h1.settle

theorem State.Canon.reloadImage (h : s.Canon) {i : Nat} {copy : List Byte} : (s.reloadImage i copy).Canon := by
  unfold State.reloadImage
  split
  · exact h
  · split
    · exact h.updVideo
    · next b s1 heq => exact (h.poolAlloc heq).memWrite.poolDone.updVideo

theorem State.Canon.reloadImages (h : s.Canon) : s.reloadImages.Canon := h.foldl fun h1 => h1.reloadImage

theorem State.Canon.refreshAll (h : s.Canon) : s.refreshAll.Canon := h.foldl fun h1 => h1.refreshReq

theorem State.Canon.keysWarm (h : s.Canon) : s.keysWarm.Canon := h.frame

theorem State.Canon.lostOnReset (h : s.Canon) {ch : Nat} {bank : Bool} : (s.lostOnReset ch bank).Canon :=
  have hb := State.Canon.foldl (State.Canon.foldl h fun h1 => h1.rstReg) fun h1 => h1.rstReg
  have h1 := State.Canon.ite hb.rstReg h
  have h2 := h1.freeChan.setRb
  .ite (.ite h2.setReg h2) h1

theorem State.Canon.setRxOn (h : s.Canon) {p : Nat → Bool} {on : Bool} : (s.setRxOn p on).Canon :=
  h.foldl fun h1 => .ite h1.setRb h1

theorem State.Canon.vustaWarm (h : s.Canon) : s.vustaWarm.Canon :=
  .frame (.setRxOn (.foldl (h.foldl fun h1 => .ite h1 h1.lostOnReset) fun h1 => .ite h1.setRf h1))

theorem State.Canon.mixReload (h : s.Canon) : s.mixReload.Canon := .mixStart (h.withCnts (Tbl.wf_set _ _ h.cnts))

theorem State.Canon.restoreCfg (h : s.Canon) {old : State} : (s.restoreCfg old).Canon :=
  have h1 := h.withRegs (Tbl.wf_foldl h.regs fun h1 => Tbl.wf_ite (Tbl.wf_set _ _ h1) h1)
  have h2 := h1.mixReload.foldl fun h1 => h1.gateStat
  h2.bufStat.dispStat.reloadImages

theorem State.Canon.loadHup (h : s.Canon) : s.loadHup.Canon := by
  unfold State.loadHup
  split
  · exact h
  · exact h.setReg.setReg.setReg.setReg

theorem State.Canon.expireTrials (h : s.Canon) : s.expireTrials.Canon := h.foldl fun h1 => .ite h1.markBad h1

theorem State.Canon.setBoot (h : s.Canon) {code : Nat} : (s.setBoot code).Canon := h.setRf

theorem State.Canon.enterImage (h : s.Canon) {i : Nat} : (s.enterImage i).Canon := by
  unfold State.enterImage
  exact .updTrust (h.setReg.setReg.setReg.setReg.withCsram (Mem.wf_write _ _ rfl))

theorem State.Canon.haltRom (h : s.Canon) : s.haltRom.Canon := h.setBoot.setRb.setReg.setReg.setRxOn

theorem State.Canon.trySlots (h : s.Canon) {l : List Nat} : CanonFst (s.trySlots l) := by
  induction l generalizing s with
  | nil => exact .mk h
  | cons i l ih =>
    unfold State.trySlots
    split
    next t e heq =>
    have ht : t.Canon := CanonFst.of_eq heq (.ite h.setSlotWord (.mk h))
    refine .ite (ih ht) ?_
    split
    · exact .mk ht.enterImage
    · exact ih ht.markBad.setBoot

theorem State.Canon.bootPower (h : s.Canon) : s.bootPower.Canon := .cycRun (.setRb (h.foldl fun h1 => h1.setReg))

theorem State.Canon.startFirmware (h : s.Canon) {warm : Bool} : (s.startFirmware warm).Canon :=
  have h1 := State.Canon.foldl h fun h1 => h1.setRb
  have h2 := State.Canon.foldl h1 fun h1 => h1.hbCtrl
  have h6 := h2.setRxOn.updTrust.takeVerdicts.foldl fun h1 => h1.fenceUnit
  have h8 := h6.frame.foldl fun h1 => h1.fence
  h8.flushAudits.clearTested.updTst.startRun

theorem State.Canon.boot (h : s.Canon) {warm : Bool} : (s.boot warm).Canon := by
  have h1 : (s.loadHup.scanJournal.otpShow.expireTrials.setBoot 0).Canon := h.loadHup.scanJournal.otpShow.expireTrials.setBoot
  rw [State.boot]
  split
  · next t heq => exact (CanonFst.of_eq heq h1.trySlots).startFirmware
  · next t heq => exact (CanonFst.of_eq heq h1.trySlots).haltRom

theorem State.Canon.dropFast (h : s.Canon) : s.dropFast.Canon := by
  have h0 : s.dropRecords.poolWarm.Canon := h.dropRecords.poolWarm
  unfold State.dropFast
  extract_lets s0 s1 s2 s3 s4
  have h1 : s1.Canon := ⟨Mem.wf_filter _ h0.mem, rfl, h0.regs, h0.cnts⟩
  have h3 : s3.Canon := h1.keysWarm.vustaWarm.rstRegs.foldl fun h => h.setPd.setRb
  exact (h3.foldl fun h => h.setPd).setRb.frame

theorem State.Canon.endCommit (h : s.Canon) {ok : Bool} : (s.endCommit ok).Canon := by
  unfold State.endCommit
  split
  · exact h
  · exact .ite (.jrnlResult (.ite h.updTrust.updTrust (.ite h.updTrust.updTrust h.updTrust.burnStep))) <|
      .jrnlResult <|
        .ite h.updTrust.frame.updTrust <|
          .ite h.updTrust.frame.updTrust (.ite h.updTrust.frame.burnStep h.updTrust.frame)

theorem State.Canon.warmReset (h : s.Canon) {cause : Nat} : (s.warmReset cause).Canon := by
  unfold State.warmReset
  extract_lets cut s0 w s1 ready s2 s3 s4 _ _ s5 s6 s7 s8
  have h0 : s0.Canon := by
    have hc : cut.Canon := h.endCommit.foldl fun h1 => h1.dropTest
    unfold s0
    split
    · exact hc.writeResult
    · exact hc
  have h2 : s2.Canon := h0.setReg.foldl fun h1 => .ite h1.hbSettle h1
  have h3 : s3.Canon := h2.withMem (Mem.wf_foldl h2.mem fun h1 => Mem.wf_ite h1 (Mem.wf_clear _ _ h1))
  have h5 : s5.Canon := h3.dropFast.frame
  have h7 : s7.Canon := (h5.bootPower.foldl fun h1 => .ite h1.setHbState h1).boot
  have h8 : s8.Canon := .ite h7 h7.restoreCfg.notifyAll.refreshAll.audit
  exact .ite h5 (h8.foldl fun h1 => .ite h1.startUp h1)

theorem State.Canon.powerOn (_ : s.Canon) : s.powerOn.Canon := State.canon_reset.frame

theorem State.Canon.execPorstRelease (h : s.Canon) {straps : BitVec 4} {sysref : Bool} {testEn : Bool}
    {board : Option Board} : Res.Canon (execPorstRelease straps sysref testEn board s) := by
  unfold Machine.execPorstRelease
  refine .ite (.next h) ?_
  extract_lets s1 _ _ s2 s3
  have h1 : s1.Canon := by
    unfold s1
    split
    · exact h.updTrust
    · exact h
  have h2 : s2.Canon := h1.setReg.frame
  have h3 : s3.Canon := .ite h2.setRb.setRb h2
  exact .next h3.setRb.bootPower.boot

/-! ### Power requests, sleep and wake -/

theorem State.Canon.losePlane (h : s.Canon) {d : Nat} : (s.losePlane d).Canon :=
  .ite (h.rstRegs.withMem (Mem.wf_clear _ _ h.rstRegs.mem)) (.ite h.keysWarm.rstRegs h)

theorem State.Canon.goDownOk (h : s.Canon) {d req : Nat} : (s.goDownOk d req).Canon := .ite h h.goDown

theorem State.Canon.pdRequest (h : s.Canon) {d req : Nat} : (s.pdRequest d req).Canon := by
  unfold State.pdRequest
  dsimp only
  split
  · exact .ite h (.ite h.wakeUp h.startUp)
  · exact .ite h.wake h.goDownOk
  · exact .ite h.wake h.updDom
  · exact .ite (.ite h h.wakeUp) (.ite h.setPd.updDom h)
  · exact .ite h h.wake
  · exact h

theorem State.Canon.settleReset (h : s.Canon) {d : Nat} : (s.settleReset d).Canon := .ite h.setRb h

theorem State.Canon.domReset (h : s.Canon) {d : Nat} : (s.domReset d).Canon := by
  unfold State.domReset
  split
  · split
    · exact .ite h.setRb h.setRb.startUp
    · exact h
    · exact h
    · exact .ite h.setRb.loseDomain.settleReset h

theorem State.Canon.pdWrite (h : s.Canon) {d : Nat} {v : Word} : (s.pdWrite d v).Canon :=
  have h1 := h.setReg
  have h2 := State.Canon.ite h1 (State.Canon.ite h1.setRb h1.setRf.pdRequest)
  .ite h2.domReset h2

theorem State.Canon.startNext (h : s.Canon) : s.startNext.Canon := by
  unfold State.startNext
  refine .ite h ?_
  dsimp only
  split
  · exact h.frame
  · exact h.frame.startUp

theorem State.Canon.clockOf (h : s.Canon) {d : Nat} {on : Bool} : (s.clockOf d on).Canon :=
  .ite h.cycRun (.ite h.cycRun.setRxOn (.ite h.setRb h))

theorem State.Canon.setPll (h : s.Canon) {d : Nat} {on : Bool} : (s.setPll d on).Canon := .ite h h.setRb

theorem State.Canon.nowOff (h : s.Canon) {d : Nat} : (s.nowOff d).Canon :=
  have h2 := h.setPd.setPll.loseDomain.losePlane.updDom.settleReset
  .ite h2.startUp (.ite (.ite h2.goDownOk h2) h2)

theorem State.Canon.execSleepEntryComplete (h : s.Canon) {d : Fin 99} : Res.Canon (execSleepEntryComplete d s) := by
  unfold Machine.execSleepEntryComplete
  dsimp only
  split
  · exact .ite (.next (.nowOff (.ite h.clockOf.updDisp h.clockOf))) <|
      .next (.settleReset (.setPd (.ite h.clockOf.updDisp h.clockOf)))
  · exact .next h.nowOff
  · exact .next h

theorem State.Canon.nowOn (h : s.Canon) {d : Nat} : (s.nowOn d).Canon :=
  have h2 := h.setPd.setRf.setPll.updDom.clockOf
  have h3 := State.Canon.ite h2.updDisp h2
  have h4 := State.Canon.ite h3.postDueTimers h3
  .settleReset (.ite h4.goDownOk h4)

theorem State.Canon.execWakeComplete (h : s.Canon) {d : Fin 99} : Res.Canon (execWakeComplete d s) := by
  unfold Machine.execWakeComplete
  refine .ite (.next h) ?_
  split
  · exact .next h.nowOn.startNext
  · exact .next (.ite h.nowOn h)
  · exact .next h

theorem State.Canon.execPowerGoodTimeout (h : s.Canon) {d : Fin 99} : Res.Canon (execPowerGoodTimeout d s) := by
  unfold Machine.execPowerGoodTimeout
  refine .ite (.next h) ?_
  refine .next ?_
  split
  · exact h.setPd.chan2.startNext.fence
  · exact h.setPd.chan2.startNext

theorem State.Canon.wdogWrite (h : s.Canon) {v : Word} : (s.wdogWrite v).Canon :=
  have h1 := State.Canon.ite h.setRf h
  have h2 := State.Canon.ite h1.setRb h1
  .ite h2.frame h2

theorem State.Canon.execThermalTrip (h : s.Canon) {tj : Byte} : Res.Canon (execThermalTrip tj s) :=
  .ite (.next h) <|
    .next <|
      .fanUpdate (.setRb (.setReg (.withMem (.dropFast (h.thermal.endCommit.foldl fun h1 => h1.dropTest)) rfl)))

/-! ### The journal and its commands -/

theorem State.Canon.jrnlCmd (h : s.Canon) {op addr : Nat} : (s.jrnlCmd op addr).Canon := by
  unfold State.jrnlCmd
  refine .ite h ?_
  refine .ite h.jrnlResult ?_
  refine .ite h.jrnlResult ?_
  split
  · next s1 heq => exact (CanonFst.of_eq heq h.mayCommit).updTrust.jrnlResult
  · next s1 snd heq => exact CanonFst.of_eq heq h.mayCommit

theorem State.Canon.jrnlCmdAt (h : s.Canon) {op : Nat} {v : Word} {sense : Nat} : (s.jrnlCmdAt op v sense).Canon :=
  h.updTrust.jrnlCmd.endPower

theorem State.Canon.trustSign (h : s.Canon) {v : Word} : (s.trustSign v).Canon :=
  .ite h (.ite h.setRf (.ite h.setRf.setRf h.setRf.setRf.setRb))

theorem State.Canon.runJrnl (h : s.Canon) {k : CmdSpec} {check : Cmd → State → Nat} {apply : Cmd → State → Reply}
    {c : Cmd} (ha : ∀ {t : State}, t.Canon → (apply c t).Canon) : (runJrnl k check apply c s).Canon :=
  .ite h.advance (h.runCmd fun h1 => .mk (ha h1.withPower).endPower.pfailRun)

theorem State.Canon.heldUp (h : s.Canon) {res : List Nat} : (heldUp s res).Canon := .mk h

theorem State.Canon.recordFor (h : s.Canon) {typ tenant : Nat} {payload : List Byte} {k : State → Reply}
    (hk : ∀ {t : State}, t.Canon → (k t).Canon) : (s.recordFor typ tenant payload k).Canon := by
  unfold State.recordFor
  dsimp only
  split
  · next t heq => exact hk (CanonFst.of_eq heq h.flushAudits.commitRec)
  · next t _ _ heq => exact (CanonFst.of_eq heq h.flushAudits.commitRec).heldUp

theorem State.Canon.headerFor (h : s.Canon) {slots : List Nat} {k : State → Reply}
    (hk : ∀ {t : State}, t.Canon → (k t).Canon) : (s.headerFor slots k).Canon := by
  unfold State.headerFor
  split
  · next t heq => exact hk (CanonFst.of_eq heq h.writeHdr)
  · next t _ _ heq => exact (CanonFst.of_eq heq h.writeHdr).heldUp

theorem State.Canon.auditCmd (h : s.Canon) {code : Nat} {fields : List Nat} : (s.auditCmd code fields).Canon :=
  .ite h.updTrust h.audit

theorem State.Canon.jrnlAttestApply (h : s.Canon) {c : Cmd} : (jrnlAttestApply c s).Canon := .mk h.dmaBytes

theorem State.Canon.jrnlIdentityApply (h : s.Canon) {c : Cmd} : (jrnlIdentityApply c s).Canon := .mk h.dmaBytes

theorem State.Canon.jrnlReadApply (h : s.Canon) {c : Cmd} : (jrnlReadApply c s).Canon := .mk h.dmaBytes

theorem State.Canon.jrnlStatusApply (h : s.Canon) {c : Cmd} : (jrnlStatusApply c s).Canon := .mk h

theorem State.Canon.jrnlSnapshotApply (h : s.Canon) {c : Cmd} : (jrnlSnapshotApply c s).Canon :=
  h.recordFor fun h1 => .mk h1.updTrust

theorem State.Canon.putSnap (h : s.Canon) {x : Snap} {o : Own} : (s.putSnap x o).Canon := h.frame

theorem State.Canon.putEntries {s0 : State} (h : s.Canon) {x : Snap} : (s0.putEntries s x).Canon :=
  (h.foldl fun h1 => .ite h1.moveSource h1.directEntry).foldl fun h1 =>
    .ite h1.moveConf (h1.foldl fun h2 => h2.directEntry)

theorem State.Canon.jrnlRestoreApply (h : s.Canon) {c : Cmd} : (jrnlRestoreApply c s).Canon := by
  unfold Machine.jrnlRestoreApply
  split
  · exact .mk h
  · exact .mk (h.putSnap.putEntries.foldl fun h1 => h1.refreshReq)

theorem State.Canon.stageWrite (h : s.Canon) {i off : Nat} {bytes : List Byte} {k : State → Reply}
    (hk : ∀ {t : State}, t.Canon → (k t).Canon) : (s.stageWrite i off bytes k).Canon := by
  unfold State.stageWrite
  extract_lets body
  have hb : ∀ {t : State}, t.Canon → (body t).Canon := by
    intro t ht
    unfold body
    split
    · next u heq =>
      have hu : u.Canon := CanonFst.of_eq heq (.ite ht.eraseSector (.mk ht))
      split
      · next v heq => exact hk (CanonFst.of_eq heq hu.progPage)
      · next v _ _ heq => exact (CanonFst.of_eq heq hu.progPage).heldUp
    · next u _ _ heq => exact (CanonFst.of_eq heq (.ite ht.eraseSector (.mk ht))).heldUp
  exact .ite (h.headerFor hb) (hb h)

theorem State.Canon.stageFinal (h : s.Canon) {i : Nat} {f : ImgFact} : (s.stageFinal i f).Canon :=
  h.updTrust.headerFor fun h1 => .ite (.mk h1.auditCmd) (.mk h1.auditCmd)

theorem State.Canon.jrnlFwStageApply (h : s.Canon) {c : Cmd} : (jrnlFwStageApply c s).Canon :=
  h.stageWrite fun h1 => .ite h1.stageFinal (.mk h1)

theorem State.Canon.swapFirmware (h : s.Canon) {i : Nat} : (s.swapFirmware i).Canon :=
  h.setReg.setReg.withCsram (Mem.wf_write _ _ rfl)

theorem State.Canon.resumeOld (h : s.Canon) : s.resumeOld.Canon := h.frame

theorem State.Canon.goLive (h : s.Canon) {c : Cmd} {i : Nat} : (s.goLive c i).Canon :=
  .ite (.mk h.resumeOld.markBad) <|
    .ite (.mk h.swapFirmware.setSlotWord.notifyAll.audit) h.swapFirmware.setSlotWord.notifyAll.audit.heldUp

theorem State.Canon.jrnlFwActivateApply (h : s.Canon) {c : Cmd} : (jrnlFwActivateApply c s).Canon :=
  .ite h.goLive (h.headerFor fun h1 => .mk h1.auditCmd)

theorem State.Canon.jrnlFwConfirmApply (h : s.Canon) {c : Cmd} : (jrnlFwConfirmApply c s).Canon :=
  h.headerFor fun h1 => .mk h1.audit

theorem State.Canon.badSlots (h : s.Canon) {p : Nat → Bool} : (s.badSlots p).Canon := .ite h h.writeHdr

theorem State.Canon.burn (h : s.Canon) {n : Nat} : CanonFst (s.burn n) := by
  induction n generalizing s with
  | zero => exact .mk h
  | succ n ih =>
    unfold State.burn
    split
    · next t heq => exact ih (CanonFst.of_eq heq h.fuseStep)
    · exact h.fuseStep

theorem State.Canon.jrnlRollbackSetApply (h : s.Canon) {c : Cmd} : (jrnlRollbackSetApply c s).Canon :=
  .ite h.burn.badSlots.heldUp (.mk h.burn.badSlots.audit)

theorem State.Canon.jrnlKeyRevokeApply (h : s.Canon) {c : Cmd} : (jrnlKeyRevokeApply c s).Canon := by
  unfold Machine.jrnlKeyRevokeApply
  split
  · next s1 heq => exact .mk ((CanonFst.of_eq heq h.mayCommit).updTrust.jrnlResult.badSlots.audit)
  · next s1 snd heq => exact (CanonFst.of_eq heq h.mayCommit).heldUp

theorem State.Canon.jrnlTenantPinApply (h : s.Canon) {c : Cmd} : (jrnlTenantPinApply c s).Canon :=
  h.recordFor fun h1 => .mk h1.updTrust.audit

/-! ### Tamper monitor and Bleach -/

theorem State.Canon.bleachStart (h : s.Canon) : s.bleachStart.Canon :=
  .ite h (.nextSlot (.foldl (.frame (.kwFree (.kwZero (by split; exacts [h.kwResult, h])))) fun h1 => h1.dropTest))

theorem State.Canon.alarm (h : s.Canon) {latched : Nat} : (s.alarm latched).Canon := .ite h h.setReg.bleachStart

theorem State.Canon.execTamperArm (h : s.Canon) {v : Word} {active : BitVec 6} :
    Res.Canon (execTamperArm v active s) := .next h.setReg.setRf.alarm.frame

theorem State.Canon.fwBleach (h : s.Canon) : s.fwBleach.Canon := h.setRb.alarm

theorem State.Canon.clearBleached (h : s.Canon) {active : BitVec 6} : (s.clearBleached active).Canon :=
  .ite h.setRf.setRb.notifyAll.audit h.setRf

/-! ### PCIe links and functions -/

theorem State.Canon.setFlr (h : s.Canon) {f : Nat} {on : Bool} : (s.setFlr f on).Canon := .ite h.setRb h.setRb

theorem State.Canon.resetRings (h : s.Canon) {f : Nat} : (s.resetRings f).Canon := h.rstRegs.frame

theorem State.Canon.resetChannels (h : s.Canon) {t : Nat} : (s.resetChannels t).Canon :=
  h.foldl fun h1 => .ite h1.setRf h1.lostOnReset.setRb

theorem State.Canon.dropNotes (h : s.Canon) {f : Nat} : (s.dropNotes f).Canon := h.frame

theorem State.Canon.stopFn (h : s.Canon) {f : Nat} : (s.stopFn f).Canon :=
  .frame (.dropNotes (.updFn (.ite h.setFlr.resetRings.resetChannels h.setFlr.resetRings)))

theorem State.Canon.markDying (h : s.Canon) {p : Nat → Bool} : (s.markDying p).Canon := h.frame

theorem State.Canon.dropSnapshots (h : s.Canon) {p : Nat → Bool} : (s.dropSnapshots p).Canon :=
  h.foldl fun h1 => h1.unmark.updVideo

theorem State.Canon.dieTaps (h : s.Canon) {p : Nat → Bool} : (s.dieTaps p).Canon :=
  .frame (.dropSnapshots (.updNet (h.updMix.foldl fun h1 => h1.removeSource)))

theorem State.Canon.dieMedia (h : s.Canon) {p : Nat → Bool} : (s.dieMedia p).Canon :=
  have h1 := State.Canon.foldl h fun h1 => h1.dropSub
  have h2 := State.Canon.foldl h1 fun h1 => h1.removeSource
  have h3 := State.Canon.foldl h2 fun h1 => h1.destroyClass
  have h4 := State.Canon.foldl h3 fun h1 => h1.removeGroup
  have h5 := State.Canon.foldl h4 fun h1 => h1.removeRend
  have h6 := State.Canon.foldl h5 fun h1 => h1.destroyLayout
  h6.foldl fun h1 => h1.freeImage

theorem State.Canon.dieLegs (h : s.Canon) {p : Nat → Bool} : (s.dieLegs p).Canon := by
  unfold State.dieLegs
  exact .updNet <|
    .foldl (.foldl (h.foldl fun h1 => h1.destroyDec) fun h1 => h1.destroyStream) fun h1 => h1.destroyLeg

theorem State.Canon.dieConf (h : s.Canon) {i : Nat} : (s.dieConf i).Canon :=
  .ite h.destroyConf (.ite h.updConf (h.updConf.foldl fun h1 => h1.notify))

theorem State.Canon.dieQueues (h : s.Canon) {p : Nat → Bool} : (s.dieQueues p).Canon :=
  .foldl (.updDisp (.foldl (.updNet (h.foldl fun h1 => h1.loseOne.flushFlowq)) fun h1 => h1.flushQ)) fun h1 =>
    h1.releaseSlot

theorem State.Canon.diePf (h : s.Canon) {t : Nat} : (s.diePf t).Canon := h.updNet.updDisp.foldl fun h1 => h1.setReg

theorem State.Canon.resetFns (h : s.Canon) {l : List Nat} : (s.resetFns l).Canon :=
  have h1 := State.Canon.foldl h fun h1 => h1.stopFn
  have h3 := h1.markDying.dieTaps.dieMedia.dieLegs.foldl fun h1 => h1.dieConf
  h3.dieQueues.foldl fun h1 => h1.diePf

theorem State.Canon.endConf (h : s.Canon) {i : Nat} : (s.endConf i).Canon := .ite h.destroyConf h.sweepConf

theorem State.Canon.execObjectDestructionEnd (h : s.Canon) {obj : ObjId} :
    Res.Canon (execObjectDestructionEnd obj s) := by
  unfold Machine.execObjectDestructionEnd
  extract_lets i
  cases obj.kind with
  | source => exact .next (.ite h.endRamp h)
  | inject => exact .next (.ite h.endRamp h)
  | rend => exact .next (.ite h.sweepRend h)
  | group => exact .next (.ite h.sweepGroup h)
  | layout => exact .next (.ite h.freeLayout h)
  | stream => exact .next h.sweepStreams
  | conf => exact .next (.ite h.endConf h)
  | kernel =>
    dsimp only
    split
    · exact .ite (.next h.updDisp) (.next h)
    · exact .next h
  | _ => exact .next h

theorem State.Canon.portReset (h : s.Canon) {p : Nat} {down : Bool} : (s.portReset p down).Canon :=
  .ite h.resetFns.setReg h.resetFns.setReg

theorem State.Canon.setSrIov (h : s.Canon) {t : Nat} {f : SrIov → SrIov} : (s.setSrIov t f).Canon := h.frame

theorem State.Canon.execPcieConfigWrite (h : s.Canon) {fn : Fin 256} {w : CfgWrite} :
    Res.Canon (execPcieConfigWrite fn w s) := by
  unfold Machine.execPcieConfigWrite
  refine .ite (.next h.frame) ?_
  refine .ite (.next h.frame) ?_
  split
  · exact .next h.updFn.frame
  · exact .ite (.next h.setSrIov.frame) (.next h.frame)
  · exact .ite (.next h.setSrIov.frame) (.next h.frame)

/-! ### SYS and TELEM commands -/

theorem State.Canon.execSysNop (h : s.Canon) {c : Cmd} : Res.Canon (execSysNop c s) :=
  .next (h.runCmd fun h1 => .mk h1)

theorem State.Canon.sysHelloApply (h : s.Canon) {c : Cmd} : (sysHelloApply c s).Canon := by
  unfold Machine.sysHelloApply
  refine .ite (.ite (.mk h) (.mk h)) ?_
  refine .ite ?_ (.mk h)
  refine .mk ?_
  split
  · exact h.updFn
  · exact h

theorem State.Canon.sysCapsApply (h : s.Canon) {c : Cmd} : (sysCapsApply c s).Canon := .mk h.dma

theorem State.Canon.sysInfoApply (h : s.Canon) {c : Cmd} : (sysInfoApply c s).Canon := .mk h.dma

theorem State.Canon.stopMedia (h : s.Canon) : s.stopMedia.Canon := h.setRb.foldl fun h1 => h1.setRb.setRb.setRb

theorem State.Canon.quiesce (h : s.Canon) : s.quiesce.Canon := .frame (h.foldl fun h1 => h1.setRb.setLink)

theorem State.Canon.sysShutdownApply (h : s.Canon) {c : Cmd} : (sysShutdownApply c s).Canon :=
  .mk (.powerDown (.ite h.frame.stopMedia.frame.cutRun.quiesce.startRun h.frame.stopMedia.frame))

theorem State.Canon.sysNotifyCfgApply (h : s.Canon) {c : Cmd} : (sysNotifyCfgApply c s).Canon := .mk h.updFn

theorem State.Canon.telemMeterSetApply (h : s.Canon) {c : Cmd} : (telemMeterSetApply c s).Canon :=
  .mk h.frame.loupeInit

theorem State.Canon.telemMeterStopApply (h : s.Canon) {c : Cmd} : (telemMeterStopApply c s).Canon := .mk h.frame

theorem State.Canon.telemMeterReadApply (h : s.Canon) {c : Cmd} : (telemMeterReadApply c s).Canon := .mk h.dma

theorem State.Canon.telemCountersApply (h : s.Canon) {c : Cmd} : (telemCountersApply c s).Canon := .mk h.dma

theorem State.Canon.streamWrite (h : s.Canon) {fn cons : Nat} {r : Loupe} {l : List Nat} :
    CanonFst (s.streamWrite fn cons r l) := by
  induction l generalizing s r with
  | nil => exact .mk h
  | cons m l ih => exact .mk (ih h.loupeWrite)

theorem State.Canon.execMeterSample (h : s.Canon) {stream : Fin 256} {cons : Nat} {el : Nat} :
    Res.Canon (execMeterSample stream cons el s) := by
  unfold Machine.execMeterSample
  dsimp only
  split
  · exact .next h.advance
  · exact .ite (.next h.advance) (.next (.ite h.advance.streamWrite.frame.notify h.advance.streamWrite.frame))

/-! ### Reads over the fabric -/

theorem State.Canon.latchRead (h : s.Canon) {lo hi : RegName} {i : Nat} : (s.latchRead lo hi i).Canon :=
  h.setReg.frame

theorem State.Canon.mbxRead (h : s.Canon) {a : Agent} {n : RegName} {i : Nat} : (s.mbxRead a n i).Canon := by
  unfold State.mbxRead
  refine .ite ?_ (.ite h.frame (.ite h.frame (.ite h.frame (.ite h.frame h.frame))))
  split
  · next t heq => exact Res.Canon.of_eq heq h.execMbxWord15Read
  · exact h

theorem State.Canon.regRead (h : s.Canon) {a : Agent} {n : RegName} {i : Nat} : (s.regRead a n i).Canon := by
  unfold State.regRead
  refine .ite h.mbxRead ?_
  refine .ite ?_ ?_
  · split
    · next t heq => exact Res.Canon.of_eq heq h.execKeywinLockAcquire
    · exact h
  · split
    · exact h.latchRead
    · exact h.frame

theorem State.Canon.fifoRead (h : s.Canon) {a : Agent} {f : FifoId} {off : Nat} : (s.fifoRead a f off).Canon := by
  unfold State.fifoRead
  dsimp only
  split
  · exact h.frame
  · exact h.frame
  · exact h.frame
  · exact h.frame
  · exact h.frame
  · exact h.frame
  · exact h.frame
  · split
    · next t heq => exact Res.Canon.of_eq heq h.execFifoDataRead
    · exact h

theorem State.Canon.ringRead (h : s.Canon) {a : Agent} {r : Fin 4096} {off : Nat} : (s.ringRead a r off).Canon := by
  unfold State.ringRead
  refine .ite h.fifoRead ?_
  split <;> exact h.frame

theorem State.Canon.locRead (h : s.Canon) {a : Agent} {l : Loc} : (s.locRead a l).Canon := by
  cases l with
  | reg n i => exact h.regRead
  | fifo f off => exact h.fifoRead
  | ring who r off => exact h.ringRead
  | _ => exact h.frame

theorem State.Canon.access (h : s.Canon) {a : Agent} {addr : Nat} {write : Bool} {go : Loc → State}
    (hg : ∀ {l : Loc}, (go l).Canon) : (s.access a addr write go).Canon := by
  unfold State.access
  split
  · exact .ite h.frame hg
  · refine .ite h.frame ?_
    split
    · refine .ite hg ?_
      split
      · exact hg
      · exact h.srRequest.frame
      · exact h.frame
    · exact hg

theorem State.Canon.busRead (h : s.Canon) {a : Agent} {addr : Nat} : (s.busRead a addr).Canon := h.access h.locRead

/-! ### Writes over the fabric -/

theorem Res.Canon.afterRes {r : Res} (h : Res.Canon r) : (Machine.afterRes s r).Canon := by
  obtain ⟨t, rfl, ht⟩ := h
  exact ht

theorem State.Canon.fifoCmd (h : s.Canon) {a : Agent} {f : FifoId} {v : Word} : (s.fifoCmd a f v).Canon := by
  unfold State.fifoCmd
  extract_lets _ s0 s1 s2
  have h0 : s0.Canon := h.setFifo
  have h1 : s1.Canon := .ite h0.execDropRest.afterRes h0
  exact .ite (State.Canon.ite h1.execFifoFlush.afterRes h1).frame h.denied

theorem State.Canon.fifoWrite (h : s.Canon) {a : Agent} {f : FifoId} {off : Nat} {v : Word} :
    (s.fifoWrite a f off v).Canon := by
  unfold State.fifoWrite
  dsimp only
  split
  · exact .ite (.frame h.execFifoPidxWrite.afterRes) h.execFifoPidxWrite.afterRes
  · exact h.execFifoCidxWrite.afterRes
  · exact h.setFifo.frame
  · exact h.fifoCmd
  · exact h.frame
  · exact h.setFifo.frame

theorem State.Canon.ringWrite (h : s.Canon) {a : Agent} {r : Fin 4096} {off : Nat} {v : Word} :
    (s.ringWrite a r off v).Canon := by
  unfold State.ringWrite
  refine .ite (.ite h.frame h.fifoWrite) ?_
  refine .ite h.fifoWrite ?_
  split
  · exact (Res.Canon.ite h.execRingEnable h.execRingDisable).afterRes
  · exact h.setReg.frame
  · exact h.setReg.frame
  · exact h.frame

theorem State.Canon.mbxWrite (h : s.Canon) {a : Agent} {n : RegName} {i : Nat} {v : Word} :
    (s.mbxWrite a n i v).Canon := by
  unfold State.mbxWrite
  dsimp only
  split
  · exact h.execMbxMsgWrite.afterRes
  · exact h.execMbxAckWrite.afterRes
  · exact (Res.Canon.ite h.execMbxPost h.execMbxWake).afterRes
  · exact .ite h.frame (.ite h.frame (.ite h.setReg.frame h.frame))
  · exact .ite h.setReg.frame h.frame

theorem State.Canon.keywinWrite (h : s.Canon) {a : Agent} {n : RegName} {i : Nat} {v : Word} :
    (s.keywinWrite a n i v).Canon := by
  unfold State.keywinWrite
  dsimp only
  split
  · exact h.execKeywinRelease.afterRes
  · exact .ite h.kwCommit h.frame
  · exact h.setReg.frame
  · exact h.frame
  · exact h.frame
  · exact .ite h.setReg.frame h.frame

theorem State.Canon.postWrite (h : s.Canon) {i : Nat} {v : Word} : (s.postWrite i v).Canon :=
  .ite h.setReg.frame.kernelPost h.setReg.frame

theorem State.Canon.mixCtrl (h : s.Canon) {v : Word} : (s.mixCtrl v).Canon := .ite h.setReg.mixStart h.setReg

theorem State.Canon.frameWrite (h : s.Canon) {hi : Bool} {v : Word} : (s.frameWrite hi v).Canon :=
  .ite h (.ite (.setReg (h.withCnts (Tbl.wf_set _ _ h.cnts))) (h.withCnts (Tbl.wf_set _ _ h.cnts)))

theorem State.Canon.rgnWrite (h : s.Canon) {n : RegName} {r : Nat} {v : Word} : (s.rgnWrite n r v).Canon :=
  .ite h (.ite h.setReg h.setReg.updPool)

theorem State.Canon.timeStat (h : s.Canon) {v : Word} : (s.timeStat v).Canon := .ite h.setReg h.setReg.setPps

theorem State.Canon.pwrgd (h : s.Canon) {v : Word} : (s.pwrgd v).Canon := h.setReg.emit

theorem State.Canon.plainWrite (h : s.Canon) {n : RegName} {i : Nat} {v : Word} : (s.plainWrite n i v).Canon :=
  h.setReg

theorem State.Canon.ownWrite (h : s.Canon) {a : Agent} {n : RegName} {i : Nat} {v : Word} :
    (s.ownWrite a n i v).Canon := by
  unfold State.ownWrite
  split
  · exact h.pwrgd
  · exact h.fanWrite
  · exact h.plainWrite.bufStat
  · exact h.plainWrite.bufStat
  · exact h.execEthPcfgWrite.afterRes
  · exact .ite h.setRb.fwBleach h.setRb
  · exact .ite h.clearBleached h
  · exact h.execTamperArm.afterRes
  · exact h.postWrite
  · exact h.mixCtrl
  · exact h.frameWrite
  · exact h.frameWrite
  · exact h.execSafeLoadArm.afterRes
  · split
    · exact h.poolOp
    · exact h
  · exact h.rgnWrite
  · exact h.rgnWrite
  · exact h.hbCtrl
  · exact .ite h.winFence h
  · exact h.setReg.commitStep
  · exact h.timeStat
  · exact h.trustSign
  · exact h.jrnlCmdAt
  · exact h.tstripWrite
  · exact h.pdWrite
  · exact h.pdWrite
  · exact .ite h.warmReset h
  · exact h.wdogWrite
  · exact h.plainWrite

theorem State.Canon.regWrite (h : s.Canon) {a : Agent} {n : RegName} {i : Nat} {v : Word} :
    (s.regWrite a n i v).Canon := .ite h.mbxWrite (.ite h.keywinWrite h.ownWrite.frame)

theorem State.Canon.reqWrite (h : s.Canon) {pe core off : Nat} {v : Word} : (s.reqWrite pe core off v).Canon :=
  .frame <|
    .ite h.updReqPort <|
      .ite h.execReqAppend.afterRes (.ite (.ite (.updReqPort (.ite h.reqCommit h)) (.ite h.reqCommit h)) h)

theorem State.Canon.paramWrite (h : s.Canon) {t i w : Nat} {v : Word} : (s.paramWrite t i w v).Canon := h.directWords

theorem State.Canon.shadowWrite (h : s.Canon) {t p w : Nat} {v : Word} : (s.shadowWrite t p w v).Canon := h.updMix

theorem State.Canon.locWrite (h : s.Canon) {a : Agent} {v : Word} {l : Loc} : (s.locWrite a v l).Canon := by
  cases l with
  | mem m => exact h.memWrite.frame
  | reg n i => exact h.regWrite
  | fifo f off => exact h.fifoWrite
  | ring who r off => exact h.ringWrite
  | req pe core off => exact h.reqWrite
  | param t i w => exact h.paramWrite.frame
  | shadow t p w => exact h.shadowWrite.frame
  | tag t p => exact h.updMix.frame
  | reserved d b => exact h.frame
  | outside => exact h.frame

theorem State.Canon.busWrite (h : s.Canon) {a : Agent} {addr : Nat} {v : Word} : (s.busWrite a addr v).Canon :=
  h.access h.locWrite

theorem State.Canon.holdAcc (h : s.Canon) {a : Agent} {addr : Nat} {w : Option Word} : (s.holdAcc a addr w).Canon :=
  .ite h.updHbm h

theorem State.Canon.serveHeld (h : s.Canon) {x : Held} : (s.serveHeld x).Canon :=
  .emit (by split; exacts [h.memWrite.frame, h.frame])

/-! ### Far access, DMA and the end of work items -/

theorem State.Canon.execLdf (h : s.Canon) {c : Fin 516} {d x : BitVec 5} : Res.Canon (execLdf c d x s) := by
  refine h.issue fun h1 => .next (h1.runCore fun {t k} ht => .ite (.mk ht) (.ite (.mk ht) (.ite (.mk ht) ?_)))
  have hu : (t.busRead (coreAgent c.val) (k.far x)).Canon := ht.busRead
  generalize t.busRead (coreAgent c.val) (k.far x) = u at hu ⊢
  dsimp only
  cases u.bus with
  | ok v => exact .mk hu
  | none => exact .mk hu
  | _ => exact .mk hu

theorem State.Canon.execStf (h : s.Canon) {c : Fin 516} {y x : BitVec 5} : Res.Canon (execStf c y x s) := by
  refine h.issue fun h1 => .next (h1.runCore fun {t k} ht => .ite (.mk ht) (.ite (.mk ht) ?_))
  have hu : (t.busWrite (coreAgent c.val) (k.far x) (k.gr y)).Canon := ht.busWrite
  generalize t.busWrite (coreAgent c.val) (k.far x) (k.gr y) = u at hu ⊢
  dsimp only
  cases u.bus with
  | ok v => exact .ite (.mk hu) (.mk hu)
  | none => exact .mk hu
  | _ => exact .mk hu

theorem State.Canon.raiseDma (h : s.Canon) {c n a : Nat} : (s.raiseDma c n a).Canon := h.setCore.coreFault

theorem State.Canon.onTag (h : s.Canon) {c n : Nat} {f : State → Core → State × Eff}
    (hf : ∀ {t : State} {k : Core}, t.Canon → CanonFst (f t k)) : (s.onTag c n f).Canon := by
  unfold State.onTag
  refine .ite ?_ (h.runCore fun h1 => .mk h1)
  split
  · exact h.raiseDma
  · exact h.runCore hf

theorem State.Canon.startDma (h : s.Canon) {c : Nat} {out : Bool} {d x y sh : BitVec 5} :
    (s.startDma c out d x y sh).Canon :=
  .ite (h.runCore fun h1 => .mk h1) (h.onTag (fun h1 => .ite (.mk h1) (.ite (.mk h1) (.ite (.mk h1) (.mk h1)))))

theorem State.Canon.execDmaw (h : s.Canon) {c : Fin 516} {tag : BitVec 5} : Res.Canon (execDmaw c tag s) :=
  h.issue (fun h1 => .ite (.next (h1.runCore fun h2 => .mk h2)) (.next (h1.onTag fun h2 => .mk h2)))

theorem State.dmaRead_succ (s : State) (who : Agent) (a n : Nat) :
    s.dmaRead who a (n + 1) = (match (s.busRead who a).bus with
    | .ok v => match (s.busRead who a).dmaRead who (a + 4) n with
      | (u, l, e) => (u, v :: l, e)
    | .none => (s.busRead who a, [], .wait)
    | _ => (s, [], .fail)) := rfl

theorem State.Canon.dmaRead (h : s.Canon) {who : Agent} {a n : Nat} : CanonFst (s.dmaRead who a n) := by
  induction n generalizing s a with
  | zero => exact .mk h
  | succ n ih =>
    have ht : (s.busRead who a).Canon := h.busRead
    rw [State.dmaRead_succ]
    generalize s.busRead who a = t at ht ⊢
    cases t.bus with
    | ok v => exact .mk (ih ht)
    | none => exact .mk ht
    | _ => exact .mk h

theorem State.dmaWrite_cons (s : State) (who : Agent) (a : Nat) (w : Word) (l : List Word) :
    s.dmaWrite who a (w :: l) = (match (s.busWrite who a w).bus with
    | .ok _ => (s.busWrite who a w).dmaWrite who (a + 4) l
    | .none => (s.busWrite who a w, .wait)
    | _ => (s, .fail)) := rfl

theorem State.Canon.dmaWrite (h : s.Canon) {who : Agent} {a : Nat} {l : List Word} : CanonFst (s.dmaWrite who a l) := by
  induction l generalizing s a with
  | nil => exact .mk h
  | cons w l ih =>
    have ht : (s.busWrite who a w).Canon := h.busWrite
    rw [State.dmaWrite_cons]
    generalize s.busWrite who a w = t at ht ⊢
    cases t.bus with
    | ok v => exact ih ht
    | none => exact .mk ht
    | _ => exact .mk h

theorem State.Canon.ldmStore (h : s.Canon) {c m : Nat} {l : List (List Byte)} : (s.ldmStore c m l).Canon := by
  induction l generalizing s m with
  | nil => exact h
  | cons b l ih => exact ih h.stN.setCore

theorem State.Canon.dmaBlock (h : s.Canon) {c : Nat} {out : Bool} {a m n : Nat} : CanonFst (s.dmaBlock c out a m n) := by
  unfold State.dmaBlock
  refine .ite (.ite (.mk h) ?_) ?_
  · dsimp only
    generalize hp : List.foldl _ (s, s.core c) _ = p
    have h1 : CanonFst p := hp ▸ CanonFst.foldl (.mk h) fun h1 => h1.scrubLdm
    split
    · next t heq => exact .mk (CanonFst.of_eq heq h1.setCore.dmaWrite)
    · next t heq => exact .mk (CanonFst.of_eq heq h1.setCore.dmaWrite)
    · exact .mk h1.setCore
  · split
    · next t ws heq => exact .mk (CanonFst.of_eq heq h.dmaRead).ldmStore
    · next t ws heq => exact .mk (CanonFst.of_eq heq h.dmaRead)
    · exact .mk h

theorem State.Canon.dmaRun (h : s.Canon) {c n : Nat} {t : Tag} {failAt : Option Nat} {f o : Nat} :
    (s.dmaRun c n t failAt f o).Canon := by
  induction f generalizing s o with
  | zero => exact h
  | succ f ih =>
    unfold State.dmaRun
    refine .ite h.setCore (.ite h.setCore ?_)
    dsimp only
    split
    · next u heq => exact ih (CanonFst.of_eq heq h.dmaBlock)
    · next u heq => exact (CanonFst.of_eq heq h.dmaBlock).setCore
    · next u heq => exact (CanonFst.of_eq heq h.dmaBlock).setCore

theorem State.Canon.afterItem (h : s.Canon) {c : Nat} : (s.afterItem c).Canon :=
  .drainCheck (.ite h.setCore.dropStaged.ceCount h.setCore.dropStaged)

theorem State.Canon.mixTone (h : s.Canon) {c : Nat} {tone : Option Tone} : (s.mixTone c tone).Canon := by
  unfold State.mixTone
  split
  · exact h
  · split
    · exact h
    · exact .ite h.notify h

theorem State.Canon.execDone (h : s.Canon) {core : Fin 516} {tone : Option Tone} : Res.Canon (execDone core tone s) :=
  h.issue fun h1 =>
    .ite (.next (h1.runCore fun h2 => .mk h2)) <| by
      split
      · exact .next h1.raiseDma
      · exact .ite (.next (h1.runCore fun h2 => .mk h2)) <|
          .next (.afterItem (.ite h1.mixTone.complete h1.mixTone.complete.chainNext))

theorem State.Canon.execKernelFaultReport (h : s.Canon) {core : Fin 512} {el : Nat} :
    Res.Canon (execKernelFaultReport core el s) := by
  unfold Machine.execKernelFaultReport
  extract_lets s0 c k it s1 _ s2
  have h0 : s0.Canon := h.advance
  split
  · exact .next h0
  · refine .ite (.next h0) ?_
    extract_lets s3 s4
    have h2 : s2.Canon := h0.endItem.cntDisp.setCore
    have h3 : s3.Canon := by
      unfold s3
      split
      · exact h2.releaseOpt
      · extract_lets t1 t2 t3
        have g1 : t1.Canon := h2.releaseOpt.returnItem
        have g2 : t2.Canon := .ite g1.finishTicket g1
        exact .chainNext (.countFault (.ite g2.notify g2))
    exact .next (.afterItem (.ite h3.ueCount h3))

theorem State.Canon.runCtl (h : s.Canon) {c : Nat} {f : State → Core → State × Eff}
    (hf : ∀ {t : State} {k : Core}, t.Canon → CanonFst (f t k)) : (s.runCtl c f).Canon :=
  h.runCore fun h1 => .ite (hf h1) (.mk h1)

theorem State.Canon.execMfp (h : s.Canon) {c : Fin 516} {d : BitVec 5} {n : Nat} : Res.Canon (execMfp c d n s) :=
  h.issue fun h1 => .next (h1.runCtl fun h2 => .mk h2)

theorem State.Canon.execMtp (h : s.Canon) {c : Fin 516} {n : Nat} {x : BitVec 5} : Res.Canon (execMtp c n x s) :=
  h.issue fun h1 => .next (h1.runCtl fun h2 => .mk h2)

theorem State.Canon.execWfi (h : s.Canon) {c : Fin 516} : Res.Canon (execWfi c s) :=
  h.issue (fun h1 => .next (h1.runCtl fun h2 => .ite (.mk h2.setCore) (.mk h2)))

theorem State.Canon.execIret (h : s.Canon) {c : Fin 516} : Res.Canon (execIret c s) :=
  h.issue fun h1 => .next (h1.runCtl fun h2 => .mk h2)

theorem State.Canon.execFencef (h : s.Canon) {c : Fin 516} : Res.Canon (execFencef c s) :=
  h.issue (fun h1 => .next (h1.runCtl fun h2 => .ite (.mk h2) (.mk h2)))

theorem State.Canon.execRomcall (h : s.Canon) {c : Fin 516} {n : Nat} : Res.Canon (execRomcall c n s) :=
  h.issue (fun h1 => .next (h1.runCtl (fun h2 => .ite (.mk h2) (.mk (.ite h2.frame h2)))))

/-! ### Every command, and every step -/

/-- A command that is one update, or a choice among updates, is settled here; the others have lemmas of their own above. -/
theorem State.Canon.exec (h : s.Canon) (i : Instr) : Res.Canon (Machine.exec i s) := by
  cases i with
  | registerWrite => exact .next h.busWrite.holdAcc.kernelErr
  | counterLatchRead => exact .next h.busRead.holdAcc.kernelErr
  | fifoPidxWrite => exact h.execFifoPidxWrite
  | fifoCidxWrite => exact h.execFifoCidxWrite
  | fifoDataRead => exact h.execFifoDataRead
  | fifoFlush => exact h.execFifoFlush
  | dropRest => exact h.execDropRest
  | fifoHwPublish => exact h.execFifoHwPublish
  | ethPcfgWrite => exact h.execEthPcfgWrite
  | anResolved => exact h.execAnResolved
  | anRestartTimeout => exact .ite (.next h.ethStart) (.next h)
  | linkChange => exact .ite (.ite (.next h.setRf.setLink) (.next h)) (.next h.setLink)
  | effectiveMinApply => exact .ite (.next h) (.ite (.next h.scalePort) (.next h))
  | frameReceived => exact h.execFrameReceived
  | srtpDecrypt => exact h.execSrtpDecrypt
  | strataForward => exact h.execStrataForward
  | egressSelect => exact h.execEgressSelect
  | srtpEncrypt => exact h.execSrtpEncrypt
  | tenantBucketFull =>
    exact .ite (.next (.ite h.advance.cntEgs.updPort.notify h.advance.cntEgs.updPort)) (.next h.advance)
  | gateEntryAdvance => exact h.execGateEntryAdvance
  | gateListSwitch => exact h.execGateListSwitch
  | layerTargetApply => exact h.execLayerTargetApply
  | shaperTargetApply => exact h.execShaperTargetApply
  | estimateApply => exact h.execEstimateApply
  | loupeSample => exact h.execLoupeSample
  | tolkuKeepalive => exact .next (h.advance.foldl fun h1 => h1.keepalive)
  | cascadePeerTimeout => exact h.execCascadePeerTimeout
  | legCreate => exact .next (h.runCmd fun h1 => h1.legCreateApply)
  | legModify => exact .next (h.runCmd fun h1 => h1.legModifyApply)
  | legDestroy => exact .next (h.runCmd fun h1 => h1.legDestroyApply)
  | legQuery => exact .next (h.runCmd fun h1 => h1.legQueryApply)
  | streamCreate => exact .next (h.runCmd fun h1 => h1.streamCreateApply)
  | streamDestroy => exact .next (h.runCmd fun h1 => h1.streamDestroyApply)
  | streamSubscribe => exact .next (h.runCmd fun h1 => h1.streamSubscribeApply)
  | streamModify => exact .next (h.runCmd fun h1 => h1.streamModifyApply)
  | streamUnsubscribe => exact .next (h.runCmd fun h1 => h1.streamUnsubscribeApply)
  | streamQuery => exact .next (h.runCmd fun h1 => h1.streamQueryApply)
  | cascadePeerAdd => exact .next (h.runCmd fun h1 => h1.cascadePeerAddApply)
  | cascadePeerRemove => exact .next (h.runCmd fun h1 => h1.cascadePeerRemoveApply)
  | cascadeSetDevid => exact .next (h.runCmd fun h1 => h1.cascadeSetDevidApply)
  | qosPolicerSet => exact .next (h.runCmd fun h1 => h1.qosPolicerSetApply)
  | qosDscpMapSet => exact .next (h.runCmd fun h1 => h1.qosDscpMapSetApply)
  | qosQueueCfg => exact .next (h.runCmd fun h1 => h1.qosQueueCfgApply)
  | qosShaperSet => exact .next (h.runCmd fun h1 => h1.qosShaperSetApply)
  | qosClassSet => exact .next (h.runCmd fun h1 => h1.qosClassSetApply)
  | qosPortSet => exact .next (h.runCmd fun h1 => h1.qosPortSetApply)
  | qosGateSet => exact .next (h.runCmd fun h1 => h1.qosGateSetApply)
  | qosTenantSet => exact .next (h.runCmd fun h1 => h1.qosTenantSetApply)
  | qosEstCfg => exact .next (h.runCmd fun h1 => h1.qosEstCfgApply)
  | qosSamplerSet => exact .next (h.runCmd fun h1 => h1.qosSamplerSetApply)
  | qosQueueRelease => exact .next (h.runCmd fun h1 => h1.qosQueueReleaseApply)
  | qosQuery => exact .next (h.runCmd fun h1 => h1.qosQueryApply)
  | mixFrameBoundary => exact .ite (.next h.advance.boundary) (.next h.advance)
  | safeLoadArm => exact h.execSafeLoadArm
  | safeLoadSwap => exact .next h.swapDue
  | sourceDeadline => exact .ite (.next h.advance.sourceStep) (.next h.advance)
  | memberRampEnd => exact .ite (.next h.endRamp) (.next h)
  | classOutputWrite => exact .next h.advance.lateOut.writeSlice
  | outDeadlineExpiry => exact .next h.advance.lateOut
  | confCreate => exact .next (h.runCmd fun h1 => h1.confCreateApply)
  | confModify => exact .next (h.runCmd fun h1 => h1.confModifyApply)
  | confDestroy => exact h.execConfDestroy
  | confPin => exact .next (h.runCmd fun h1 => h1.confPinApply)
  | confQuery => exact .next (h.runCmd fun h1 => h1.confQueryApply)
  | mixSourceAdd => exact .next (.lateOf (h.runCmd fun h1 => h1.mixSourceAddApply))
  | mixSourceModify => exact .next (.lateOf (h.runCmd fun h1 => h1.mixSourceModifyApply))
  | mixSourceRemove => exact .next (h.runCmd fun h1 => h1.mixSourceRemoveApply)
  | mixClassCreate => exact .next (h.runCmd fun h1 => h1.mixClassCreateApply)
  | mixClassModify => exact .next (.lateOf (h.runCmd fun h1 => h1.mixClassModifyApply))
  | mixClassDestroy => exact .next (h.runCmd fun h1 => h1.mixClassDestroyApply)
  | mixLegJoin => exact .next (h.runCmd fun h1 => h1.mixLegJoinApply)
  | mixLegLeave => exact .next (h.runCmd fun h1 => h1.mixLegLeaveApply)
  | mixBatch => exact .next (.lateOf (h.runCmd fun h1 => h1.mixBatchApply))
  | mixTapSet => exact .next (h.runCmd fun h1 => h1.mixTapSetApply)
  | mixQuery => exact .next (h.runCmd fun h1 => h1.mixQueryApply)
  | reqAppend => exact h.execReqAppend
  | reqCommit => exact .next (h.reqAccess fun h1 => h1.reqCommit)
  | reqDiscard => exact .next (h.reqAccess fun h1 => h1.updReqPort)
  | decodeStart => exact h.execDecodeStart
  | allocWaitTimeout => exact h.execAllocWaitTimeout
  | decodeComplete => exact h.execDecodeComplete
  | refreshTimerExpiry => exact h.execRefreshTimerExpiry
  | poolSet => exact h.poolRes
  | poolClear => exact h.poolRes
  | poolQuery => exact h.poolRes
  | slotQuery => exact h.poolRes
  | decCreate => exact .next (h.runCmd fun h1 => h1.decCreateApply)
  | decModify => exact .next (h.runCmd fun h1 => h1.decModifyApply)
  | decDestroy => exact .next (h.runCmd fun h1 => h1.decDestroyApply)
  | decQuery => exact .next (h.runCmd fun h1 => h1.decQueryApply)
  | decSnapshot => exact .next (h.runCmd fun h1 => h1.decSnapshotApply)
  | snapshotCopyDone => exact h.execSnapshotCopyDone
  | layoutTick => exact h.execLayoutTick
  | composeComplete => exact h.execComposeComplete
  | layoutCreate => exact .next (h.runCmd fun h1 => h1.layoutCreateApply)
  | layoutSet => exact .next (h.runCmd fun h1 => h1.layoutSetApply)
  | layoutCellSet => exact .next (h.runCmd fun h1 => h1.layoutCellSetApply)
  | layoutDestroy => exact .next (h.runCmd fun h1 => h1.layoutDestroyApply)
  | layoutImageLoad => exact .next (h.runCmd fun h1 => h1.layoutImageLoadApply)
  | layoutImageFree => exact .next (h.runCmd fun h1 => h1.layoutImageFreeApply)
  | layoutQuery => exact .next (h.runCmd fun h1 => h1.layoutQueryApply)
  | encInputAccept => exact .next h.encStep.acceptOne
  | analysisStart => exact h.execAnalysisStart
  | analysisComplete => exact h.execAnalysisComplete
  | coderStart => exact h.execCoderStart
  | headerWaitTimeout => exact h.execHeaderWaitTimeout
  | reconAllocTimeout => exact h.execReconAllocTimeout
  | coderRowCommit => exact h.execCoderRowCommit
  | pictureCoded => exact h.execPictureCoded
  | starvedRaise => exact .next h.advance.starve
  | encGroupCreate => exact .next (h.runCmd fun h1 => h1.encGroupCreateApply)
  | encGroupModify => exact .next (h.runCmd fun h1 => h1.encGroupModifyApply)
  | encGroupDestroy => exact .next (h.runCmd fun h1 => h1.encGroupDestroyApply)
  | encRendAdd => exact .next (h.runCmd fun h1 => h1.encRendAddApply)
  | encRendModify => exact .next (h.runCmd fun h1 => h1.encRendModifyApply)
  | encRendRemove => exact .next (h.runCmd fun h1 => h1.encRendRemoveApply)
  | encRefresh => exact .next (h.runCmd fun h1 => h1.encRefreshApply)
  | encQuery => exact .next (h.runCmd fun h1 => h1.encQueryApply)
  | workItemStart => exact h.execWorkItemStart
  | itemPlace => exact h.execItemPlace
  | affWaitTimeout => exact h.execAffWaitTimeout
  | itemWatchdog => exact .ite (.next h.advance.coreFault) (.next h.advance)
  | kernelFaultReport => exact h.execKernelFaultReport
  | kernelPost => exact .ite (.next h.advance.kernelPost) (.next h.advance)
  | dmaComplete => exact .ite (.next h.dmaRun) (.next h)
  | add => exact h.issue fun h1 => .next h1.alu
  | sub => exact h.issue fun h1 => .next h1.alu
  | and => exact h.issue fun h1 => .next h1.alu
  | or => exact h.issue fun h1 => .next h1.alu
  | xor => exact h.issue fun h1 => .next h1.alu
  | shl => exact h.issue fun h1 => .next h1.alu
  | shr => exact h.issue fun h1 => .next h1.alu
  | sar => exact h.issue fun h1 => .next h1.alu
  | shlv => exact h.issue fun h1 => .next h1.alu
  | shrv => exact h.issue fun h1 => .next h1.alu
  | sarv => exact h.issue fun h1 => .next h1.alu
  | cmplt => exact h.issue fun h1 => .next h1.alu
  | cmpltu => exact h.issue fun h1 => .next h1.alu
  | min => exact h.issue fun h1 => .next h1.alu
  | max => exact h.issue fun h1 => .next h1.alu
  | abs => exact h.issue fun h1 => .next h1.alu
  | mul => exact h.issue fun h1 => .next h1.alu
  | mulhi => exact h.issue fun h1 => .next h1.alu
  | addk => exact h.issue fun h1 => .next h1.alu
  | ork => exact h.issue fun h1 => .next h1.alu
  | andk => exact h.issue fun h1 => .next h1.alu
  | brEq => exact h.issue fun h1 => .next h1.branch
  | brNe => exact h.issue fun h1 => .next h1.branch
  | brLt => exact h.issue fun h1 => .next h1.branch
  | brGe => exact h.issue fun h1 => .next h1.branch
  | cmpltk => exact h.issue fun h1 => .next h1.alu
  | movh => exact h.issue fun h1 => .next h1.alu
  | call => exact h.issue fun h1 => .next h1.runK
  | done => exact h.execDone
  | mfs => exact h.execMfs
  | mts => exact h.issue fun h1 => .next h1.runK
  | lbrk => exact h.issue fun h1 => .next h1.runK
  | dmaw => exact h.execDmaw
  | dmas => exact h.issue fun h1 => .next h1.alu
  | loop => exact h.issue fun h1 => .next h1.runK
  | setx => exact h.issue fun h1 => .next h1.runK
  | seto => exact h.issue fun h1 => .next h1.runK
  | setcb => exact h.issue fun h1 => .next h1.runK
  | setcl => exact h.issue fun h1 => .next h1.runK
  | addx => exact h.issue fun h1 => .next h1.runK
  | movx => exact h.issue fun h1 => .next h1.runK
  | ldf => exact h.execLdf
  | stf => exact h.execStf
  | dmai => exact h.issue fun h1 => .next h1.startDma
  | dmao => exact h.issue fun h1 => .next h1.startDma
  | jmpr => exact h.issue fun h1 => .next h1.runK
  | ldH => exact h.issue fun h1 => .next h1.loadL
  | ldHu => exact h.issue fun h1 => .next h1.loadL
  | ldW => exact h.issue fun h1 => .next h1.loadL
  | ldD => exact h.issue fun h1 => .next h1.loadL
  | stH => exact h.issue fun h1 => .next h1.storeL
  | stW => exact h.issue fun h1 => .next h1.storeL
  | stD => exact h.issue fun h1 => .next h1.storeL
  | vclr => exact h.issue fun h1 => .next h1.runK
  | vmpy => exact h.issue fun h1 => .next h1.vecMac
  | vmac => exact h.issue fun h1 => .next h1.vecMac
  | vmsu => exact h.issue fun h1 => .next h1.vecMac
  | vld => exact h.execVld
  | vst => exact h.execVst
  | vred => exact h.issue fun h1 => .next h1.runK
  | vext => exact h.issue fun h1 => .next h1.runK
  | vadd => exact h.issue fun h1 => .next h1.vecAdd
  | vsub => exact h.issue fun h1 => .next h1.vecAdd
  | vacsx => exact h.issue fun h1 => .next h1.vecAcs
  | vacsn => exact h.issue fun h1 => .next h1.vecAcs
  | mfp => exact h.execMfp
  | mtp => exact h.execMtp
  | wfi => exact h.execWfi
  | iret => exact h.execIret
  | fencef => exact h.execFencef
  | romcall => exact h.execRomcall
  | kernelKeySet => exact .next (h.runCmd fun h1 => h1.kernelKeySetApply)
  | kernelLoad => exact .next (h.runCmd fun h1 => h1.kernelLoadApply)
  | kernelUnload => exact .next (h.runCmd fun h1 => h1.kernelUnloadApply)
  | kernelQueueCfg => exact .next (h.runCmd fun h1 => h1.kernelQueueCfgApply)
  | kernelQueueRelease => exact .next (h.runCmd fun h1 => h1.kernelQueueReleaseApply)
  | kernelChainSet => exact .next (h.runCmd fun h1 => h1.kernelChainSetApply)
  | kernelQuery => exact .next (h.runCmd fun h1 => h1.kernelQueryApply)
  | kernelResume => exact .next (h.runCmd fun h1 => h1.kernelResumeApply)
  | kernelTenantSet => exact .next (h.runCmd fun h1 => h1.kernelTenantSetApply)
  | keywinLockAcquire => exact h.execKeywinLockAcquire
  | keywinRelease => exact h.execKeywinRelease
  | keywinLockTimeout => exact .ite (.next h.advance.kwFree.kwZero.setRb) (.next h.advance)
  | keywinLoad => exact .next h.advance.kwCommit
  | keywinErase => exact .next h.advance.kwCommit
  | keyLoad => exact .next (h.wipeKey.runCmd fun h1 => h1.keyLoadApply)
  | keyLoadDtls => exact .next (h.wipeKey.runCmd fun h1 => h1.keyLoadDtlsApply)
  | keyErase => exact .next (h.wipeKey.runCmd fun h1 => h1.keyEraseApply)
  | keyRelease => exact .next (h.wipeKey.runCmd fun h1 => h1.keyReleaseApply)
  | keyQuery => exact .next (h.wipeKey.runCmd fun h1 => h1.keyQueryApply)
  | tamperArm => exact h.execTamperArm
  | tamperAlarm => exact .next (.ite h.setRb.alarm h.setRb)
  | cryptBleach => exact .next h.fwBleach.frame
  | bleachComplete => exact .ite (.next h.frame.setRb.setRb.setRb.setRb.chan2) (.next h)
  | bleachPoll => exact .next h.clearBleached
  | bleachedClear => exact .next h.clearBleached.frame
  | hbmcEnable => exact .ite (.next h.hbCtrl.frame) (.next h.frame)
  | hbmTrainingComplete => exact .ite (.next h.setHbState) (.next h)
  | hbmRequest => exact h.execHbmRequest
  | postedWriteDrain => exact h.execPostedWriteDrain
  | hbmUnitIssue => exact h.execHbmUnitIssue
  | hbmReadComplete => exact h.execHbmReadComplete
  | refreshDue => exact h.execRefreshDue
  | hbmTempRead => exact h.execHbmTempRead
  | scrubRead => exact h.execScrubRead
  | srIdleTimeout => exact .ite (.next h.setHbState.updHbm) (.next h)
  | srEntryComplete => exact .ite (.next h) (.next h.hbSettle.cntHbm.setHbState.updHbm)
  | srExitComplete => exact .ite (.next (h.setHbState.setRb.updHbm.foldl fun h1 => h1.serveHeld)) (.next h)
  | winFence => exact .next h.winFence
  | winFenceClear => exact .ite (.next h) (.next h.setRb)
  | mbxPost => exact h.execMbxPost
  | mbxWake => exact h.execMbxWake
  | mbxMsgWrite => exact h.execMbxMsgWrite
  | mbxAckWrite => exact h.execMbxAckWrite
  | mbxWord15Read => exact h.execMbxWord15Read
  | commandStale => exact .ite (.next h.advance.answer) (.next h.advance)
  | notificationPost => exact h.execNotificationPost
  | mctpEndpointReassign => exact .next h.setRf
  | sidebandMctpMessage => exact h.execSidebandMctpMessage
  | sysNop => exact h.execSysNop
  | sysHello => exact .next (h.runCmd fun h1 => h1.sysHelloApply)
  | sysCaps => exact .next (h.runCmd fun h1 => h1.sysCapsApply)
  | sysInfo => exact .next (h.runCmd fun h1 => h1.sysInfoApply)
  | sysShutdown => exact .next (h.runCmd fun h1 => h1.sysShutdownApply)
  | sysNotifyCfg => exact .next (h.runCmd fun h1 => h1.sysNotifyCfgApply)
  | telemMeterSet => exact .next (h.runCmd fun h1 => h1.telemMeterSetApply)
  | telemMeterStop => exact .next (h.runCmd fun h1 => h1.telemMeterStopApply)
  | telemMeterRead => exact .next (h.runCmd fun h1 => h1.telemMeterReadApply)
  | telemCounters => exact .next (h.runCmd fun h1 => h1.telemCountersApply)
  | meterSample => exact h.execMeterSample
  | pcieLinkChange => exact .ite (.next (.ite h.portReset h)) (.ite (.next h) (.next h.setReg))
  | pcieConfigWrite => exact h.execPcieConfigWrite
  | functionLevelReset => exact .ite (.next h) (.next h.resetFns)
  | vfEnableClear => exact .next h.resetFns.frame
  | hotReset => exact .next h.portReset
  | perstAssert => exact .next h.portReset
  | objectDestructionEnd => exact h.execObjectDestructionEnd
  | flrReady => exact .ite (.next h) (.next (.ite (h.setFlr.frame.foldl fun h1 => h1.setRb) h.setFlr.frame))
  | unclaimedRequest => exact .ite (.next h) (.next h.frame)
  | ringEnable => exact h.execRingEnable
  | ringDisable => exact h.execRingDisable
  | ringDmaFail => exact .next h.setFifo.frame.setRb.setRf.msix.emit
  | ringIntModExpiry => exact .ite (.next h.advance.setRingX.msix) (.next h.advance)
  | pdReqWrite => exact .next h.pdWrite.frame
  | sleepEntryComplete => exact h.execSleepEntryComplete
  | wakeComplete => exact h.execWakeComplete
  | powerGoodTimeout => exact h.execPowerGoodTimeout
  | domainReset => exact .next h.domReset.frame
  | warmReset => exact .next h.warmReset
  | wdogEnable => exact .next h.advance.wdogWrite.frame
  | wdogKick => exact .next h.advance.wdogWrite.frame
  | watchdogExpiry => exact .ite (.next h.advance.warmReset) (.next h.advance)
  | powerOnReset => exact .next h.powerOn
  | brownOut => exact .next h.powerOn
  | porstRelease => exact h.execPorstRelease
  | xtalFail => exact .ite (.next h.setRb.setRb.setRb.chan2.notifyAll) (.next h.setRb)
  | xtalReturn => exact .ite (.next h.setRb.setRb.setRb.notifyAll) (.next h.setRb)
  | timeStepCommit => exact .next h.setReg.setReg.commitStep.frame
  | timeStepApply => exact h.execTimeStepApply
  | ppsInEdge => exact h.execPpsInEdge
  | ppsOutPulse => exact h.execPpsOutPulse
  | servoHoldover => exact .ite (.next h.advance.freeWord.setReg.setLock) (.next h.advance)
  | safelightTimerExpiry => exact h.execSafelightTimerExpiry
  | thermalSample => exact .next h.thermal.nextSlot
  | thermalTrip => exact h.execThermalTrip
  | fanWriteTimeout => exact .ite (.next h.advance.frame.fanUpdate) (.next h.advance)
  | timeGet => exact .next (h.runCmd fun h1 => h1.timeGetApply)
  | timeSourceSet => exact .next (h.runCmd fun h1 => h1.timeSourceSetApply)
  | timeTod => exact .next (h.runCmd fun h1 => h1.timeTodApply)
  | timeOffset => exact .next (h.runCmd fun h1 => h1.timeOffsetApply)
  | timePpsOutSet => exact .next (h.runCmd fun h1 => h1.timePpsOutSetApply)
  | timeTimerSet => exact .next (h.runCmd fun h1 => h1.timeTimerSetApply)
  | timeQuery => exact .next (h.runCmd fun h1 => h1.timeQueryApply)
  | jrnlProgram => exact .next h.jrnlCmdAt.frame
  | jrnlErase => exact .next h.jrnlCmdAt.frame
  | jrnlFuse => exact .next h.jrnlCmdAt.frame
  | commitComplete => exact .ite (.next h.endCommit.flushAudits) (.next h)
  | pfailAssert => exact .next h.pfailOn.pfailRun
  | pfailRelease => exact .ite (.next h.setRb.notifyAll.flushAudits) (.next h)
  | trustSign => exact .next h.trustSign.frame
  | signComplete => exact .ite (.next h) (.ite (.next h.setRf.setRb) (.next h.memWrite.memWrite.setRf.setRb))
  | jrnlAttest => exact .next (h.runCmd fun h1 => h1.jrnlAttestApply)
  | jrnlIdentity => exact .next (h.runCmd fun h1 => h1.jrnlIdentityApply)
  | jrnlRead => exact .next (h.runCmd fun h1 => h1.jrnlReadApply)
  | jrnlSnapshot => exact .next (h.runJrnl fun h1 => h1.jrnlSnapshotApply)
  | jrnlRestore => exact .next (h.runCmd fun h1 => h1.jrnlRestoreApply)
  | jrnlStatus => exact .next (h.runCmd fun h1 => h1.jrnlStatusApply)
  | jrnlFwStage => exact .next (h.runJrnl fun h1 => h1.jrnlFwStageApply)
  | jrnlFwActivate => exact .next (h.runJrnl fun h1 => h1.jrnlFwActivateApply)
  | jrnlFwConfirm => exact .next (h.runJrnl fun h1 => h1.jrnlFwConfirmApply)
  | jrnlRollbackSet => exact .next (h.runJrnl fun h1 => h1.jrnlRollbackSetApply)
  | jrnlKeyRevoke => exact .next (h.runJrnl fun h1 => h1.jrnlKeyRevokeApply)
  | jrnlTenantPin => exact .next (h.runJrnl fun h1 => h1.jrnlTenantPinApply)
  | tstripGo => exact .next h.tstripGo.frame
  | tstripAbort => exact .next h.dropTest.nextSlot.frame
  | unitTestDone => exact h.execUnitTestDone
  | testScheduleExpiry => exact .ite (.next h.advance) (.next (.ite h.advance.updTst h.advance.updTst.startRun))
  | testResultRetry => exact h.execTestResultRetry
  | testRun => exact .next (h.runCmd fun h1 => h1.testRunApply)
  | testSchedule => exact .next (h.runCmd fun h1 => h1.testScheduleApply)
  | testResult => exact .next (h.runCmd fun h1 => h1.testResultApply)
  | testFence => exact .next (h.runCmd fun h1 => h1.testFenceApply)
  | testUnfence => exact .next (h.runCmd fun h1 => h1.testUnfenceApply)
  | testPolicy => exact .next (h.runCmd fun h1 => h1.testPolicyApply)
  | sysrefSwitch => exact .ite (.next h) (.next h.setRb.setRb)
  | keywinCommitDone => exact h.execKeywinCommitDone

theorem State.Canon.step (h : s.Canon) : Res.Canon (Machine.step s) := by
  unfold Machine.step
  split
  · exact .next h.advance
  · exact h.frame.exec _

/-- Settles O4: no store holds anything at reset. -/
theorem canonicalAtReset : Obligations.CanonicalAtReset := State.canon_reset

/-- Settles O5: every command answers a next state and keeps the canonical form. -/
theorem stepKeepsCanonical : Obligations.StepKeepsCanonical := fun _ h => h.step

end Sys2Proof.Machine
end

section
/-! What a demand can change (R13, R415, R417, R420): registers, the power record and the clusters that drain; the rest of the state
stays. -/

namespace Sys2Proof.Machine

/-- `t` is `s` but for what a wake may change. -/
def State.Woken (s t : State) : Prop :=
  ∃ regs power draining, t = { s with regs, power, disp := { s.disp with draining } }

variable {s t u : State}

theorem State.Woken.refl (s : State) : s.Woken s := ⟨_, _, _, rfl⟩

theorem State.Woken.trans (h : s.Woken t) (h' : t.Woken u) : s.Woken u := by
  obtain ⟨_, _, _, rfl⟩ := h
  obtain ⟨_, _, _, rfl⟩ := h'
  exact ⟨_, _, _, rfl⟩

theorem State.Woken.ite {p : Prop} [Decidable p] (h : s.Woken t) (h' : s.Woken u) : s.Woken (if p then t else u) := by
  split
  · exact h
  · exact h'

theorem State.woken_setReg (s : State) (n : RegName) (i : Nat) (v : Word) : s.Woken (s.setReg n i v) := ⟨_, _, _, rfl⟩

theorem State.woken_updDom (s : State) (d : Nat) (f : Dom → Dom) : s.Woken (s.updDom d f) := ⟨_, _, _, rfl⟩

theorem State.woken_startUp (s : State) (d : Nat) (r : Bool) : s.Woken (s.startUp d r) :=
  .ite (.refl s) (.ite (s.woken_setReg _ _ _) (.ite (.refl s) ⟨_, _, _, rfl⟩))

theorem State.woken_wake (s : State) (d : Nat) (r : Bool) : s.Woken (s.wake d r) := by
  unfold State.wake
  split
  · exact s.woken_startUp d r
  · exact .ite ⟨_, _, _, rfl⟩ (.refl s)
  · exact .ite (s.woken_updDom _ _) (s.woken_setReg _ _ _)
  · exact s.woken_updDom _ _
  · exact s.woken_updDom _ _
  · exact .refl s

theorem State.woken_wakeUp (s : State) (d : Nat) (r : Bool) : s.Woken (s.wakeUp d r) :=
  .ite ((s.woken_wake _ r).trans (State.woken_wake _ d r)) (s.woken_wake d r)

theorem State.woken_reqOn (s : State) (d : Nat) : s.Woken (s.reqOn d) := .ite (s.woken_setReg _ _ _) (.refl s)

theorem State.woken_demand (s : State) (d : Nat) (r : Bool) : s.Woken (s.demand d r) :=
  .ite ((State.Woken.ite (s.woken_reqOn _) (.refl s)).trans ((State.woken_reqOn _ d).trans (State.woken_wakeUp _ d r))) (.refl s)

theorem State.demand_fifos (s : State) (d : Nat) (r : Bool) : (s.demand d r).fifos = s.fifos := by
  obtain ⟨_, _, _, h⟩ := s.woken_demand d r
  rw [h]

theorem State.demand_bus (s : State) (d : Nat) (r : Bool) : (s.demand d r).bus = s.bus := by
  obtain ⟨_, _, _, h⟩ := s.woken_demand d r
  rw [h]

theorem State.demand_cores (s : State) (d : Nat) (r : Bool) : (s.demand d r).cores = s.cores := by
  obtain ⟨_, _, _, h⟩ := s.woken_demand d r
  rw [h]

end Sys2Proof.Machine
end

section
/-! The FIFO commands (R35 to R39): what a command makes of a FIFO, and what it leaves of the rest of the device. -/

namespace Sys2Proof.Machine

/-! ### One FIFO -/

/-- The index moved on by the distance to another is that other (R37, R38). -/
theorem add_dist (a b : Nat) : (b + dist 16 a b) % 65536 = a % 65536 := by
  unfold dist
  omega

theorem fld_low (v : Word) : fld v 15 0 = v.toNat % 65536 := rfl

variable {x : Fifo} {ev eop : Bool} {its : List (List Word)} {new : Nat}

theorem Fifo.accepts_eq_true_iff {d : Nat} : x.accepts ev d eop = true ↔
    x.misconf = false ∧ d ≤ x.depth - x.level ∧ (ev = true ∨ eop = false ∨ x.ends.length ≠ 255) := by
  simp [Fifo.accepts, and_assoc, or_assoc]

/-- Where no packet is being discarded, published items stand behind those that wait. -/
theorem Fifo.publish_of_not_discard (h : x.discard = false) : (x.publish ev its eop).pidx = (x.pidx + its.length) % 65536 ∧
    (x.publish ev its eop).cidx = x.cidx ∧ (x.publish ev its eop).items = x.items ++ its := by
  unfold Fifo.publish
  cases ev <;> cases eop <;> simp [h]

theorem Fifo.pidxWrite_of_full (h : x.depth - x.level < dist 16 new x.pidx) :
    x.pidxWrite ev new eop its = { x with overflow := true } := by
  refine if_neg fun e => ?_
  have := (Fifo.accepts_eq_true_iff.mp e).2.1
  omega

theorem Fifo.pidxWrite_of_accepts (h : x.accepts ev (dist 16 new x.pidx) eop = true) : x.pidxWrite ev new eop its =
    x.publish ev ((List.range (dist 16 new x.pidx)).map fun i => nth its [] i) eop := if_pos h

theorem Fifo.cidxWrite_of_level (h : dist 16 new x.cidx ≤ x.level) : x.cidxWrite new = x.consume (dist 16 new x.cidx) := if_pos h

theorem Fifo.cidxWrite_of_beyond (h : x.level < dist 16 new x.cidx) : x.cidxWrite new = { x with underrun := true } :=
  if_neg (by omega)

theorem Fifo.dataRead_of_empty (hl : x.level = 0) (hw : x.wpos = 0) : x.dataRead = (x.last, { x with underrun := true }) :=
  if_pos (by simp [hl, hw])

theorem Fifo.dataRead_of_level (hm : x.misconf = false) (hl : x.level ≠ 0) : x.dataRead =
    (nth (x.items.headD []) 0 x.wpos,
      if x.wpos + 1 = x.bytes / 4 then { x with last := nth (x.items.headD []) 0 x.wpos }.consume 1
      else { x with last := nth (x.items.headD []) 0 x.wpos, wpos := x.wpos + 1 }) :=
  if_neg (by simp [hm, hl])

theorem Fifo.flush_of_configured (hm : x.misconf = false) : x.flush =
    { x with cidx := x.pidx, items := [], ends := [], wpos := 0, discard := x.discard || x.pktOpen } := if_neg (by simp [hm])

/-- What `DROP_REST` drops: an item where each closes its own packet, else the head packet, or what there is of an open one. -/
theorem Fifo.dropRest_eq (hm : x.misconf = false) (h : x.level ≠ 0 ∨ x.pktOpen = true) : x.dropRest ev =
    if ev then x.consume 1 else x.ends.head?.elim { x with cidx := x.pidx, items := [], wpos := 0, discard := true } fun e =>
      x.consume (dist 16 e x.cidx) := by
  have hd : ¬(decide (x.level = 0) && !x.pktOpen) = true := by
    rcases h with h | h <;> simp [h]
  unfold Fifo.dropRest
  rw [if_neg (by simp [hm]), if_neg hd]
  cases x.ends <;> rfl

/-! ### The device -/

variable {s t : State} {a : Agent} {f : FifoId} {v : Word}

/-- `t` is what a command on a FIFO leaves of `s` with `x` there: the others stay, and a command on an engine's changes
nothing else but the answer. -/
structure State.FifoLeft (s : State) (f : FifoId) (x : Fifo) (t : State) : Prop where
  fifos : t.fifos = (s.setFifo f x).fifos
  engine : (∀ r, f ≠ .ring r) → { t with fifos := s.fifos, bus := s.bus } = s

theorem State.FifoLeft.same (h : s.FifoLeft f x t) : t.fifo f = x := by
  rw [State.fifo, h.fifos]
  exact s.fifo_setFifo_same f x

theorem State.FifoLeft.only (h : s.FifoLeft f x t) : (∀ g, fifoKey g ≠ fifoKey f → t.fifo g = s.fifo g) ∧
    ((∀ r, f ≠ .ring r) → { t with fifos := s.fifos, bus := s.bus } = s) := by
  refine ⟨fun g hg => ?_, h.engine⟩
  rw [State.fifo, h.fifos]
  exact s.fifo_setFifo_ne x hg

theorem State.FifoLeft.stored {b : Bus} : s.FifoLeft f x { s.setFifo f x with bus := b } := ⟨rfl, fun _ => rfl⟩

theorem State.FifoLeft.ring {r : Fin 4096} (h : t.fifos = (s.setFifo (.ring r) x).fifos) : s.FifoLeft (.ring r) x t :=
  ⟨h, fun hr => absurd rfl (hr r)⟩

/-! The events of a ring leave every FIFO as it is. -/

theorem State.writeBack_fifos (s : State) (r : Nat) : (s.writeBack r).fifos = s.fifos := by
  unfold State.writeBack
  dsimp only
  split
  · rfl
  · exact s.dma_fifos _ _ _

theorem State.msix_fifos (s : State) (f w : Nat) : (s.msix f w).fifos = s.fifos := by
  unfold State.msix
  split <;> rfl

theorem State.ringEvent_fifos (s : State) (r : Nat) : (s.ringEvent r).fifos = s.fifos := by
  unfold State.ringEvent
  dsimp only
  split
  · rfl
  · split
    · exact State.msix_fifos _ _ _
    · rfl

theorem State.postRing_fifos (s : State) (r : Fin 4096) (n : Nat) : (s.postRing r n).fifos = s.fifos := by
  unfold State.postRing
  split <;> rfl

/-! ### The commands -/

theorem exec_fifoPidxWrite (h : s.produces a f = true) : ∃ t, exec (.fifoPidxWrite a f v its) s = .next t ∧ t.bus = .ok 0 ∧
    s.FifoLeft f ((s.fifo f).pidxWrite (s.fifoEv f) (fld v 15 0) (bit v 31 && !s.fifoEv f) its) t := by
  simp only [exec, execFifoPidxWrite, h, if_true]
  cases f with
  | ring r =>
    cases a <;> refine ⟨_, rfl, ?_, .ring ?_⟩ <;>
      simp only [apply_ite State.bus, apply_ite State.fifos, State.demand_bus, State.demand_fifos, State.postRing_fifos,
        State.writeBack_fifos, ite_self]
  | _ => exact ⟨_, rfl, rfl, .stored⟩

theorem exec_fifoCidxWrite (h : s.consumes a f = true) : ∃ t, exec (.fifoCidxWrite a f v) s = .next t ∧ t.bus = .ok 0 ∧
    s.FifoLeft f ((s.fifo f).cidxWrite (fld v 15 0)) t := by
  refine ⟨_, if_pos h, rfl, ?_⟩
  cases f with
  | ring r =>
    refine .ring ?_
    simp only [apply_ite State.fifos, State.writeBack_fifos, ite_self]
  | _ => exact .stored

theorem exec_fifoDataRead (hf : ∀ r, f ≠ .ring r) (h : s.consumes a f = true) : ∃ t, exec (.fifoDataRead a f) s = .next t ∧
    t.bus = .ok (s.fifo f).dataRead.1 ∧ s.FifoLeft f (s.fifo f).dataRead.2 t := by
  cases f with
  | ring r => exact absurd rfl (hf r)
  | _ => exact ⟨_, if_pos h, rfl, .stored⟩

theorem exec_fifoFlush (h : s.consumes a f = true) : ∃ t, exec (.fifoFlush a f) s = .next t ∧ t.bus = .ok 0 ∧
    s.FifoLeft f (s.fifo f).flush t := by
  refine ⟨_, if_pos h, rfl, ?_⟩
  cases f with
  | ring r => exact .ring (State.writeBack_fifos _ _)
  | _ => exact .stored

theorem exec_dropRest (h : s.consumes a f = true) : ∃ t, exec (.dropRest a f) s = .next t ∧ t.bus = .ok 0 ∧
    s.FifoLeft f ((s.fifo f).dropRest (s.fifoEv f)) t := by
  refine ⟨_, if_pos h, rfl, ?_⟩
  cases f with
  | ring r => exact .ring (State.writeBack_fifos _ _)
  | _ => exact .stored

/-- A hardware producer needs no answer: an engine's leaves the one there was. -/
theorem exec_fifoHwPublish (h : (s.fifo f).accepts (s.fifoEv f) its.length eop = true)
    (hr : ∀ r, f = .ring r → s.ringLive r.val = true ∧ s.hostProduces r.val = false) :
    ∃ t, exec (.fifoHwPublish f its eop) s = .next t ∧ ((∀ r, f ≠ .ring r) → { t with fifos := s.fifos } = s) ∧
      t.fifo f = (s.fifo f).publish (s.fifoEv f) its eop := by
  simp only [exec, execFifoHwPublish, h, if_true]
  cases f with
  | ring r =>
    obtain ⟨hl, hp⟩ := hr r rfl
    simp only [hl, hp, Bool.not_false, Bool.and_self, if_true]
    refine ⟨_, rfl, fun hn => absurd rfl (hn r), State.FifoLeft.same (s := s) (.ring ?_)⟩
    rw [State.ringEvent_fifos, State.writeBack_fifos, State.dma_fifos]
  | _ => exact ⟨_, rfl, fun _ => rfl, State.fifo_setFifo_same _ _ _⟩

theorem State.denied_of_no_kernel {o : Nat} (h : ∀ k, a ≠ .kernel k) : s.denied a f o = { s with bus := .ok 0 } := by
  cases a with
  | kernel k => exact absurd rfl (h k)
  | _ => rfl

/-- Settles O33: each command leaves its FIFO as the primitive says; the clauses read that off. -/
theorem fifoCommands : Obligations.FifoCommands := by
  intro a f s x only
  refine ⟨?produce, ?consume, ?ringRead, ?read, ?flush, ?drop, ?publish, ?noProducer, ?noConsumer, ?denied, ?kernel⟩
  case produce =>
    intro h v its
    obtain ⟨t, he, hb, ht⟩ := exec_fifoPidxWrite (v := v) (its := its) h
    rw [fld_low] at ht
    refine ⟨t, he, hb, ht.only, fun _ hl => ht.same.trans (Fifo.pidxWrite_of_full hl), fun hm hl hv hd => ?_⟩
    have hacc : x.accepts (s.fifoEv f) (dist 16 (v.toNat % 65536) x.pidx) (bit v 31 && !s.fifoEv f) = true := by
      refine Fifo.accepts_eq_true_iff.mpr ⟨hm, hl, ?_⟩
      cases s.fifoEv f with
      | true => exact .inl rfl
      | false => simpa using hv
    obtain ⟨hp, hc, hi⟩ := Fifo.publish_of_not_discard (ev := s.fifoEv f) (eop := bit v 31 && !s.fifoEv f)
      (its := (List.range (dist 16 (v.toNat % 65536) x.pidx)).map fun i => nth its [] i) hd
    rw [ht.same, Fifo.pidxWrite_of_accepts hacc]
    refine ⟨?_, hc, hi⟩
    rw [hp, List.length_map, List.length_range, add_dist, Nat.mod_mod]
  case consume =>
    intro h v
    obtain ⟨t, he, hb, ht⟩ := exec_fifoCidxWrite (v := v) h
    rw [fld_low] at ht
    refine ⟨t, he, hb, ht.only, fun hl => ht.same.trans (Fifo.cidxWrite_of_beyond hl), fun hl => ?_⟩
    rw [ht.same, Fifo.cidxWrite_of_level hl]
    exact ⟨(add_dist _ _).trans (Nat.mod_mod _ _), rfl, rfl⟩
  case ringRead =>
    rintro ⟨r, rfl⟩
    rfl
  case read =>
    intro hf h
    obtain ⟨t, he, hb, ht⟩ := exec_fifoDataRead hf h
    refine ⟨t, he, ht.only, fun _ hl hw => ?_, fun hm hl => ?_⟩
    · rw [hb, ht.same, Fifo.dataRead_of_empty hl hw]
      exact ⟨rfl, rfl⟩
    · rw [hb, ht.same, Fifo.dataRead_of_level hm hl]
      by_cases hw : x.wpos + 1 = x.bytes / 4
      · rw [if_pos hw]
        exact ⟨rfl, rfl, fun hn => absurd hw hn, fun _ => ⟨rfl, rfl, rfl⟩⟩
      · rw [if_neg hw]
        exact ⟨rfl, rfl, fun _ => ⟨rfl, rfl⟩, fun he => absurd he hw⟩
  case flush =>
    intro h hm
    obtain ⟨t, he, hb, ht⟩ := exec_fifoFlush h
    refine ⟨t, he, hb, ht.only, ?_⟩
    rw [ht.same, Fifo.flush_of_configured hm]
    exact ⟨rfl, rfl, rfl, rfl⟩
  case drop =>
    intro h hm hl
    obtain ⟨t, he, hb, ht⟩ := exec_dropRest h
    refine ⟨t, he, hb, ht.only, ?_⟩
    rw [ht.same, Fifo.dropRest_eq hm hl]
    refine ⟨fun hev => ?_, fun hev => ⟨fun e r hx => ?_, fun hx => ?_⟩⟩
    · rw [hev]
      rfl
    · rw [hev, hx]
      rfl
    · rw [hev, hx]
      exact ⟨rfl, rfl⟩
  case publish =>
    intro its eop hm hd hl hv hr
    obtain ⟨t, he, hn, ht⟩ := exec_fifoHwPublish (Fifo.accepts_eq_true_iff.mpr ⟨hm, hl, .inr hv⟩) hr
    obtain ⟨hp, -, hi⟩ := Fifo.publish_of_not_discard (ev := s.fifoEv f) (eop := eop) (its := its) hd
    exact ⟨t, he, hn, (congrArg _ ht).trans hi, (congrArg _ ht).trans hp⟩
  case noProducer => exact fun h v its => if_neg (by simp [h])
  case noConsumer =>
    intro h v
    have hn : ¬s.consumes a f = true := by simp [h]
    refine ⟨if_neg hn, fun hf => ?_, if_neg hn, if_neg hn⟩
    cases f with
    | ring r => exact absurd rfl (hf r)
    | _ => exact if_neg hn
  case denied => exact fun o h => State.denied_of_no_kernel h
  case kernel =>
    intro k o e
    exact State.kernelErr_busError (s := e) rfl

end Sys2Proof.Machine
end

section
/-! What the dispatcher's choices rest on: priority classes (R29, R30), tables by their members, and who may be placed where (R270,
R274, R275). -/

namespace Sys2Proof.Machine

/-! ### Priority classes -/

/-- Where every requester from the pointer on is passed, the first of all wins. -/
theorem rotateIn_wrap {p w x : Nat} {l : List Nat} (h : rotateIn p l = some w) (hl : l.Pairwise (· < ·)) (hw : w < p) (hx : x ∈ l) :
    x < p ∧ w ≤ x := by
  unfold rotateIn at h
  cases hf : l.find? fun i => decide (p ≤ i) with
  | some v =>
    rw [hf] at h
    obtain rfl := Option.some.inj h
    have hp : p ≤ v := by simpa using List.find?_some hf
    omega
  | none =>
    rw [hf] at h
    obtain ⟨r, rfl⟩ := List.head?_eq_some_iff.mp h
    refine ⟨by simpa using List.find?_eq_none.mp hf x hx, ?_⟩
    rcases List.mem_cons.mp hx with rfl | hr
    · exact Nat.le_refl _
    · exact Nat.le_of_lt ((List.pairwise_cons.mp hl).1 x hr)

/-- The requesters of class `k`. -/
def ofClass (k : Nat) (l : List (Nat × Nat)) : List Nat := (l.filter fun x => x.2 == k).map (·.1)

variable {ptr : Nat → Nat} {l : List (Nat × Nat)} {k w : Nat}

theorem mem_ofClass : w ∈ ofClass k l ↔ (w, k) ∈ l := by simp [ofClass]

theorem pairwise_ofClass (h : (l.map (·.1)).Pairwise (· < ·)) : (ofClass k l).Pairwise (· < ·) :=
  h.sublist (List.filter_sublist.map _)

/-- The class served is the highest that has a requester, and its own pointer decides in it. -/
theorem arbitrate_eq_some (h : arbitrate ptr l = some (k, w)) : (∀ x ∈ l, k ≤ x.2) ∧ rotateIn (ptr k) (ofClass k l) = some w := by
  unfold arbitrate at h
  cases hm : (l.map (·.2)).min? with
  | none => simp [hm] at h
  | some j =>
    simp only [hm, Option.map_eq_some_iff, Prod.mk.injEq] at h
    obtain ⟨v, hv, rfl, rfl⟩ := h
    exact ⟨fun x hx => (List.min?_eq_some_iff.mp hm).2 _ (List.mem_map_of_mem hx), hv⟩

theorem arbitrate_eq_none : arbitrate ptr l = none ↔ l = [] := by
  unfold arbitrate
  cases hm : (l.map (·.2)).min? with
  | none => simpa using hm
  | some j =>
    obtain ⟨x, hx, rfl⟩ := List.mem_map.mp (List.min?_eq_some_iff.mp hm).1
    have hr : rotateIn (ptr x.2) (ofClass x.2 l) ≠ none := fun e =>
      List.ne_nil_of_mem (mem_ofClass.mpr hx) (rotateIn_none.mp e)
    exact iff_of_false (fun e => hr (Option.map_eq_none_iff.mp e)) (List.ne_nil_of_mem hx)

theorem arbitrate_mem (h : arbitrate ptr l = some (k, w)) : (w, k) ∈ l := mem_ofClass.mp (rotateIn_mem (arbitrate_eq_some h).2)

/-! ### Members of a table -/

theorem Tbl.mem_of_find {α : Type} {t : Tbl α} {q : Nat} {v : α} (h : Tbl.find t q = some v) : (q, v) ∈ t := by
  induction t with
  | nil => cases h
  | cons x r ih =>
    obtain ⟨j, y⟩ := x
    rw [Tbl.find] at h
    split at h
    · next hj =>
      obtain rfl := Option.some.inj h
      exact hj ▸ List.mem_cons_self
    · exact List.mem_cons_of_mem _ (ih h)

theorem Tbl.find_of_mem {α : Type} {t : Tbl α} {q : Nat} {v : α} (hw : Tbl.wf t = true) (h : (q, v) ∈ t) : Tbl.find t q = some v := by
  induction t with
  | nil => cases h
  | cons x r ih =>
    obtain ⟨j, y⟩ := x
    obtain ⟨ha, hr⟩ := Tbl.wf_cons.mp hw
    rcases List.mem_cons.mp h with e | h
    · obtain ⟨rfl, rfl⟩ := Prod.mk.inj e
      exact if_pos rfl
    · exact (if_neg (Nat.ne_of_lt (ha _ h))).trans (ih hr h)

/-! ### Placing -/

variable {s : State} {q i c : Nat} {d : DispQ} {it : Item} {late hit : Bool}

theorem State.dispQ_of_find (h : Tbl.find s.disp.qs q = some d) : s.dispQ q = some d := by
  unfold State.dispQ
  rw [h]

theorem State.eligible_iff : s.eligible d c = true ↔ d.mask.toNat.testBit (c / 8) = true ∧ s.clOn (c / 8) = true ∧
    s.fenced (c / 8) = false ∧ Tbl.get s.disp.draining false (c / 8) = false ∧ (s.core c).usedSlots < 2 := by
  simp [State.eligible, and_assoc]

/-- An item goes to no core but an eligible one. -/
theorem State.eligible_of_coreFor (h : s.coreFor q d it late = some (c, hit)) : s.eligible d c = true := by
  have other (h : (rotate 512 d.ptr (s.eligible d)).map (fun j => (j, false)) = some (c, hit)) : s.eligible d c = true := by
    simp only [Option.map_eq_some_iff, Prod.mk.injEq] at h
    obtain ⟨j, hj, rfl, -⟩ := h
    exact List.find?_some hj
  have held {j : Nat} {o : Option (Nat × Bool)} (ho : o = some (c, hit) → s.eligible d c = true)
      (h : (if s.eligible d j then some (j, true) else o) = some (c, hit)) : s.eligible d c = true := by
    split at h
    · next he =>
      obtain ⟨rfl, -⟩ := Prod.mk.inj (Option.some.inj h)
      exact he
    · exact ho h
  unfold State.coreFor at h
  dsimp only at h
  split at h
  · exact held (o := none) nofun h
  · split at h
    · exact other h
    · exact held (fun h => other (Option.ite_none_left_eq_some.mp h).2) h

/-- What holds of an item that can be placed. -/
theorem State.placeable_eq_some (h : s.placeable q d late = some (i, it, c, hit)) : s.rb .DISP_CTRL 0 31 = true ∧
    (∃ k, s.kernel d.kern = some k ∧ k.suspended = false) ∧ d.items[i]? = some it ∧ (d.typ = 0 → i = 0) ∧
    s.eligible d c = true := by
  obtain ⟨hg, h⟩ := Option.ite_none_left_eq_some.mp h
  obtain ⟨⟨x, j⟩, hx, hf⟩ := List.exists_of_findSome?_eq_some h
  obtain ⟨-, hf⟩ := Option.ite_none_left_eq_some.mp hf
  simp only [Option.map_eq_some_iff, Prod.mk.injEq] at hf
  obtain ⟨⟨c', hit'⟩, hc, rfl, rfl, rfl, rfl⟩ := hf
  simp only [Bool.or_eq_true, decide_eq_true_eq, not_or] at hg
  obtain ⟨hen, hk⟩ := hg
  have hx : d.items[j]? = some x ∧ (d.typ = 0 → j = 0) := by
    have hx := List.mem_zipIdx_iff_getElem?.mp hx
    split at hx
    · rw [List.getElem?_take, Option.ite_none_right_eq_some] at hx
      obtain ⟨hj, hx⟩ := hx
      exact ⟨hx, fun _ => by omega⟩
    · next ht => exact ⟨hx, fun e => absurd e ht⟩
  obtain ⟨hx, hj⟩ := hx
  refine ⟨by simpa using hen, ?_, hx, hj, State.eligible_of_coreFor hc⟩
  cases hk' : s.kernel d.kern with
  | none => simp [hk'] at hk
  | some k => exact ⟨k, rfl, by simpa [hk'] using hk⟩

/-- What is served: an item that can be placed, of a queue of the highest rank that has one (R274). -/
theorem State.serve_eq_some {p : Nat × Item × Nat × Bool} (hw : s.disp.qs.wf = true) (h : s.serve = some (q, d, p)) :
    Tbl.find s.disp.qs q = some d ∧ s.placeable q d false = some p ∧
      ∀ r e, Tbl.find s.disp.qs r = some e → (s.placeable r e false).isSome = true → d.rankNow ≤ e.rankNow := by
  unfold State.serve at h
  dsimp only at h
  split at h
  · cases h
  · next k w ha =>
    split at h
    · cases h
    · next e he =>
      simp only [Option.map_eq_some_iff, Prod.mk.injEq] at h
      obtain ⟨p', hp, rfl, rfl, rfl⟩ := h
      refine ⟨he, hp, fun r e' hr hs => ?_⟩
      obtain ⟨⟨w', e''⟩, hm, hk⟩ := List.mem_map.mp (arbitrate_mem ha)
      obtain ⟨rfl, rfl⟩ := Prod.mk.inj hk
      obtain rfl : e = e'' := Option.some.inj (he.symm.trans (Tbl.find_of_mem hw (List.mem_filter.mp hm).1))
      exact (arbitrate_eq_some ha).1 (r, e'.rankNow)
        (List.mem_map.mpr ⟨(r, e'), List.mem_filter.mpr ⟨Tbl.mem_of_find hr, hs⟩, rfl⟩)

/-- The slot that a placed item takes: never the running item's. -/
def Core.freeSlot (k : Core) : Nat := if k.running then 1 - k.slot else if k.order = [0] then 1 else 0

/-- What a placement leaves: the item in a slot of its core, that of the running item never, and out of its queue. -/
theorem State.place_spec (s : State) (q : Nat) (d : DispQ) (i : Nat) (it : Item) (c : Nat) (hit : Bool) :
    let u := s.place q d i it c hit
    ∃ sl, (u.core c).order = (s.core c).order ++ [sl] ∧ Tbl.find (u.core c).slots sl = some it ∧
      ((s.core c).running = true → sl = 1 - (s.core c).slot) ∧
      (∃ e, Tbl.find u.disp.qs q = some e ∧ e.items = d.items.eraseIdx i) ∧ (∀ e, e ≠ c → u.core e = s.core e) := by
  intro u
  have hc : u.core c = { s.core c with
      slots := Tbl.set (s.core c).slots (s.core c).freeSlot it
      order := (s.core c).order ++ [(s.core c).freeSlot] } := State.core_setCore_same _ _ _
  refine ⟨_, congrArg Core.order hc, ?_, fun h => if_pos h, ⟨_, Tbl.find_set_same _ _ _, rfl⟩,
    fun e he => State.core_setCore_ne _ _ he⟩
  rw [hc]
  exact Tbl.find_set_same _ _ _

/-! ### The commands that place -/

/-- An item that can be read is placed, another is discarded (R341). -/
theorem exec_itemPlace {rd : Reads} (h : (s.advance rd.el).serve = some (q, d, i, it, c, hit)) : exec (.itemPlace rd) s =
    .next (if rd.ue.isEmpty then (s.advance rd.el).place q d i it c hit else (s.advance rd.el).discardItem q d i it c) := by
  simp only [exec, execItemPlace, h]

/-- A discarded item without a payload leaves its queue, which is not ordered, as it was but for the item. -/
theorem State.dispQ_discardItem (ht : d.typ ≠ 2) (hp : it.payload = none) :
    ∃ e, (s.discardItem q d i it c).dispQ q = some e ∧ e.items = d.items.eraseIdx i := by
  simp only [State.discardItem, ht, hp, if_false]
  exact ⟨_, State.dispQ_of_find (Tbl.find_set_same _ _ _), rfl⟩

theorem exec_affWaitTimeout {el : Nat} (hq : Tbl.find s.disp.qs q = some d) (h : s.placeable q d true = some (i, it, c, hit)) :
    exec (.affWaitTimeout q el) s = .next ((s.advance el).place q d i it c hit) := by
  have hq' : Tbl.find (s.advance el).disp.qs q = some d := hq
  have h' : (s.advance el).placeable q d true = some (i, it, c, hit) := h
  simp only [exec, execAffWaitTimeout, hq', h']

end Sys2Proof.Machine
end

section
/-! Posts of kernels and the time limit of an item (R278, R279, R281). -/

namespace Sys2Proof.Machine

variable {s : State} {c q : Nat} {d : DispQ} {ws : List Word}

/-! ### The result code -/

theorem State.postResult_of_no_queue (hl : 49152 ≤ q) (hu : q < 61440) (h : s.dispQ q = none) : s.postResult c q = 2 := by
  unfold State.postResult
  rw [if_neg (by omega), h]

theorem State.postResult_of_queue (hl : 49152 ≤ q) (hu : q < 61440) (h : s.dispQ q = some d) : s.postResult c q =
    if d.own.fn / 64 ≠ (s.core c).tenant ∧ s.sharedQ q = false then 2
    else if 16 ≤ (s.core c).posts then 4 else if (s.itemPool d).isNone then 1 else 0 := by
  unfold State.postResult
  rw [if_neg (by omega), h]

/-- A result code fits its field. -/
theorem State.postResult_lt (s : State) (c q : Nat) : s.postResult c q < 8 := by
  unfold State.postResult
  dsimp only
  split
  · decide
  · split
    · decide
    · split_ifs <;> decide

theorem State.dispQ_of_accepted (h : s.postResult c q = 0) : ∃ d, s.dispQ q = some d := by
  unfold State.postResult at h
  dsimp only at h
  split at h
  · cases h
  · split at h
    · cases h
    · next d hd => exact ⟨d, hd⟩

theorem State.itemPool_of_full (h : d.limit ≤ d.items.length + d.resv) : s.itemPool d = none := if_pos h

/-- A post to a queue outside the range is no queue's, and of those in it the first check that fails gives the code. -/
theorem State.postResult_spec (s : State) (c q : Nat) : ((q < 49152 ∨ 61440 ≤ q) → s.postResult c q = 3) ∧
    (49152 ≤ q → q < 61440 → (s.dispQ q = none → s.postResult c q = 2) ∧
      (∀ d, s.dispQ q = some d → (d.own.fn / 64 ≠ (s.core c).tenant → s.sharedQ q = false → s.postResult c q = 2) ∧
        ((d.own.fn / 64 = (s.core c).tenant ∨ s.sharedQ q = true) → (16 ≤ (s.core c).posts → s.postResult c q = 4) ∧
          ((s.core c).posts < 16 → d.limit ≤ d.items.length + d.resv → s.postResult c q = 1)))) := by
  refine ⟨fun h => if_pos h, fun hl hu => ?_⟩
  refine ⟨State.postResult_of_no_queue hl hu, fun d h => ?_⟩
  rw [State.postResult_of_queue hl hu h]
  refine ⟨fun ht hs => if_pos ⟨ht, hs⟩, fun hm => ?_⟩
  have hm : ¬(d.own.fn / 64 ≠ (s.core c).tenant ∧ s.sharedQ q = false) := by
    rintro ⟨ht, hs⟩
    rcases hm with e | e
    · exact ht e
    · simp [hs] at e
  refine ⟨fun hp => (if_neg hm).trans (if_pos hp), fun hp hf => ?_⟩
  refine (if_neg hm).trans ((if_neg (by omega)).trans ?_)
  rw [State.itemPool_of_full hf]
  rfl

/-! ### The words of a post -/

/-- The post's words stand in the core's registers. -/
def State.postWords (s : State) (c : Nat) (ws : List Word) : State :=
  (List.range 8).foldl (fun s i => s.setReg .DISP_POST_W (c * 8 + i) (nth ws 0 i)) s

/-- They change no other register, and no more. -/
theorem State.postWords_frame (s : State) (hc : c < 512) (ws : List Word) : (s.postWords c ws).disp = s.disp ∧
    (s.postWords c ws).cores = s.cores ∧ ∀ n, n ≠ .DISP_POST_W → (s.postWords c ws).reg n = s.reg n := by
  refine List.foldlRecOn (List.range 8) (fun t i => State.setReg t .DISP_POST_W (c * 8 + i) (nth ws 0 i))
    (motive := fun t => t.disp = s.disp ∧ t.cores = s.cores ∧ ∀ n, n ≠ .DISP_POST_W → t.reg n = s.reg n)
    ⟨rfl, rfl, fun _ _ => rfl⟩ fun t ⟨hd, hk, hr⟩ i hi => ⟨hd, hk, fun n hn => ?_⟩
  have hi := List.mem_range.mp hi
  rw [State.reg_setReg_name t _ (by omega) (by decide) hn, hr n hn]

theorem State.dispQ_congr {t : State} (hd : t.disp = s.disp) (hs : t.sharedQ q = s.sharedQ q) : t.dispQ q = s.dispQ q := by
  unfold State.dispQ
  rw [hd, hs]

theorem State.dispQ_postWords (hc : c < 512) : (s.postWords c ws).dispQ q = s.dispQ q := by
  obtain ⟨hd, -, hr⟩ := s.postWords_frame hc ws
  refine State.dispQ_congr hd ?_
  unfold State.sharedQ State.rf
  rw [hd, hr .STRATA_TGT_QID nofun, hr .EGS_TGT_QID nofun]

/-! ### What a post leaves of the cores -/

theorem State.core_congr {t : State} (h : t.cores = s.cores) : t.core c = s.core c := by
  unfold State.core
  rw [h]

theorem State.wakeEngines_cores (s : State) (q : Nat) : (s.wakeEngines q).cores = s.cores :=
  List.foldlRecOn (motive := fun t : State => t.cores = s.cores) _ _ rfl fun t ht e _ => by
    split
    · rw [State.demand_cores, ht]
    · exact ht

theorem State.wakeCheck_cores (s : State) (q : Nat) : (s.wakeCheck q).cores = s.cores := by
  unfold State.wakeCheck
  split
  · rfl
  · split
    · rfl
    · split
      · rfl
      · split
        · exact State.demand_cores _ _ _
        · rfl

theorem State.enqueue_cores (s : State) (q p : Nat) (it : Item) : (s.enqueue q p it).cores = s.cores := by
  unfold State.enqueue
  split
  · rfl
  · rw [State.wakeCheck_cores, State.wakeEngines_cores]
    split
    · exact State.demand_cores _ _ _
    · rfl

/-- The queue to which a post goes. -/
def postQid (ws : List Word) : Nat := fld (nth ws 0 0) 15 0

theorem State.kernelPost_refused (h : s.postResult c (postQid ws) ≠ 0) : s.kernelPost c ws =
    ((s.postWords c ws).setReg .DISP_POST_RES c
      (putF (putF 0 12 8 (s.core c).posts) 2 0 (s.postResult c (postQid ws)))).cntDisp 9 := if_pos h

/-- An accepted post is counted, whether it goes to its queue or waits for its item's ticket. -/
theorem State.kernelPost_accepted (hc : c < 512) (h : s.postResult c (postQid ws) = 0) : ∃ t : State,
    s.kernelPost c ws = t.setReg .DISP_POST_RES c
      (putF (putF 0 12 8 ((s.core c).posts + 1)) 2 0 (s.postResult c (postQid ws))) ∧
    t.core c = { s.core c with posts := (s.core c).posts + 1 } := by
  obtain ⟨d, hd⟩ := State.dispQ_of_accepted h
  have hd : (s.postWords c ws).dispQ (postQid ws) = some d := (State.dispQ_postWords hc).trans hd
  generalize hu : s.kernelPost c ws = u
  unfold State.kernelPost at hu
  replace hu := (if_neg (not_not.mpr h)).symm.trans hu
  split at hu
  · next hn => exact nomatch hd.symm.trans hn
  · refine ⟨_, hu.symm, ?_⟩
    dsimp only
    split
    · split
      · exact State.core_setCore_same _ _ _
      · exact (State.core_congr (State.enqueue_cores _ _ _ _)).trans (State.core_setCore_same _ _ _)
    · exact (State.core_congr (State.enqueue_cores _ _ _ _)).trans (State.core_setCore_same _ _ _)

/-! ### The commands -/

/-- A result code put into its field reads back. -/
theorem fld_postRes {r : Nat} (w : Word) (h : r < 8) : fld (putF w 2 0 r) 2 0 = r :=
  (fld_putF_same w (by decide) (by decide)).trans (Nat.mod_eq_of_lt h)

/-- A kernel that runs an item posts, and its result code stands in its register. -/
theorem exec_kernelPost {k : Fin 512} {el : Nat} (hr : (s.core k.val).running = true) (hf : (s.core k.val).faulted = none) :
    ∃ u, exec (.kernelPost k ws el) s = .next u ∧
      u.rf .DISP_POST_RES k.val 2 0 = (s.advance el).postResult k.val (postQid ws) ∧
      ((s.advance el).postResult k.val (postQid ws) ≠ 0 → u.disp = s.disp ∧ u.cores = s.cores) ∧
      ((s.advance el).postResult k.val (postQid ws) = 0 → (u.core k.val).posts = (s.core k.val).posts + 1) := by
  have hrun : (((s.advance el).core k.val).running && ((s.advance el).core k.val).faulted.isNone) = true := by
    change ((s.core k.val).running && (s.core k.val).faulted.isNone) = true
    rw [hr, hf]
    rfl
  refine ⟨_, if_pos hrun, ?_⟩
  have hlt := (s.advance el).postResult_lt k.val (postQid ws)
  by_cases h : (s.advance el).postResult k.val (postQid ws) = 0
  · obtain ⟨t, hu, ht⟩ := State.kernelPost_accepted k.isLt h
    rw [hu]
    refine ⟨?_, fun hn => absurd h hn, fun _ => congrArg Core.posts ht⟩
    rw [State.rf, State.reg_setReg_same, fld_postRes _ hlt]
  · rw [State.kernelPost_refused h]
    obtain ⟨hd, hk, -⟩ := (s.advance el).postWords_frame k.isLt ws
    refine ⟨?_, fun _ => ⟨hd, hk⟩, fun h0 => absurd h0 h⟩
    exact (congrArg (fld · 2 0) (State.reg_setReg_same _ _ _ _)).trans (fld_postRes _ hlt)

/-- An item that has run longer than its queue allows is stopped. -/
theorem exec_itemWatchdog {k : Fin 512} {el : Nat} (hr : (s.core k.val).running = true) (hf : (s.core k.val).faulted = none)
    (hq : s.dispQ (s.core k.val).qid = some d) (ht : (s.core k.val).since + d.itemLimit * 1000 < (s.advance el).ela) :
    exec (.itemWatchdog k el) s = .next ((s.advance el).coreFault k.val 10 0) := by
  refine if_pos ?_
  have hq' : (s.advance el).dispQ ((s.advance el).core k.val).qid = some d := hq
  have hc : (s.advance el).core k.val = s.core k.val := rfl
  rw [hq', hc, hr, hf]
  simpa using ht

end Sys2Proof.Machine
end

section
/-! The start of an item (R259, R260, R276). -/

namespace Sys2Proof.Machine

variable {s : State} {sl : Nat} {u : Upsets}

/-- The core's previous item left the same image, unfaulted (R259). -/
def Core.warmFor (k : Core) (kern load : Nat) : Prop := k.warm = true ∧ k.prev = some (kern, load)

/-- The general registers at the start: the item's address, whether the kernel is warm, and else zero. -/
theorem Core.gr_enter (k : Core) (sl kern load t now : Nat) : let n := k.enter sl kern load t now
    n.gr 1 = BitVec.ofNat 32 (0xFF00 + 0x20 * sl) ∧ (k.warmFor kern load → n.gr 2 = 1) ∧ (¬k.warmFor kern load → n.gr 2 = 0) ∧
      ∀ q : BitVec 5, 2 < q.toNat → n.gr q = 0 := by
  have hg : (k.enter sl kern load t now).g = if k.warm && k.prev == some (kern, load)
      then [(1, BitVec.ofNat 32 (0xFF00 + 0x20 * sl)), (2, 1)] else [(1, BitVec.ofNat 32 (0xFF00 + 0x20 * sl))] := rfl
  have hw : (k.warm && k.prev == some (kern, load)) = true ↔ k.warmFor kern load := by simp [Core.warmFor]
  unfold Core.gr
  dsimp only
  rw [hg]
  by_cases h : k.warmFor kern load
  · rw [if_pos (hw.mpr h)]
    refine ⟨rfl, fun _ => rfl, fun hn => absurd h hn, fun q hq => ?_⟩
    simp [Tbl.get, Tbl.find, show 1 ≠ q.toNat by omega, show 2 ≠ q.toNat by omega]
  · rw [if_neg (mt hw.mp h)]
    refine ⟨rfl, fun hp => absurd hp h, fun _ => rfl, fun q hq => ?_⟩
    simp [Tbl.get, Tbl.find, show 1 ≠ q.toNat by omega]

/-- Between the item's address and the stack's top, the address registers are zero. -/
theorem Core.xr_enter (k : Core) (sl kern load t now : Nat) {i : Nat} (hl : 0 < i) (hu : i < 7) :
    (k.enter sl kern load t now).xr i = 0 := by
  simp [Core.xr, Core.enter, Tbl.get, Tbl.find, show 0 ≠ i by omega, show 7 ≠ i by omega]

/-- The LDM of a core stays where the tenant stays, and is cleared where it changes (R260). -/
theorem Core.ldm_enter (k : Core) (sl kern load t now : Nat) {f : Nat} (h : k.prevT = some f) :
    (f = t → (k.enter sl kern load t now).ldm = k.ldm) ∧ (f ≠ t → (k.enter sl kern load t now).ldm = []) := by
  simp +contextual [Core.enter, h]

/-- A core that may start takes the item of its first filled slot. -/
theorem exec_workItemStart {c : Fin 512} {r : List Nat} (ho : (s.core c.val).order = sl :: r)
    (hr : (s.core c.val).running = false) (hf : (s.core c.val).faulted = none) (hc : s.clOn (c.val / 8) = true)
    (hd : Tbl.get s.disp.draining false (c.val / 8) = false) :
    let it := Tbl.get (s.core c.val).slots {} sl
    let d := (s.dispQ it.qid).getD {}
    let t := d.own.fn / 64
    ∃ v, exec (.workItemStart c u) s = .next v ∧
      v.core c.val = { ((s.core c.val).enter sl d.kern ((s.kernel d.kern).getD {}).load t (s.advance u.el).ela).struck u with
        qid := it.qid } ∧
      v.reg .CORE_STAT c.val = putF (putB (putB (s.reg .CORE_STAT c.val) 31 true) 30 false) 29 28 t ∧
      v.reg .DISP_KINFO c.val = putF (putF (putF 0 31 30 t) 25 16 d.kern) 15 0 ((s.kernel d.kern).getD {}).version ∧
      ∀ e, e ≠ c.val → v.core e = s.core e := by
  intro it d t
  have hb : c.val < 2 ^ 20 := Nat.lt_trans c.isLt (by decide)
  have other {v : State} {n m : RegName} {w : Word} (h : m ≠ n) : (v.setReg n c.val w).reg m c.val = v.reg m c.val :=
    v.reg_setReg_name w hb hb h
  have hstart : ¬((s.core c.val).running || (s.core c.val).faulted.isSome || !s.clOn (c.val / 8) ||
      Tbl.get s.disp.draining false (c.val / 8)) = true := by simp [hr, hf, hc, hd]
  generalize hx : exec (.workItemStart c u) s = x
  change execWorkItemStart c u s = x at hx
  unfold execWorkItemStart at hx
  extract_lets at hx
  split at hx
  · next hn => exact nomatch ho.symm.trans hn
  · next sl' r' hs =>
    obtain ⟨rfl, rfl⟩ := List.cons.inj (ho.symm.trans hs)
    replace hx := (if_neg hstart).symm.trans hx
    refine ⟨_, hx.symm, State.core_setCore_same _ _ _, ?_, ?_, fun e he => State.core_setCore_ne _ _ he⟩
    · exact .trans (other nofun) (.trans (other nofun) (.trans (other nofun) (.trans (other nofun) (State.reg_setReg_same _ _ _ _))))
    · exact .trans (other nofun) (.trans (other nofun) (.trans (other nofun) (State.reg_setReg_same _ _ _ _)))

/-- `CORE_STAT` while an item runs: busy, and its tenant. -/
theorem coreStat_running (w : Word) (t : Nat) : let v := putF (putB (putB w 31 true) 30 false) 29 28 t
    bit v 31 = true ∧ bit v 30 = false ∧ fld v 29 28 = t % 4 := by
  refine ⟨?_, ?_, fld_putF_same _ (by decide) (by decide)⟩
  · rw [bit_putF_ne _ (by decide) (by decide), bit_putB _ _ _ _ (by decide), if_neg (by decide), bit_putB _ _ _ _ (by decide),
      if_pos rfl]
  · rw [bit_putF_ne _ (by decide) (by decide), bit_putB _ _ _ _ (by decide), if_pos rfl]

theorem kinfo_kernel (w : Word) (kern n : Nat) : fld (putF (putF w 25 16 kern) 15 0 n) 25 16 = kern % 1024 := by
  rw [fld_putF_ne _ (by decide) (by decide)]
  exact fld_putF_same _ (by decide) (by decide)

/-- Settles O42: each clause is what the rule of its command or of its choice says. -/
theorem dispatchEvents : Obligations.DispatchEvents := by
  refine ⟨?start, ?classes, ?place, ?served, ?late, ?placed, ?post, fun s k q => s.postResult_spec k q, ?watchdog⟩
  case start =>
    intro c u s sl r b k ho hr hf hc hd it d load t same
    obtain ⟨v, hv, hcore, hstat, hinfo, hother⟩ := exec_workItemStart (u := u) ho hr hf hc hd
    obtain ⟨hg1, hwarm, hcold, hhigh⟩ := k.gr_enter sl d.kern load t b.ela
    obtain ⟨hbusy, hend, hten⟩ := coreStat_running (s.reg .CORE_STAT c.val) t
    refine ⟨v, hv, ?_⟩
    rw [State.rb, State.rb, State.rf, State.rf, hcore, hstat, hinfo]
    exact ⟨rfl, rfl, rfl, rfl, rfl, rfl, rfl, rfl, hg1, rfl, rfl, hwarm, hcold, hhigh, fun _ => ⟨rfl, rfl, rfl, rfl⟩,
      fun _ => k.xr_enter sl d.kern load t b.ela, rfl, rfl, rfl, rfl, rfl, rfl, rfl, fun _ => k.ldm_enter sl d.kern load t b.ela,
      rfl, rfl, rfl, hbusy, hend, hten, kinfo_kernel _ _ _, hother⟩
  case classes =>
    intro ptr l hl
    refine ⟨arbitrate_eq_none, fun k w h => ?_⟩
    obtain ⟨hmin, hrot⟩ := arbitrate_eq_some h
    have hp := pairwise_ofClass (k := k) hl
    refine ⟨arbitrate_mem h, hmin, fun x hx hk => ?_⟩
    have hx : x.1 ∈ ofClass k l := mem_ofClass.mpr (hk ▸ hx)
    exact ⟨fun hw hpx => rotateIn_ge hrot hp hw hx hpx, fun hw => rotateIn_wrap hrot hp hw hx⟩
  case place =>
    intro rd s q d i it c hit b h
    refine ⟨fun hue => ?_, fun hue => ⟨?_, State.dispQ_discardItem⟩⟩
    · rw [exec_itemPlace h, hue]
      rfl
    · exact (exec_itemPlace h).trans (congrArg _ (if_neg (by simpa using hue)))
  case served => exact fun _ _ _ _ => State.serve_eq_some
  case late => exact fun _ _ _ _ _ _ _ _ => exec_affWaitTimeout
  case placed =>
    intro s q d i it c late hit h
    obtain ⟨hen, hk, hi, hhead, hel⟩ := State.placeable_eq_some h
    obtain ⟨hm, hc, -, -, hs⟩ := State.eligible_iff.mp hel
    exact ⟨hi, hm, hc, hs, hhead, hen, hk, s.place_spec q d i it c hit⟩
  case post => exact fun _ _ _ _ => exec_kernelPost
  case watchdog => exact fun _ _ _ _ => exec_itemWatchdog

end Sys2Proof.Machine
end

section
/-! What the passing of time and a change of the packet plane leave readable as it was. -/

namespace Sys2Proof.Machine

@[simp] theorem State.rf_advance (s : State) (n : Nat) (r : RegName) (i hi lo : Nat) : (s.advance n).rf r i hi lo = s.rf r i hi lo := rfl
@[simp] theorem State.rb_advance (s : State) (n : Nat) (r : RegName) (i b : Nat) : (s.advance n).rb r i b = s.rb r i b := rfl
@[simp] theorem State.pdOn_advance (s : State) (n d : Nat) : (s.advance n).pdOn d = s.pdOn d := rfl
@[simp] theorem State.linkUp_advance (s : State) (n p : Nat) : (s.advance n).linkUp p = s.linkUp p := rfl
@[simp] theorem State.port_advance (s : State) (n p : Nat) : (s.advance n).port p = s.port p := rfl
@[simp] theorem State.stream_advance (s : State) (n i : Nat) : (s.advance n).stream i = s.stream i := rfl
@[simp] theorem State.slot_advance (s : State) (n k : Nat) : (s.advance n).slot k = s.slot k := rfl
@[simp] theorem State.capErased_advance (s : State) (n : Nat) (c : Cap) : (s.advance n).capErased c = s.capErased c := rfl

@[simp] theorem State.updNet_net (s : State) (f : Net → Net) : (s.updNet f).net = f s.net := rfl
@[simp] theorem State.rb_updNet (s : State) (f : Net → Net) (r : RegName) (i b : Nat) : (s.updNet f).rb r i b = s.rb r i b := rfl
@[simp] theorem State.slot_updNet (s : State) (f : Net → Net) (k : Nat) : (s.updNet f).slot k = s.slot k := rfl
@[simp] theorem State.capErased_updNet (s : State) (f : Net → Net) (c : Cap) : (s.updNet f).capErased c = s.capErased c := rfl

end Sys2Proof.Machine
end

section
/-! The path of a packet (R46 to R48, R54, R88, R89, R297, R299, R302, R341). -/

namespace Sys2Proof.Machine

variable {s s1 : State} {el : Nat}

/-! ### From the port to the decrypt lane (R47, R48, R297) -/

section
variable {p : Fin 8} {ok : Bool} {b : List Byte} {f : MediaFacts}

theorem exec_frameReceived_control {k : FwKind} (hl : s.linkUp p.val = true) (hp : parseFrame ok b = .control k) :
    exec (.frameReceived p ok b f el) s = .next ((s.advance el).emit (.firmware k p.val b)) := by
  simp [exec, execFrameReceived, hl, hp]

/-- A datagram that is not for the Tolku port goes to its leg. -/
theorem exec_frameReceived_udp {v6 : Bool} {vlan : Option Nat} {src dst sp dp dscp : Nat} {d : List Byte}
    (hl : s.linkUp p.val = true) (hp : parseFrame ok b = .udp v6 vlan src dst sp dp dscp d)
    (ht : s.rf .STRATA_CTRL 0 15 0 = 0 ∨ dp ≠ s.rf .STRATA_CTRL 0 15 0) :
    exec (.frameReceived p ok b f el) s =
      .next ((s.advance el).rxLeg (s.legOf v6 vlan dst dp src sp) p.val (b.length + 4) dscp d f) := by
  have ht : ¬(s.rf .STRATA_CTRL 0 15 0 ≠ 0 ∧ dp = s.rf .STRATA_CTRL 0 15 0) := fun ⟨h0, he⟩ => ht.elim h0 fun hn => hn he
  simp only [exec, execFrameReceived, State.linkUp_advance, hl, hp, Bool.not_true, Bool.false_eq_true, if_false,
    State.rf_advance]
  exact if_neg ht

variable {leg src len dscp i slot : Nat} {d : List Byte} {rtx : Bool} {k : Pkt} {c : Cap}

/-- An RTP packet of a leg without a policer goes to the lane of its stream, which its SSRC names. -/
theorem State.rxLeg_rtp (hr : isRtp d = true) (hc : isRtcp d = false) (hp : Tbl.find s.net.policers leg = none)
    (hs : s.streamOf leg (parseRtp d).ssrc = some (i, rtx)) : s.rxLeg (some (leg, false)) src len dscp d f =
      s.toLane { leg, stream := i, bytes := d, len, tIn := s.ela, rtx } (s.stream i).decSlot f := by
  have h : 128 ≤ bAt d 0 ∧ bAt d 0 ≤ 191 := of_decide_eq_true hr
  have hpol (audio : Bool) : s.police leg len dscp audio = (s, some false) := by simp only [State.police, hp]
  simp [State.rxLeg, State.rxRtp, hr, hc, hpol, hs, show ¬bAt d 0 ≤ 3 by omega, show ¬bAt d 0 ≤ 63 by omega]

/-- A packet that captures its key waits at the lane of its slot. -/
theorem State.toLane_captured (hl : (s.leg k.leg).srtp = true) (hc : s.capture slot false k.rtcp = (s1, some c)) :
    s.toLane k slot f = s1.updNet fun n => { n with dec := Tbl.updD n.dec [] (slot % 16) (· ++ [{ k with cap := some c }]) } := by
  simp [State.toLane, hl, hc]

@[simp] theorem State.capture_net (s : State) (k : Nat) (enc srtcp : Bool) : (s.capture k enc srtcp).1.net = s.net := by
  unfold State.capture
  dsimp only
  split_ifs <;> rfl

end

/-! ### The decrypt lane (R302) -/

/-- The oldest packet of a decrypt lane, whose keys stand and whose index is new, is delivered or fails its check. -/
theorem exec_srtpDecrypt_fresh {lane : Fin 16} {ok : Bool} {plain : List Byte} {f : MediaFacts} {k : Pkt} {r : List Pkt} {c : Cap}
    (hb : s.keys.bleaching = false) (hp : s.pdOn 27 = true) (hon : s.rb .CRYPT_CTRL 0 31 = true)
    (hd : Tbl.get s.net.dec [] lane.val = k :: r) (hc : k.cap = some c) (he : s.capErased c = false) (hk : k.rtcp = false)
    (hr : ((s.slot c.slot).track (b2n k.rtx)).replayed (((s.slot c.slot).track (b2n k.rtx)).estimate (be16 k.bytes 2)) = false) :
    let i := ((s.slot c.slot).track (b2n k.rtx)).estimate (be16 k.bytes 2)
    let s1 := (s.advance el).updNet fun n => { n with dec := Tbl.set n.dec lane.val r }
    let s2 := s1.updSlot c.slot fun v => v.setTrack (b2n k.rtx) ((v.track (b2n k.rtx)).mark i)
    exec (.srtpDecrypt lane ok plain f el) s = .next (if ok then
      ((((s2.advanceTrack c.slot (b2n k.rtx) i).switchAt c.slot i).cntCrypt K_DEC_PKTS).releaseCap (some c)).deliver' k plain f
      else ((s1.cntCrypt K_AUTH_FAIL).updSlot c.slot fun v => { v with authFail := sat32 v.authFail }).releaseCap (some c)) := by
  intro i s1 s2
  have hidx : decIndex k (s.slot c.slot) = i := by simp [decIndex, hk, i]
  cases ok <;> simp [exec, execSrtpDecrypt, hb, hp, hd, hc, hon, he, hk, hidx, hr, i, s2, s1]

/-! ### Strata's input (R54) -/

/-- The oldest packet that waits for Strata is decided. -/
theorem exec_strataForward_waiting {p : SrcPkt} {r : List SrcPkt} (hp : s.pdOn 26 = true) (hs : s.net.strata = p :: r)
    (hon : s.rb .STRATA_CTRL 0 31 = true) :
    exec (.strataForward none el) s = .next (((s.advance el).updNet fun n => { n with strata := r }).strata p) := by
  simp [exec, execStrataForward, hp, hs, hon]

/-- A packet that a kernel hands over is stored once and decided. -/
theorem exec_strataForward_device {k : DevPkt} {st : Stream} {id : Nat} (hp : s.pdOn 26 = true)
    (hs : Tbl.find s.net.streams k.stream = some st) (hd : st.device = true) (hk : st.kind = 0) (hon : s.rb .STRATA_CTRL 0 31 = true)
    (ha : (s.advance el).allocPayload true k.bytes 1 = (s1, some id)) :
    exec (.strataForward (some k) el) s = .next (s1.strata {
      stream := k.stream, payload := id, seq := k.seq.toNat, ts := k.frame * st.clock / 100 % 2 ^ 32, marker := k.marker
      pt := k.pt.toNat, s := 0, t := 0, sof := true, eof := k.eof, rp := true, wd := k.wd, probe := k.probe
      tIn := k.frame * 10000000 }) := by
  simp [exec, execStrataForward, State.devPacket, hp, hs, hd, hk, hon, ha]

/-! ### The selector (R88, R89) -/

section
variable {n q key : Nat} {f : FlowQ}

/-- The queue that the selector picks is an eligible one of its port, and none such has a lower key. -/
theorem State.selectQ_eq_some (h : s.selectQ n = some (q, f, key)) :
    (∀ q' f', (q', f') ∈ s.net.flowqs → f'.port = n → s.eligibleQ f' = true → key ≤ s.selKey f') ∧
    ∃ f', (q, f') ∈ s.net.flowqs ∧ f'.port = n ∧ s.eligibleQ f' = true ∧ s.selKey f' = key := by
  unfold State.selectQ at h
  dsimp only at h
  split at h
  · next k w ha =>
    simp only [Option.some.injEq, Prod.mk.injEq] at h
    obtain ⟨rfl, rfl, rfl⟩ := h
    refine ⟨fun q' f' hm hp he => ?_, ?_⟩
    · exact (arbitrate_eq_some ha).1 (q', s.selKey f')
        (List.mem_map.mpr ⟨(q', f'), List.mem_filter.mpr ⟨hm, by simp [hp, he]⟩, rfl⟩)
    · obtain ⟨⟨w', f'⟩, hm, hk⟩ := List.mem_map.mp (arbitrate_mem ha)
      obtain ⟨rfl, rfl⟩ := Prod.mk.inj hk
      obtain ⟨hm, hf⟩ := List.mem_filter.mp hm
      simp only [Bool.and_eq_true, beq_iff_eq] at hf
      obtain ⟨hp, he⟩ := hf
      exact ⟨f', hm, hp, he, rfl⟩
  · cases h

variable {p : Fin 8} {rd : Reads} {d : Desc} {r : List Desc}

/-- The head frame of the queue that the selector picks is released, with its class and, where the leg has them, its number; the
shaper pays for it, and before the release nothing has left the device. -/
theorem exec_egressSelect (hl : s.linkUp p.val = true) (hq : (s.advance rd.el).selectQ p.val = some (q, f, key))
    (hf : f.descs = d :: r) : ∃ (t : State) (tw : Option Nat) (ext : Option (Nat × List Byte)),
      exec (.egressSelect p rd) s = .next (t.release rd { d with cls := f.cls, tw, ext }) ∧
      Tbl.find t.net.flowqs q = some { f with
        descs := r, sh := { f.sh with b := f.sh.b.spend (s.advance rd.el).ela d.counted } } ∧
      t.net.payloads = s.net.payloads ∧ t.regs = s.regs ∧ t.out = s.out := by
  simp only [exec, execEgressSelect, State.linkUp_advance, hl, Bool.not_true, Bool.false_eq_true, if_false, hq, hf]
  split
  · exact ⟨_, d.tw, d.ext, rfl, by simp [State.returnDesc, State.setFlowq, State.updPort]⟩
  · exact ⟨_, _, _, rfl, by simp [State.returnDesc, State.setFlowq, State.updPort, State.updLeg]⟩

/-! ### The release (R20, R66, R105, R341) -/

theorem State.descUnread_congr {t : State} {e : Desc} (hp : t.net.payloads = s.net.payloads) (hr : t.regs = s.regs)
    (he : e.payload = d.payload) (hs : e.sub = d.sub) : t.descUnread rd e = s.descUnread rd d := by
  have hrf : t.rf .STRATA_OCTX_BASE 0 18 0 = s.rf .STRATA_OCTX_BASE 0 18 0 := by rw [State.rf, State.rf, State.reg, State.reg, hr]
  unfold State.descUnread
  rw [hp, he, hs, hrf]

@[simp] theorem State.bufStat_net (s : State) : s.bufStat.net = s.net := State.setReg_net _ _ _ _
@[simp] theorem State.bufStat_out (s : State) : s.bufStat.out = s.out := State.setReg_out _ _ _ _

/-- The end of a payload's reference leaves the queues and the log. -/
theorem State.releasePayload_flowqs (s : State) (id : Nat) : (s.releasePayload id).net.flowqs = s.net.flowqs := by
  unfold State.releasePayload
  split
  · rfl
  · rw [apply_ite State.net, State.bufStat_net, State.updNet_net, State.updNet_net, apply_ite Net.flowqs, ite_self]

theorem State.releasePayload_out (s : State) (id : Nat) : (s.releasePayload id).out = s.out := by
  unfold State.releasePayload
  split
  · rfl
  · rw [apply_ite State.out, State.bufStat_out, State.updNet_out, State.updNet_out, ite_self]

theorem State.sendRecord_net (s : State) (d : Desc) (cls : Nat) : (s.sendRecord d cls).net = s.net := by
  unfold State.sendRecord
  split
  · dsimp only
    rw [apply_ite State.net, State.memWords, State.memWrite_net, ite_self]
  · rfl

/-- A frame that leaves is counted for its queue. -/
theorem State.find_wire (h : Tbl.find s.net.flowqs d.qid = some f) (bytes : List Byte) :
    Tbl.find (s.wire d bytes).net.flowqs d.qid = some { f with sent := f.sent + 1, sentBytes := f.sentBytes + d.counted } := by
  unfold State.wire
  dsimp only
  rw [State.releasePayload_flowqs, State.emit_net, State.sendRecord_net]
  exact (Tbl.find_upd_same _ _ _).trans (congrArg _ h)

/-- What a release makes of the frame's queue: a frame of an SRTP leg waits at its encrypt lane, another is counted as it leaves, and
one that cannot be read is dropped. -/
theorem State.release_queue (h : Tbl.find s.net.flowqs q = some f) :
    (d.cap.isSome = true → Tbl.find (s.release rd d).net.flowqs q = some f) ∧
    (d.cap = none → d.qid = q →
      (s.descUnread rd d = false → Tbl.find (s.release rd d).net.flowqs q =
        some { f with sent := f.sent + 1, sentBytes := f.sentBytes + d.counted }) ∧
      (s.descUnread rd d = true → Tbl.find (s.release rd d).net.flowqs q = some f ∧ (s.release rd d).out = s.out)) := by
  unfold State.release
  refine ⟨fun hc => ?_, fun hc hq => ?_⟩
  · obtain ⟨c, hc⟩ := Option.isSome_iff_exists.mp hc
    rw [hc]
    exact h
  · rw [hc]
    refine ⟨fun hu => ?_, fun hu => ?_⟩
    · subst hq
      rw [hu]
      exact State.find_wire h _
    · rw [hu, if_pos rfl, State.dropDesc, hc, State.releasePayload_flowqs, State.releasePayload_out]
      exact ⟨h, rfl⟩

end

/-! ### The encrypt lane (R299, R341) -/

section
variable {lane : Fin 16} {rd : Reads} {d : Desc} {r : List Desc} {c : Cap}

/-- What the encrypt lane makes of its oldest packet, whose keys stand: it is dropped where it cannot be read or its index has
been used, and else leaves encrypted. -/
theorem exec_srtpEncrypt (hb : s.keys.bleaching = false) (hp : s.pdOn 27 = true) (hon : s.rb .CRYPT_CTRL 0 31 = true)
    (hd : Tbl.get s.net.enc [] lane.val = d :: r) (hc : d.cap = some c) (he : s.capErased c = false) (hk : d.rtcp = false) :
    let v := s.slot c.slot
    let tr := b2n d.rtx
    let i := (v.track tr).estimate d.seq
    let h := v.serves c i
    let s1 := (s.advance rd.el).updNet fun n => { n with enc := Tbl.set n.enc lane.val r }
    let s2 := s1.setSlot c.slot (v.setHalf h ((v.half h).use tr i))
    let s3 := (((s2.advanceTrack c.slot tr i).switchAt c.slot i).cntCrypt K_ENC_PKTS).releaseCap (some c)
    exec (.srtpEncrypt lane rd) s = .next (
      if s.descUnread rd d then s1.dropDesc d
      else if (v.half h).mayUse tr i = false then (s1.indexRefused c.slot).dropDesc d
      else s3.wire d (d.head ++
        Config.byteTransform 3 ([v.suite, tr, i, d.ssrc] ++ (v.half h).keys.map BitVec.toNat) (s3.sendBody d))) := by
  intro v tr i h s1 s2 s3
  have hu : s1.descUnread rd d = s.descUnread rd d := rfl
  simp only [apply_ite Host.Outcome.next, ← hu]
  simp [exec, execSrtpEncrypt, hb, hp, hd, hc, hk, hon, he, v, tr, i, h, s1, s2, s3, show 3 + b2n false = 3 from rfl]

end

/-- Settles O28: each command moves the packet of its place on to the next, as the rules of the parser, the lanes, Strata and the
selector say. -/
theorem packetPathCompletes : Obligations.PacketPathCompletes := by
  refine ⟨?control, ?media, ?decrypt, ?waiting, ?device, ?select, ?encrypt⟩
  case control => exact fun _ _ _ _ _ _ _ => exec_frameReceived_control
  case media =>
    intro p ok b f el s v6 vlan src dst sp dp dscp d leg i rtx s1 c hl hp ht hleg hr hc hpol hs hsrtp hcap
    have hnet : s1.net = s.net := by simpa [hcap] using (s.advance el).capture_net (s.stream i).decSlot false false
    rw [exec_frameReceived_udp hl hp ht, hleg, State.rxLeg_rtp (s := s.advance el) hr hc hpol hs,
      State.stream_advance, State.toLane_captured hsrtp hcap, ← hnet]
    exact ⟨_, rfl, by simp⟩
  case decrypt =>
    intro lane plain f el s k r c hb hp hon hd hc he hk hr i s1 s2
    exact ⟨exec_srtpDecrypt_fresh (ok := true) hb hp hon hd hc he hk hr, exec_srtpDecrypt_fresh (ok := false) hb hp hon hd hc he hk hr⟩
  case waiting => exact fun _ _ _ _ => exec_strataForward_waiting
  case device => exact fun _ _ _ _ _ _ => exec_strataForward_device
  case select =>
    intro p rd s q f k d r b hl hq hf g
    obtain ⟨hleast, hkey⟩ := State.selectQ_eq_some hq
    obtain ⟨t, tw, ext, ht, hfind, hpay, hregs, hout⟩ := exec_egressSelect hl hq hf
    have hu : t.descUnread rd { d with cls := f.cls, tw, ext } = s.descUnread rd d := State.descUnread_congr hpay hregs rfl rfl
    have hqueue := State.release_queue (rd := rd) (d := { d with cls := f.cls, tw, ext }) hfind
    rw [hu, hout] at hqueue
    exact ⟨hleast, hkey, _, ht, hqueue⟩
  case encrypt =>
    intro lane rd s d r c hb hp hon hd hc he hk
    have hx := exec_srtpEncrypt (rd := rd) hb hp hon hd hc he hk
    refine ⟨fun hu => hx.trans (congrArg _ (if_pos hu)), fun hu => ?_⟩
    replace hx := hx.trans (congrArg _ (if_neg (by simp [hu])))
    exact ⟨fun hm => hx.trans (congrArg _ (if_pos hm)), fun hm => hx.trans (congrArg _ (if_neg (by simp [hm])))⟩

end Sys2Proof.Machine
end

section
/-! What notifications leave (R353): all but the stores in which they wait. -/

namespace Sys2Proof.Machine

variable {s t u : State}

/-- `t` is `s` but for notifications. -/
def State.Notified (s t : State) : Prop := ∃ vusta, t = { s with vusta }

theorem State.Notified.trans (h : s.Notified t) (h' : t.Notified u) : s.Notified u := by
  obtain ⟨_, rfl⟩ := h
  obtain ⟨_, rfl⟩ := h'
  exact ⟨_, rfl⟩

theorem State.notified_notify (s : State) (f op hd : Nat) (w : List Nat) : s.Notified (s.notify f op hd w) := by
  unfold State.notify
  split <;> exact ⟨_, rfl⟩

theorem State.notified_notify_if (s : State) (c : Prop) [Decidable c] (f op hd : Nat) (w : List Nat) :
    s.Notified (if c then s.notify f op hd w else s) := by
  split
  · exact s.notified_notify _ _ _ _
  · exact ⟨_, rfl⟩

theorem State.Notified.foldl {α : Type} {f : State → α → State} (l : List α) (hf : ∀ (t : State) x, t.Notified (f t x)) :
    s.Notified (l.foldl f s) :=
  List.foldlRecOn l f ⟨_, rfl⟩ fun t ht x _ => ht.trans (hf t x)

theorem State.Notified.reg (h : s.Notified t) (r : RegName) (i : Nat) : t.reg r i = s.reg r i := by
  obtain ⟨_, rfl⟩ := h
  rfl

theorem State.Notified.cnt (h : s.Notified t) (r : RegName) (i : Nat) : t.cnt r i = s.cnt r i := by
  obtain ⟨_, rfl⟩ := h
  rfl

theorem State.Notified.net (h : s.Notified t) : t.net = s.net := by
  obtain ⟨_, rfl⟩ := h
  rfl

theorem State.Notified.port (h : s.Notified t) (n : Nat) : t.port n = s.port n := by
  rw [State.port, State.port, h.net]

theorem State.Notified.tenantPort (h : s.Notified t) (n k : Nat) : t.tenantPort n k = s.tenantPort n k := by
  rw [State.tenantPort, State.tenantPort, h.port]

end Sys2Proof.Machine
end

section
/-! The Ethernet ports (R42 to R46, R94, R97): their status registers, faulty configurations, negotiation, links and scaled minimums. -/

namespace Sys2Proof.Machine

variable {s t : State} {n p : Nat}

/-! ### Links (R46, R97) -/

/-- A link goes down: both bits of its status change, and the owners of the legs on it hear of it. -/
theorem State.notified_setLink_down (h : s.linkUp n = true) :
    ((s.setRb .ETH_PSTAT n 31 false).setRb .ETH_PSTAT n 19 true).Notified (s.setLink n false) := by
  unfold State.setLink
  rw [if_neg (by simp [h])]
  exact State.Notified.foldl _ fun t x => t.notified_notify_if _ _ _ _ _

theorem State.setLink_same {up : Bool} (h : s.linkUp n = up) : s.setLink n up = s := if_pos h

theorem State.setLink_down_net (s : State) (n : Nat) : (s.setLink n false).net = s.net := by
  cases h : s.linkUp n with
  | false => rw [State.setLink_same h]
  | true => exact (State.notified_setLink_down h).net

/-- A fall changes no register but the status of its port. -/
theorem State.reg_setLink_down_ne {m : RegName} {i : Nat} (h : regKey m i ≠ regKey .ETH_PSTAT n) :
    (s.setLink n false).reg m i = s.reg m i := by
  cases hu : s.linkUp n with
  | false => rw [State.setLink_same hu]
  | true =>
    rw [(State.notified_setLink_down hu).reg]
    exact (State.reg_setReg_ne _ _ h).trans (State.reg_setReg_ne _ _ h)

theorem State.linkUp_setLink_down (s : State) (n : Nat) : (s.setLink n false).linkUp n = false := by
  cases h : s.linkUp n with
  | false => rw [State.setLink_same h, h]
  | true =>
    rw [State.linkUp, State.rb, (State.notified_setLink_down h).reg]
    exact (State.rb_setRb_ne _ _ _ _ (by decide) (by decide)).trans (State.rb_setRb_same _ _ _ _ (by decide))

/-! ### A port that goes down, or starts again -/

variable {res : Nat}

theorem State.reg_ethDown_ne {m : RegName} {i : Nat} (h : regKey m i ≠ regKey .ETH_PSTAT n) :
    (s.ethDown n res).reg m i = s.reg m i :=
  (State.reg_setReg_ne _ _ h).trans ((State.reg_setReg_ne _ _ h).trans (State.reg_setLink_down_ne h))

theorem State.ethResult_ethDown (h : res < 16) : (s.ethDown n res).ethResult n = res :=
  (State.rf_setRf_same _ _ _ _ (by decide) (by decide)).trans (Nat.mod_eq_of_lt h)

theorem State.linkUp_ethDown : (s.ethDown n res).linkUp n = false := by
  unfold State.ethDown State.linkUp
  rw [State.rb, State.setRf, State.reg_setReg_same, bit_putF_ne _ (by decide) (by decide)]
  exact (State.rb_setRb_ne _ _ _ _ (by decide) (by decide)).trans (s.linkUp_setLink_down n)

theorem State.reg_ethStart_ne {m : RegName} {i : Nat} (h : regKey m i ≠ regKey .ETH_PSTAT n) : (s.ethStart n).reg m i = s.reg m i := by
  unfold State.ethStart
  dsimp only
  split
  · exact (State.reg_setReg_ne _ _ h).trans (State.reg_ethDown_ne h)
  · exact State.reg_ethDown_ne h

/-- The configuration of a port is no other's status. -/
theorem pcfg_ne_pstat {i : Nat} (hi : i < 16) (hn : n < 8) : regKey .ETH_PCFG i ≠ regKey .ETH_PSTAT n :=
  regKey_ne_of_name (by omega) (by omega) (by decide)

/-- A port without fixed mode negotiates anew. -/
theorem State.ethStart_negotiates (hn : n < 8) (h : s.ethFixed n = false) :
    s.ethStart n = (s.ethDown n ETH_IN_PROGRESS).updPort n fun p => { p with trainFails := 0 } := by
  have hf : ((s.ethDown n ETH_IN_PROGRESS).updPort n fun p => { p with trainFails := 0 }).ethFixed n = false :=
    (congrArg (bit · 30) (State.reg_ethDown_ne (pcfg_ne_pstat (by omega) hn))).trans h
  exact if_neg (by simp [hf])

/-! ### Faulty configurations (R42, R45) -/

/-- The configurations of the ports stand. -/
def State.SamePcfg (s t : State) : Prop := ∀ i < 16, t.reg .ETH_PCFG i = s.reg .ETH_PCFG i

theorem State.SamePcfg.ethOn (h : s.SamePcfg t) (hn : n < 16) : t.ethOn n = s.ethOn n := congrArg (bit · 31) (h n hn)

theorem State.SamePcfg.ethBad (h : s.SamePcfg t) (hn : n < 8) : t.ethBad n = s.ethBad n := by
  have hf (hi lo : Nat) : t.rf .ETH_PCFG n hi lo = s.rf .ETH_PCFG n hi lo := congrArg (fld · hi lo) (h n (by omega))
  have hx : t.ethFixed n = s.ethFixed n := congrArg (bit · 30) (h n (by omega))
  have hw : s.ethWidth n < 4 := fld_lt _ _ _
  have hany : ((List.range (2 ^ s.ethWidth n - 1)).any fun i => t.ethOn (n + 1 + i)) =
      (List.range (2 ^ s.ethWidth n - 1)).any fun i => s.ethOn (n + 1 + i) := by
    refine Bool.eq_iff_iff.mpr ?_
    have hlanes : 2 ^ s.ethWidth n ≤ 2 ^ 3 := Nat.pow_le_pow_right (by decide) (by omega)
    simp only [List.any_eq_true, List.mem_range]
    refine exists_congr fun i => and_congr_right fun hi => ?_
    rw [h.ethOn (by omega)]
  have hwidth : t.ethWidth n = s.ethWidth n := hf 29 28
  unfold State.ethBad
  simp only [hwidth, hany, hx, hf]

/-- What the check of all ports makes of one. -/
def State.ethCheckPort (s : State) (n : Nat) : State :=
  if !s.ethOn n then s
  else if s.ethBad n then s.ethDown n ETH_CFG_ERR
  else if s.ethResult n = ETH_CFG_ERR then s.ethStart n
  else s

theorem State.ethCheck_eq (s : State) : s.ethCheck = (List.range 8).foldl State.ethCheckPort s := rfl

theorem State.reg_ethCheckPort_ne {m : RegName} {i : Nat} (h : regKey m i ≠ regKey .ETH_PSTAT n) :
    (s.ethCheckPort n).reg m i = s.reg m i := by
  unfold State.ethCheckPort
  split_ifs
  · rfl
  · exact State.reg_ethDown_ne h
  · exact State.reg_ethStart_ne h
  · rfl

theorem State.samePcfg_ethCheckPort (hn : n < 8) : s.SamePcfg (s.ethCheckPort n) :=
  fun _ hi => State.reg_ethCheckPort_ne (pcfg_ne_pstat hi hn)

/-- A port is down for its faulty configuration. -/
def State.cfgDown (s : State) (p : Nat) : Prop := s.linkUp p = false ∧ s.ethResult p = ETH_CFG_ERR

theorem State.cfgDown_ethCheckPort_same (ho : s.ethOn p = true) (hb : s.ethBad p = true) : (s.ethCheckPort p).cfgDown p := by
  have h : s.ethCheckPort p = s.ethDown p ETH_CFG_ERR := by simp [State.ethCheckPort, ho, hb]
  rw [h]
  exact ⟨State.linkUp_ethDown, State.ethResult_ethDown (by decide)⟩

theorem State.cfgDown_ethCheckPort_ne (hp : p ≠ n) (h : s.cfgDown p) : (s.ethCheckPort n).cfgDown p := by
  have hr : (s.ethCheckPort n).reg .ETH_PSTAT p = s.reg .ETH_PSTAT p := State.reg_ethCheckPort_ne (regKey_ne_of_idx hp)
  obtain ⟨hl, he⟩ := h
  exact ⟨(congrArg (bit · 31) hr).trans hl, (congrArg (fld · 23 20) hr).trans he⟩

theorem State.samePcfg_foldl_ethCheckPort {l : List Nat} (hl : ∀ n ∈ l, n < 8) : s.SamePcfg (l.foldl State.ethCheckPort s) :=
  List.foldlRecOn l _ (fun _ _ => rfl) fun _ ht n hn i hi => (State.samePcfg_ethCheckPort (hl n hn) i hi).trans (ht i hi)

/-- Once checked, a port that is faulty stays down while the others are checked. -/
theorem State.cfgDown_foldl_ethCheckPort {l : List Nat} (hl : ∀ n ∈ l, n < 8) (ho : s.ethOn p = true) (hb : s.ethBad p = true)
    (h : p ∈ l ∨ s.cfgDown p) (hp : p < 8) : (l.foldl State.ethCheckPort s).cfgDown p := by
  induction l generalizing s with
  | nil => exact h.resolve_left nofun
  | cons n l ih =>
    obtain ⟨hn, hl⟩ := List.forall_mem_cons.mp hl
    have hs := s.samePcfg_ethCheckPort hn
    refine ih hl ((hs.ethOn (by omega)).trans ho) ((hs.ethBad hp).trans hb) ?_
    by_cases hpn : p = n
    · subst hpn
      exact .inr (State.cfgDown_ethCheckPort_same ho hb)
    · exact h.imp (fun hm => (List.mem_cons.mp hm).resolve_left hpn) (State.cfgDown_ethCheckPort_ne hpn)

/-- The check of all ports leaves their configurations, and each faulty one that is enabled down. -/
theorem State.ethCheck_spec (s : State) : s.SamePcfg s.ethCheck ∧
    ∀ p < 8, s.ethOn p = true → s.ethBad p = true → s.ethCheck.cfgDown p := by
  have hl : ∀ n ∈ List.range 8, n < 8 := fun _ => List.mem_range.mp
  rw [State.ethCheck_eq]
  exact ⟨State.samePcfg_foldl_ethCheckPort hl, fun p hp ho hb =>
    State.cfgDown_foldl_ethCheckPort hl ho hb (.inl (List.mem_range.mpr hp)) hp⟩

/-- A write of a port's configuration takes what its access codes say, and a faulty one brings the port down. -/
theorem exec_ethPcfgWrite (p : Fin 8) (v : Word) (s : State) : ∃ t, exec (.ethPcfgWrite p v) s = .next t ∧ t.bus = .ok 0 ∧
    t.reg .ETH_PCFG p.val = applyWrite (RegName.flds .ETH_PCFG) (s.reg .ETH_PCFG p.val) v ∧
    (t.ethOn p.val = true → t.ethBad p.val = true → t.cfgDown p.val) := by
  have hne := pcfg_ne_pstat (i := p.val) (by omega) p.isLt
  obtain ⟨u, hx, hu⟩ : ∃ u : State, exec (.ethPcfgWrite p v) s = .next { u.ethCheck with bus := .ok 0 } ∧
      u.reg .ETH_PCFG p.val = applyWrite (RegName.flds .ETH_PCFG) (s.reg .ETH_PCFG p.val) v := by
    refine ⟨_, rfl, ?_⟩
    split_ifs
    · exact State.reg_setReg_same _ _ _ _
    · exact (State.reg_ethStart_ne hne).trans (State.reg_setReg_same _ _ _ _)
    · exact (State.reg_ethDown_ne hne).trans (State.reg_setReg_same _ _ _ _)
  obtain ⟨hs, hd⟩ := u.ethCheck_spec
  exact ⟨_, hx, rfl, (hs _ (by omega)).trans hu, fun ho hb =>
    hd p p.isLt ((hs.ethOn (by omega)).symm.trans ho) ((hs.ethBad p.isLt).symm.trans hb)⟩

/-! ### Negotiation (R44) -/

theorem greatest_eq_some {n k : Nat} {f : Nat → Bool} (h : greatest n f = some k) : k < n ∧ f k = true := by
  induction n with
  | zero => cases h
  | succ n ih =>
    rw [greatest] at h
    split at h
    · next hf =>
      obtain rfl := Option.some.inj h
      exact ⟨Nat.lt_succ_self _, hf⟩
    · obtain ⟨hk, hf⟩ := ih h
      exact ⟨Nat.lt_succ_of_lt hk, hf⟩

variable {rates fecs : BitVec 4} {r f : Nat}

/-- What negotiation resolves is permitted and offered. -/
theorem State.resolveAn_eq_some (h : s.resolveAn n rates fecs = some (r, f)) :
    (permittedFec (s.ethWidth n) r).contains f = true ∧ rates.toNat.testBit r = true ∧ fecs.toNat.testBit f = true ∧
      r < 4 ∧ f < 4 := by
  unfold State.resolveAn at h
  dsimp only at h
  split at h
  · next r' hr =>
    simp only [Option.map_eq_some_iff, Prod.mk.injEq] at h
    obtain ⟨f', hf, rfl, rfl⟩ := h
    obtain ⟨hr4, hr⟩ := greatest_eq_some hr
    obtain ⟨hf4, hf⟩ := greatest_eq_some hf
    simp only [Bool.and_eq_true] at hr hf
    obtain ⟨⟨-, hrate⟩, -⟩ := hr
    obtain ⟨⟨hperm, -⟩, hfec⟩ := hf
    exact ⟨hperm, hrate, hfec, hr4, hf4⟩
  · cases h

/-- Does the port negotiate: it is enabled and well configured, not fixed, and does not wait after its training failed? -/
def State.negotiates (s : State) (n : Nat) : Prop :=
  s.ethOn n = true ∧ s.ethFixed n = false ∧ s.ethBad n = false ∧ s.ethResult n ≠ ETH_TRAIN_FAIL

/-- The status word of a port whose training has ended well. -/
theorem pstat_resolved (w : Word) (width : Nat) (hr : r < 4) (hf : f < 4) :
    let v := putF (putB (putF (putF (putF w 29 28 width) 27 26 r) 25 24 f) 30 true) 23 20 ETH_OK
    fld v 27 26 = r ∧ fld v 25 24 = f ∧ bit v 30 = true ∧ fld v 23 20 = ETH_OK := by
  refine ⟨?_, ?_, ?_, fld_putF_same _ (by decide) (by decide)⟩
  · rw [fld_putF_ne _ (by decide) (by decide), fld_putB_ne _ (by decide), fld_putF_ne _ (by decide) (by decide),
      fld_putF_same _ (by decide) (by decide)]
    exact Nat.mod_eq_of_lt hr
  · rw [fld_putF_ne _ (by decide) (by decide), fld_putB_ne _ (by decide), fld_putF_same _ (by decide) (by decide)]
    exact Nat.mod_eq_of_lt hf
  · rw [bit_putF_ne _ (by decide) (by decide), bit_putB _ _ _ _ (by decide), if_pos rfl]

section
variable {p : Fin 8}

/-- A link that has trained takes what was resolved. -/
theorem exec_anResolved_trained (hn : s.negotiates p.val) (h : s.resolveAn p.val rates fecs = some (r, f)) :
    ∃ t, exec (.anResolved p rates fecs true) s = .next t ∧ t.rf .ETH_PSTAT p.val 27 26 = r ∧ t.rf .ETH_PSTAT p.val 25 24 = f ∧
      t.rb .ETH_PSTAT p.val 30 = true ∧ t.ethResult p.val = ETH_OK := by
  obtain ⟨ho, hx, hb, hr⟩ := hn
  obtain ⟨-, -, -, hr4, hf4⟩ := State.resolveAn_eq_some h
  have hr : (s.ethResult p.val == ETH_TRAIN_FAIL) = false := by simp [hr]
  simp only [exec, execAnResolved, ho, hx, hb, h, hr, Bool.not_true, Bool.or_self, Bool.false_eq_true, if_false, if_true]
  refine ⟨_, rfl, ?_⟩
  have hreg (v : Word) (g : Port → Port) : ((s.setReg .ETH_PSTAT p.val v).updPort p.val g).reg .ETH_PSTAT p.val = v :=
    State.reg_setReg_same _ _ _ _
  rw [State.rf, State.rf, State.rb, State.ethResult, State.rf, hreg]
  exact pstat_resolved _ _ hr4 hf4

theorem exec_anResolved_none {tr : Bool} (hn : s.negotiates p.val) (h : s.resolveAn p.val rates fecs = none) :
    exec (.anResolved p rates fecs tr) s = .next (s.ethDown p.val ETH_NO_COMMON) := by
  obtain ⟨ho, hx, hb, hr⟩ := hn
  simp [exec, execAnResolved, ho, hx, hb, hr, h]

/-- A port whose training has failed negotiates anew. -/
theorem exec_anRestartTimeout (ho : s.ethOn p.val = true) (hx : s.ethFixed p.val = false) (hr : s.ethResult p.val = ETH_TRAIN_FAIL) :
    ∃ t, exec (.anRestartTimeout p) s = .next t ∧ t.ethResult p.val = ETH_IN_PROGRESS ∧ (t.port p.val).trainFails = 0 := by
  refine ⟨_, if_pos (by simp [ho, hx, hr]), ?_⟩
  rw [State.ethStart_negotiates p.isLt hx, State.port_updPort_same]
  exact ⟨State.ethResult_ethDown (by decide), rfl⟩

end

/-! ### A link that rises, and the guard band (R97) -/

theorem sx_le (v : Nat) : sx v 7 ≤ 63 := by
  unfold sx
  split <;> omega

/-- No guard band is longer than its field: the slowest port has 10 Gb/s. -/
theorem State.guardMin_lt (s : State) (n : Nat) : s.guardMin n < 2 ^ 16 := by
  have hrate : ∃ r, 10 ≤ r ∧ s.portKbps n / 1000000 = r := by
    refine ⟨_, ?_, Nat.mul_div_cancel _ (by decide)⟩
    refine Nat.le_trans ?_ (Nat.le_mul_of_pos_left _ (by positivity))
    split <;> decide
  obtain ⟨r, hr, hk⟩ := hrate
  have ho : s.overhead n ≤ 63 := max_le (by decide) (sx_le _)
  unfold State.guardMin
  dsimp only
  rw [hk, if_neg (by omega)]
  exact Nat.div_lt_of_lt_mul (by omega)

/-- What the guard band depends on: the rate in use and the overhead. -/
theorem State.guardMin_congr (hr : t.reg .ETH_PSTAT n = s.reg .ETH_PSTAT n)
    (ho : t.rf .EGS_PORT_CFG n 22 16 = s.rf .EGS_PORT_CFG n 22 16) : t.guardMin n = s.guardMin n := by
  have hrate : t.portKbps n = s.portKbps n := by
    unfold State.portKbps State.rf
    rw [hr]
  have hover : t.overhead n = s.overhead n := by
    unfold State.overhead
    rw [ho]
  unfold State.guardMin
  rw [hrate, hover]

/-- A link that rises sets both bits of its status, and the guard band is long enough for its rate. -/
theorem State.setLink_up (hn : n < 8) (h : s.linkUp n = false) : (s.setLink n true).linkUp n = true ∧
    (s.setLink n true).rb .ETH_PSTAT n 19 = true ∧ (s.setLink n true).guardMin n ≤ (s.setLink n true).rf .EGS_PORT_CFG n 15 0 := by
  have hup : ((s.setRb .ETH_PSTAT n 31 true).setRb .ETH_PSTAT n 19 true).linkUp n = true :=
    (State.rb_setRb_ne _ _ _ _ (by decide) (by decide)).trans (State.rb_setRb_same _ _ _ _ (by decide))
  have hchg : ((s.setRb .ETH_PSTAT n 31 true).setRb .ETH_PSTAT n 19 true).rb .ETH_PSTAT n 19 = true :=
    State.rb_setRb_same _ _ _ _ (by decide)
  unfold State.setLink
  rw [if_neg (by simp [h])]
  dsimp only
  rw [if_pos rfl]
  generalize (s.setRb .ETH_PSTAT n 31 true).setRb .ETH_PSTAT n 19 true = u at hup hchg ⊢
  split_ifs with hg
  · have hstat (v : Word) : (u.setReg .EGS_PORT_CFG n v).reg .ETH_PSTAT n = u.reg .ETH_PSTAT n :=
      State.reg_setReg_name _ _ (by omega) (by omega) (by decide)
    refine ⟨(congrArg (bit · 31) (hstat _)).trans hup, (congrArg (bit · 19) (hstat _)).trans hchg, ?_⟩
    have hmin : (u.setRf .EGS_PORT_CFG n 15 0 (u.guardMin n)).guardMin n = u.guardMin n :=
      State.guardMin_congr (hstat _) (State.rf_setRf_ne _ _ _ _ (by decide) (by decide))
    rw [hmin, State.rf_setRf_same _ _ _ _ (by decide) (by decide), Nat.mod_eq_of_lt (u.guardMin_lt n)]
  · exact ⟨hup, hchg, Nat.le_of_not_lt hg⟩

section
variable {p : Fin 8}

theorem exec_linkChange_up (ho : s.ethOn p.val = true) (hb : s.ethBad p.val = false)
    (hx : s.ethFixed p.val = true ∨ s.rb .ETH_PSTAT p.val 30 = true) :
    exec (.linkChange p true) s = .next ((s.setRf .ETH_PSTAT p.val 23 20 ETH_OK).setLink p.val true) := by
  simp [exec, execLinkChange, ho, hb, hx]

end

/-! ### Scaled minimums (R94) -/

/-- Where the minimums do not fit, each is scaled and every bucket is full. -/
theorem exec_effectiveMinApply {p : Fin 8} (hl : s.linkUp p.val = true) (hm : s.minLimit p.val < (s.port p.val).cfgSum) :
    ∃ t, exec (.effectiveMinApply p) s = .next t ∧ (t.port p.val).scaled = true ∧
      (t.port p.val).tenants = Tbl.mapv (s.port p.val).tenants fun _ x => { x with
        mn := Bucket.of (x.cfgMin * s.minLimit p.val / (s.port p.val).cfgSum) x.mn.size false s.ela
        mx := Bucket.of x.mx.rate x.mx.size false s.ela } := by
  refine ⟨s.scalePort p.val, by simp [exec, execEffectiveMinApply, hl, hm], ?_⟩
  unfold State.scalePort
  dsimp only
  rw [(State.Notified.foldl _ fun t x => t.notified_notify _ _ _ _).port, State.port_updPort_same]
  simp [effMin, Nat.not_le.mpr hm, hm]

/-- Settles O27: what each event of a port leaves of its status. -/
theorem ethernetEventsComplete : Obligations.EthernetEventsComplete := by
  refine ⟨exec_ethPcfgWrite, ?trained, ?none, ?restart, ?rise, ?fall, ?scale⟩
  case trained =>
    intro p rates fecs s r f ho hx hb hr h
    obtain ⟨hperm, hrate, hfec, -, -⟩ := State.resolveAn_eq_some h
    exact ⟨hperm, hrate, hfec, exec_anResolved_trained ⟨ho, hx, hb, hr⟩ h⟩
  case none => exact fun _ _ _ _ _ ho hx hb hr => exec_anResolved_none ⟨ho, hx, hb, hr⟩
  case restart => exact fun _ _ => exec_anRestartTimeout
  case rise =>
    intro p s hl ho hb hx
    have hd : (s.setRf .ETH_PSTAT p.val 23 20 ETH_OK).linkUp p.val = false := by
      rw [State.linkUp, State.rb, State.setRf, State.reg_setReg_same, bit_putF_ne _ (by decide) (by decide)]
      exact hl
    exact ⟨_, exec_linkChange_up ho hb hx, State.setLink_up p.isLt hd⟩
  case fall =>
    intro p s hl
    refine ⟨_, rfl, s.linkUp_setLink_down _, ?_, congrArg _ (s.setLink_down_net _)⟩
    rw [State.rb, (State.notified_setLink_down hl).reg]
    exact State.rb_setRb_same _ _ _ _ (by decide)
  case scale => exact fun _ _ => exec_effectiveMinApply

end Sys2Proof.Machine
end

section
/-! Shaping (R60, R72, R93, R95, R96, R101 to R105): gates, targets, estimates, samplers and cascade peers. -/

namespace Sys2Proof.Machine

variable {s s1 : State} {el n : Nat}

/-! ### Minimum buckets (R93) -/

/-- A full minimum bucket of a tenant that holds an eligible frame is counted, once. -/
theorem exec_tenantBucketFull {p : Fin 8} {k : Fin 4} (hp : s.pdOn 26 = true)
    (hr : (((s.advance el).tenantPort p.val k.val).mn.refill (s.advance el).ela).rate ≠ 0)
    (hf : (((s.advance el).tenantPort p.val k.val).mn.refill (s.advance el).ela).lvl =
      (((s.advance el).tenantPort p.val k.val).mn.refill (s.advance el).ela).size * unitsPerByte)
    (hm : ((s.advance el).tenantPort p.val k.val).missed = false)
    (hq : ∃ q f, (q, f) ∈ s.net.flowqs ∧ f.port = p.val ∧ f.own.fn / 64 = k.val ∧ (s.advance el).eligibleQ f = true) :
    ∃ u, exec (.tenantBucketFull p k el) s = .next u ∧
      u.cnt .EGS_CNT_LO (8 * p.val + E_MIN_MISSED) = s.cnt .EGS_CNT_LO (8 * p.val + E_MIN_MISSED) + 1 ∧
      (u.tenantPort p.val k.val).missed = true := by
  obtain ⟨q, f, hmem, hport, htenant, hel⟩ := hq
  have hholds : ((s.advance el).net.flowqs.any fun kv =>
      kv.2.port == p.val && kv.2.own.fn / 64 == k.val && (s.advance el).eligibleQ kv.2) = true :=
    List.any_eq_true.mpr ⟨(q, f), hmem, by simp [hport, htenant, hel]⟩
  refine ⟨_, if_pos ⟨hp, hr, hf, hholds, hm⟩, ?_⟩
  rw [(State.notified_notify_if _ _ _ _ _ _).cnt, (State.notified_notify_if _ _ _ _ _ _).tenantPort]
  exact ⟨State.cnt_bump_same _ _ _ _, by simp [State.tenantPort]⟩

/-! ### Gate lists (R95, R96) -/

/-- `q` is `p` but for its class shapers and what their closed gates have lost. -/
def Port.SameGates (p q : Port) : Prop := ∃ classSh lostRem, q = { p with classSh, lostRem }

theorem Port.SameGates.trans {p q r : Port} (h : p.SameGates q) (h' : q.SameGates r) : p.SameGates r := by
  obtain ⟨_, _, rfl⟩ := h
  obtain ⟨_, _, rfl⟩ := h'
  exact ⟨_, _, rfl⟩

theorem State.gateLoss_port (s : State) (n cls : Nat) (opens : Bool) : (s.port n).SameGates ((s.gateLoss n cls opens).1.port n) :=
  ⟨_, _, s.port_updPort_same n fun p => { p with classSh := Tbl.upd p.classSh cls fun b => b.refill s.ela }⟩

theorem State.gateLose_port (s : State) (n units : Nat) : (s.port n).SameGates ((s.gateLose n units).port n) := by
  unfold State.gateLose
  dsimp only
  split <;> exact ⟨_, _, s.port_updPort_same n _⟩

/-- New states of the gates leave the port's lists and its place in them. -/
theorem State.gatesTo_port (s : State) (n old new : Nat) : (s.port n).SameGates ((s.gatesTo n old new).port n) := by
  unfold State.gatesTo
  dsimp only
  refine Port.SameGates.trans ?_ (State.gateLose_port _ n _)
  refine List.foldlRecOn (motive := fun acc : State × Nat => (s.port n).SameGates (acc.1.port n)) _ _ ⟨_, _, rfl⟩ fun acc h c _ => ?_
  split
  · exact h
  · exact h.trans (acc.1.gateLoss_port n c (new.testBit c))

/-- A list that becomes active begins with its first entry. -/
theorem State.gateSwitch_port (s : State) (n at' : Nat) {q : GateList} (hq : q.entries ≠ []) :
    ((s.gateSwitch n q at').port n).active = some q ∧ ((s.gateSwitch n q at').port n).pend = none ∧
    ((s.gateSwitch n q at').port n).entry = 0 ∧ ((s.gateSwitch n q at').port n).entryAt = at' := by
  unfold State.gateSwitch
  dsimp only
  obtain ⟨_, _, hu⟩ := State.gatesTo_port (s.updPort n _) n _ _
  rw [hu, State.port_updPort_same]
  simp [hq]

theorem State.gateDue_pending {q : GateList} (hq : (s.port n).pend = some q) (ha : (s.port n).active = none) (hc : q.change ≤ s.dev) :
    s.gateDue n = some (q, if q.change = 0 then s.dev else q.change) := by
  simp [State.gateDue, hq, ha, hc]

theorem Port.entryEnd_snd {p : Port} {l : GateList} :
    (p.entryEnd l).2 = true ↔ p.waitStart = true ∨ l.entries.length ≤ p.entry + 1 := by
  unfold Port.entryEnd
  split <;> simp [*]

/-- Where no list is due, the next entry of the active one begins as the current one ends. -/
theorem exec_gateEntryAdvance {p : Fin 8} {l : GateList} (hp : s.pdOn 26 = true) (ha : (s.port p.val).active = some l)
    (hd : (s.advance el).gateDue p.val = none) (he : ((s.port p.val).entryEnd l).1 ≤ (s.advance el).dev) :
    ∃ u, exec (.gateEntryAdvance p el) s = .next u ∧
      (u.port p.val).entry = (if ((s.port p.val).entryEnd l).2 then 0 else (s.port p.val).entry + 1) ∧
      (u.port p.val).entryAt = ((s.port p.val).entryEnd l).1 := by
  have hwait : ¬((s.advance el).dev < ((s.port p.val).entryEnd l).1 ∨ s.pdOn 26 = false) := by simp [hp, he]
  simp only [exec, execGateEntryAdvance, State.port_advance, ha, State.pdOn_advance, if_neg hwait, hd]
  refine ⟨_, rfl, ?_⟩
  obtain ⟨_, _, hu⟩ := State.gatesTo_port (State.updPort _ p.val _) p.val _ _
  rw [hu, State.port_updPort_same]
  exact ⟨rfl, rfl⟩

theorem exec_gateListSwitch {p : Fin 8} {q : GateList} (hp : s.pdOn 26 = true) (hq : (s.port p.val).pend = some q)
    (ha : (s.port p.val).active = none) (hc : q.change ≤ (s.advance el).dev) : exec (.gateListSwitch p el) s =
      .next ((s.advance el).gateSwitch p.val q (if q.change = 0 then (s.advance el).dev else q.change)) := by
  simp only [exec, execGateListSwitch, State.pdOn_advance, hp, Bool.not_true, Bool.false_eq_true, if_false,
    State.gateDue_pending (s := s.advance el) hq ha hc]

/-! ### Targets (R60, R102) -/

section
variable {it : Item}

theorem exec_layerTargetApply_unknown (hp : s.pdOn 26 = true) (hi : s.popShared (s.rf .STRATA_TGT_QID 0 15 0) = some (it, s1))
    (hx : Tbl.find s1.net.subs (it.w 4 % 2 ^ 17) = none) : exec .layerTargetApply s = .next (s1.cntStrata C_TGT_REJECT) := by
  simp only [exec, execLayerTargetApply, hp, hi, hx, Bool.not_true, Bool.false_eq_true, if_false]

/-- A target is accepted from the tenant of the context whose leg it names. -/
theorem exec_layerTargetApply {x : Sub} (hp : s.pdOn 26 = true) (hi : s.popShared (s.rf .STRATA_TGT_QID 0 15 0) = some (it, s1))
    (hx : Tbl.find s1.net.subs (it.w 4 % 2 ^ 17) = some x) : exec .layerTargetApply s = .next (
      if it.event = 0x13 ∧ x.rxLeg = it.w 6 % 65536 ∧ x.own.fn / 64 = it.src then
        s1.retarget (it.w 4 % 2 ^ 17) { x with tgtS := bits (it.w 5) 31 30, tgtT := bits (it.w 5) 29 27 }
      else s1.cntStrata C_TGT_REJECT) := by
  have hrej : (it.event ≠ 0x13 ∨ x.rxLeg ≠ it.w 6 % 65536 ∨ x.own.fn / 64 ≠ it.src) ↔
      ¬(it.event = 0x13 ∧ x.rxLeg = it.w 6 % 65536 ∧ x.own.fn / 64 = it.src) := by
    simp only [not_and_or, ne_eq]
  simp only [exec, execLayerTargetApply, hp, hi, hx, Bool.not_true, Bool.false_eq_true, if_false, hrej, ite_not,
    apply_ite Host.Outcome.next]

/-- A shaper target is accepted from the tenant of an adaptive queue whose leg it names, outside the audio class. -/
theorem exec_shaperTargetApply {f : FlowQ} (hp : s.pdOn 26 = true)
    (hi : (s.advance el).popShared (s.rf .EGS_TGT_QID 0 15 0) = some (it, s1))
    (hf : Tbl.find s1.net.flowqs (it.w 4 % 65536) = some f) : exec (.shaperTargetApply el) s = .next (
      if it.event = 0x14 ∧ f.leg = it.w 6 % 65536 ∧ f.own.fn / 64 = it.src ∧ f.sh.adaptive = true ∧ f.cls ≠ s1.audioTc f.port then
        (s1.loseOne f.port f.cls f.sh.b).setFlowq (it.w 4 % 65536) { f with
          sh := { f.sh with
            b := f.sh.b.write (max f.sh.minRate (min f.sh.maxRate (it.w 5 % 2 ^ 29))) f.sh.b.size ((it.w 5).testBit 31) s1.ela } }
      else s1.cntEgs f.port E_TGT_REJECT) := by
  have hrej : (it.event ≠ 0x14 ∨ f.leg ≠ it.w 6 % 65536 ∨ f.own.fn / 64 ≠ it.src ∨ f.sh.adaptive = false ∨
        f.cls = s1.audioTc f.port) ↔
      ¬(it.event = 0x14 ∧ f.leg = it.w 6 % 65536 ∧ f.own.fn / 64 = it.src ∧ f.sh.adaptive = true ∧
        f.cls ≠ s1.audioTc f.port) := by
    simp only [not_and_or, ne_eq, Bool.not_eq_true, not_not]
  simp only [exec, execShaperTargetApply, State.pdOn_advance, State.rf_advance, hp, hi, hf, Bool.not_true, Bool.false_eq_true,
    if_false, hrej, ite_not, apply_ite Host.Outcome.next]

end

/-! ### Estimates (R101 to R103): what follows from one leaves the packet plane -/

theorem State.demand_net (s : State) (d : Nat) (r : Bool) : (s.demand d r).net = s.net := by
  obtain ⟨_, _, _, h⟩ := s.woken_demand d r
  rw [h]

theorem State.foldl_net {α : Type} {f : State → α → State} {l : List α} (hf : ∀ (t : State) x, (f t x).net = t.net) :
    (l.foldl f s).net = s.net :=
  List.foldlRecOn (motive := fun t : State => t.net = s.net) l f rfl fun t ht x _ => (hf t x).trans ht

theorem State.wakeEngines_net (s : State) (q : Nat) : (s.wakeEngines q).net = s.net :=
  State.foldl_net fun t e => by
    split
    · exact t.demand_net _ _
    · rfl

theorem State.wakeCheck_net (s : State) (q : Nat) : (s.wakeCheck q).net = s.net := by
  unfold State.wakeCheck
  split
  · rfl
  · split
    · rfl
    · split
      · rfl
      · split
        · exact State.demand_net _ _ _
        · rfl

theorem State.enqueue_net (s : State) (q p : Nat) (it : Item) : (s.enqueue q p it).net = s.net := by
  unfold State.enqueue
  split
  · rfl
  · rw [State.wakeCheck_net, State.wakeEngines_net]
    split
    · exact State.demand_net _ _ _
    · rfl

theorem State.estPost_net (s : State) (core tenant ev q : Nat) (w : List Nat) : (s.estPost core tenant ev q w).net = s.net := by
  unfold State.estPost
  split
  · rfl
  · split
    · rfl
    · exact State.enqueue_net _ _ _ _

theorem State.estTargets_net (s : State) (core leg : Nat) (e : Est) (outs : List EstOut) :
    (s.estTargets core leg e outs).net = s.net := by
  unfold State.estTargets
  dsimp only
  rw [State.foldl_net fun t q => ?_, State.foldl_net fun t o => t.estPost_net _ _ _ _ _]
  split
  · rfl
  · exact t.estPost_net _ _ _ _ _

theorem State.setCaps_net (s : State) (r : Nat) : (s.setCaps r).net = s.net := by
  unfold State.setCaps
  split
  · rfl
  · dsimp only
    split <;> rfl

/-- A run leaves its leg's estimate within its bounds, and the shares that follow from it. -/
theorem exec_estimateApply {core : Fin 512} {leg : Fin 16384} {run : EstRun} {it : Item} {e : Est}
    (hi : (s.advance el).popShared s.disp.estQid = some (it, s1)) (he : Tbl.find s1.net.est leg.val = some e) :
    ∃ u, exec (.estimateApply core leg run el) s = .next u ∧ ∃ at',
      Tbl.get u.net.est {} leg.val = { e.after run (s1.estOuts leg.val run) s1.ela with updAt := at' } := by
  simp only [exec, execEstimateApply, State.advance_disp, hi, he]
  refine ⟨_, rfl, ?_⟩
  rw [State.foldl_net State.setCaps_net, (State.notified_notify_if _ _ _ _ _ _).net, State.estTargets_net, State.updNet_net]
  exact ⟨_, Tbl.get_set_same _ _ _ _⟩

/-! ### Samplers and cascade peers (R72, R105) -/

theorem exec_loupeSample_early {k : Fin 1024} {cons : Nat} {x : Sampler} (hx : Tbl.find s.net.samplers k.val = some x)
    (ht : (s.advance el).ela < x.nextAt) : exec (.loupeSample k cons el) s = .next (s.advance el) := by
  simp [exec, execLoupeSample, hx, ht]

/-- A period that has ended is written to the ring, and the next begins. -/
theorem exec_loupeSample_due {k : Fin 1024} {cons : Nat} {x : Sampler} (hp : s.pdOn 26 = true)
    (hx : Tbl.find s.net.samplers k.val = some x) (h0 : x.period ≠ 0) (ht : x.nextAt ≤ (s.advance el).ela) :
    ∃ u, exec (.loupeSample k cons el) s = .next u ∧ ∃ r, Tbl.find u.net.samplers k.val =
      some { x with ring := r, nextAt := x.nextAt + x.period, sojourn := 0, sent := 0, drops := 0 } := by
  have hdue : ¬(x.period = 0 ∨ (s.advance el).ela < x.nextAt ∨ s.pdOn 26 = false) := by simp [h0, hp, ht]
  simp only [exec, execLoupeSample, State.advance_net, State.pdOn_advance, hx]
  exact ⟨_, if_neg hdue, _, Tbl.find_set_same _ _ _⟩

theorem exec_cascadePeerTimeout {k : Fin 1024} {p : Peer} (hp : Tbl.find s.net.peers k.val = some p) (hl : p.lostPosted = false)
    (ht : p.lastHeard + 3000000000 ≤ (s.advance el).ela) : exec (.cascadePeerTimeout k el) s =
      .next (((s.advance el).updNet fun n => { n with
        peers := Tbl.set n.peers k.val { p with lostPosted := true } }).notify p.own.fn 0x0B80 k.val) := by
  simp [exec, execCascadePeerTimeout, hp, hl, ht]

/-- Settles O29: what each event of the shapers, gates, targets, estimates, samplers and peers leaves. -/
theorem shapingEventsComplete : Obligations.ShapingEventsComplete := by
  refine ⟨?full, ?advance, ?switch, ?unknown, ?layer, ?shaper, ?estimate, ?sample, fun _ _ => rfl, ?peer⟩
  case full => exact fun _ _ _ _ => exec_tenantBucketFull
  case advance =>
    intro p el s l hp ha hd he
    obtain ⟨u, hu, hentry, hat⟩ := exec_gateEntryAdvance hp ha hd he
    refine ⟨u, hu, ?_, hat⟩
    rw [hentry]
    simp only [Port.entryEnd_snd]
  case switch =>
    intro p el s q hp hq ha hc he
    exact ⟨_, exec_gateListSwitch hp hq ha hc, State.gateSwitch_port _ _ _ he⟩
  case unknown => exact fun _ _ _ => exec_layerTargetApply_unknown
  case layer =>
    intro s s1 it x hp hi hx
    have h := exec_layerTargetApply hp hi hx
    exact ⟨fun ha => h.trans (congrArg _ (if_pos ha)), fun hr => h.trans (congrArg _ (if_neg hr))⟩
  case shaper =>
    intro el s s1 it f hp hi hf accepted
    have h := exec_shaperTargetApply hp hi hf
    exact ⟨fun ha => h.trans (congrArg _ (if_pos ha)), fun hr => h.trans (congrArg _ (if_neg hr))⟩
  case estimate =>
    intro core leg run el s s1 it e hi he
    obtain ⟨u, hu, at', hest⟩ := exec_estimateApply hi he
    exact ⟨u, hu, by rw [hest]; exact ⟨rfl, rfl⟩⟩
  case sample =>
    intro k cons el s x hp hx h0
    exact ⟨exec_loupeSample_early hx, exec_loupeSample_due hp hx h0⟩
  case peer => exact fun _ _ _ _ => exec_cascadePeerTimeout

end Sys2Proof.Machine
end

section
/-! CONF and MIX commands (R115, R126 to R130, R133 to R138, R142, R143, R145): the one path of a command, and the late boundary. -/

namespace Sys2Proof.Machine

variable {s : State} {c : Cmd} {i : Cmd → Instr} {k : CmdSpec} {check : Cmd → State → Nat} {apply : Cmd → State → Reply}

/-! ### The path of a command -/

/-- A reply that depends on a condition, by the states that it gives. -/
theorem reply_ite (p : Prop) [Decidable p] (t u : State) :
    (if p then { st := t } else { st := u } : Reply) = { st := if p then t else u } :=
  (apply_ite (fun st => ({ st } : Reply)) p t u).symm

/-- An instruction that runs accepted commands by the one path completes with the state that the command's reply gives. -/
theorem Completes.of_runCmd {eff : Cmd → State → State}
    (hrun : ∀ c s, Accepted k check c s → exec (i c) s = .next (runCmd k check apply c s))
    (happly : ∀ c s, apply c s = { st := eff c s }) : Completes i k check eff noRes := by
  intro c s h
  rw [hrun c s h, runCmd_done h (by rw [happly]), happly]
  rfl

/-- A refused command that reads no host memory is answered without result words. -/
theorem runCmd_refused_noDma (hk : k.dma = false) (h : (s.advance c.el).takeable c = true)
    (hc : statusOf k check c (s.advance c.el) ≠ 0) :
    runCmd k check apply c s = (s.advance c.el).answer k c (statusOf k check c (s.advance c.el)) [] := by
  simp [runCmd, h, hc, hk]

/-- A status of 0 means that the command's own checks pass. -/
theorem check_eq_zero_of_statusOf (h : statusOf k check c s = 0) : check c s = 0 := by
  by_contra hc
  have hs : statusOf k check c s ≠ 0 := by
    unfold statusOf
    dsimp only
    rw [if_pos hc]
    split
    · assumption
    · exact hc
  exact hs h

/-- A list of checks passes only where each of them does. -/
theorem eq_zero_of_firstCode {l : List Nat} (h : firstCode l = 0) {x : Nat} (hx : x ∈ l) : x = 0 := by
  induction l with
  | nil => cases hx
  | cons y l ih =>
    obtain rfl : y = 0 := by
      by_contra hy
      exact hy ((firstCode_cons_ne l hy).symm.trans h)
    rcases List.mem_cons.mp hx with hx | hx
    · exact hx
    · exact ih ((firstCode_cons_zero l).symm.trans h) hx

/-! ### The late boundary (R134, R138) -/

section
variable {slice : Nat}

/-- An accepted command marks no slice. -/
theorem Accepted.lateOf_eq (h : Accepted k check c s) (u : State) : u.lateOf (s.advance c.el) k check c slice = u := by
  simp [State.lateOf, h.passes]

/-- A command that is late marks its slice. -/
theorem State.lateOf_late {t : State} (u : State) (ht : t.takeable c = true) (hd : c.dry = false)
    (hl : statusOf k check c t = LATE_BOUNDARY) : u.lateOf t k check c slice = u.markLate slice := by
  simp [State.lateOf, ht, hd, hl]

/-- A late command that reads no host memory is answered and marks its slice. -/
theorem runCmd_lateOf_late (hk : k.dma = false) (ht : (s.advance c.el).takeable c = true) (hd : c.dry = false)
    (hl : statusOf k check c (s.advance c.el) = LATE_BOUNDARY) :
    (runCmd k check apply c s).lateOf (s.advance c.el) k check c slice =
      ((s.advance c.el).answer k c LATE_BOUNDARY []).markLate slice := by
  rw [State.lateOf_late _ ht hd hl, runCmd_refused_noDma hk ht (by simp [hl]), hl]

/-- An instruction that marks a slice where its command is late completes as one that runs it by the one path. -/
theorem Completes.of_lateOf {eff : Cmd → State → State}
    (hrun : ∀ c s, ∃ slice, exec (i c) s = .next ((runCmd k check apply c s).lateOf (s.advance c.el) k check c slice))
    (happly : ∀ c s, apply c s = { st := eff c s }) : Completes i k check eff noRes :=
  .of_runCmd (fun c s h => (hrun c s).elim fun _ hs => hs.trans (congrArg _ (h.lateOf_eq _))) happly

end

/-! ### MIX_SOURCE_ADD (R115, R140) -/

/-- Firmware refuses a source for which it finds no tile with a status. -/
theorem State.sourceTile_error {home cost e : Nat} (h : s.sourceTile home cost = .error e) : e ≠ 0 := by
  unfold State.sourceTile at h
  split at h
  · cases h; decide
  · split at h <;> cases h
    decide

/-- An accepted MIX_SOURCE_ADD has found a tile. -/
theorem mixSourceAdd_sourceTile (h : mixSourceAddCheck c s = 0) :
    ∃ t, s.sourceTile (s.conf (c.f 2 10 0)).home (sourceCost c s) = .ok t := by
  cases ht : s.sourceTile (s.conf (c.f 2 10 0)).home (sourceCost c s) with
  | ok t => exact ⟨t, rfl⟩
  | error e =>
    refine absurd (eq_zero_of_firstCode h ?_) (State.sourceTile_error ht)
    simp [ht]

/-- MIX_SOURCE_ADD that finds its tile takes the one path, and succeeds. -/
theorem exec_mixSourceAdd_accepted (h : Accepted mixSourceAddSpec mixSourceAddCheck c s) :
    exec (.mixSourceAdd c) s = .next (runCmd mixSourceAddSpec mixSourceAddCheck mixSourceAddApply c s) :=
  congrArg _ (h.lateOf_eq _)

/-! ### CONF_DESTROY (R143) -/

/-- CONF_DESTROY that is not refused for its legs takes the one path. -/
theorem exec_confDestroy_accepted (h : Accepted confDestroySpec confDestroyCheck c s) :
    exec (.confDestroy c) s = .next (runCmd confDestroySpec confDestroyCheck confDestroyApply c s) :=
  if_neg (by simp [h.passes])

/-- CONF_DESTROY of a conference with legs is refused, and its tenants hear of it. -/
theorem exec_confDestroy_hasLegs (ht : (s.advance c.el).takeable c = true) (hd : c.dry = false)
    (hl : statusOf confDestroySpec confDestroyCheck c (s.advance c.el) = CONF_HAS_LEGS) :
    exec (.confDestroy c) s =
      .next (((s.advance c.el).answer confDestroySpec c CONF_HAS_LEGS []).confClosing c.h c.tenant) := by
  refine (if_pos (by simp [ht, hd, hl])).trans ?_
  rw [runCmd_refused_noDma rfl ht (by simp [hl]), hl]

/-- Settles O46: each command by the one path, with what a late boundary or the legs of a conference add to it. -/
theorem conferenceAndMixCommands : Obligations.ConferenceAndMixCommands := by
  refine ⟨?confCreate, ?confModify, ?confDestroy, ?confPin, ?confQuery, ?sourceModify, ?sourceRemove, ?classCreate, ?classModify,
    ?classDestroy, ?legJoin, ?legLeave, ?batch, ?tapSet, ?query, ?sourceAdd, ?refused⟩
  case confCreate => exact .of_runCmd (fun _ _ _ => rfl) fun _ _ => rfl
  case confModify => exact .of_runCmd (fun _ _ _ => rfl) fun _ _ => rfl
  case confDestroy => exact .of_runCmd (fun _ _ => exec_confDestroy_accepted) fun _ _ => rfl
  case confPin => exact .of_runCmd (fun _ _ _ => rfl) fun _ _ => rfl
  case confQuery => exact .of_runCmd (fun _ _ _ => rfl) fun _ _ => rfl
  case sourceModify => exact .of_lateOf (fun _ _ => ⟨_, rfl⟩) fun _ _ => rfl
  case sourceRemove => exact .of_runCmd (fun _ _ _ => rfl) fun _ _ => rfl
  case classCreate => exact .of_runCmd (fun _ _ _ => rfl) fun _ _ => rfl
  case classModify => exact .of_lateOf (fun _ _ => ⟨_, rfl⟩) fun _ _ => rfl
  case classDestroy => exact .of_runCmd (fun _ _ _ => rfl) fun _ _ => rfl
  case legJoin => exact .of_runCmd (fun _ _ _ => rfl) fun _ _ => reply_ite _ _ _
  case legLeave => exact .of_runCmd (fun _ _ _ => rfl) fun _ _ => rfl
  case batch => exact .of_lateOf (fun _ _ => ⟨_, rfl⟩) fun _ _ => rfl
  case tapSet => exact .of_runCmd (fun _ _ _ => rfl) fun _ _ => rfl
  case query => exact .of_runCmd (fun _ _ _ => rfl) fun _ _ => reply_ite _ _ _
  case sourceAdd =>
    intro c s h
    obtain ⟨t, ht⟩ := mixSourceAdd_sourceTile (check_eq_zero_of_statusOf h.passes)
    refine ⟨t, ht, ?_⟩
    rw [exec_mixSourceAdd_accepted h, runCmd_done h (by simp [mixSourceAddApply, ht])]
    simp only [mixSourceAddApply, ht]
  case refused =>
    intro c s b ht hd
    exact ⟨fun hl => congrArg _ (runCmd_lateOf_late rfl ht hd hl), fun hl => congrArg _ (runCmd_lateOf_late rfl ht hd hl),
      exec_confDestroy_hasLegs ht hd⟩

end Sys2Proof.Machine
end

section
/-! What the dispatcher and changes of sources leave of the mix fabric's frame schedule (R112, R139). -/

namespace Sys2Proof.Machine

/-- The frame schedule: the current and the next boundary, whether the sources have been taken, which slices have written, and
the mix-frame counter. -/
def State.schedule (s : State) : Nat × Nat × Bool × Tbl Bool × DWord :=
  (s.mix.boundAt, s.mix.nextAt, s.mix.srcDone, s.mix.written, s.cnt .MIXF_FRAME_LO 0)

variable {s t u : State}

theorem State.schedule_ite {p : Prop} [Decidable p] (ht : t.schedule = s.schedule) (hu : u.schedule = s.schedule) :
    (if p then t else u).schedule = s.schedule := by
  split
  · exact ht
  · exact hu

theorem State.schedule_foldl {α : Type} {f : State → α → State} (l : List α) (hf : ∀ t x, (f t x).schedule = t.schedule) :
    (l.foldl f s).schedule = s.schedule :=
  List.foldlRecOn (motive := fun t : State => t.schedule = s.schedule) l f rfl fun t ht x _ => (hf t x).trans ht

/-! ### Registers and counters -/

/-- A counter other than the mix-frame counter. -/
theorem State.schedule_bump {n : RegName} {i k : Nat} (h : regKey .MIXF_FRAME_LO 0 ≠ regKey n i) :
    (s.bump n i k).schedule = s.schedule := by
  unfold State.schedule
  rw [State.cnt_bump_ne s k h]
  rfl

theorem State.schedule_cntDisp {k : Nat} (h : k < 2 ^ 20) : (s.cntDisp k).schedule = s.schedule :=
  State.schedule_bump (regKey_ne_of_name (by decide) h (by decide))

/-- The counters of a slice stand eight apart, and no other than its first can meet a register's first place. -/
theorem State.schedule_cntMix {n k m : Nat} (h0 : 0 < k) (h8 : k < 8) : (s.cntMix n k m).schedule = s.schedule := by
  refine State.schedule_bump ?_
  unfold regKey
  omega

theorem State.schedule_demand (s : State) (d : Nat) (r : Bool) : (s.demand d r).schedule = s.schedule := by
  obtain ⟨_, _, _, h⟩ := s.woken_demand d r
  rw [h]
  rfl

/-! ### The dispatcher -/

theorem State.schedule_releaseOpt (s : State) (p : Option Nat) : (s.releaseOpt p).schedule = s.schedule := by
  unfold State.releaseOpt State.releasePayload
  split
  · split
    · rfl
    · exact State.schedule_ite rfl rfl
  · rfl

theorem State.schedule_wakeEngines (s : State) (q : Nat) : (s.wakeEngines q).schedule = s.schedule :=
  State.schedule_foldl _ fun t _ => State.schedule_ite (t.schedule_demand _ _) rfl

theorem State.schedule_wakeCheck (s : State) (q : Nat) : (s.wakeCheck q).schedule = s.schedule := by
  unfold State.wakeCheck
  split
  · rfl
  · refine State.schedule_ite rfl ?_
    split
    · rfl
    · exact State.schedule_ite ((State.schedule_cntDisp (by decide)).trans (State.schedule_demand _ _ _)) rfl

theorem State.schedule_enqueue (s : State) (q p : Nat) (it : Item) : (s.enqueue q p it).schedule = s.schedule := by
  unfold State.enqueue
  split
  · rfl
  · next d _ =>
    have hq (d : DispQ) : ((s.setDispQ q d).cntDisp 0).schedule = s.schedule := State.schedule_cntDisp (by decide)
    rw [State.schedule_wakeCheck, State.schedule_wakeEngines]
    exact State.schedule_ite ((State.schedule_demand _ _ _).trans (hq _)) (hq _)

theorem State.schedule_postHw (s : State) (q p : Nat) (it : Item) : (s.postHw q p it).schedule = s.schedule := by
  unfold State.postHw
  split
  · exact (State.schedule_cntDisp (by decide)).trans (s.schedule_releaseOpt _)
  · split
    · exact (State.schedule_cntDisp (by decide)).trans (State.schedule_releaseOpt _ _)
    · exact State.schedule_enqueue _ _ _ _

/-! ### Sources that go -/

theorem State.schedule_writeEntry (s : State) (n i : Nat) (ws : List Word) (k : Int) (safe : Bool) :
    (s.writeEntry n i ws k safe).schedule = s.schedule := by
  unfold State.writeEntry
  refine State.schedule_ite rfl ?_
  split
  · exact State.schedule_ite rfl (State.schedule_foldl (s := s.putEntry n i ws k safe) _ fun _ _ => rfl)
  · rfl

theorem State.schedule_directEntry (s : State) (n i : Nat) (ws : List Word) : (s.directEntry n i ws).schedule = s.schedule :=
  (State.schedule_cntMix (by decide) (by decide)).trans (State.schedule_ite rfl (s.schedule_writeEntry _ _ _ _ _))

theorem State.schedule_freeSource (s : State) (i : Nat) : (s.freeSource i).schedule = s.schedule := by
  unfold State.freeSource
  split
  · rfl
  · exact State.schedule_directEntry _ _ _ _

theorem State.schedule_endRamp (s : State) (i : Nat) : (s.endRamp i).schedule = s.schedule :=
  State.schedule_ite (State.schedule_ite (State.schedule_freeSource _ _) rfl) rfl

theorem State.schedule_sweepStreams (s : State) : s.sweepStreams.schedule = s.schedule :=
  State.schedule_foldl _ fun _ _ => State.schedule_ite rfl rfl

end Sys2Proof.Machine
end

section
/-! The mix fabric's events (R112, R119, R126, R134 to R136, R139, R141). -/

namespace Sys2Proof.Machine

variable {s : State} {el n : Nat}

/-! ### Boundaries (R112) -/

/-- A slice that is off or has written the frame owes nothing. -/
theorem State.lateOut_writeSlice_settled (h : s.sliceOn n = false ∨ s.sliceDone n = true) : (s.lateOut n).writeSlice n = s := by
  have hl : s.lateOut n = s := if_neg (by rcases h with h | h <;> simp [h])
  rw [hl]
  exact if_neg (by rcases h with h | h <;> simp [h])

/-- A frame of which nothing is owed is finished. -/
theorem State.finishFrame_settled
    (h : s.mix.boundAt = 0 ∨ (s.mix.srcDone = true ∧ ∀ n, n < 16 → s.sliceOn n = false ∨ s.sliceDone n = true)) :
    s.finishFrame = s := by
  rcases h with h0 | ⟨hs, hn⟩
  · exact if_pos h0
  · have hfold : (List.range 16).foldl (fun s n => (s.lateOut n).writeSlice n) s = s :=
      List.foldlRecOn (motive := fun t => t = s) _ _ rfl fun t ht n hr => by
        subst ht
        exact State.lateOut_writeSlice_settled (hn n (List.mem_range.mp hr))
    unfold State.finishFrame
    rw [hs, if_pos rfl, hfold, ite_self]

/-- What a boundary makes of the schedule when the passing frame is finished. -/
theorem State.schedule_boundary (h : s.finishFrame = s) : s.boundary.schedule =
    (s.mix.nextAt, s.mix.nextAt + 10000000, false, [], s.cnt .MIXF_FRAME_LO 0 + 1) := by
  unfold State.boundary
  rw [h, State.schedule_sweepStreams,
    State.schedule_foldl _ fun t _ => State.schedule_ite (t.schedule_postHw _ _ _) rfl,
    State.schedule_foldl _ fun t _ => t.schedule_endRamp _]
  unfold State.schedule
  rw [State.cnt_bump_same]
  rfl

theorem exec_mixFrameBoundary (hon : s.rb .MIXF_CTRL 0 31 = true) (hp : s.pdOn 34 = true) (hat : s.mix.nextAt ≤ (s.advance el).ela) :
    exec (.mixFrameBoundary el) s = .next (s.advance el).boundary := by
  simp [exec, execMixFrameBoundary, hon, hp, hat]

theorem exec_mixFrameBoundary_early (h : s.rb .MIXF_CTRL 0 31 = false ∨ (s.advance el).ela < s.mix.nextAt) :
    exec (.mixFrameBoundary el) s = .next (s.advance el) := by
  refine if_neg ?_
  rcases h with h | h
  · simp [h]
  · simp [Nat.not_le.mpr h]

/-! ### Safe-loads (R134 to R136) -/

@[simp] theorem State.rb_cntMix (s : State) (n k m : Nat) (r : RegName) (i b : Nat) : (s.cntMix n k m).rb r i b = s.rb r i b := rfl

theorem State.cnt_cntMix_same (s : State) (n k m : Nat) :
    (s.cntMix n k m).cnt .MIXF_CNT_LO (8 * n + k) = s.cnt .MIXF_CNT_LO (8 * n + k) + BitVec.ofNat 64 m := by
  rw [Nat.mul_comm 8 n]
  exact s.cnt_bump_same _ _ _

section
variable {sl : Fin 16} {v : Word}

/-- The state that a write of `MIXF_SL_ARM` leaves. -/
def State.armWritten (s : State) (n : Nat) (v : Word) : State :=
  s.setReg .MIXF_SL_ARM n (applyWrite (RegName.flds .MIXF_SL_ARM) (s.reg .MIXF_SL_ARM n) v)

/-- A set whose point has passed is disarmed, marked late and counted. -/
def State.refuseArm (s : State) (n : Nat) : State :=
  ((s.setRb .MIXF_SL_ARM n 31 false).setRb .MIXF_SL_ARM n 30 true).cntMix n X_LATE_ARM

theorem State.armed_refuseArm (s : State) (n : Nat) : (s.refuseArm n).armed n = false := by
  rw [State.armed, State.refuseArm, State.rb_cntMix, State.rb_setRb_ne _ _ _ _ (by decide) (by decide),
    State.rb_setRb_same _ _ _ _ (by decide)]

theorem State.late_refuseArm (s : State) (n : Nat) : (s.refuseArm n).rb .MIXF_SL_ARM n 30 = true := by
  rw [State.refuseArm, State.rb_cntMix, State.rb_setRb_same _ _ _ _ (by decide)]

theorem State.cnt_refuseArm (s : State) (n : Nat) :
    (s.refuseArm n).cnt .MIXF_CNT_LO (8 * n + X_LATE_ARM) = s.cnt .MIXF_CNT_LO (8 * n + X_LATE_ARM) + 1 := by
  rw [State.refuseArm, State.cnt_cntMix_same]
  rfl

/-- A write that arms an idle slice: it stands where its point lies ahead. -/
theorem exec_safeLoadArm (ha : s.armed sl.val = false) (hv : bit v 31 = true) :
    let u := s.armWritten sl.val v
    exec (.safeLoadArm sl v) s = .next (if u.pointAhead sl.val (u.armAt sl.val) (u.armSample sl.val) = true then { u with bus := .ok 0 }
      else State.refuseArm { u with bus := .ok 0 } sl.val) := by
  intro u
  refine (if_neg (by simp [ha, hv])).trans ?_
  exact (apply_ite Host.Outcome.next _ _ _).symm

end

theorem State.swapDue_due (ha : s.armed n = true) (hon : s.sliceOn n = true) (hat : s.armAt n = s.mixFrame) (hb : s.mix.boundAt ≠ 0)
    (hd : s.sliceDone n = false) : s.swapDue n = s.swapNow n :=
  if_pos (by simp [ha, hon, hat, hb, hd])

/-- After a swap the slice is no longer armed. -/
theorem State.armed_swapNow (s : State) (n : Nat) : (s.swapNow n).armed n = false :=
  State.rb_setRb_same _ _ _ _ (by decide)

section
variable {m i j : Nat} {ws : List Word} {k : Int} {safe : Bool}

theorem State.entry_putEntry_same : (s.putEntry n i ws k safe).entry n i = (s.entry n i).become (decide (1280 ≤ i)) ws k safe :=
  Tbl.get_updD_same s.mix.params {} (entryKey n i) (fun e => e.become (decide (1280 ≤ i)) ws k safe)

theorem State.entry_putEntry_ne (h : entryKey m j ≠ entryKey n i) : (s.putEntry n i ws k safe).entry m j = s.entry m j :=
  Tbl.get_updD_ne s.mix.params {} (fun e => e.become (decide (1280 ≤ i)) ws k safe) h

/-- A swap of one route entry changes the entries as one write of that entry does. -/
theorem State.entry_swapNow_one (hc : s.armCount n = 1) (hi : i < 1280) (ht : Tbl.get s.mix.tags 0 (1024 * n) = i) :
    (s.swapNow n).entry m j = (s.putEntry n i (Tbl.get s.mix.shadow [] (1024 * n)) (s.armSample n) true).entry m j := by
  simp only [State.swapNow, hc, List.range_one, List.foldl_cons, List.foldl_nil, Nat.add_zero, Nat.mul_comm n 1024, ht,
    Nat.mod_eq_of_lt (show i < 4096 by omega), if_pos (show i < 2304 by omega), State.writeEntry, if_pos hi]
  rfl

end

/-! ### Source steps and exit ramps (R119, R126) -/

/-- The source step of a frame, at its deadline. -/
theorem exec_sourceDeadline {frames : List SrcFrame} (hon : s.rb .MIXF_CTRL 0 31 = true) (hd : s.mix.srcDone = false)
    (hb : 0 < s.mix.boundAt) (hat : s.mix.boundAt + s.srcDeadline ≤ (s.advance el).ela) :
    exec (.sourceDeadline frames el) s = .next ((s.advance el).sourceStep frames) :=
  have hat : s.mix.boundAt + (s.advance el).srcDeadline ≤ (s.advance el).ela := hat
  if_pos (by simp [hon, hd, hb, hat])

theorem exec_sourceDeadline_done {frames : List SrcFrame} (hd : s.mix.srcDone = true) :
    exec (.sourceDeadline frames el) s = .next (s.advance el) :=
  if_neg (by simp [hd])

/-- The frame's sources are taken once. -/
theorem State.srcDone_sourceStep (s : State) (frames : List SrcFrame) : (s.sourceStep frames).mix.srcDone = true := rfl

/-- Has the exit ramp of a source's membership ended? -/
def State.rampEnded (s : State) (src : Nat) (c : Conf) (m : Member) : Bool :=
  m.src == src && m.leaving && m.m.done (if s.sliceDone c.home then 479 else -1)

/-- The contributors whose exit ramps have ended leave; a source that is not being removed stays. -/
theorem State.endRamp_stays {src i : Nat} {x : Source} {c : Conf} {m : Member} (hx : Tbl.find s.mix.sources src = some x)
    (hr : x.removed = false) (hc : Tbl.find s.mix.confs i = some c) (hm : c.members.find? (s.rampEnded src c) = some m) :
    s.endRamp src = s.updMix fun f => { f with
      confs := Tbl.mapv f.confs fun _ c => { c with members := c.members.filter fun y => !s.rampEnded src c y } } := by
  have hany : (s.mix.confs.any fun kv => kv.2.members.any (s.rampEnded src kv.2)) = true :=
    List.any_eq_true.mpr ⟨(i, c), Tbl.mem_of_find hc, List.any_eq_true.mpr ⟨m, List.mem_of_find?_eq_some hm, List.find?_some hm⟩⟩
  have hsrc : (s.source src).removed = false := by simp [State.source, Tbl.get, hx, hr]
  exact (if_pos hany).trans (if_neg (by simp [hsrc]))

theorem exec_memberRampEnd {src : Nat} (h : Tbl.has s.mix.sources src = true) : exec (.memberRampEnd src) s = .next (s.endRamp src) :=
  if_pos h

/-! ### Outputs (R139, R141) -/

/-- A slice that has not written the frame writes it. -/
theorem State.sliceDone_writeSlice (hon : s.sliceOn n = true) (hs : s.mix.srcDone = true) (hd : s.sliceDone n = false) :
    (s.writeSlice n).sliceDone n = true := by
  unfold State.writeSlice
  rw [if_pos (by simp [hon, hs, hd])]
  exact Tbl.get_set_same _ _ _ _

/-- Outputs that are late at a slice count once. -/
theorem State.lateOut_late (hon : s.sliceOn n = true) (hs : s.mix.srcDone = true) (hd : s.sliceDone n = false)
    (hl : Tbl.get s.mix.late false n = false) (hat : s.mix.boundAt + s.outDeadline ≤ s.ela) :
    s.lateOut n = (s.updMix fun m => { m with late := Tbl.set m.late n true }).cntMix n X_OUT_LATE
      (s.mix.classes.filter fun kv => (s.conf kv.2.conf).home == n).length :=
  if_pos (by simp [hon, hs, hd, hl, hat])

/-- Settles O38: what each event of the mix fabric leaves. -/
theorem mixEvents : Obligations.MixEvents := by
  refine ⟨?boundary, ?early, ?arm, ?swap, ?deadline, ?taken, ?ramp, ?write, ?late⟩
  case boundary =>
    intro el s b hon hp hat hdone
    have hs := b.schedule_boundary (b.finishFrame_settled hdone)
    simp only [State.schedule, Prod.mk.injEq] at hs
    exact ⟨b.boundary, exec_mixFrameBoundary hon hp hat, hs⟩
  case early => exact fun _ _ => exec_mixFrameBoundary_early
  case arm =>
    intro sl v s ha hv w u
    have h := exec_safeLoadArm (sl := sl) ha hv
    exact ⟨fun hp => h.trans (congrArg _ (if_pos hp)), fun hp => ⟨_, h.trans (congrArg _ (if_neg (Bool.eq_false_iff.mp hp))),
      State.armed_refuseArm _ _, State.late_refuseArm _ _, State.cnt_refuseArm _ _, rfl⟩⟩
  case swap =>
    intro sl s ha hon hat hb hd
    refine ⟨s.swapNow sl.val, congrArg _ (State.swapDue_due ha hon hat hb hd), s.armed_swapNow _, fun hc i hi ht => ⟨?_, fun m j hne => ?_⟩⟩
    · rw [State.entry_swapNow_one hc hi ht, State.entry_putEntry_same, decide_eq_false (by omega)]
    · rw [State.entry_swapNow_one hc hi ht, State.entry_putEntry_ne hne]
  case deadline => exact fun _ _ _ hon hd hb hat => ⟨_, exec_sourceDeadline hon hd hb hat, State.srcDone_sourceStep _ _⟩
  case taken => exact fun _ _ _ => exec_sourceDeadline_done
  case ramp =>
    intro src s x c m hx hc hm hr
    refine ⟨_, exec_memberRampEnd (by simp [Tbl.has, hx]), ?_⟩
    rw [State.endRamp_stays hx hr hc hm]
    refine ⟨?_, by simp [State.source, State.updMix, Tbl.get, hx]⟩
    simp [State.conf, State.updMix, Tbl.get, hc, State.rampEnded]
  case write => exact fun _ _ _ hon hs hd => ⟨_, rfl, State.sliceDone_writeSlice hon hs hd⟩
  case late =>
    intro sl el s b hon hs hd hl hat
    refine ⟨_, congrArg Host.Outcome.next (State.lateOut_late (s := b) hon hs hd hl hat), Tbl.get_set_same _ _ _ _, ?_⟩
    exact State.cnt_cntMix_same _ _ _ _

end Sys2Proof.Machine
end

section
/-! The arithmetic of a slice (R120 to R122, R124): frames by samples, stored outputs, ramps and the peak hold. -/

namespace Sys2Proof.Machine

/-! ### Frames by samples (R120) -/

theorem nth_of_lt {α : Type} {l : List α} {k : Nat} (d : α) (h : k < l.length) : nth l d k = l[k] := by
  simp [nth, h]

/-- Past its end a list gives the default, which `f` keeps. -/
theorem nth_map {α β : Type} (f : α → β) (l : List α) (d : α) (k : Nat) : nth (l.map f) (f d) k = f (nth l d k) := by
  rcases Nat.lt_or_ge k l.length with h | h
  · simp [nth, h]
  · simp [nth, h]

/-- A combination of frames is one of their samples, for what makes silence of silence. -/
theorem nth_zipPad {f : Int → Int → Int} (hf : f 0 0 = 0) (a b : List Int) (k : Nat) :
    nth (zipPad f a b) 0 k = f (nth a 0 k) (nth b 0 k) := by
  induction a generalizing b k with
  | nil => simpa [zipPad, hf, nth] using nth_map (f 0) b 0 k
  | cons x a ih =>
    cases b with
    | nil => simpa [zipPad, hf, nth] using nth_map (fun x => f x 0) (x :: a) 0 k
    | cons y b =>
      cases k with
      | zero => rfl
      | succ k => exact ih b k

theorem nth_addFrames (a b : List Int) (k : Nat) : nth (addFrames a b) 0 k = nth a 0 k + nth b 0 k := nth_zipPad rfl a b k

theorem nth_subFrames (a b : List Int) (k : Nat) : nth (subFrames a b) 0 k = nth a 0 k - nth b 0 k := nth_zipPad rfl a b k

/-- A sample of a sum, from the sum so far on. -/
theorem nth_foldl_addFrames (l : List (List Int)) (a : List Int) (k : Nat) :
    nth (l.foldl addFrames a) 0 k = nth a 0 k + (l.map fun x => nth x 0 k).sum := by
  induction l generalizing a with
  | nil => simp
  | cons x l ih => rw [List.foldl_cons, ih, nth_addFrames, List.map_cons, List.sum_cons, Int.add_assoc]

/-- A sample of a conference's sum is the sum of its contributors' samples. -/
theorem nth_sumFrames (l : List (List Int)) (k : Nat) : nth (sumFrames l) 0 k = (l.map fun x => nth x 0 k).sum := by
  have hz : nth (List.replicate 480 (0 : Int)) 0 k = 0 := by
    simp only [nth, List.getElem?_replicate]
    split <;> rfl
  rw [sumFrames, nth_foldl_addFrames, hz, Int.zero_add]

/-- A sample of a product. -/
theorem nth_products {gs ms xs : List Int} {k : Nat} (hg : k < gs.length) (hm : k < ms.length) (hx : k < xs.length) :
    nth (products gs ms xs) 0 k = halfUp (nth gs 0 k * nth ms 0 k) 15 * nth xs 0 k := by
  rw [nth_of_lt 0 hg, nth_of_lt 0 hm, nth_of_lt 0 hx, nth_of_lt 0 (by simp [products, hg, hm, hx])]
  simp [products]

/-- The minus-self sum of a contributor, and the common sum. -/
theorem sumFor_self {w : Word} (a : List Int) {p : List (Nat × List Int)} {j : Nat} {x : List Int}
    (hp : p.find? (fun q => q.1 == j) = some (j, x)) (hj : fld w 15 0 = j) (hw : bit w 29 = true) : sumFor w a p = subFrames a x := by
  subst hj
  simp [sumFor, hw, hp]

theorem sumFor_common {w : Word} (a : List Int) (p : List (Nat × List Int)) (hw : bit w 29 = false) : sumFor w a p = a := by
  simp [sumFor, hw]

/-! ### Stored outputs (R121) -/

/-- A sample is stored within the signed range of 16 bits. -/
theorem satI_16 (v : Int) : satI 16 v = max (-32768) (min 32767 v) := by
  unfold satI
  dsimp only
  split_ifs <;> omega

/-- It saturates outside that range. -/
theorem satI_16_ne (v : Int) : (satI 16 v != v) = decide (v < -32768 ∨ 32767 < v) := by
  rw [satI_16, Bool.eq_iff_iff, bne_iff_ne, decide_eq_true_iff]
  omega

theorem nth_store16 {l : List Int} {k : Nat} : nth (store16 l).1 0 k = max (-32768) (min 32767 (nth l 0 k)) := by
  rw [← satI_16]
  exact nth_map (satI 16) l 0 k

theorem nth_confOut {a : List Int} {k : Nat} (ha : k < a.length) :
    nth (confOut a).1 0 k = max (-32768) (min 32767 (halfUp (nth a 0 k) 12)) := by
  rw [confOut, nth_store16, nth_of_lt 0 (by simpa using ha), nth_of_lt 0 ha, List.getElem_map]

theorem nth_classOut {a gc : List Int} {k : Nat} (ha : k < a.length) (hg : k < gc.length) :
    nth (classOut a gc).1 0 k = max (-32768) (min 32767 (halfUp (halfUp (nth a 0 k) 12 * nth gc 0 k) 12)) := by
  rw [classOut, nth_store16, nth_of_lt 0 (by simp [ha, hg]), nth_of_lt 0 ha, nth_of_lt 0 hg]
  simp

/-- The samples of a conference output that saturate. -/
theorem confOut_saturated (a : List Int) :
    (confOut a).2 = (a.filter fun v => decide (halfUp v 12 < -32768 ∨ 32767 < halfUp v 12)).length := by
  simp only [confOut, store16, List.filter_map, List.length_map]
  exact congrArg List.length (List.filter_congr fun v _ => satI_16_ne _)

/-! ### Ramps (R122) -/

section
variable {r : Ramp} {k : Int}

/-- Before its start a ramp holds its first value. -/
theorem Ramp.val_before (h : k < r.start) : r.val k = r.g0 := if_pos (by omega)

/-- After its end it holds its last. -/
theorem Ramp.val_after (h : r.n ≤ k - r.start + 1) (hs : r.start ≤ k) : r.val k = r.g1 :=
  (if_neg (by omega)).trans (if_pos (by omega))

/-- Between them a linear ramp from sample 0 has gone its part of the way, rounded. -/
theorem Ramp.val_linear {k : Nat} (hl : r.lin = true) (hs : r.start = 0) (hk : k + 1 < r.n) :
    r.val k = r.g0 + roundMul (r.g1 - r.g0) (k + 1, r.n) := by
  have hi : ((k : Int) - r.start + 1).toNat = k + 1 := by omega
  simp only [Ramp.val, hi, rampW, hl, if_true]
  rw [if_neg (by omega), if_neg (by omega)]

/-- A product of a distance with a quotient lies within half of the exact value. -/
theorem roundMul_bounds {d : Int} {i n : Nat} (hd : 0 ≤ d) (hn : 0 < n) :
    2 * roundMul d (i, n) * n ≤ 2 * d * i + n ∧ 2 * d * i < 2 * roundMul d (i, n) * n + n := by
  obtain ⟨d, rfl⟩ := Int.eq_ofNat_of_zero_le hd
  have hm : roundMul d (i, n) = (((2 * d * i + n) / (2 * n) : Nat) : Int) := by
    unfold roundMul
    rw [if_pos hd, Int.natAbs_natCast]
  rw [hm]
  generalize hq : (2 * d * i + n) / (2 * n) = q
  have hle : q * (2 * n) ≤ 2 * d * i + n := hq ▸ Nat.div_mul_le_self _ _
  have hlt : 2 * d * i + n < (q + 1) * (2 * n) := by
    rw [← Nat.div_lt_iff_lt_mul (by omega), hq]
    omega
  push_cast [← @Nat.cast_le Int, ← @Nat.cast_lt Int] at hle hlt ⊢
  constructor <;> linarith

/-- A new ramp starts from the value just before it. -/
theorem Ramp.val_to (r : Ramp) (target : Int) (n : Nat) (lin : Bool) (k : Int) : (r.to target n lin k).val (k - 1) = r.val (k - 1) :=
  Ramp.val_before (show k - 1 < k by omega)

theorem rampLen_eq {n : Nat} (h : n ≠ 0) : rampLen n = max 12 (min 48000 n) := if_neg h

end

/-! ### The peak hold (R124) -/

section
variable {m : MeterSt} {peak : Int} {frames : Nat} {decay : Int}

theorem MeterSt.hold'_peak (h : m.hold ≤ peak) : m.hold' peak frames decay = { m with hold := peak, timer := frames } := if_pos h

theorem MeterSt.hold'_timed (h : peak < m.hold) (ht : 0 < m.timer) : m.hold' peak frames decay = { m with timer := m.timer - 1 } :=
  (if_neg (by omega)).trans (if_pos ht)

theorem MeterSt.hold'_decay (h : peak < m.hold) (ht : m.timer = 0) :
    m.hold' peak frames decay = { m with hold := max (-32768) (max peak (m.hold - decay)) } :=
  (if_neg (by omega)).trans (if_neg (by omega))

end

/-- Settles O37: each formula by its rule. -/
theorem sliceArithmetic : Obligations.SliceArithmetic := by
  refine ⟨?products, ?sum, ?minusSelf, ?stored, ?ends, ?linear, ?length, ?hold⟩
  case products => exact fun _ _ _ _ => nth_products
  case sum =>
    intro p k
    rw [nth_sumFrames, List.map_map]
    exact List.sum_eq_foldr.trans List.foldr_map
  case minusSelf =>
    intro w a p j x k hp hj
    exact ⟨fun hw => by rw [sumFor_self a hp hj hw, nth_subFrames], sumFor_common a p⟩
  case stored => exact fun a gc k ha hg => ⟨nth_confOut ha, nth_classOut ha hg, confOut_saturated a⟩
  case ends => exact fun r k => ⟨fun h _ => Ramp.val_before h, Ramp.val_after⟩
  case linear =>
    intro r k hl hs hk hg
    rw [Ramp.val_linear hl hs hk, add_sub_cancel_left]
    exact_mod_cast roundMul_bounds (i := k + 1) (by omega) (by omega)
  case length =>
    intro r target n lin k
    refine ⟨r.val_to target n lin k, fun h1 h2 => ?_, fun h0 h1 => ?_, fun h => ?_, rfl⟩
    · exact (rampLen_eq (by omega)).trans (by omega)
    · exact (rampLen_eq (by omega)).trans (by omega)
    · exact (rampLen_eq (by omega)).trans (by omega)
  case hold =>
    intro m peak frames decay u
    refine ⟨fun h => ?_, fun h ht => ?_, fun h ht hp => ?_⟩
    · rw [show u = _ from MeterSt.hold'_peak h]
      exact ⟨rfl, rfl⟩
    · rw [show u = _ from MeterSt.hold'_timed h ht]
      exact ⟨rfl, rfl⟩
    · rw [show u = _ from MeterSt.hold'_decay h ht]
      exact max_eq_right (hp.trans (le_max_left _ _))

end Sys2Proof.Machine
end

section
/-! The end of an item (R118, R251, R252, R261, R281). -/

namespace Sys2Proof.Machine

variable {s t u : State}

/-! ### What the return of an item's storage leaves (R19, R272) -/

/-- `t` has the cores of `s`, their status registers and its configured queues. -/
structure State.SameItems (s t : State) : Prop where
  cores : t.cores = s.cores
  qs : t.disp.qs = s.disp.qs
  stat : ∀ c, c < 2 ^ 20 → t.reg .CORE_STAT c = s.reg .CORE_STAT c

theorem State.SameItems.trans (h : s.SameItems t) (h' : t.SameItems u) : s.SameItems u where
  cores := h'.cores.trans h.cores
  qs := h'.qs.trans h.qs
  stat c hc := (h'.stat c hc).trans (h.stat c hc)

theorem State.SameItems.setReg (h : s.SameItems t) {n : RegName} {i : Nat} (v : Word) (hi : i < 2 ^ 20) (hn : .CORE_STAT ≠ n) :
    s.SameItems (t.setReg n i v) :=
  h.trans ⟨rfl, rfl, fun _ hc => t.reg_setReg_name v hi hc hn⟩

theorem State.sameItems_releaseOpt (s : State) (p : Option Nat) : s.SameItems (s.releaseOpt p) := by
  have hnet (f : Net → Net) : s.SameItems (s.updNet f) := ⟨rfl, rfl, fun _ _ => rfl⟩
  unfold State.releaseOpt State.releasePayload
  split
  · split
    · exact ⟨rfl, rfl, fun _ _ => rfl⟩
    · split
      · exact hnet _
      · exact (hnet _).setReg _ (by decide) (by decide)
  · exact ⟨rfl, rfl, fun _ _ => rfl⟩

theorem State.sameItems_returnItem (s : State) (k p : Nat) : s.SameItems (s.returnItem k p) :=
  have hused (i j : Nat) : s.SameItems ((s.subUsed i).subUsed j) := ⟨rfl, rfl, fun _ _ => rfl⟩
  State.SameItems.setReg (n := .DISP_STAT) (i := 0) (hused _ _) _ (by decide) (by decide)

theorem State.sameItems_cntDisp (s : State) (k : Nat) : s.SameItems (s.cntDisp k) := ⟨rfl, rfl, fun _ _ => rfl⟩

/-! ### The core and the queue when an item ends (R280) -/

variable {c st q : Nat} {d : DispQ} {clean : Bool}

theorem State.core_endItem (s : State) (c : Nat) (clean : Bool) : (s.endItem c clean).core c = { s.core c with
    running := false, faulted := none, slots := Tbl.del (s.core c).slots (s.core c).slot
    prev := some ((s.core c).kern, (s.core c).load), prevT := some (s.core c).tenant, warm := clean } :=
  s.core_setCore_same c _

/-- `CORE_STAT` shows an idle core. -/
theorem State.busy_endItem (s : State) (c : Nat) (clean : Bool) : (s.endItem c clean).rb .CORE_STAT c 31 = false := by
  unfold State.endItem State.rb
  rw [State.reg_setReg_same, bit_putB _ _ _ _ (by decide), if_neg (by decide), bit_putB _ _ _ _ (by decide), if_pos rfl]

theorem State.dispQ_endItem (s : State) (hc : c < 512) (clean : Bool) (q : Nat) : (s.endItem c clean).dispQ q = s.dispQ q := by
  have hr (n : RegName) (hn : n ≠ .CORE_STAT) : (s.endItem c clean).rf n 0 15 0 = s.rf n 0 15 0 :=
    congrArg (fld · 15 0) (State.reg_setReg_name _ _ (by omega) (by decide) hn)
  refine State.dispQ_congr rfl ?_
  unfold State.sharedQ
  rw [hr .STRATA_TGT_QID nofun, hr .EGS_TGT_QID nofun]
  rfl

/-- Where an item's end has changed its queue's record, and its storage is returned, the core is idle and the queue is as
changed. -/
theorem State.SameItems.ended (h : ((s.endItem c clean).setDispQ q d).SameItems t) (hc : c < 512) :
    (t.core c).running = false ∧ (t.core c).warm = clean ∧ t.rb .CORE_STAT c 31 = false ∧ t.dispQ q = some d := by
  have hcore : t.core c = (s.endItem c clean).core c := State.core_congr h.cores
  have hstat : t.rb .CORE_STAT c 31 = (s.endItem c clean).rb .CORE_STAT c 31 := congrArg (bit · 31) (h.stat c (by omega))
  rw [hcore, hstat, State.core_endItem]
  refine ⟨rfl, rfl, s.busy_endItem c clean, State.dispQ_of_find ?_⟩
  rw [h.qs]
  exact Tbl.find_set_same _ _ _

/-! ### Completion (R280) -/

/-- The item as it is queued again. -/
def Item.again (it : Item) : Item := { it with words := putF (nth it.words 0 0) 22 21 (it.retries + 1) :: it.words.drop 1 }

/-- The item that a core runs. -/
def Core.item (k : Core) : Item := Tbl.get k.slots {} k.slot

/-- A retried item counts its retries. -/
theorem Item.retries_again {it : Item} (h : it.retries < 3) : it.again.retries = it.retries + 1 :=
  (fld_putF_same _ (by decide) (by decide)).trans (Nat.mod_eq_of_lt (by omega))

/-- A retried item goes to the tail of its queue. -/
theorem State.complete_retry (hc : c < 512) (hq : s.dispQ (s.core c).qid = some d) (ht : d.typ ≠ 2)
    (hr : st = 2 ∧ (s.core c).item.retries < 3) : s.complete c st =
      ((s.endItem c true).setDispQ (s.core c).qid { d with items := d.items ++ [(s.core c).item.again] }).cntDisp 4 := by
  have hq' : (s.endItem c true).dispQ (s.core c).qid = some d := (s.dispQ_endItem hc true _).trans hq
  have ht' : (d.typ == 2) = false := beq_eq_false_iff_ne.mpr ht
  unfold Core.item at hr
  unfold State.complete
  simp only [hq', if_pos hr, bne, ht', Bool.not_false, Bool.or_true, List.filter_true, Bool.and_false, List.filter_false,
    List.flatMap_nil, List.foldl_nil]
  rfl

/-- An item that has ended for good is counted in its queue, and its storage is returned. -/
theorem State.complete_done (hc : c < 512) (hq : s.dispQ (s.core c).qid = some d) (ht : d.typ ≠ 2)
    (hr : ¬(st = 2 ∧ (s.core c).item.retries < 3)) :
    ((s.endItem c true).setDispQ (s.core c).qid
      { d with done := d.done + 1, errors := if st != 0 then d.errors + 1 else d.errors }).SameItems (s.complete c st) := by
  have hq' : (s.endItem c true).dispQ (s.core c).qid = some d := (s.dispQ_endItem hc true _).trans hq
  unfold Core.item at hr
  unfold State.complete
  simp only [hq', if_neg ht, if_neg hr]
  refine (State.SameItems.trans ?_ (State.sameItems_releaseOpt _ _)).trans (State.sameItems_returnItem _ _ _)
  refine State.SameItems.trans ?_ (State.sameItems_cntDisp _ _)
  split
  · exact State.sameItems_cntDisp _ _
  · exact ⟨rfl, rfl, fun _ _ => rfl⟩

/-! ### `done` (R251, R252, R261) -/

theorem Core.any_inFlight {k : Core} : (k.tags.any fun t => t.2.inFlight) = true ↔ ∃ m t, (m, t) ∈ k.tags ∧ t.inFlight = true := by
  simp

theorem Core.not_any_inFlight {k : Core} (h : ∀ m t, (m, t) ∈ k.tags → t.inFlight = false) :
    ¬(k.tags.any fun t => t.2.inFlight) = true := by
  intro ha
  obtain ⟨m, t, hm, ht⟩ := Core.any_inFlight.mp ha
  exact nomatch ht.symm.trans (h m t hm)

section
variable {c : Fin 516} {tone : Option Tone}

/-- `done` waits for the tags in flight. -/
theorem done_waits (h : ∃ m t, (m, t) ∈ (s.core c.val).tags ∧ t.inFlight = true) : Does s c (.done c tone) s := by
  intro hi
  change execDone c tone s = _
  rw [execDone, issue_of_issues hi]
  dsimp only
  rw [if_pos (Core.any_inFlight.mpr h), runCore_of_runs hi.1]

/-- The failure of the only tag is raised. -/
theorem done_raises {m a : Nat} {t : Tag} (h : ∀ m t, (m, t) ∈ (s.core c.val).tags → t.inFlight = false)
    (hm : (s.core c.val).tags = [(m, t)]) (ha : t.fail = some a) : Does s c (.done c tone) (s.raiseDma c.val m a) := by
  intro hi
  obtain ⟨hr, hf⟩ := hi.1
  change execDone c tone s = _
  rw [execDone, issue_of_issues hi]
  dsimp only
  rw [if_neg (Core.not_any_inFlight h)]
  simp [hr, hf, hm, ha]

/-- Without a failed tag, `done` of a control core goes on, and of a media core ends its item. -/
theorem exec_done (hi : s.issues c (.done c tone)) (h : ∀ m t, (m, t) ∈ (s.core c.val).tags → t.inFlight = false)
    (hn : ∀ m t, (m, t) ∈ (s.core c.val).tags → t.fail = none) : exec (.done c tone) s =
      if isCtl c.val then .next (s.runCore c.val fun s k => (s, .seq k))
      else
        let it := (s.core c.val).item
        let st := fld ((s.core c.val).gr 2) 15 0
        let v := (s.mixTone c.val tone).complete c.val st
        .next ((if st = 2 ∧ it.retries < 3 then v else v.chainNext it).afterItem c.val) := by
  obtain ⟨hr, hf⟩ := hi.1
  have hnone : ((s.core c.val).tags.findSome? fun t => t.2.fail.map fun a => (t.1, a)) = none :=
    List.findSome?_eq_none_iff.mpr fun x hx => by rw [hn x.1 x.2 hx]; rfl
  change execDone c tone s = _
  rw [execDone, issue_of_issues hi]
  dsimp only
  rw [if_neg (Core.not_any_inFlight h)]
  simp only [hr, hf, hnone, Bool.not_true, Bool.not_false, Bool.and_true, if_true, Bool.or_false]
  rfl

end

/-! ### Faulted items (R281) -/

section
variable {c : Fin 512} {el : Nat}

/-- Firmware reports a fault, and none before the core's tags have finished. -/
theorem exec_kernelFaultReport_none (h : ((s.advance el).core c.val).faulted = none) :
    exec (.kernelFaultReport c el) s = .next (s.advance el) := by
  simp only [exec, execKernelFaultReport, h]

theorem exec_kernelFaultReport_waits {cause : Nat} (hf : ((s.advance el).core c.val).faulted = some cause)
    (ht : ∃ m t, (m, t) ∈ ((s.advance el).core c.val).tags ∧ t.inFlight = true) :
    exec (.kernelFaultReport c el) s = .next (s.advance el) := by
  simp only [exec, execKernelFaultReport, hf]
  exact if_pos (Core.any_inFlight.mpr ht)

/-- What firmware leaves of a faulted item whose queue is there. -/
theorem exec_kernelFaultReport {cause : Nat} (hf : ((s.advance el).core c.val).faulted = some cause)
    (ht : ∀ m t, (m, t) ∈ ((s.advance el).core c.val).tags → t.inFlight = false) :
    let s1 := s.advance el
    let k := s1.core c.val
    let e := (s1.endItem c.val false).cntDisp 3
    let f := e.setCore c.val { e.core c.val with tags := [] }
    f.dispQ k.qid = some d →
    let r := (f.releaseOpt k.item.payload).returnItem (d.own.fn / 64) k.item.pool
    let r' := if d.typ = 2 then r.finishTicket k.qid k.item.ticket c.val false else r
    let n := if d.own.fn < 256 then r'.notify d.own.fn 0x0A80 k.qid [k.kern * 65536 + cause, k.pc.toNat] else r'
    let g := (n.countFault k.kern).chainNext k.item
    exec (.kernelFaultReport c el) s = .next ((if cause = 7 then g.ueCount (c.val / 8) else g).afterItem c.val) := by
  intro s1 k e f hq r r' n g
  simp only [exec, execKernelFaultReport, hf]
  rw [if_neg (Core.not_any_inFlight ht)]
  simp only [f, e, k, s1] at hq
  simp only [hq]
  rfl

end

/-- Settles O24: `done`, the telephone event, completion and the faulted item. -/
theorem itemEnds : Obligations.ItemEnds := by
  refine ⟨?done, ?tone, ?complete, ?faulted⟩
  case done =>
    intro c tone s k
    refine ⟨done_waits, fun h => ⟨fun m t a hm ha => done_raises h hm ha, fun hn => ⟨fun hc hi => ?_, fun hc => ?_⟩⟩⟩
    · rw [exec_done hi h hn, if_pos (show isCtl c.val = true from decide_eq_true hc), runCore_of_runs hi.1]
      rfl
    · intro st it v hi
      rw [exec_done hi h hn, if_neg (by simp [isCtl, hc])]
      have hst : fld (k.gr 2) 15 0 = st := by simp [fld, bits, st]
      simp only [← hst]
      rfl
  case tone =>
    intro c n x s hx _ hk ht
    exact ⟨rfl, by simp [State.mixTone, hx, hk, ht]⟩
  case complete =>
    intro s c st d hc hq ht k it u
    by_cases hr : st = 2 ∧ it.retries < 3
    · have hu : u = _ := State.complete_retry hc hq ht hr
      obtain ⟨h1, h2, h3, h4⟩ := (State.sameItems_cntDisp _ 4).ended (s := s) (clean := true) (q := k.qid) hc
      rw [hu]
      exact ⟨h1, h2, h3, fun _ hn => ⟨_, h4, _, rfl, Item.retries_again hn, rfl⟩, fun h => absurd hr h⟩
    · obtain ⟨h1, h2, h3, h4⟩ := (State.complete_done hc hq ht hr).ended hc
      refine ⟨h1, h2, h3, fun h2 hn => absurd ⟨h2, hn⟩ hr, fun _ => ⟨_, h4, rfl, rfl, ?_⟩⟩
      by_cases h0 : st = 0 <;> simp [h0]
  case faulted =>
    intro c el s s1 k it
    exact ⟨exec_kernelFaultReport_none, fun _ => exec_kernelFaultReport_waits, fun _ _ => exec_kernelFaultReport⟩

end Sys2Proof.Machine
end

section
/-! The motion search (R183 to R185): which candidates it looks at, and what it stores of them. -/

namespace Sys2Proof.Machine

/-! ### Candidates (R183) -/

/-- A component within `8 * m` eighths stays there when it is rounded to whole samples. -/
theorem nearDiv_within {x : Int} {m : Nat} (h : x.natAbs ≤ 8 * m) : (8 * nearDiv x 8).natAbs ≤ 8 * m := by
  unfold nearDiv
  dsimp only
  split <;> omega

/-- A candidate clamped and rounded is in range. -/
theorem Mv.inRange_whole_clamp (v : Mv) : v.clamp.whole.inRange = true := by
  have hx : v.clamp.dx.natAbs ≤ 8 * 256 := by simp only [Mv.clamp]; omega
  have hy : v.clamp.dy.natAbs ≤ 8 * 128 := by simp only [Mv.clamp]; omega
  exact Bool.and_eq_true_iff.mpr ⟨decide_eq_true (nearDiv_within hx), decide_eq_true (nearDiv_within hy)⟩

theorem Mv.whole_mod (v : Mv) : v.whole.dx % 8 = 0 ∧ v.whole.dy % 8 = 0 :=
  ⟨Int.mul_emod_right _ _, Int.mul_emod_right _ _⟩

/-- A list of vectors with one more at its end, unless it is there or is refused. -/
def addCand (p : Mv → Bool) (l : List Mv) (v : Mv) : List Mv := if l.contains v || !p v then l else l ++ [v]

variable {p : Mv → Bool}

theorem length_foldl_addCand (vs l : List Mv) : (vs.foldl (addCand p) l).length ≤ l.length + vs.length := by
  induction vs generalizing l with
  | nil => simp
  | cons v vs ih =>
    refine (ih _).trans ?_
    unfold addCand
    split
    · simp
    · simp
      omega

theorem nodup_foldl_addCand (vs : List Mv) : (vs.foldl (addCand p) []).Nodup := by
  refine List.foldlRecOn vs _ List.nodup_nil fun l hl v _ => ?_
  unfold addCand
  split
  · exact hl
  · next h => exact List.nodup_append.mpr ⟨hl, by simp, by rintro a ha _ hb rfl; simp_all⟩

theorem of_mem_foldl_addCand {vs : List Mv} {v : Mv} : v ∈ vs.foldl (addCand p) [] → v ∈ vs ∧ p v = true := by
  refine List.foldlRecOn vs _ (motive := fun l => v ∈ l → v ∈ vs ∧ p v = true) (by simp) fun l hl w hw hv => ?_
  unfold addCand at hv
  split at hv
  · exact hl hv
  · next h =>
    rcases List.mem_append.mp hv with hv | hv
    · exact hl hv
    · obtain rfl := List.mem_singleton.mp hv
      exact ⟨hw, by simp_all⟩

variable {c : Search} {done : Tbl BlkDec} {bx y : Nat} {v : Mv}

/-- What R183 proposes for a block, in order, clamped and rounded. -/
def Search.proposals (c : Search) (done : Tbl BlkDec) (bx y : Nat) : List Mv :=
  (if c.starved then [0, 5, 8] else List.range 16).filterMap fun i => (c.cand done bx y i).map fun v => v.clamp.whole

theorem Search.cands_eq : c.cands done bx y = (c.proposals done bx y).foldl (addCand (c.keeps bx y)) [] := rfl

theorem Search.length_cands : (c.cands done bx y).length ≤ if c.starved then 3 else 16 := by
  rw [cands_eq]
  refine (length_foldl_addCand _ _).trans ?_
  simp only [List.length_nil, Nat.zero_add, proposals]
  refine (List.length_filterMap_le _ _).trans ?_
  split <;> simp

theorem Search.of_mem_cands (h : v ∈ c.cands done bx y) :
    v.inRange = true ∧ v.dx % 8 = 0 ∧ v.dy % 8 = 0 ∧ c.keeps bx y v = true := by
  obtain ⟨hp, hk⟩ := of_mem_foldl_addCand h
  obtain ⟨_, _, hm⟩ := List.mem_filterMap.mp hp
  obtain ⟨w, _, rfl⟩ := Option.map_eq_some_iff.mp hm
  exact ⟨w.inRange_whole_clamp, w.clamp.whole_mod.1, w.clamp.whole_mod.2, hk⟩

/-! ### The best vector (R184, R185) -/

variable {cost : Mv → Nat} {b : Mv × Nat} {l : List Mv}

/-- A vector with its own cost. -/
def Priced (cost : Mv → Nat) (b : Mv × Nat) : Prop := b.2 = cost b.1

/-- The cheapest is no dearer than the best so far, and is that one or one of the list. -/
theorem cheapest_spec (hb : Priced cost b) : Priced cost (cheapest cost b l) ∧ (cheapest cost b l).2 ≤ b.2 ∧
    ((cheapest cost b l).1 = b.1 ∨ (cheapest cost b l).1 ∈ l) := by
  refine List.foldlRecOn l _ (motive := fun q => Priced cost q ∧ q.2 ≤ b.2 ∧ (q.1 = b.1 ∨ q.1 ∈ l))
    ⟨hb, Nat.le_refl _, .inl rfl⟩ fun q hq v hv => ?_
  obtain ⟨hp, hle, hm⟩ := hq
  dsimp only
  split
  · next h => exact ⟨rfl, by dsimp only; omega, .inr hv⟩
  · exact ⟨hp, hle, hm⟩

/-- `q` is in range, carries its own cost, and is no dearer than `b`. -/
structure Improves (cost : Mv → Nat) (b q : Mv × Nat) : Prop where
  priced : Priced cost q
  inRange : q.1.inRange = true
  le : q.2 ≤ b.2

theorem Improves.trans {q r : Mv × Nat} (h : Improves cost b q) (h' : Improves cost q r) : Improves cost b r :=
  ⟨h'.priced, h'.inRange, h'.le.trans h.le⟩

theorem diamond_improves {from' : Mv} (n : Nat) (hb : Priced cost b) (hr : b.1.inRange = true) :
    Improves cost b (diamond cost from' n b) := by
  induction n generalizing b with
  | zero => exact ⟨hb, hr, Nat.le_refl _⟩
  | succ n ih =>
    unfold diamond
    extract_lets v
    split
    · exact ⟨hb, hr, Nat.le_refl _⟩
    · next h =>
      have hv : v.1.inRange = true := by simp_all
      obtain ⟨hp, hle, -⟩ := cheapest_spec (cost := cost) (l := [⟨8, 0⟩, ⟨-8, 0⟩, ⟨0, 8⟩, ⟨0, -8⟩].map b.1.add) hb
      exact Improves.trans ⟨hp, hv, hle⟩ (ih hp hv)

theorem ring_improves (d : Int) (hb : Priced cost b) (hr : b.1.inRange = true) :
    Improves cost b (cheapest cost b (ring8 b.1 d)) := by
  obtain ⟨hp, hle, hm⟩ := cheapest_spec (cost := cost) (l := ring8 b.1 d) hb
  refine ⟨hp, ?_, hle⟩
  rcases hm with hm | hm
  · rw [hm]
    exact hr
  · exact (List.mem_filter.mp hm).2

/-- The refinements of R184 one after another. -/
theorem rings_improve (ds : List Int) (hb : Priced cost b) (hr : b.1.inRange = true) :
    Improves cost b (ds.foldl (fun b d => cheapest cost b (ring8 b.1 d)) b) :=
  List.foldlRecOn ds _ ⟨hb, hr, Nat.le_refl _⟩ fun _ hq d _ => hq.trans (ring_improves d hq.priced hq.inRange)

/-- The first of the cheapest of a list is one of it, and none is cheaper. -/
theorem foldl_cheaper_spec (t : Mv × Nat) (l : List (Mv × Nat)) :
    l.foldl (fun b x => if x.2 < b.2 then x else b) t ∈ t :: l ∧
      ∀ x ∈ t :: l, (l.foldl (fun b x => if x.2 < b.2 then x else b) t).2 ≤ x.2 := by
  induction l generalizing t with
  | nil => simp
  | cons y l ih =>
    rw [List.foldl_cons]
    obtain ⟨hm, hle⟩ := ih (if y.2 < t.2 then y else t)
    have h0 := hle _ List.mem_cons_self
    refine ⟨?_, fun x hx => ?_⟩
    · rcases List.mem_cons.mp hm with hm | hm
      · rw [hm]
        split <;> simp
      · simp [hm]
    · rcases List.mem_cons.mp hx with rfl | hx
      · exact h0.trans (by split <;> omega)
      · rcases List.mem_cons.mp hx with rfl | hx
        · exact h0.trans (by split <;> omega)
        · exact hle x (List.mem_cons_of_mem _ hx)

/-- The stored vector is in range and carries its cost, which is no higher than any candidate's. -/
theorem Search.best_spec : (c.best done bx y).1.inRange = true ∧
    Priced (c.cost (c.med done bx y) bx y) (c.best done bx y) ∧
    ∀ v ∈ c.cands done bx y, (c.best done bx y).2 ≤ c.cost (c.med done bx y) bx y v := by
  unfold best
  extract_lets cost tries
  have htry : ∀ v ∈ c.cands done bx y, Improves cost (v, cost v) (diamond cost v 289 (v, cost v)) := fun v hv =>
    diamond_improves 289 rfl (of_mem_cands hv).1
  cases ht : tries with
  | nil =>
    have hc : c.cands done bx y = [] := List.map_eq_nil_iff.mp ht
    simp only [hc]
    exact ⟨rfl, rfl, by simp⟩
  | cons t l =>
    obtain ⟨hm, hle⟩ := foldl_cheaper_spec t l
    obtain ⟨v, hv, he⟩ := List.mem_map.mp (ht ▸ hm : _ ∈ tries)
    have hi := htry v hv
    rw [he] at hi
    have hs := rings_improve c.steps hi.priced hi.inRange
    refine ⟨hs.inRange, hs.priced, fun w hw => hs.le.trans ((hle _ (ht ▸ List.mem_map_of_mem hw)).trans (htry w hw).le)⟩

end Sys2Proof.Machine
end

section
/-! What the operations under the encode pipes leave (R37, R153 to R155, R182): a mark changes the pool alone, a sweep the pool and the
groups, a post the FIFOs, their storage and what still waits. -/

namespace Sys2Proof.Machine

variable {s t u : State} {α : Type}

/-! ### The pool alone -/

/-- `t` is `s` but for the pool. -/
def State.Pooled (s t : State) : Prop := ∃ pool, t = { s with video := { s.video with pool } }

theorem State.Pooled.refl (s : State) : s.Pooled s := ⟨_, rfl⟩

theorem State.Pooled.trans (h : s.Pooled t) (h' : t.Pooled u) : s.Pooled u := by
  obtain ⟨_, rfl⟩ := h
  obtain ⟨_, rfl⟩ := h'
  exact ⟨_, rfl⟩

theorem State.Pooled.foldl {f : State → α → State} (l : List α) (hf : ∀ (t : State) x, t.Pooled (f t x)) : s.Pooled (l.foldl f s) :=
  List.foldlRecOn l f (.refl s) fun t ht x _ => ht.trans (hf t x)

theorem State.Pooled.of_foldl {β : Type} {f : State × β → α → State × β} {l : List α} {a b : β} (h : l.foldl f (s, a) = (t, b))
    (hf : ∀ (x : State × β) y, x.1.Pooled (f x y).1) : s.Pooled t := by
  have hl : s.Pooled (l.foldl f (s, a)).1 :=
    List.foldlRecOn (motive := fun x => s.Pooled x.1) l f (.refl s) fun x hx y _ => hx.trans (hf x y)
  rwa [h] at hl

theorem State.pooled_settle (s : State) (b : Nat) (e : PoolEnt) : s.Pooled (s.settle b e) := by
  unfold State.settle
  split <;> exact ⟨_, rfl⟩

theorem State.pooled_markSet (s : State) (b : Buf) (m : Nat) : s.Pooled (s.markSet b m).2 := by
  unfold State.markSet
  dsimp only
  repeat' split
  all_goals exact ⟨_, rfl⟩

theorem State.pooled_unmark (s : State) (b : Buf) (m : Nat) : s.Pooled (s.unmark b m) := by
  unfold State.unmark State.markClear
  dsimp only
  split
  · exact .refl s
  · split
    · exact .refl s
    · split
      · exact ⟨_, rfl⟩
      · exact s.pooled_settle _ _

theorem State.Pooled.groups (h : s.Pooled t) : t.video.groups = s.video.groups := by
  obtain ⟨_, rfl⟩ := h
  rfl

/-! ### The pool and the groups -/

theorem Tbl.has_upd (t : Tbl α) (q : Nat) (f : α → α) (i : Nat) : Tbl.has (Tbl.upd t q f) i = Tbl.has t i := by
  unfold Tbl.has
  by_cases h : i = q
  · subst h
    simp [Tbl.find_upd_same]
  · rw [Tbl.find_upd_ne t f h]

/-- `t` is `s` but for the pool and the groups, of which none comes or goes. -/
def State.Swept (s t : State) : Prop :=
  ∃ pool groups, t = { s with video := { s.video with pool, groups } } ∧ ∀ i, Tbl.has groups i = Tbl.has s.video.groups i

theorem State.Pooled.swept (h : s.Pooled t) : s.Swept t := by
  obtain ⟨_, rfl⟩ := h
  exact ⟨_, _, rfl, fun _ => rfl⟩

theorem State.Swept.trans (h : s.Swept t) (h' : t.Swept u) : s.Swept u := by
  obtain ⟨_, _, rfl, h1⟩ := h
  obtain ⟨_, _, rfl, h2⟩ := h'
  exact ⟨_, _, rfl, fun i => (h2 i).trans (h1 i)⟩

theorem State.Swept.foldl {f : State → α → State} (l : List α) (hf : ∀ (t : State) x, t.Swept (f t x)) : s.Swept (l.foldl f s) :=
  List.foldlRecOn l f (State.Pooled.refl s).swept fun t ht x _ => ht.trans (hf t x)

theorem State.swept_updGroup (s : State) (i : Nat) (f : Group → Group) : s.Swept (s.updGroup i f) :=
  ⟨_, _, rfl, fun j => Tbl.has_upd _ _ _ j⟩

/-- `t` is `s` swept, and of the group `gi` only the pictures have changed (R182). -/
structure State.SweptGroup (s : State) (gi : Nat) (t : State) : Prop where
  swept : s.Swept t
  group : Tbl.has s.video.groups gi = true → ∃ pics, t.group gi = { s.group gi with pics }

theorem State.group_updGroup_of_has {i : Nat} (f : Group → Group) (h : Tbl.has s.video.groups i = true) :
    (s.updGroup i f).group i = f (s.group i) := by
  obtain ⟨g, hg⟩ := Option.isSome_iff_exists.mp h
  rw [s.group_updGroup_same f hg, State.group, Tbl.get, hg]
  rfl

theorem State.SweptGroup.trans {gi : Nat} (h : s.SweptGroup gi t) (h' : t.SweptGroup gi u) : s.SweptGroup gi u := by
  refine ⟨h.swept.trans h'.swept, fun hg => ?_⟩
  obtain ⟨p, hp⟩ := h.group hg
  obtain ⟨_, _, rfl, hh⟩ := h.swept
  obtain ⟨q, hq⟩ := h'.group ((hh gi).trans hg)
  exact ⟨q, by rw [hq, hp]⟩

theorem State.Pooled.sweptGroup (h : s.Pooled t) (gi : Nat) : s.SweptGroup gi t :=
  ⟨h.swept, fun _ => ⟨(s.group gi).pics, by rw [State.group, h.groups]; rfl⟩⟩

theorem State.sweepPics_eq (s : State) (gi : Nat) : ∃ u, s.SweptGroup gi u ∧ s.sweepPics gi = u.updGroup gi Group.trimDecs := by
  refine ⟨_, ?_, rfl⟩
  refine List.foldlRecOn (motive := fun t => s.SweptGroup gi t) _ _ ((State.Pooled.refl s).sweptGroup gi) fun t ht kv _ => ?_
  dsimp only
  split
  · refine ht.trans (State.SweptGroup.trans (State.Pooled.sweptGroup (.foldl _ fun t _ => t.pooled_unmark _ _) gi)
      ⟨State.swept_updGroup _ _ _, fun hg => ⟨_, State.group_updGroup_of_has _ hg⟩⟩)
  · exact ht

theorem State.swept_sweepPics (s : State) (gi : Nat) : s.Swept (s.sweepPics gi) := by
  obtain ⟨u, hu, he⟩ := s.sweepPics_eq gi
  rw [he]
  exact hu.swept.trans (u.swept_updGroup _ _)

theorem State.swept_finishRend (s : State) (r seq : Nat) : s.Swept (s.finishRend r seq) :=
  (s.swept_updGroup _ _).trans (State.swept_sweepPics _ _)

/-- The decisions of the last two pictures analysed stay (R184). -/
theorem State.decs_sweepPics {gi q : Nat} (h : Tbl.has s.video.groups gi = true) (hq : (s.group gi).last.contains q = true) :
    Tbl.get ((s.sweepPics gi).group gi).decs [] q = Tbl.get (s.group gi).decs [] q := by
  obtain ⟨u, hu, he⟩ := s.sweepPics_eq gi
  obtain ⟨p, hp⟩ := hu.group h
  obtain ⟨_, _, rfl, hh⟩ := hu.swept
  rw [he, State.group_updGroup_of_has _ ((hh gi).trans h), hp, Group.trimDecs, Tbl.get, Tbl.find_keep]
  simp only [hq, Bool.true_or, if_true]
  rfl

/-! ### Pool, groups and renditions -/

/-- `t` is `s` but for the pool, the groups, the renditions and the free values taken. -/
def State.Shelved (s t : State) : Prop :=
  ∃ pool groups rends freeCtr, t = { s with freeCtr, video := { s.video with pool, groups, rends } }

theorem State.Swept.shelved (h : s.Swept t) : s.Shelved t := by
  obtain ⟨_, _, rfl, -⟩ := h
  exact ⟨_, _, _, _, rfl⟩

theorem State.Pooled.shelved (h : s.Pooled t) : s.Shelved t := h.swept.shelved

theorem State.Shelved.refl (s : State) : s.Shelved s := ⟨_, _, _, _, rfl⟩

theorem State.Shelved.trans (h : s.Shelved t) (h' : t.Shelved u) : s.Shelved u := by
  obtain ⟨_, _, _, _, rfl⟩ := h
  obtain ⟨_, _, _, _, rfl⟩ := h'
  exact ⟨_, _, _, _, rfl⟩

theorem State.Shelved.foldl {f : State → α → State} (l : List α) (hf : ∀ (t : State) x, t.Shelved (f t x)) :
    s.Shelved (l.foldl f s) :=
  List.foldlRecOn l f (.refl s) fun t ht x _ => ht.trans (hf t x)

theorem State.Shelved.ite {c : Prop} [Decidable c] (ht : s.Shelved t) (hu : s.Shelved u) : s.Shelved (if c then t else u) := by
  split
  · exact ht
  · exact hu

theorem State.shelved_updGroup (s : State) (i : Nat) (f : Group → Group) : s.Shelved (s.updGroup i f) := ⟨_, _, _, _, rfl⟩
theorem State.shelved_updRend (s : State) (i : Nat) (f : Rend → Rend) : s.Shelved (s.updRend i f) := ⟨_, _, _, _, rfl⟩

theorem State.shelved_unmarks {β : Type} (s : State) (l : List β) (f : β → Buf) (m : Nat) :
    s.Shelved (l.foldl (fun s x => s.unmark (f x) m) s) := .foldl l fun t _ => (t.pooled_unmark _ _).shelved

theorem State.shelved_dropQueue (s : State) (r : Nat) : s.Shelved (s.dropQueue r) :=
  (s.shelved_updRend _ _).trans (.foldl _ fun t _ => (t.swept_finishRend _ _).shelved)

theorem State.shelved_dropRefs (s : State) (r : Nat) : s.Shelved (s.dropRefs r) :=
  (s.shelved_updRend _ _).trans (State.shelved_unmarks _ _ _ _)

theorem State.shelved_sweepGroup (s : State) (gi : Nat) : s.Shelved (s.sweepGroup gi) :=
  .ite (.trans (.foldl _ fun t _ => t.shelved_unmarks _ _ _) ⟨_, _, _, _, rfl⟩) (.refl s)

theorem State.shelved_sweepRend (s : State) (r : Nat) : s.Shelved (s.sweepRend r) := by
  unfold State.sweepRend
  dsimp only
  split
  · refine .trans (.trans ((s.shelved_dropQueue r).trans (State.shelved_dropRefs _ r)) (.foldl _ fun t _ =>
      (t.swept_finishRend _ _).shelved)) (.trans ⟨_, _, _, _, rfl⟩ (State.shelved_sweepGroup _ _))
  · exact .refl s

/-- A coder that ends its work is free; what follows changes the pool, groups and renditions. -/
theorem State.shelved_endJob (s : State) (pe c : Nat) (j : CoderJob) :
    (s.updEnc pe fun e => { e with coders := Tbl.del e.coders c }).Shelved (s.endJob pe c j) :=
  (State.swept_finishRend _ _ _).shelved.trans (State.shelved_sweepRend _ _)

theorem State.shelved_trimHist (s : State) (gi : Nat) : s.Shelved (s.trimHist gi) := by
  unfold State.trimHist
  dsimp only
  split
  · exact s.shelved_updGroup _ _
  · exact .refl s

theorem State.Shelved.frame (h : s.Shelved t) : t.regs = s.regs ∧ t.fifos = s.fifos ∧ t.cnts = s.cnts ∧ t.video.enc = s.video.enc := by
  obtain ⟨_, _, _, _, rfl⟩ := h
  exact ⟨rfl, rfl, rfl, rfl⟩

theorem State.Shelved.encEng (h : s.Shelved t) (k : Nat) : t.encEng k = s.encEng k := by
  rw [State.encEng, h.frame.2.2.2]
  rfl

theorem State.Shelved.fifo (h : s.Shelved t) (f : FifoId) : t.fifo f = s.fifo f := by
  rw [State.fifo, h.frame.2.1]
  rfl

theorem State.coders_endJob (s : State) (pe c : Nat) (j : CoderJob) : Tbl.find ((s.endJob pe c j).encEng pe).coders c = none := by
  rw [(s.shelved_endJob pe c j).encEng, State.encEng_updEnc_same]
  exact Tbl.find_del_same _ _

theorem State.fifo_endJob (s : State) (pe c : Nat) (j : CoderJob) (f : FifoId) : (s.endJob pe c j).fifo f = s.fifo f :=
  (s.shelved_endJob pe c j).fifo f

end Sys2Proof.Machine
end

section
/-! The posts of an encode pipe (R37, R202, R203): what a post puts into its FIFO, and what it leaves of the rest. -/

namespace Sys2Proof.Machine

variable {s t u : State} {α : Type} {pe c : Nat} {p : EncPost} {q : FifoId}

/-! ### One post -/

/-- Each FIFO is kept under a number of its own. -/
theorem fifoKey_inj {f g : FifoId} (h : fifoKey f = fifoKey g) : f = g := by
  cases f <;> cases g
  all_goals simp only [fifoKey, FifoId.decReq.injEq, FifoId.decDone.injEq, FifoId.encIn.injEq, FifoId.encDone.injEq,
    FifoId.encOut.injEq, FifoId.ring.injEq, reduceCtorEq, Fin.ext_iff] at h ⊢
  all_goals omega

/-- `t` is `s` but for memory and FIFOs. -/
def State.Stored (s t : State) : Prop := ∃ mem fifos, t = { s with mem, fifos }

theorem State.Stored.trans (h : s.Stored t) (h' : t.Stored u) : s.Stored u := by
  obtain ⟨_, _, rfl⟩ := h
  obtain ⟨_, _, rfl⟩ := h'
  exact ⟨_, _, rfl⟩

/-- What an output FIFO takes in stands in its storage too (R202). -/
theorem State.outPublish_eq (s : State) (pe c : Nat) (its : List (List Word)) (eop : Bool) : ∃ mem,
    s.outPublish pe c its eop = State.setFifo { s with mem } (encOutId pe c) ((s.fifo (encOutId pe c)).publish false its eop) := by
  suffices h : ∀ (l : List (List Word × Nat)) (t : State) (a : List Word × Nat → Nat) (w : List Word × Nat → List Nat),
      ∃ mem, l.foldl (fun s x => s.memWords (a x) (w x)) t = { t with mem } by
    obtain ⟨mem, hm⟩ := h its.zipIdx s (fun x => (s.fifo (encOutId pe c)).base +
      ((s.fifo (encOutId pe c)).pidx + x.2) % (s.fifo (encOutId pe c)).depth * (s.fifo (encOutId pe c)).bytes) fun x => x.1.map BitVec.toNat
    exact ⟨mem, congrArg (fun t : State => t.setFifo _ _) hm⟩
  intro l t a w
  refine List.foldlRecOn (motive := fun v : State => ∃ mem, v = { t with mem }) l _ ⟨t.mem, rfl⟩ fun v hv x _ => ?_
  obtain ⟨_, rfl⟩ := hv
  exact ⟨_, rfl⟩

theorem State.stored_outPublish (s : State) (pe c : Nat) (its : List (List Word)) (eop : Bool) : s.Stored (s.outPublish pe c its eop) := by
  obtain ⟨_, h⟩ := s.outPublish_eq pe c its eop
  exact ⟨_, _, h⟩

theorem State.fifo_outPublish_same (s : State) (pe c : Nat) (its : List (List Word)) (eop : Bool) :
    (s.outPublish pe c its eop).fifo (encOutId pe c) = (s.fifo (encOutId pe c)).publish false its eop := by
  obtain ⟨_, h⟩ := s.outPublish_eq pe c its eop
  rw [h, State.fifo_setFifo_same]

theorem State.fifo_outPublish_ne (s : State) (its : List (List Word)) (eop : Bool) (h : q ≠ encOutId pe c) :
    (s.outPublish pe c its eop).fifo q = s.fifo q := by
  obtain ⟨_, he⟩ := s.outPublish_eq pe c its eop
  rw [he, State.fifo_setFifo_ne _ _ fun e => h (fifoKey_inj e)]
  rfl

/-- A post that finds room changes its own FIFO only. -/
theorem State.tryPost_some (h : s.tryPost pe p = some t) : s.Stored t ∧ ∀ q, q ≠ p.fifo pe → t.fifo q = s.fifo q := by
  cases p with
  | out c l =>
    simp only [State.tryPost] at h
    split at h
    · cases h
      exact ⟨s.stored_outPublish _ _ _ _, fun q hq => s.fifo_outPublish_ne _ _ hq⟩
    · cases h
  | done it =>
    simp only [State.tryPost] at h
    split at h
    · cases h
      exact ⟨⟨_, _, rfl⟩, fun q hq => s.fifo_setFifo_ne _ fun e => hq (fifoKey_inj e)⟩
    · cases h

/-! ### The posts that wait -/

/-- One post that waits is made, or goes on waiting: behind an earlier one of its FIFO, or for room. -/
def State.payStep (pe : Nat) (a : State × List EncPost) (p : EncPost) : State × List EncPost :=
  if a.2.any fun q => q.fifo pe == p.fifo pe then (a.1, a.2 ++ [p])
  else match a.1.tryPost pe p with
    | some t => (t, a.2)
    | none => (a.1, a.2 ++ [p])

theorem State.payOwed_eq (h : s.encOn pe = true) : s.payOwed pe =
    ((s.encEng pe).owed.foldl (State.payStep pe) (s, [])).1.updEnc pe fun e =>
      { e with owed := ((s.encEng pe).owed.foldl (State.payStep pe) (s, [])).2 } := by
  rw [State.payOwed, if_pos h]
  rfl

/-- What a run of posts `l` makes of a state and of the posts that wait. -/
structure Paid (pe : Nat) (l : List EncPost) (a b : State × List EncPost) : Prop where
  stored : a.1.Stored b.1
  others : ∀ q, (∀ p ∈ l, p.fifo pe ≠ q) → b.1.fifo q = a.1.fifo q
  left : ∀ x ∈ b.2, x ∈ a.2 ∨ x ∈ l

theorem paid_payStep {l : List EncPost} {a b : State × List EncPost} (h : Paid pe l a b) (hp : p ∈ l) :
    Paid pe l a (State.payStep pe b p) := by
  have hwait : ∀ x ∈ b.2 ++ [p], x ∈ a.2 ∨ x ∈ l := fun x hx => by
    rcases List.mem_append.mp hx with hx | hx
    · exact h.left x hx
    · exact .inr (List.mem_singleton.mp hx ▸ hp)
  unfold State.payStep
  split
  · exact ⟨h.stored, h.others, hwait⟩
  · split
    · next t ht =>
      obtain ⟨hs, ho⟩ := State.tryPost_some ht
      exact ⟨h.stored.trans hs, fun q hq => (ho q (hq p hp).symm).trans (h.others q hq), h.left⟩
    · exact ⟨h.stored, h.others, hwait⟩

theorem paid_foldl (pe : Nat) (l : List EncPost) (a : State × List EncPost) : Paid pe l a (l.foldl (State.payStep pe) a) :=
  List.foldlRecOn l _ ⟨⟨_, _, rfl⟩, fun _ _ => rfl, fun _ => .inl⟩ fun _ h _ hp => paid_payStep h hp

/-- `t` is `s` but for memory, FIFOs and posts that wait. -/
structure State.Posted (s t : State) : Prop where
  rest : ∃ mem fifos enc, t = { s with mem, fifos, video := { s.video with enc } }
  eng : ∀ k, ∃ owed, t.encEng k = { s.encEng k with owed }

theorem State.Posted.refl (s : State) : s.Posted s := ⟨⟨_, _, _, rfl⟩, fun _ => ⟨_, rfl⟩⟩

theorem State.Posted.trans (h : s.Posted t) (h' : t.Posted u) : s.Posted u := by
  obtain ⟨⟨_, _, _, rfl⟩, he⟩ := h
  obtain ⟨⟨_, _, _, rfl⟩, he'⟩ := h'
  refine ⟨⟨_, _, _, rfl⟩, fun k => ?_⟩
  obtain ⟨o, ho⟩ := he k
  obtain ⟨o', ho'⟩ := he' k
  exact ⟨o', by rw [ho', ho]⟩

theorem State.Stored.posted (h : s.Stored t) : s.Posted t := by
  obtain ⟨_, _, rfl⟩ := h
  exact ⟨⟨_, _, _, rfl⟩, fun _ => ⟨_, rfl⟩⟩

theorem State.posted_updEnc (s : State) (pe : Nat) (f : EncEng → List EncPost) :
    s.Posted (s.updEnc pe fun e => { e with owed := f e }) := by
  refine ⟨⟨_, _, _, rfl⟩, fun k => ?_⟩
  by_cases hk : k = pe
  · subst hk
    exact ⟨_, State.encEng_updEnc_same _ _ _⟩
  · exact ⟨_, State.encEng_updEnc_ne _ _ hk⟩

theorem State.posted_payOwed (s : State) (pe : Nat) : s.Posted (s.payOwed pe) := by
  by_cases h : s.encOn pe = true
  · rw [State.payOwed_eq h]
    exact (paid_foldl pe _ (s, [])).stored.posted.trans (State.posted_updEnc _ _ _)
  · rw [State.payOwed, if_neg h]
    exact .refl s

theorem State.posted_encPost (s : State) (pe : Nat) (p : EncPost) : s.Posted (s.encPost pe p) :=
  (s.posted_updEnc _ _).trans (State.posted_payOwed _ _)

/-- A FIFO to which no post waits stays as it is. -/
theorem State.fifo_payOwed (h : ∀ p ∈ (s.encEng pe).owed, p.fifo pe ≠ q) : (s.payOwed pe).fifo q = s.fifo q := by
  by_cases hon : s.encOn pe = true
  · rw [State.payOwed_eq hon]
    exact (paid_foldl pe _ (s, [])).others q h
  · rw [State.payOwed, if_neg hon]

theorem State.encRoom_iff : s.encRoom pe = true ↔
    (s.fifo (encDoneId pe)).accepts false 1 true = true ∧ ∀ p ∈ (s.encEng pe).owed, p.fifo pe ≠ encDoneId pe := by
  simp [State.encRoom]

/-- Where there is room, a completion stands in its FIFO at once. -/
theorem State.fifo_encPost_done {it : List Word} (hon : s.encOn pe = true) (hr : s.encRoom pe = true) :
    (s.encPost pe (.done it)).fifo (encDoneId pe) = (s.fifo (encDoneId pe)).publish false [it] true := by
  obtain ⟨ha, ho⟩ := State.encRoom_iff.mp hr
  let v := s.updEnc pe fun e => { e with owed := e.owed ++ [.done it] }
  have hpaid := paid_foldl pe (s.encEng pe).owed (v, [])
  generalize hw : (s.encEng pe).owed.foldl (State.payStep pe) (v, []) = w at hpaid
  have hv : (v.encEng pe).owed = (s.encEng pe).owed ++ [.done it] := by rw [State.encEng_updEnc_same]
  have hf : w.1.fifo (encDoneId pe) = s.fifo (encDoneId pe) := hpaid.others _ ho
  have hnone : (w.2.any fun p => p.fifo pe == (EncPost.done it).fifo pe) = false := by
    simp only [List.any_eq_false, beq_iff_eq]
    exact fun x hx => ho x ((hpaid.left x hx).resolve_left List.not_mem_nil)
  have hstep : (State.payStep pe w (.done it)).1 =
      w.1.setFifo (encDoneId pe) ((s.fifo (encDoneId pe)).publish false [it] true) := by
    simp only [State.payStep, hnone, State.tryPost, hf, ha, if_true, Bool.false_eq_true, if_false]
  have hon' : v.encOn pe = true := hon
  rw [State.encPost, State.payOwed_eq hon', hv, List.foldl_append, hw, List.foldl_cons, List.foldl_nil]
  exact (congrArg (State.fifo · _) hstep).trans (State.fifo_setFifo_same _ _ _)

theorem State.fifo_encPost_other (h : ∀ p ∈ (s.encEng pe).owed, p.fifo pe ≠ q) (hp : p.fifo pe ≠ q) :
    (s.encPost pe p).fifo q = s.fifo q := by
  refine State.fifo_payOwed (s := s.updEnc pe _) fun x hx => ?_
  rw [State.encEng_updEnc_same] at hx
  rcases List.mem_append.mp hx with hx | hx
  · exact h x hx
  · exact List.mem_singleton.mp hx ▸ hp

/-! ### Completions (R203) -/

/-- The item of a completion. -/
def State.doneItem (s : State) (status r ts : Nat) (starved : Bool) (waveK bytes floor skip : Nat) : List Word :=
  [putF (putB (putF (putF 0 31 24 status) 23 20 waveK) 19 starved) 10 0 r, putF 0 23 0 bytes, putF (putF 0 15 8 floor) 7 0 skip,
    putF 0 7 0 (s.rend r).stale.length, BitVec.ofNat 32 ts, 0, 0, 0]

variable {status r ts k bytes fl sk : Nat} {st : Bool}

theorem State.encDone_eq : s.encDone pe status r ts st k bytes fl sk = s.encPost pe (.done (s.doneItem status r ts st k bytes fl sk)) := rfl

theorem State.status_doneItem : fld (nth (s.doneItem status r ts st k bytes fl sk) 0 0) 31 24 = status % 256 := by
  show fld (putF (putB (putF (putF 0 31 24 status) 23 20 k) 19 st) 10 0 r) 31 24 = _
  rw [fld_putF_ne _ (by omega) (by omega), fld_putB_ne _ (by omega), fld_putF_ne _ (by omega) (by omega),
    fld_putF_same _ (by omega) (by omega)]
  rfl

theorem State.rend_doneItem : fld (nth (s.doneItem status r ts st k bytes fl sk) 0 0) 10 0 = r % 2048 :=
  fld_putF_same _ (by omega) (by omega)

/-- A completion posted into a FIFO that has room stands behind the items there. -/
theorem State.items_encDone (hon : s.encOn pe = true) (hr : s.encRoom pe = true) (hd : (s.fifo (encDoneId pe)).discard = false) :
    ((s.encDone pe status r ts st k bytes fl sk).fifo (encDoneId pe)).items =
      (s.fifo (encDoneId pe)).items ++ [s.doneItem status r ts st k bytes fl sk] := by
  rw [State.encDone_eq, State.fifo_encPost_done hon hr, (Fifo.publish_of_not_discard hd).2.2]

theorem State.posted_encDone : s.Posted (s.encDone pe status r ts st k bytes fl sk) := s.posted_encPost _ _

/-! ### What does not touch the posts -/

/-- The registers, FIFOs and posts that wait are those of `s`. -/
structure State.SamePosts (s t : State) : Prop where
  regs : t.regs = s.regs
  fifos : t.fifos = s.fifos
  owed : ∀ k, (t.encEng k).owed = (s.encEng k).owed

theorem State.SamePosts.refl (s : State) : s.SamePosts s := ⟨rfl, rfl, fun _ => rfl⟩

theorem State.SamePosts.trans (h : s.SamePosts t) (h' : t.SamePosts u) : s.SamePosts u :=
  ⟨h'.regs.trans h.regs, h'.fifos.trans h.fifos, fun k => (h'.owed k).trans (h.owed k)⟩

theorem State.Shelved.samePosts (h : s.Shelved t) : s.SamePosts t := by
  obtain ⟨hr, hf, -, -⟩ := h.frame
  exact ⟨hr, hf, fun k => congrArg EncEng.owed (h.encEng k)⟩

theorem State.samePosts_updEnc (s : State) (pe : Nat) {f : EncEng → EncEng} (hf : ∀ e, (f e).owed = e.owed) :
    s.SamePosts (s.updEnc pe f) := by
  refine ⟨rfl, rfl, fun k => ?_⟩
  by_cases hk : k = pe
  · subst hk
    rw [State.encEng_updEnc_same, hf]
  · rw [State.encEng_updEnc_ne _ _ hk]

theorem State.samePosts_bump (s : State) (n : RegName) (i k : Nat) : s.SamePosts (s.bump n i k) := ⟨rfl, rfl, fun _ => rfl⟩

theorem encOn_congr (h : t.regs = s.regs) (pe : Nat) : t.encOn pe = s.encOn pe := by
  simp only [State.encOn, State.rb, State.pdOn, State.pdState, State.rf, State.reg, h]

theorem State.SamePosts.encOn (h : s.SamePosts t) (pe : Nat) : t.encOn pe = s.encOn pe := encOn_congr h.regs pe

theorem State.SamePosts.fifo (h : s.SamePosts t) (f : FifoId) : t.fifo f = s.fifo f := by
  rw [State.fifo, h.fifos]
  rfl

theorem State.SamePosts.encRoom (h : s.SamePosts t) (pe : Nat) : t.encRoom pe = s.encRoom pe := by
  rw [State.encRoom, State.encRoom, h.fifo, h.owed]

end Sys2Proof.Machine
end

section
/-! Input and analysis (R180 to R188, R201): an item that the pipe takes, a picture dropped late, the start and end of an analysis, and
what a starved group raises. -/

namespace Sys2Proof.Machine

variable {s t u : State} {pe : Fin 8} {el gi seq : Nat} {g : Group}

theorem State.group_of_find (h : Tbl.find s.video.groups gi = some g) : s.group gi = g := by
  rw [State.group, Tbl.get, h]
  rfl

theorem State.has_of_find (h : Tbl.find s.video.groups gi = some g) : Tbl.has s.video.groups gi = true := by
  rw [Tbl.has, h]
  rfl

/-! ### A picture dropped late (R181) -/

/-- The groups and the counters are those of `s`. -/
def State.SameGroups (s t : State) : Prop := t.video.groups = s.video.groups ∧ t.cnts = s.cnts

theorem State.SameGroups.trans (h : s.SameGroups t) (h' : t.SameGroups u) : s.SameGroups u :=
  ⟨h'.1.trans h.1, h'.2.trans h.2⟩

theorem State.Posted.sameGroups (h : s.Posted t) : s.SameGroups t := by
  obtain ⟨⟨_, _, _, rfl⟩, -⟩ := h
  exact ⟨rfl, rfl⟩

theorem State.Pooled.sameGroups (h : s.Pooled t) : s.SameGroups t := by
  obtain ⟨_, rfl⟩ := h
  exact ⟨rfl, rfl⟩

/-- The group as it is left by those that leave the groups. -/
theorem State.SameGroups.group (h : s.SameGroups t) (i : Nat) : t.group i = s.group i := by
  rw [State.group, h.1]
  rfl

/-- The picture goes and is counted; the completions that follow touch no group and no counter. -/
theorem State.lateDrop_eq {p : EncPic} (hp : Tbl.find (s.group gi).pics seq = some p) : ∃ u, s.Pooled u ∧
    ((u.updGroup gi fun g => { g with pics := Tbl.del g.pics seq }).cntEnc (s.group gi).pe E_LATE).SameGroups (s.lateDrop gi seq) := by
  unfold State.lateDrop
  simp only [hp]
  refine ⟨_, .foldl p.bufs fun t x => t.pooled_unmark x.2 M_ANALYSIS, ?_⟩
  refine List.foldlRecOn (motive := fun t => State.SameGroups _ t) _ _ ⟨rfl, rfl⟩ fun t ht kv _ => ?_
  split
  · exact ht.trans (State.SameGroups.trans ⟨rfl, rfl⟩ State.posted_encDone.sameGroups)
  · exact ht

theorem State.lateDrop_none (hp : Tbl.find (s.group gi).pics seq = none) : s.lateDrop gi seq = s := by
  unfold State.lateDrop
  simp only [hp]

theorem State.find_pics_lateDrop {p : EncPic} (hg : Tbl.find s.video.groups gi = some g) (hp : Tbl.find g.pics seq = some p) :
    Tbl.find ((s.lateDrop gi seq).group gi).pics seq = none := by
  obtain ⟨u, hu, hl⟩ := State.lateDrop_eq (by rw [State.group_of_find hg]; exact hp)
  have hug : Tbl.find u.video.groups gi = some g := by rw [hu.sameGroups.1, hg]
  rw [hl.group]
  exact (congrArg (fun g : Group => Tbl.find g.pics seq) (u.group_updGroup_same _ hug)).trans (Tbl.find_del_same _ _)

theorem State.cnt_lateDrop {p : EncPic} (hg : Tbl.find s.video.groups gi = some g) (hp : Tbl.find g.pics seq = some p) :
    (s.lateDrop gi seq).cnt .PICT_ENC_CNT_LO (12 * g.pe + 7) = s.cnt .PICT_ENC_CNT_LO (12 * g.pe + 7) + 1 := by
  obtain ⟨u, hu, hl⟩ := State.lateDrop_eq (by rw [State.group_of_find hg]; exact hp)
  rw [State.group_of_find hg] at hl
  rw [State.cnt, hl.2, State.cnt, ← hu.sameGroups.2]
  exact State.cnt_bump_same _ _ _ _

/-! ### Input (R181) -/

theorem State.nextPic_updGroup {f : Group → Group} (hf : ∀ g, (f g).nextPic = g.nextPic) (s : State) (gi : Nat) :
    ((s.updGroup gi f).group gi).nextPic = (s.group gi).nextPic := by
  cases h : Tbl.find s.video.groups gi with
  | some g => rw [s.group_updGroup_same f h, hf, State.group_of_find h]
  | none => simp [State.group, Tbl.get, State.updGroup, State.updVideo, Tbl.upd, h]

theorem State.nextPic_lateDrop (s : State) (gi seq : Nat) : ((s.lateDrop gi seq).group gi).nextPic = (s.group gi).nextPic := by
  cases hp : Tbl.find (s.group gi).pics seq with
  | none => rw [State.lateDrop_none hp]
  | some p =>
    obtain ⟨u, hu, hl⟩ := State.lateDrop_eq hp
    rw [hl.group]
    refine (State.nextPic_updGroup (f := fun g => { g with pics := Tbl.del g.pics seq }) (fun _ => rfl) u gi).trans ?_
    rw [hu.sameGroups.group]

variable {it : List Word}

theorem State.acceptItem_lost (h : Tbl.find s.video.groups (fld (nth it 0 0) 10 0) = none) :
    s.acceptItem pe.val it = s.cntEnc pe.val E_LOST := by
  unfold State.acceptItem
  simp only [h]

/-- The group takes the picture's number, whether the picture stays or not. -/
theorem State.nextPic_acceptItem (h : Tbl.find s.video.groups (fld (nth it 0 0) 10 0) = some g) (hpe : g.pe = pe.val)
    (hr : g.removed = false) : ((s.acceptItem pe.val it).group (fld (nth it 0 0) 10 0)).nextPic = g.nextPic + 1 := by
  unfold State.acceptItem
  extract_lets w gi
  split
  · next hn => cases h.symm.trans hn
  next g' hg' =>
  obtain rfl : g = g' := Option.some.inj (h.symm.trans hg')
  rw [if_neg (by simp [hpe, hr])]
  extract_lets dmg gmv seq v p
  have hv : (v.group gi).nextPic = g.nextPic + 1 := congrArg Group.nextPic (s.group_updGroup_same _ h)
  split
  next u got ok heq =>
  have hu : v.Pooled u := by
    refine .of_foldl heq fun a x => ?_
    have hm := a.1.pooled_markSet x.2 M_ANALYSIS
    split
    · split
      · next t ht => rwa [ht] at hm
      · next t ht => rwa [ht] at hm
    · exact .refl _
  have hun : (u.group gi).nextPic = g.nextPic + 1 := by rw [hu.sameGroups.group, hv]
  split
  · have hfr : u.Pooled (got.foldl (fun s b => s.unmark b M_ANALYSIS) u) := .foldl _ fun t _ => t.pooled_unmark _ _
    exact (congrArg Group.nextPic (hfr.sameGroups.group _)).trans hun
  · extract_lets s2
    have hs2 : (s2.group gi).nextPic = g.nextPic + 1 :=
      (State.nextPic_updGroup (f := fun g => { g with pics := Tbl.set g.pics seq p }) (fun _ => rfl) u gi).trans hun
    split
    · rw [State.nextPic_lateDrop, hs2]
    · exact hs2

theorem exec_encInputAccept {its : List (List Word)} {e : Nat} {es : List Nat}
    (hi : ((s.encStep pe.val el).fifo (encInId pe.val)).items = it :: its)
    (he : ((s.encStep pe.val el).fifo (encInId pe.val)).ends = e :: es) (hon : (s.encStep pe.val el).encOn pe.val = true) :
    exec (.encInputAccept pe el) s = .next (((s.encStep pe.val el).setFifo (encInId pe.val)
      (((s.encStep pe.val el).fifo (encInId pe.val)).consume 1)).acceptItem pe.val it) := by
  simp only [exec, execEncInputAccept, State.acceptOne, hi, he, hon, if_true]

/-! ### The start of an analysis (R182, R195) -/

theorem Tbl.has_of_mem {α : Type} {t : Tbl α} {x : Nat × α} (h : x ∈ t) : Tbl.has t x.1 = true := by
  induction t with
  | nil => cases h
  | cons y r ih =>
    obtain ⟨k, v⟩ := y
    by_cases hk : k = x.1
    · simp [Tbl.has, Tbl.find, hk]
    · rcases List.mem_cons.mp h with rfl | h
      · exact absurd rfl hk
      · simpa [Tbl.has, Tbl.find, hk] using ih h

/-- The group that is picked is there. -/
theorem State.has_of_nextAnalysis {k : Nat} (h : s.nextAnalysis k = some (gi, seq)) : Tbl.has s.video.groups gi = true := by
  unfold State.nextAnalysis at h
  extract_lets l p at h
  have hl : ∀ x ∈ l, Tbl.has s.video.groups x.1 = true := fun x hx => by
    obtain ⟨kv, hkv, hx⟩ := List.mem_filterMap.mp hx
    obtain ⟨q, -, rfl⟩ := Option.map_eq_some_iff.mp hx
    exact Tbl.has_of_mem (List.mem_filter.mp hkv).1
  split at h
  · next x hx =>
    obtain rfl := Option.some.inj h
    exact hl _ (List.mem_of_find?_eq_some hx)
  · exact hl _ (List.mem_of_head? h)

/-- No group comes or goes. -/
def State.HasSame (s t : State) : Prop := ∀ i, Tbl.has t.video.groups i = Tbl.has s.video.groups i

theorem State.HasSame.trans (h : s.HasSame t) (h' : t.HasSame u) : s.HasSame u := fun i => (h' i).trans (h i)

theorem State.hasSame_updGroup (s : State) (i : Nat) (f : Group → Group) : s.HasSame (s.updGroup i f) := fun j => Tbl.has_upd _ _ _ j

theorem State.Swept.hasSame (h : s.Swept t) : s.HasSame t := by
  obtain ⟨_, _, rfl, h⟩ := h
  exact h

theorem State.hasSame_takeWaveReq (s : State) (gi : Nat) : s.HasSame (s.takeWaveReq gi) := by
  unfold State.takeWaveReq
  dsimp only
  split
  · exact State.hasSame_updGroup (s.updNet _) _ _
  · exact fun _ => rfl

theorem State.hasSame_waveDue (s : State) (gi : Nat) : s.HasSame (s.waveDue gi).2 := by
  unfold State.waveDue
  extract_lets g v start
  have hv : s.HasSame v := s.hasSame_updGroup _ _
  have hst : ∀ w : State, w.HasSame (start w) := fun w => w.hasSame_updGroup _ _
  split
  · dsimp only
    split
    · exact hv.trans (hst v)
    · exact hv
  · split
    · exact hv
    · split
      · exact (hv.trans (hst v)).trans (State.hasSame_updGroup _ _ _)
      · split
        · split
          · exact hv.trans (hst v)
          · exact hv
        · exact hv

/-- The analysis unit holds the picture that it took; the picture has begun. -/
theorem exec_analysisStart (hon : (s.encStep pe.val el).encOn pe.val = true) (han : ((s.encStep pe.val el).encEng pe.val).an = none)
    (hn : (s.encStep pe.val el).nextAnalysis pe.val = some (gi, seq)) :
    ∃ (u : State) (p : EncPic), (s.encStep pe.val el).HasSame u ∧ p.begun = true ∧ p.since = (s.encStep pe.val el).ela ∧
      exec (.analysisStart pe el) s = .next ((u.updGroup gi fun g => { g with pics := Tbl.set g.pics seq p }).updEnc pe.val fun e =>
        { e with an := some (gi, seq), ptr := (gi + 1) % 2048 }) := by
  simp only [exec, execAnalysisStart, hon, han, hn, Bool.not_true, Option.isSome_none, Bool.or_self, Bool.false_eq_true, if_false]
  generalize hv : ((s.encStep pe.val el).updGroup gi Group.endPicture).takeWaveReq gi = v
  have h1 : (s.encStep pe.val el).HasSame v := hv ▸ (State.hasSame_updGroup _ _ _).trans (State.hasSame_takeWaveReq _ _)
  have h2 : v.HasSame (if (tempLayer (v.group gi).temporal (Tbl.get (v.group gi).pics {} seq).slot == 0) = true then v.waveDue gi
      else (none, v)).2 := by
    split
    · exact v.hasSame_waveDue gi
    · exact fun _ => rfl
  refine ⟨_, _, (h1.trans h2).trans ?_, rfl, rfl, rfl⟩
  exact List.foldlRecOn (motive := fun t => State.HasSame _ t) _ _ (fun _ => rfl) fun t ht x _ => ht.trans fun _ => rfl

theorem exec_analysisStart_begins (hon : (s.encStep pe.val el).encOn pe.val = true)
    (han : ((s.encStep pe.val el).encEng pe.val).an = none) (hn : (s.encStep pe.val el).nextAnalysis pe.val = some (gi, seq)) :
    ∃ t, exec (.analysisStart pe el) s = .next t ∧ (t.encEng pe.val).an = some (gi, seq) ∧ (t.encEng pe.val).ptr = (gi + 1) % 2048 ∧
      (Tbl.get (t.group gi).pics {} seq).begun = true ∧ (Tbl.get (t.group gi).pics {} seq).since = (s.encStep pe.val el).ela := by
  obtain ⟨u, p, hh, hb, hs, he⟩ := exec_analysisStart hon han hn
  have hg := State.group_updGroup_of_has (fun g => { g with pics := Tbl.set g.pics seq p }) ((hh gi).trans (State.has_of_nextAnalysis hn))
  refine ⟨_, he, ?_⟩
  generalize hv : (u.updGroup gi fun g => { g with pics := Tbl.set g.pics seq p }) = v at hg
  have hp : Tbl.get ((v.updEnc pe.val fun e => { e with an := some (gi, seq), ptr := (gi + 1) % 2048 }).group gi).pics {} seq = p :=
    (congrArg (fun g : Group => Tbl.get g.pics {} seq) hg).trans (Tbl.get_set_same _ _ _ _)
  rw [State.encEng_updEnc_same, hp]
  exact ⟨rfl, rfl, hb, hs⟩

/-! ### The end of an analysis (R183 to R188, R341) -/

/-- The counters and what is being analysed are those of `s`. -/
structure State.SameAn (s t : State) : Prop where
  cnts : t.cnts = s.cnts
  an : ∀ k, (t.encEng k).an = (s.encEng k).an

theorem State.SameAn.refl (s : State) : s.SameAn s := ⟨rfl, fun _ => rfl⟩

theorem State.SameAn.trans (h : s.SameAn t) (h' : t.SameAn u) : s.SameAn u :=
  ⟨h'.cnts.trans h.cnts, fun k => (h'.an k).trans (h.an k)⟩

theorem State.Shelved.sameAn (h : s.Shelved t) : s.SameAn t := ⟨h.frame.2.2.1, fun k => congrArg EncEng.an (h.encEng k)⟩

theorem State.Posted.sameAn (h : s.Posted t) : s.SameAn t := by
  refine ⟨h.sameGroups.2, fun k => ?_⟩
  obtain ⟨_, hk⟩ := h.eng k
  rw [hk]

theorem State.SameAn.cnt (h : s.SameAn t) (n : RegName) (i : Nat) : t.cnt n i = s.cnt n i := by
  rw [State.cnt, State.cnt, h.cnts]

variable {p : EncPic} {d : Tbl BlkDec} {r : Nat} {x : Rend}

theorem State.rend_of_find (h : Tbl.find s.video.rends r = some x) : s.rend r = x := by
  rw [State.rend, Tbl.get, h]
  rfl

theorem State.sameAn_abortPlanned (s : State) (g : Group) (p : EncPic) (seq i : Nat) : s.SameAn (s.abortPlanned g p seq i) := by
  unfold State.abortPlanned
  dsimp only
  split
  · exact ((s.shelved_updRend _ _).sameAn.trans State.posted_encDone.sameAn).trans (State.swept_finishRend _ _ _).shelved.sameAn
  · exact (s.swept_finishRend _ _).shelved.sameAn

theorem State.abortPlanned_live (h : Tbl.find s.video.rends r = some x) (hl : x.live = true) (he : (Tbl.get p.plan {} r).epoch = x.epoch) :
    s.abortPlanned g p seq r = ((s.updRend r fun r' => r'.unplan (tempLayer g.temporal p.slot) (Tbl.get p.plan {} r)).encDone
      g.pe 5 r p.ts g.starved).finishRend r seq := by
  simp only [State.abortPlanned, State.rend_of_find h, hl, he, beq_self_eq_true, Bool.and_self, if_true]

theorem State.shelved_queuePic (s : State) (g : Group) (p : EncPic) (d : Tbl BlkDec) (seq i : Nat) : s.Shelved (s.queuePic g p d seq i) := by
  unfold State.queuePic
  dsimp only
  split
  · exact ⟨_, _, _, _, rfl⟩
  · exact (s.swept_finishRend _ _).shelved

theorem State.hasSame_queuePic (s : State) (g : Group) (p : EncPic) (d : Tbl BlkDec) (seq i : Nat) : s.HasSame (s.queuePic g p d seq i) := by
  unfold State.queuePic
  dsimp only
  split
  · exact fun _ => rfl
  · exact (s.swept_finishRend _ _).hasSame

/-- The rendition has the picture in its queue, with a record for each of its rows. -/
theorem State.queuePic_live (h : Tbl.find s.video.rends r = some x) (hl : x.live = true) (he : (Tbl.get p.plan {} r).epoch = x.epoch) :
    ∃ q, Tbl.find (s.queuePic g p d seq r).video.rends r = some { x with queue := x.queue ++ [q] } ∧
      q.seq = (Tbl.get p.plan {} r).seq ∧ q.rows.length = cdiv (s.rendDims x).2 64 := by
  unfold State.queuePic
  simp only [State.rend_of_find h]
  rw [if_pos (by simp [hl, he])]
  exact ⟨_, (State.find_updRend_same _ _ _).trans (congrArg _ h), rfl, by simp [rowRecords]⟩

/-- A group after the analysis of a picture: its analysis references, its decisions, and its last pictures (R184, R205). -/
def Group.analysed (g : Group) (p : EncPic) (seq : Nat) (d : Tbl BlkDec) : Group :=
  { g with
    anRefs := anRefsAfter g.temporal (tempLayer g.temporal p.slot) seq g.anRefs, decs := Tbl.set g.decs seq d
    last := (seq :: g.last).take 2 }

/-- An engine after the analysis of `n` samples: its analysis unit is free. -/
def EncEng.analysed (e : EncEng) (now n : Nat) : EncEng :=
  { e with an := none, anLoad := (now, n) :: e.anLoad.filter fun x => decide (now < x.1 + 100000000) }

variable (hon : (s.encStep pe.val el).encOn pe.val = true) (han : ((s.encStep pe.val el).encEng pe.val).an = some (gi, seq))
  (hg : Tbl.find (s.encStep pe.val el).video.groups gi = some g)
include hon han hg

theorem exec_analysisComplete_unread : exec (.analysisComplete pe true el) s =
    .next (((Tbl.get g.pics {} seq).todo.foldl (fun s i => s.abortPlanned g (Tbl.get g.pics {} seq) seq i)
      ((s.encStep pe.val el).updEnc pe.val fun e => { e with an := none })).sweepPics gi) := by
  simp only [exec, execAnalysisComplete, han, State.group_of_find hg, hon, Bool.not_true, Bool.false_eq_true, if_false, if_true]

theorem exec_analysisComplete_read : exec (.analysisComplete pe false el) s =
    .next ((((Tbl.get g.pics {} seq).todo.foldl
      (fun s' i => s'.queuePic g (Tbl.get g.pics {} seq) ((s.encStep pe.val el).searchOf gi seq).run seq i)
      (((s.encStep pe.val el).cntEnc pe.val E_ANALYSED).updEnc pe.val fun e => e.analysed (s.encStep pe.val el).ela (g.w * g.h))).updGroup gi
        fun g' => g'.analysed (Tbl.get g.pics {} seq) seq ((s.encStep pe.val el).searchOf gi seq).run).sweepPics gi) := by
  simp only [exec, execAnalysisComplete, han, State.group_of_find hg, hon, Bool.not_true, Bool.false_eq_true, if_false]
  rfl

/-- A picture that cannot be read ends ABORTED for its renditions (R341). -/
theorem exec_analysisComplete_aborts (hpe : g.pe = pe.val) : ∃ t, exec (.analysisComplete pe true el) s = .next t ∧
    (t.encEng pe.val).an = none ∧ t.cnt .PICT_ENC_CNT_LO (12 * pe.val) = (s.encStep pe.val el).cnt .PICT_ENC_CNT_LO (12 * pe.val) ∧
    (∀ r x, (Tbl.get g.pics {} seq).todo = [r] → Tbl.find (s.encStep pe.val el).video.rends r = some x → x.live = true →
      (Tbl.get (Tbl.get g.pics {} seq).plan {} r).epoch = x.epoch → (s.encStep pe.val el).encRoom pe.val = true →
      ((s.encStep pe.val el).fifo (encDoneId pe.val)).discard = false →
      ∃ it, (t.fifo (encDoneId pe.val)).items = ((s.encStep pe.val el).fifo (encDoneId pe.val)).items ++ [it] ∧
        fld (nth it 0 0) 31 24 = 5 ∧ fld (nth it 0 0) 10 0 = r % 2048) := by
  refine ⟨_, exec_analysisComplete_unread hon han hg, ?_⟩
  generalize s.encStep pe.val el = b at *
  generalize hp : Tbl.get g.pics {} seq = p
  generalize hv : (b.updEnc pe.val fun e => { e with an := none }) = v
  have hsame : v.SameAn ((p.todo.foldl (fun s i => s.abortPlanned g p seq i) v).sweepPics gi) :=
    (List.foldlRecOn (motive := fun t => v.SameAn t) _ _ (.refl v) fun t ht i _ => ht.trans (t.sameAn_abortPlanned _ _ _ _)).trans
      (State.swept_sweepPics _ _).shelved.sameAn
  refine ⟨?_, ?_, fun r x htodo hx hl he hr hd => ?_⟩
  · rw [hsame.an, ← hv, State.encEng_updEnc_same]
  · rw [hsame.cnt, ← hv]
    rfl
  · let w := v.updRend r fun r' => r'.unplan (tempLayer g.temporal p.slot) (Tbl.get p.plan {} r)
    have hbv : b.SamePosts v := hv ▸ b.samePosts_updEnc _ fun _ => rfl
    have hw : b.SamePosts w := hbv.trans (v.shelved_updRend _ _).samePosts
    have hf : w.fifo (encDoneId pe.val) = b.fifo (encDoneId pe.val) := hw.fifo _
    have hvx : Tbl.find v.video.rends r = some x := hv ▸ hx
    rw [htodo, List.foldl_cons, List.foldl_nil, State.abortPlanned_live hvx hl he, (State.swept_sweepPics _ _).shelved.fifo,
      (State.swept_finishRend _ _ _).shelved.fifo, hpe,
      State.items_encDone ((hw.encOn _).trans hon) ((hw.encRoom _).trans hr) (hf ▸ hd), hf]
    exact ⟨_, rfl, State.status_doneItem, State.rend_doneItem⟩

/-- A picture that was analysed stands in its renditions' queues, and its decisions are stored (R184, R186). -/
theorem exec_analysisComplete_queues : ∃ t, exec (.analysisComplete pe false el) s = .next t ∧ (t.encEng pe.val).an = none ∧
    t.cnt .PICT_ENC_CNT_LO (12 * pe.val) = (s.encStep pe.val el).cnt .PICT_ENC_CNT_LO (12 * pe.val) + 1 ∧
    (∀ r x, (Tbl.get g.pics {} seq).todo = [r] → Tbl.find (s.encStep pe.val el).video.rends r = some x → x.live = true →
      (Tbl.get (Tbl.get g.pics {} seq).plan {} r).epoch = x.epoch →
      ∃ y q, Tbl.find t.video.rends r = some y ∧ y.queue = x.queue ++ [q] ∧
        q.seq = (Tbl.get (Tbl.get g.pics {} seq).plan {} r).seq ∧ q.rows.length = cdiv ((s.encStep pe.val el).rendDims x).2 64) ∧
    (∀ r, (Tbl.get g.pics {} seq).todo = [r] →
      Tbl.get (t.group gi).decs [] seq = ((s.encStep pe.val el).searchOf gi seq).run) := by
  refine ⟨_, exec_analysisComplete_read hon han hg, ?_⟩
  generalize s.encStep pe.val el = b at *
  generalize Tbl.get g.pics {} seq = p
  generalize (b.searchOf gi seq).run = d
  generalize hv : ((b.cntEnc pe.val E_ANALYSED).updEnc pe.val fun e => e.analysed b.ela (g.w * g.h)) = v
  have hsame : v.SameAn (((p.todo.foldl (fun s' i => s'.queuePic g p d seq i) v).updGroup gi fun g' => g'.analysed p seq d).sweepPics gi) :=
    (((State.Shelved.foldl p.todo fun t i => t.shelved_queuePic _ _ _ _ i).trans (State.shelved_updGroup _ gi _)).trans
      (State.swept_sweepPics _ gi).shelved).sameAn
  refine ⟨?_, ?_, fun r x htodo hx hl he => ?_, fun r htodo => ?_⟩
  · rw [hsame.an, ← hv, State.encEng_updEnc_same]
    rfl
  · rw [hsame.cnt, ← hv]
    exact State.cnt_bump_same _ _ _ _
  · have hvx : Tbl.find v.video.rends r = some x := hv ▸ hx
    obtain ⟨q, hq, hs, hn⟩ := State.queuePic_live (g := g) (d := d) (seq := seq) hvx hl he
    rw [htodo, List.foldl_cons, List.foldl_nil]
    obtain ⟨_, _, h', -⟩ := State.swept_sweepPics ((v.queuePic g p d seq r).updGroup gi fun g' => g'.analysed p seq d) gi
    rw [← hv] at hn
    exact ⟨_, q, (congrArg (fun t : State => Tbl.find t.video.rends r) h').trans hq, rfl, hs, hn⟩
  · rw [htodo, List.foldl_cons, List.foldl_nil]
    have hgv : Tbl.find v.video.groups gi = some g := hv ▸ hg
    have hh := (v.hasSame_queuePic g p d seq r gi).trans (State.has_of_find hgv)
    have hgr := State.group_updGroup_of_has (fun g' => g'.analysed p seq d) hh
    rw [State.decs_sweepPics ((State.hasSame_updGroup _ _ _ gi).trans hh) (by rw [hgr]; simp [Group.analysed]), hgr]
    exact Tbl.get_set_same _ _ _ _

end Sys2Proof.Machine
end

section
/-! Starvation (R201), and a rendition after a picture coded (R196, R200). -/

namespace Sys2Proof.Machine

variable {s t : State} {g : Group} {gi : Nat}

/-! ### Starvation -/

/-- A group whose targets have been raised by `d` (R201). -/
def Group.raised (g : Group) (d : Nat) : Group := { g with hit := true, starved := true, raise := g.raise + d, peak := g.raise + d }

/-- A coder's picture that counts as STARVED when its group starves. -/
def State.starvedJob (s : State) (gi : Nat) (j : CoderJob) : CoderJob :=
  if (s.rend j.rend).group = gi then { j with starved := true } else j

theorem State.starvedJob_eq (s : State) (gi : Nat) (j : CoderJob) : ∃ starved, s.starvedJob gi j = { j with starved } := by
  unfold State.starvedJob
  split <;> exact ⟨_, rfl⟩

/-- A group that starves, before its owner hears of it. -/
def State.starving (s : State) (gi : Nat) (g : Group) : State :=
  ((s.updGroup gi fun x => x.raised (codecHalf g.codec)).cntEnc g.pe E_STARVED).updEnc g.pe fun e =>
    { e with coders := Tbl.mapv e.coders fun _ j => s.starvedJob gi j }

/-- Once in a picture, and never for a group that goes. -/
theorem State.starve_held (h : Tbl.find s.video.groups gi = some g) (hh : g.hit = true ∨ g.removed = true) : s.starve gi = s := by
  simp only [State.starve, h]
  exact if_pos (by simpa using hh)

/-- A group that starves is raised; its owner may hear of it, and when is kept then. -/
theorem State.starve_raises (h : Tbl.find s.video.groups gi = some g) (hh : g.hit = false) (hr : g.removed = false) :
    ∃ u, (u = s.starving gi g ∨ ∃ a, u = (s.starving gi g).updGroup gi fun g => { g with starvedAt := a }) ∧
      u.Notified (s.starve gi) := by
  simp only [State.starve, h, hh, hr, Bool.or_self, Bool.false_eq_true, if_false]
  split
  · exact ⟨_, .inr ⟨_, rfl⟩, State.notified_notify _ _ _ _ _⟩
  · exact ⟨_, .inl rfl, ⟨_, rfl⟩⟩

theorem State.cnt_starve (h : Tbl.find s.video.groups gi = some g) (hh : g.hit = false) (hr : g.removed = false) :
    (s.starve gi).cnt .PICT_ENC_CNT_LO (12 * g.pe + 10) = s.cnt .PICT_ENC_CNT_LO (12 * g.pe + 10) + 1 := by
  obtain ⟨u, hu, hn⟩ := State.starve_raises h hh hr
  rw [hn.cnt]
  rcases hu with rfl | ⟨a, rfl⟩
  · exact State.cnt_bump_same _ _ _ _
  · exact State.cnt_bump_same _ _ _ _

theorem State.group_starve (h : Tbl.find s.video.groups gi = some g) (hh : g.hit = false) (hr : g.removed = false) :
    ∃ starvedAt, (s.starve gi).group gi = { g.raised (codecHalf g.codec) with starvedAt } := by
  obtain ⟨u, hu, _, hn⟩ := State.starve_raises h hh hr
  have hv : Tbl.find (s.starving gi g).video.groups gi = some (g.raised (codecHalf g.codec)) :=
    (State.find_updGroup_same _ _ _).trans (congrArg _ h)
  rw [hn]
  rcases hu with rfl | ⟨a, rfl⟩
  · exact ⟨_, State.group_of_find hv⟩
  · exact ⟨a, State.group_updGroup_same _ _ hv⟩

theorem exec_starvedRaise {el : Nat} : exec (.starvedRaise gi el) s = .next ((s.advance el).starve gi) := rfl

/-- Registers, FIFOs and posts stay, and every coder goes on with its picture, STARVED or not. -/
structure State.CodesOn (s t : State) : Prop where
  same : s.SamePosts t
  coders : ∀ k c j, Tbl.find (s.encEng k).coders c = some j → ∃ starved, Tbl.find (t.encEng k).coders c = some { j with starved }

theorem State.CodesOn.refl (s : State) : s.CodesOn s := ⟨.refl s, fun _ _ _ h => ⟨_, h⟩⟩

theorem State.codesOn_starving (s : State) (gi : Nat) (g : Group) : s.CodesOn (s.starving gi g) := by
  refine ⟨State.SamePosts.trans (t := (s.updGroup gi fun x => x.raised (codecHalf g.codec)).cntEnc g.pe E_STARVED)
    ⟨rfl, rfl, fun _ => rfl⟩ (State.samePosts_updEnc _ _ fun _ => rfl), fun k c j h => ?_⟩
  by_cases hk : k = g.pe
  · subst hk
    obtain ⟨st, hst⟩ := s.starvedJob_eq gi j
    refine ⟨st, ?_⟩
    rw [State.starving, State.encEng_updEnc_same, Tbl.find_mapv]
    exact (congrArg _ h).trans (congrArg some hst)
  · rw [State.starving, State.encEng_updEnc_ne _ _ hk]
    exact ⟨j.starved, h⟩

theorem State.codesOn_starve (s : State) (gi : Nat) : s.CodesOn (s.starve gi) := by
  cases h : Tbl.find s.video.groups gi with
  | none =>
    rw [State.starve, h]
    exact .refl s
  | some g =>
    by_cases hh : g.hit = true ∨ g.removed = true
    · rw [State.starve_held h hh]
      exact .refl s
    · obtain ⟨hh, hr⟩ : g.hit = false ∧ g.removed = false := by simpa using hh
      obtain ⟨u, hu, _, hn⟩ := State.starve_raises h hh hr
      have hv := s.codesOn_starving gi g
      rw [hn]
      rcases hu with rfl | ⟨a, rfl⟩
      · exact ⟨⟨hv.same.regs, hv.same.fifos, hv.same.owed⟩, hv.coders⟩
      · exact ⟨⟨hv.same.regs, hv.same.fifos, hv.same.owed⟩, hv.coders⟩

/-! ### A rendition after a picture coded -/

variable {r : Rend} {j : CoderJob}

theorem mem_topRows {i : Nat} {l : List Nat} (hi : i < 64) : i ∈ topRows 64 l ↔ i ∈ l := by
  have hl : ((List.range 64).filter l.contains).length ≤ 64 := (List.length_filter_le _ _).trans (by simp)
  rw [topRows, List.take_of_length_le hl]
  simp [hi]

theorem Rend.advance_other (h : j.pic.epoch ≠ r.epoch) : r.advance j = r := if_pos h

theorem Rend.advance_grey (h : j.pic.epoch = r.epoch) (hg : j.grey = true) : r.advance j = { r with st := .wave, k := 0, n := r.planN } := by
  rw [Rend.advance, if_neg (not_not.mpr h), if_pos hg]

theorem Rend.advance_outside (h : j.pic.epoch = r.epoch) (hg : j.grey = false) (hk : j.k = 0) : r.advance j = r := by
  rw [Rend.advance, if_neg (not_not.mpr h), if_neg (by simp [hg]), if_pos hk]

theorem Rend.advance_wave (h : j.pic.epoch = r.epoch) (hg : j.grey = false) (hk : j.k ≠ 0) :
    (r.advance j).st = (if j.k = j.n then .steady else .wave) ∧ (r.advance j).k = j.k ∧ (r.advance j).n = j.n := by
  rw [Rend.advance, if_neg (not_not.mpr h), if_neg (by simp [hg]), if_neg hk]
  exact ⟨rfl, rfl, rfl⟩

/-- A picture coded moves the wave on; its window, stale rows and counts are apart from that. -/
theorem Rend.wave_coded : (r.coded j).st = (r.advance j).st ∧ (r.coded j).k = (r.advance j).k ∧ (r.coded j).n = (r.advance j).n :=
  ⟨rfl, rfl, rfl⟩

/-- The rows skipped become stale, those refreshed are stale no more (R200). -/
theorem Rend.mem_stale_coded {i : Nat} (hi : i < 64) (hg : j.grey = false) :
    i ∈ (r.coded j).stale ↔ (i ∈ r.stale ∧ i ∉ j.refresh) ∨ i ∈ j.skipped := by
  show i ∈ (if j.grey = true then [] else topRows 64 ((r.stale.filter fun x => !j.refresh.contains x) ++ j.skipped)) ↔ _
  rw [if_neg (by simp [hg]), mem_topRows hi]
  simp

end Sys2Proof.Machine
end

section
/-! The residual coders before their rows (R182, R190, R196, R197, R204): what a coder takes, how long it waits, and what it does not
code. -/

namespace Sys2Proof.Machine

variable {s : State} {pe : Fin 8} {c : Fin 4} {el : Nat} {j : CoderJob}

/-! ### A picture that is not coded (R203) -/

theorem State.group_rend_updRend {f : Rend → Rend} (hf : ∀ r, (f r).group = r.group) (s : State) (i : Nat) :
    ((s.updRend i f).rend i).group = (s.rend i).group := by
  cases h : Tbl.find s.video.rends i with
  | some r => rw [s.rend_updRend_same f h, hf, State.rend_of_find h]
  | none => simp [State.rend, Tbl.get, State.updRend, State.updVideo, Tbl.upd, h]

theorem Rend.group_unplan (r : Rend) (t : Nat) (p : RendPic) : (r.unplan t p).group = r.group := by
  unfold Rend.unplan
  split <;> rfl

/-- Which picture a job is of does not depend on what its rendition plans. -/
theorem State.jobPic_unplan (s : State) (j : CoderJob) (t : Nat) (p : RendPic) :
    (s.updRend j.rend fun r => r.unplan t p).jobPic j = s.jobPic j := by
  rw [State.jobPic, State.group_rend_updRend fun r => r.group_unplan t p]
  rfl

variable {k d st : Nat}

theorem State.coders_notCoded (s : State) (k d st : Nat) (j : CoderJob) : Tbl.find ((s.notCoded k d st j).encEng k).coders d = none :=
  State.coders_endJob _ _ _ _

/-- The completion of a picture that is not coded stands in the completion FIFO. -/
theorem State.items_notCoded (hon : s.encOn k = true) (hr : s.encRoom k = true) (hd : (s.fifo (encDoneId k)).discard = false) :
    ∃ it, ((s.notCoded k d st j).fifo (encDoneId k)).items = (s.fifo (encDoneId k)).items ++ [it] ∧
      fld (nth it 0 0) 31 24 = st % 256 ∧ fld (nth it 0 0) 10 0 = j.rend % 2048 ∧ nth it 0 4 = BitVec.ofNat 32 (s.jobPic j).ts := by
  rw [State.notCoded, State.fifo_endJob]
  have hs := (s.shelved_updRend j.rend fun r => r.unplan (s.jobLayer j) j.pic).samePosts
  have hf := hs.fifo (encDoneId k)
  rw [State.jobDone, State.items_encDone ((hs.encOn k).trans hon) ((hs.encRoom k).trans hr) (hf ▸ hd), hf]
  exact ⟨_, rfl, State.status_doneItem, State.rend_doneItem, congrArg (fun p : EncPic => BitVec.ofNat 32 p.ts) (s.jobPic_unplan j _ _)⟩

/-! ### The header and its budget (R190, R196, R197) -/

theorem State.length_headerBytes (s : State) (k : Nat) (h : EncHdr) : (s.headerBytes k h).length = cdiv h.bits 8 := by
  unfold State.headerBytes
  extract_lets l m
  have hl : l.length = cdiv h.bits 8 := Mem.length_read _ _ _
  split
  · exact hl
  · next hm =>
    have hpos : 0 < cdiv h.bits 8 := by
      rw [Nat.pos_iff_ne_zero]
      intro h0
      exact hm (by simp [m, h0])
    rw [List.length_append, List.length_dropLast, hl, List.length_singleton]
    omega

theorem State.beginPic_gone {h : EncHdr}
    (hj : j.pic.epoch ≠ (s.rend j.rend).epoch ∨ ((s.rend j.rend).st = .start ∧ s.jobLayer j ≠ 0)) :
    s.beginPic k d j h = s.notCoded k d 5 j := if_pos hj

theorem State.beginPic_capped {h : EncHdr} {a : Nat} (he : j.pic.epoch = (s.rend j.rend).epoch)
    (hs : (s.rend j.rend).st = .start → s.jobLayer j = 0) (ha : (s.rend j.rend).avail j.pic = some a) (hc : a < cdiv h.bits 8 + j.f 0) :
    s.beginPic k d j h = s.capDrop k d j := by
  have hn : ¬(j.pic.epoch ≠ (s.rend j.rend).epoch ∨ ((s.rend j.rend).st = .start ∧ s.jobLayer j ≠ 0)) := by
    rintro (h | ⟨h1, h2⟩)
    · exact h he
    · exact h2 (hs h1)
  rw [State.beginPic, if_neg hn]
  simp only [ha, s.length_headerBytes, hc, decide_true, if_true]

/-! ### The start of a coder and its waits (R182, R190, R204) -/

section Start

variable (hon : (s.encStep pe.val el).encOn pe.val = true) (hr : (s.encStep pe.val el).encRoom pe.val = true)
include hon hr

/-- A coder that waits for its header. -/
theorem exec_coderStart_noHeader {h : Option EncHdr} (hj : Tbl.find ((s.encStep pe.val el).encEng pe.val).coders c.val = some j)
    (hb : j.buf = none) (hh : j.header = none) : exec (.coderStart pe c h el) s = .next
      (if j.since + 1000000 < (s.encStep pe.val el).ela then (s.encStep pe.val el).notCoded pe.val c.val 4 j
      else h.elim ((s.encStep pe.val el).setJob pe.val c.val j) fun x => (s.encStep pe.val el).beginPic pe.val c.val j x) := by
  simp only [exec, execCoderStart, hon, hr, hj, hb, hh, Bool.not_true, Bool.or_self, Option.isSome_none, Bool.false_eq_true, if_false]
  cases h <;> rfl

/-- A coder that waits for a buffer. -/
theorem exec_coderStart_noBuffer {h : Option EncHdr} {n : Nat}
    (hj : Tbl.find ((s.encStep pe.val el).encEng pe.val).coders c.val = some j) (hb : j.buf = none) (hh : j.header = some n) :
    exec (.coderStart pe c h el) s = .next
      (if j.since + 2000000 < (s.encStep pe.val el).ela then (s.encStep pe.val el).encNoBuffer pe.val c.val j
      else (s.encStep pe.val el).reconAlloc pe.val c.val j) := by
  simp only [exec, execCoderStart, hon, hr, hj, hb, hh, Bool.not_true, Bool.or_self, Option.isSome_none, Option.isSome_some,
    Bool.false_eq_true, if_false, if_true]

/-- A free coder takes the picture at the head of the queue that R30 picks. -/
theorem exec_coderStart_takes {r cls : Nat} (hj : Tbl.find ((s.encStep pe.val el).encEng pe.val).coders c.val = none)
    (hn : (s.encStep pe.val el).nextRend pe.val c.val = some (r, cls)) :
    exec (.coderStart pe c none el) s = .next
      ((((s.encStep pe.val el).updRend r fun x => { x with queue := x.queue.drop 1 }).updEnc pe.val fun e =>
        { e with ptrs := Tbl.set e.ptrs (2 * c.val + cls) ((r + 1) % 2048) }).setJob pe.val c.val
        { rend := r, pic := ((s.encStep pe.val el).rend r).queue.headD {}, since := (s.encStep pe.val el).ela
          starved := ((s.encStep pe.val el).group ((s.encStep pe.val el).rend r).group).starved }) := by
  simp only [exec, execCoderStart, hon, hr, hj, hn, Bool.not_true, Bool.or_self, Bool.false_eq_true, if_false]

end Start

theorem State.rend_updEnc (s : State) (k : Nat) (f : EncEng → EncEng) (i : Nat) : (s.updEnc k f).rend i = s.rend i := rfl

theorem State.queue_updRend_drop (s : State) (i : Nat) :
    ((s.updRend i fun x => { x with queue := x.queue.drop 1 }).rend i).queue = (s.rend i).queue.drop 1 := by
  cases h : Tbl.find s.video.rends i with
  | some r => rw [s.rend_updRend_same _ h, State.rend_of_find h]
  | none => simp [State.rend, Tbl.get, State.updRend, State.updVideo, Tbl.upd, h]

theorem exec_headerWaitTimeout (hj : Tbl.find ((s.encStep pe.val el).encEng pe.val).coders c.val = some j)
    (hr : (s.encStep pe.val el).encRoom pe.val = true) (hh : j.header = none) (ht : j.since + 1000000 ≤ (s.encStep pe.val el).ela) :
    exec (.headerWaitTimeout pe c el) s = .next ((s.encStep pe.val el).notCoded pe.val c.val 4 j) := by
  simp [exec, execHeaderWaitTimeout, hj, hr, hh, ht]

theorem exec_reconAllocTimeout (hj : Tbl.find ((s.encStep pe.val el).encEng pe.val).coders c.val = some j)
    (hr : (s.encStep pe.val el).encRoom pe.val = true) (hh : j.header.isSome = true) (hb : j.buf = none)
    (ht : j.since + 2000000 ≤ (s.encStep pe.val el).ela) :
    exec (.reconAllocTimeout pe c el) s = .next ((s.encStep pe.val el).encNoBuffer pe.val c.val j) := by
  simp [exec, execReconAllocTimeout, hj, hr, hh, hb, ht]

end Sys2Proof.Machine
end

section
/-! The residual coders at their rows (R198 to R204): what a coder publishes while it codes, what a row's commit leaves, and the end of
a picture. -/

namespace Sys2Proof.Machine

variable {s t : State} {pe : Fin 8} {c : Fin 4} {el : Nat} {j : CoderJob}

/-! ### Output (R202) -/

theorem length_bytesItems (l : List Byte) : (bytesItems l).length = l.length / 64 := by simp [bytesItems]

/-- Within a packet that is not being discarded, none begins to be. -/
theorem Fifo.discard_publish {x : Fifo} {ev eop : Bool} {its : List (List Word)} (h : x.discard = false) :
    (x.publish ev its eop).discard = false := by
  unfold Fifo.publish
  cases ev <;> cases eop <;> simp [h]

/-- What a coder publishes of what it has coded: whole items, which leave its tail; nothing else of its job and no other FIFO
changes. -/
structure Drained (k d : Nat) (s : State) (j : CoderJob) (out : List (List Word)) (t : State) (i : CoderJob) : Prop where
  stored : s.Stored t
  others : ∀ q, q ≠ encOutId k d → t.fifo q = s.fifo q
  published : (s.fifo (encOutId k d)).discard = false →
    (t.fifo (encOutId k d)).items = (s.fifo (encOutId k d)).items ++ out ∧ (t.fifo (encOutId k d)).discard = false
  job : ∃ items tail stall, i = { j with items, tail, stall }
  items : i.items = j.items + out.length
  bytes : 64 * out.length + i.tail.length = j.tail.length

theorem drained_nothing (k d : Nat) (s : State) (j : CoderJob) : Drained k d s j [] s j :=
  ⟨⟨_, _, rfl⟩, fun _ _ => rfl, fun h => ⟨(List.append_nil _).symm, h⟩, ⟨_, _, _, rfl⟩, rfl, by simp⟩

theorem State.drain_drained (s : State) (k d : Nat) (j : CoderJob) : ∃ out, Drained k d s j out (s.drain k d j).1 (s.drain k d j).2 := by
  unfold State.drain
  extract_lets f room n
  split
  · exact ⟨[], drained_nothing k d s j⟩
  · have hn : 64 * n ≤ j.tail.length := by
      have := Nat.min_le_right room (j.tail.length / 64)
      omega
    have hlen : (bytesItems (j.tail.take (64 * n))).length = n := by
      rw [length_bytesItems, List.length_take, Nat.min_eq_left hn]
      omega
    refine ⟨bytesItems (j.tail.take (64 * n)), s.stored_outPublish _ _ _ _, fun q hq => s.fifo_outPublish_ne _ _ hq, fun h => ?_,
      ⟨_, _, _, rfl⟩, by rw [hlen], by rw [hlen, List.length_drop]; omega⟩
    rw [State.fifo_outPublish_same]
    exact ⟨(Fifo.publish_of_not_discard h).2.2, Fifo.discard_publish h⟩

/-! ### Rows (R198, R199) -/

theorem State.find_setJob (s : State) (k d : Nat) (j : CoderJob) : Tbl.find ((s.setJob k d j).encEng k).coders d = some j := by
  rw [State.setJob, State.encEng_updEnc_same]
  exact Tbl.find_set_same _ _ _

/-- The coder goes on with its job; a stall changes when it began, and perhaps STARVED. -/
structure Continues (k d : Nat) (s : State) (j : CoderJob) (t : State) : Prop where
  fifos : t.fifos = s.fifos
  job : ∃ starved stall, Tbl.find (t.encEng k).coders d = some { j with starved, stall }

theorem State.continues_setJob (s : State) (k d : Nat) (j : CoderJob) : Continues k d s j (s.setJob k d j) :=
  ⟨rfl, _, _, s.find_setJob k d j⟩

theorem State.continues_stallJob (s : State) (k d : Nat) (j : CoderJob) : Continues k d s j (s.stallJob k d j) := by
  unfold State.stallJob
  extract_lets v
  split
  · have hv := v.codesOn_starve (s.rend j.rend).group
    obtain ⟨st, hst⟩ := hv.coders k d _ (s.find_setJob k d { j with stall := some (j.stall.getD s.ela) })
    exact ⟨hv.same.fifos, st, _, hst⟩
  · exact ⟨rfl, _, _, s.find_setJob k d _⟩

/-- A row that is floor-skip (R199): after one that was, beyond the budget, or larger than a row may be. -/
def CoderJob.skips (j : CoderJob) (bytes : Nat) : Bool :=
  !j.grey && (j.skipping || (match j.budget with | some b => decide (b < j.used + bytes + j.f (j.row + 1)) | none => false)
    || decide (262144 < bytes))

theorem CoderJob.skips_iff {bytes : Nat} (hg : j.grey = false) : j.skips bytes = true ↔
    bytes > 262144 ∨ j.skipping = true ∨ ∃ m, j.budget = some m ∧ m < j.used + bytes + j.f (j.row + 1) := by
  unfold CoderJob.skips
  cases hb : j.budget <;> simp [hg] <;> tauto

theorem CoderJob.skips_grey {bytes : Nat} (hg : j.grey = true) : j.skips bytes = false := by simp [CoderJob.skips, hg]

/-- A job after its next row, which coded takes `bytes`. -/
structure RowCommitted (j : CoderJob) (bytes : Nat) (i : CoderJob) : Prop where
  row : i.row = j.row + 1
  items : i.items = j.items
  tail : i.tail.length + j.used = j.tail.length + i.used
  skipping : i.skipping = j.skips bytes
  skipped : i.skipped = if j.skips bytes then j.skipped ++ [j.row] else j.skipped
  used : i.used = j.used + if j.grey || j.skips bytes then j.f j.row - j.f (j.row + 1) else bytes

theorem exec_coderRowCommit_unread {bytes : Nat} (hj : Tbl.find ((s.encStep pe.val el).encEng pe.val).coders c.val = some j)
    (hon : (s.encStep pe.val el).encOn pe.val = true) (hb : j.buf.isSome = true) :
    exec (.coderRowCommit pe c bytes true el) s = .next (((s.encStep pe.val el).updRend j.rend fun r =>
      r.unplan ((s.encStep pe.val el).jobLayer j) j.pic).abortJob pe.val c.val pe.val false) := by
  obtain ⟨x, hx⟩ := Option.isSome_iff_exists.mp hb
  simp only [exec, execCoderRowCommit, hj, hon, hx, Bool.not_true, Option.isNone_some, Bool.or_self, Bool.false_eq_true, if_false, if_true]

/-- A coder publishes what its last row has filled, and goes on or is stalled. -/
def State.rowEnd (s : State) (k d : Nat) (j : CoderJob) : State :=
  if 64 ≤ (s.drain k d j).2.tail.length then (s.drain k d j).1.stallJob k d (s.drain k d j).2
  else (s.drain k d j).1.setJob k d (s.drain k d j).2

theorem State.continues_rowEnd (s : State) (k d : Nat) (j : CoderJob) :
    Continues k d (s.drain k d j).1 (s.drain k d j).2 (s.rowEnd k d j) := by
  unfold State.rowEnd
  split
  · exact State.continues_stallJob _ _ _ _
  · exact State.continues_setJob _ _ _ _

/-- Where the coder is not held up by its output, the next row is committed, and what it fills is published. -/
theorem exec_coderRowCommit_read {bytes : Nat} (hj : Tbl.find ((s.encStep pe.val el).encEng pe.val).coders c.val = some j)
    (hon : (s.encStep pe.val el).encOn pe.val = true) (hb : j.buf.isSome = true) {u : State} {d : CoderJob}
    (hd : (s.encStep pe.val el).drain pe.val c.val j = (u, d)) (hrow : d.row < d.pic.rows.length)
    (hroom : d.row = 0 ∨ d.tail.length < 64) : ∃ i, RowCommitted d bytes i ∧
      exec (.coderRowCommit pe c bytes false el) s = .next (State.rowEnd { u with freeCtr := u.freeCtr + 1 } pe.val c.val i) := by
  obtain ⟨x, hx⟩ := Option.isSome_iff_exists.mp hb
  have hfull : ¬(d.row ≠ 0 ∧ 64 ≤ d.tail.length) := by omega
  simp only [exec, execCoderRowCommit, hj, hon, hx, Bool.not_true, Option.isNone_some, Bool.or_self, Bool.false_eq_true, if_false, hd,
    if_neg hfull, if_neg (Nat.not_le_of_lt hrow)]
  refine ⟨_, ?_, rfl⟩
  refine ⟨rfl, rfl, ?_, rfl, rfl, rfl⟩
  simp only [List.length_append, State.rowData, List.length_map, List.length_range]
  omega

/-- A row's commit from outside: its items follow those in the output FIFO, and every byte is published, waits in the tail, or was
there before. -/
theorem exec_coderRowCommit {bytes : Nat} (hj : Tbl.find ((s.encStep pe.val el).encEng pe.val).coders c.val = some j)
    (hon : (s.encStep pe.val el).encOn pe.val = true) (hb : j.buf.isSome = true) (hrow : j.row < j.pic.rows.length)
    (hroom : j.row = 0 ∨ ((s.encStep pe.val el).drain pe.val c.val j).2.tail.length < 64)
    (hx : ((s.encStep pe.val el).fifo (encOutId pe.val c.val)).discard = false) :
    ∃ t k out, exec (.coderRowCommit pe c bytes false el) s = .next t ∧
      (t.fifo (encOutId pe.val c.val)).items = ((s.encStep pe.val el).fifo (encOutId pe.val c.val)).items ++ out ∧
      Tbl.find (t.encEng pe.val).coders c.val = some k ∧ k.row = j.row + 1 ∧ k.items = j.items + out.length ∧
      64 * k.items + k.tail.length + j.used = 64 * j.items + j.tail.length + k.used ∧ k.skipping = j.skips bytes ∧
      k.skipped = (if j.skips bytes then j.skipped ++ [j.row] else j.skipped) ∧
      k.used = j.used + if j.grey || j.skips bytes then j.f j.row - j.f (j.row + 1) else bytes := by
  obtain ⟨out, hd⟩ := (s.encStep pe.val el).drain_drained pe.val c.val j
  generalize hud : (s.encStep pe.val el).drain pe.val c.val j = ud at hd hroom
  obtain ⟨u, d⟩ := ud
  obtain ⟨it, tl, st, hdj⟩ := hd.job
  dsimp only at hd hroom hdj
  subst hdj
  obtain ⟨i, hi, he⟩ := exec_coderRowCommit_read (bytes := bytes) hj hon hb hud hrow hroom
  generalize hv : ({ u with freeCtr := u.freeCtr + 1 } : State) = v at he
  have hvf : v.fifo (encOutId pe.val c.val) = u.fifo (encOutId pe.val c.val) := by rw [← hv]; rfl
  obtain ⟨out', hd'⟩ := v.drain_drained pe.val c.val i
  obtain ⟨hf, sv, sl, hk⟩ := v.continues_rowEnd pe.val c.val i
  obtain ⟨_, _, _, hm⟩ := hd'.job
  obtain ⟨hp, hdis⟩ := hd.published hx
  obtain ⟨hp', -⟩ := hd'.published (hvf ▸ hdis)
  refine ⟨_, _, out ++ out', he, ?_, hk, ?_, ?_, ?_, ?_, ?_, ?_⟩
  · rw [State.fifo, hf]
    exact hp'.trans (by rw [hvf, hp, List.append_assoc])
  · rw [hm]
    exact hi.row
  · have h1 := hd.items
    have h2 := hd'.items
    have h3 := hi.items
    rw [List.length_append]
    dsimp only at h1 h3 ⊢
    omega
  · have h1 := hd.items
    have h2 := hd'.items
    have h3 := hi.items
    have h4 := hd.bytes
    have h5 := hd'.bytes
    have h6 := hi.tail
    have h7 : (v.drain pe.val c.val i).2.used = i.used := by rw [hm]
    dsimp only at h1 h3 h4 h6 ⊢
    omega
  · rw [hm]
    exact hi.skipping
  · rw [hm]
    exact hi.skipped
  · rw [hm]
    exact hi.used

/-! ### The end of a picture (R196, R200 to R204) -/

theorem State.Stored.regs (h : s.Stored t) : t.regs = s.regs := by
  obtain ⟨_, _, rfl⟩ := h
  rfl

theorem State.Stored.encEng (h : s.Stored t) (k : Nat) : t.encEng k = s.encEng k := by
  obtain ⟨_, _, rfl⟩ := h
  rfl

theorem State.samePosts_finishRecon (s : State) (j : CoderJob) (b : Buf) : s.SamePosts (s.finishRecon j b) := by
  unfold State.finishRecon
  extract_lets r now ts layer
  split
  next w h _ =>
  extract_lets v
  have hv : s.SamePosts v := by
    unfold v
    split <;> exact ⟨rfl, rfl, fun _ => rfl⟩
  refine hv.trans (State.Shelved.samePosts ?_)
  exact (v.pooled_settle _ _).shelved.trans ((State.shelved_updRend _ _ _).trans (State.shelved_unmarks _ _ _ _))

/-- A picture's last items and its trailer (R202). -/
def CoderJob.lastItems (j : CoderJob) : List (List Word) :=
  bytesItems (padItem j.tail) ++ [outTrailer 0 (j.header.getD 0 + j.used) j]

variable {u : State} {d : CoderJob} {b : Buf}

/-- A picture whose rows are all committed and whose output has room completes; before its completion no post is made but the last
items. -/
theorem exec_pictureCoded (hj : Tbl.find ((s.encStep pe.val el).encEng pe.val).coders c.val = some j) (hb : j.buf = some b)
    (hon : (s.encStep pe.val el).encOn pe.val = true) (hr : (s.encStep pe.val el).encRoom pe.val = true)
    (hrow : j.pic.rows.length ≤ j.row) (hd : (s.encStep pe.val el).drain pe.val c.val j = (u, d)) (ht : d.tail.length < 64)
    (ha : (u.fifo (encOutId pe.val c.val)).accepts false d.lastItems.length true = true)
    (ho : ((u.encEng pe.val).owed.any fun p => p.fifo pe.val == encOutId pe.val c.val) = false) :
    ∃ v i gi, (u.outPublish pe.val c.val d.lastItems true).SamePosts v ∧
      exec (.pictureCoded pe c el) s = .next (((v.jobDone pe.val 0 i).endJob pe.val c.val i).trimHist gi) := by
  show ∃ v i gi, _ ∧ execPictureCoded pe c el s = _
  unfold execPictureCoded
  extract_lets p a n
  replace hj : Tbl.find (a.encEng p).coders n = some j := hj
  replace hd : a.drain p n j = (u, d) := hd
  have hgo : (!a.encOn p || decide (j.row < j.pic.rows.length) || !a.encRoom p) = false := by
    simp only [a, p, hon, hr, Nat.not_lt_of_le hrow, decide_false, Bool.not_true, Bool.or_self]
  simp -zeta only [hj, hb, hgo, hd, Bool.false_eq_true, if_false]
  extract_lets last gi g skips u1 late u2 i u3 u4 u5 u6
  replace ha : (u.fifo (encOutId p n)).accepts false last.length true = true := ha
  replace ho : ((u.encEng p).owed.any fun x => x.fifo p == encOutId p n) = false := ho
  rw [if_neg (by simp only [ha, ho, Nat.not_le_of_lt ht, decide_false, Bool.not_true, Bool.or_self, Bool.false_eq_true, not_false_eq_true])]
  refine ⟨u6, i, gi, ?_, rfl⟩
  have h2 : u1.SamePosts u2 := by
    unfold u2
    split
    · exact (u1.codesOn_starve gi).same
    · exact .refl u1
  have h4 : u3.SamePosts u4 := ((u3.samePosts_bump _ _ _).trans (State.samePosts_bump _ _ _ _)).trans (State.samePosts_bump _ _ _ _)
  have h5 : u4.SamePosts u5 := by
    unfold u5
    split
    · exact (u4.samePosts_bump _ _ _).trans (State.samePosts_bump _ _ _ _)
    · exact u4.samePosts_bump _ _ _
  have h6 : u5.SamePosts u6 := u5.samePosts_updEnc _ fun _ => rfl
  exact (State.samePosts_finishRecon _ d b).trans (h2.trans ((u2.shelved_updRend _ _).samePosts.trans (h4.trans (h5.trans h6))))

/-- A coded picture from outside: its last items and its completion stand in their FIFOs, and the coder is free. -/
theorem exec_pictureCoded_posts (hj : Tbl.find ((s.encStep pe.val el).encEng pe.val).coders c.val = some j) (hb : j.buf = some b)
    (hon : (s.encStep pe.val el).encOn pe.val = true) (hr : (s.encStep pe.val el).encRoom pe.val = true)
    (hrow : j.pic.rows.length ≤ j.row) (hd : (s.encStep pe.val el).drain pe.val c.val j = (u, d)) (ht : d.tail.length < 64)
    (hx : ((s.encStep pe.val el).fifo (encOutId pe.val c.val)).discard = false)
    (hf : ((s.encStep pe.val el).fifo (encDoneId pe.val)).discard = false)
    (ha : (u.fifo (encOutId pe.val c.val)).accepts false d.lastItems.length true = true)
    (ho : (((s.encStep pe.val el).encEng pe.val).owed.any fun p => p.fifo pe.val == encOutId pe.val c.val) = false) :
    ∃ t it, exec (.pictureCoded pe c el) s = .next t ∧
      (t.fifo (encOutId pe.val c.val)).items = (u.fifo (encOutId pe.val c.val)).items ++ d.lastItems ∧
      (t.fifo (encDoneId pe.val)).items = ((s.encStep pe.val el).fifo (encDoneId pe.val)).items ++ [it] ∧
      fld (nth it 0 0) 31 24 = 0 ∧ Tbl.find (t.encEng pe.val).coders c.val = none := by
  obtain ⟨out, hdr⟩ := (s.encStep pe.val el).drain_drained pe.val c.val j
  rw [hd] at hdr
  have hou : u.encEng pe.val = (s.encStep pe.val el).encEng pe.val := hdr.stored.encEng _
  obtain ⟨v, i, gi, hv, he⟩ := exec_pictureCoded hj hb hon hr hrow hd ht ha (hou ▸ ho)
  have hpub := u.stored_outPublish pe.val c.val d.lastItems true
  have hne : encDoneId pe.val ≠ encOutId pe.val c.val := fun h => by cases h
  have hvon : v.encOn pe.val = true := (encOn_congr (hv.regs.trans (hpub.regs.trans hdr.stored.regs)) _).trans hon
  have hvdone : v.fifo (encDoneId pe.val) = (s.encStep pe.val el).fifo (encDoneId pe.val) :=
    (hv.fifo _).trans ((u.fifo_outPublish_ne _ _ hne).trans (hdr.others _ hne))
  have hvowed : (v.encEng pe.val).owed = ((s.encStep pe.val el).encEng pe.val).owed :=
    (hv.owed _).trans (congrArg EncEng.owed ((hpub.encEng _).trans hou))
  have hvr : v.encRoom pe.val = true := by rw [State.encRoom, hvdone, hvowed]; exact hr
  have hend : ∀ q, (((v.jobDone pe.val 0 i).endJob pe.val c.val i).trimHist gi).fifo q = (v.jobDone pe.val 0 i).fifo q := fun q =>
    ((State.shelved_trimHist _ _).fifo q).trans (State.fifo_endJob _ _ _ _ q)
  refine ⟨_, v.doneItem 0 i.rend (v.jobPic i).ts i.starved (i.k % 16) i.emitted i.floorRows i.skipped.length, he, ?_, ?_,
    State.status_doneItem, ?_⟩
  · have hno : ∀ p ∈ (v.encEng pe.val).owed, p.fifo pe.val ≠ encOutId pe.val c.val := by
      rw [hvowed]
      simpa using ho
    rw [hend, State.jobDone, State.encDone_eq, State.fifo_encPost_other (p := .done _) hno hne, hv.fifo, State.fifo_outPublish_same]
    exact (Fifo.publish_of_not_discard (hdr.published hx).2).2.2
  · rw [hend, State.jobDone, State.items_encDone hvon hvr (hvdone ▸ hf), hvdone]
  · rw [(State.shelved_trimHist _ _).encEng]
    exact State.coders_endJob _ _ _ _

end Sys2Proof.Machine
end

section
/-! The events of the encode pipes (R180 to R204). -/

namespace Sys2Proof.Machine

/-- Settles O41: each event by the rule of its command, with what the operations under it leave. -/
theorem encodeEvents : Obligations.EncodeEvents := by
  refine ⟨?input, ?late, ?start, ?analysed, ?search, ?coder, ?header, ?waits, ?notCoded, ?row, ?coded, ?rendition, ?starved, ?ended⟩
  case input =>
    intro pe el s it its e es b hi he hon u
    exact ⟨exec_encInputAccept hi he hon, fun h => State.acceptItem_lost (s := u) h, fun g hg => State.nextPic_acceptItem (s := u) hg⟩
  case late =>
    exact fun _ _ _ _ _ hg hp => ⟨State.find_pics_lateDrop hg hp, State.cnt_lateDrop hg hp⟩
  case start => exact fun _ _ _ _ _ => exec_analysisStart_begins
  case analysed =>
    intro pe el s gi seq g b han hon hg hpe
    obtain ⟨t, ht, han', hc, hq, hd⟩ := exec_analysisComplete_queues hon han hg
    exact ⟨exec_analysisComplete_aborts hon han hg hpe, t, ht, han', hc, hq, fun r hr _ => hd r hr⟩
  case search =>
    intro c done bx y
    have hl := c.length_cands (done := done) (bx := bx) (y := y)
    obtain ⟨hr, hp, hle⟩ := c.best_spec (done := done) (bx := bx) (y := y)
    exact ⟨hl.trans (by split <;> omega), fun hs => hl.trans (by rw [if_pos hs]), nodup_foldl_addCand _, fun v hv => Search.of_mem_cands hv,
      hr, hp, hle⟩
  case coder =>
    intro pe c el s b hon hr
    refine ⟨fun j h hj hb hh => ?_, fun j k hd hj hb hh => ?_, fun r cls hj hn => ?_⟩
    · have he := exec_coderStart_noHeader (h := h) hon hr hj hb hh
      refine ⟨fun ht => he.trans (by rw [if_pos ht]), fun ht => ⟨?_, ?_⟩⟩
      · rintro x rfl
        exact he.trans (by rw [if_neg (Nat.not_lt_of_le ht)]; rfl)
      · rintro rfl
        exact he.trans (by rw [if_neg (Nat.not_lt_of_le ht)]; rfl)
    · have he := exec_coderStart_noBuffer (h := hd) hon hr hj hb hh
      exact ⟨fun ht => he.trans (by rw [if_pos ht]), fun ht => he.trans (by rw [if_neg (Nat.not_lt_of_le ht)])⟩
    · refine ⟨_, _, exec_coderStart_takes hon hr hj hn, State.find_setJob _ _ _ _, rfl, rfl, rfl, ?_, ?_⟩
      · rw [State.setJob, State.rend_updEnc, State.rend_updEnc, State.queue_updRend_drop]
      · rw [State.setJob, State.encEng_updEnc_same, State.encEng_updEnc_same]
        exact Tbl.get_set_same _ _ _ _
  case header =>
    intro s pe c j h r
    exact ⟨State.beginPic_gone, fun he hs a ha hc => State.beginPic_capped he hs ha hc⟩
  case waits =>
    intro pe c el s j b hj hr
    exact ⟨fun hh ht => exec_headerWaitTimeout hj hr hh ht, fun hh hb ht => exec_reconAllocTimeout hj hr hh hb ht⟩
  case notCoded =>
    intro s pe c st j hon hr hd hst
    obtain ⟨it, hi, h1, h2, h3⟩ := State.items_notCoded (j := j) (d := c) (st := st) hon hr hd
    exact ⟨it, hi, h1.trans (Nat.mod_eq_of_lt hst), h2, h3, State.coders_notCoded _ _ _ _ _⟩
  case row =>
    intro pe c bytes el s j b d x tight hj hon hb hrow hroom hx
    refine ⟨exec_coderRowCommit_unread hj hon hb, ?_⟩
    obtain ⟨t, k, out, he, hi, hk, h1, h2, h3, h4, h5, h6⟩ := exec_coderRowCommit (bytes := bytes) hj hon hb hrow hroom hx
    refine ⟨t, k, out, he, hi, hk, h1, h2, h3, fun hg ht => ?_, fun hg ht => ?_, fun hg => ?_⟩
    · have hs := (CoderJob.skips_iff hg).mpr ht
      simp only [hs, Bool.or_true, if_true] at h4 h5 h6
      exact ⟨h4, h5, h6⟩
    · have hs : j.skips bytes = false := Bool.eq_false_iff.mpr fun h => ht ((CoderJob.skips_iff hg).mp h)
      simp only [hs, hg, Bool.or_self, Bool.false_eq_true, if_false] at h4 h5 h6
      exact ⟨h4, h5, h6⟩
    · simp only [CoderJob.skips_grey hg, hg, Bool.or_false, Bool.false_eq_true, if_true, if_false] at h5 h6
      exact ⟨h5, h6⟩
  case coded =>
    intro pe c el s j x b d out hj hb hon hr hrow hx hf ht ha ho
    exact exec_pictureCoded_posts hj hb hon hr hrow rfl ht hx hf ha ho
  case rendition =>
    intro r j q
    obtain ⟨hst, hk, hn⟩ : q.st = (r.advance j).st ∧ q.k = (r.advance j).k ∧ q.n = (r.advance j).n := Rend.wave_coded
    refine ⟨rfl, rfl, fun i hi hg => Rend.mem_stale_coded hi hg, fun he => ?_, fun he =>
      ⟨fun hg => ?_, fun hg h0 => ?_, fun hg h0 => ?_⟩⟩
    · rw [hst, hk, Rend.advance_other he]
      exact ⟨rfl, rfl⟩
    · rw [hst, hk, hn, Rend.advance_grey he hg]
      exact ⟨rfl, rfl, rfl⟩
    · rw [hst, hk, Rend.advance_outside he hg h0]
      exact ⟨rfl, rfl⟩
    · obtain ⟨h1, h2, h3⟩ := Rend.advance_wave he hg h0
      exact ⟨hk.trans h2, hn.trans h3, fun h => (hst.trans h1).trans (if_pos h), fun h => (hst.trans h1).trans (if_neg h)⟩
  case starved =>
    intro i el s g hg hr
    have hg' : Tbl.find (s.advance el).video.groups i = some g := hg
    refine ⟨fun hh => exec_starvedRaise.trans (congrArg _ (State.starve_held hg' (.inl hh))), fun hh => ⟨_, exec_starvedRaise, ?_⟩⟩
    obtain ⟨a, ha⟩ := State.group_starve hg' hh hr
    rw [ha]
    exact ⟨rfl, rfl, rfl, rfl, State.cnt_starve hg' hh hr⟩
  case ended =>
    intro g
    refine ⟨fun hh => ?_, fun hh => ?_⟩
    · rw [Group.endPicture, if_pos hh]
    · rw [Group.endPicture, if_neg (by simp [hh])]
      exact ⟨rfl, rfl⟩

end Sys2Proof.Machine
end

section
/-! From the effect of an instruction to what its core does (R245, R257, R258). -/

namespace Sys2Proof.Machine

variable {s t : State} {c : Fin 516} {i : Instr}

/-- A core that issues an instruction does what the instruction's meaning makes of the state. -/
theorem does_of_next {F : State → State} (he : exec i s = s.issue c i fun s => .next (F s)) (hr : s.runs c.val → F s = t) :
    Does s c i t :=
  fun hi => by rw [he, issue_of_issues hi, hr hi.1]

section
variable {g : State → Core → State × Eff} {k : Core}

/-- The core goes on to the next instruction, or to the start of a loop's body. -/
theorem runCore_seq {c : Nat} (hr : s.runs c) (hg : g s (s.awake c) = (t, .seq k)) :
    s.runCore c g = t.setCore c (Core.loopEnd (s.core c).pc 3 [] k) := by
  rw [runCore_of_runs hr, hg]
  rfl

theorem runCore_jump {c : Nat} {a : Word} (hr : s.runs c) (hg : g s (s.awake c) = (t, .jump k a)) :
    s.runCore c g = t.setCore c { k with pc := a } := by rw [runCore_of_runs hr, hg]

theorem runCore_fault {c cause addr : Nat} (hr : s.runs c) (hg : g s (s.awake c) = (t, .fault cause addr)) :
    s.runCore c g = s.coreFault c cause addr := by rw [runCore_of_runs hr, hg]

theorem runCore_stay {c : Nat} (hr : s.runs c) (hg : g s (s.awake c) = (t, .stay)) : s.runCore c g = t := by
  rw [runCore_of_runs hr, hg]

variable (he : exec i s = s.issue c i fun s => .next (s.runCore c.val g))
include he

theorem does_seq (hg : g s (s.awake c.val) = (t, .seq k)) :
    Does s c i (t.setCore c.val (Core.loopEnd (s.core c.val).pc 3 [] k)) := does_of_next he fun hr => runCore_seq hr hg

/-- An effect that leaves every core to the instruction retires it. -/
theorem does_retire (hg : g s (s.awake c.val) = (t, .seq k)) (ht : t.cores = s.cores) : Does s c i (t.retire c.val k) := by
  rw [State.retire, State.core_congr ht]
  exact does_seq he hg

theorem does_fault {cause addr : Nat} (hg : g s (s.awake c.val) = (t, .fault cause addr)) :
    Does s c i (s.coreFault c.val cause addr) := does_of_next he fun hr => runCore_fault hr hg

theorem does_stay (hg : g s (s.awake c.val) = (t, .stay)) : Does s c i t := does_of_next he fun hr => runCore_stay hr hg

end

/-! ### Instructions that touch only their core -/

section
variable {f : Core → Eff} {k : Core}

theorem doesK_retire (he : exec i s = s.issue c i fun s => .next (s.runK c.val f)) (hf : f (s.awake c.val) = .seq k) :
    Does s c i (s.retire c.val k) := does_retire he (congrArg (s, ·) hf) rfl

theorem doesK_jump {a : Word} (he : exec i s = s.issue c i fun s => .next (s.runK c.val f))
    (hf : f (s.awake c.val) = .jump k a) : Does s c i (s.jumpTo c.val k a) :=
  does_of_next he fun hr => runCore_jump hr (congrArg (s, ·) hf)

theorem doesK_fault {cause addr : Nat} (he : exec i s = s.issue c i fun s => .next (s.runK c.val f))
    (hf : f (s.awake c.val) = .fault cause addr) : Does s c i (s.coreFault c.val cause addr) :=
  does_fault he (congrArg (s, ·) hf)

/-- An instruction that writes one general register. -/
theorem does_alu {d : BitVec 5} {g : Core → Word} {v : Word}
    (he : exec i s = s.issue c i fun s => .next (s.alu c.val d g)) (hv : g (s.awake c.val) = v) :
    Does s c i (s.retire c.val ((s.awake c.val).setg d v)) := hv ▸ doesK_retire he rfl

end

end Sys2Proof.Machine
end

section
/-! The register instructions (R242): the model's word operations as operations on numbers. -/

namespace Sys2Proof.Machine

/-! ### Word operations on numbers -/

section
variable (a b : Word) (n : Nat)

theorem add_eq_ofInt : a + b = BitVec.ofInt 32 (a.toInt + b.toInt) := by simp [BitVec.ofInt_add]

theorem sub_eq_ofInt : a - b = BitVec.ofInt 32 (a.toInt - b.toInt) := by
  rw [Int.sub_eq_add_neg, BitVec.ofInt_add, BitVec.ofInt_neg, BitVec.ofInt_toInt, BitVec.ofInt_toInt, BitVec.sub_eq_add_neg]

theorem mul_eq_ofInt : a * b = BitVec.ofInt 32 (a.toInt * b.toInt) := by simp [BitVec.ofInt_mul]

theorem shl_eq_ofNat : a <<< n = BitVec.ofNat 32 (a.toNat * 2 ^ n) :=
  BitVec.eq_of_toNat_eq (by simp [Nat.shiftLeft_eq])

theorem shr_eq_ofNat : a >>> n = BitVec.ofNat 32 (a.toNat / 2 ^ n) :=
  BitVec.eq_of_toNat_eq (by
    rw [BitVec.toNat_ushiftRight, BitVec.toNat_ofNat, Nat.shiftRight_eq_div_pow,
      Nat.mod_eq_of_lt (Nat.lt_of_le_of_lt (Nat.div_le_self _ _) a.isLt)])

theorem sar_eq_ofInt : sarW a n = BitVec.ofInt 32 (a.toInt / 2 ^ n) := by
  rw [sarW, BitVec.sshiftRight, Int.shiftRight_eq_div_pow]
  rfl

theorem wordOf_slt : wordOf (a.slt b) = if a.toInt < b.toInt then 1 else 0 := by
  simp [wordOf, BitVec.slt_eq_decide]

theorem wordOf_ult : wordOf (a.ult b) = if a.toNat < b.toNat then 1 else 0 := by
  simp [wordOf, BitVec.ult_eq_decide]

theorem min_eq_ofInt : (if a.slt b then a else b) = BitVec.ofInt 32 (min a.toInt b.toInt) := by
  by_cases h : a.toInt < b.toInt
  · rw [if_pos (BitVec.slt_iff_toInt_lt.mpr h), min_eq_left h.le, BitVec.ofInt_toInt]
  · rw [if_neg (mt BitVec.slt_iff_toInt_lt.mp h), min_eq_right (not_lt.mp h), BitVec.ofInt_toInt]

theorem max_eq_ofInt : (if a.slt b then b else a) = BitVec.ofInt 32 (max a.toInt b.toInt) := by
  by_cases h : a.toInt < b.toInt
  · rw [if_pos (BitVec.slt_iff_toInt_lt.mpr h), max_eq_right h.le, BitVec.ofInt_toInt]
  · rw [if_neg (mt BitVec.slt_iff_toInt_lt.mp h), max_eq_left (not_lt.mp h), BitVec.ofInt_toInt]

theorem abs_eq_ofNat : (if a.slt 0 then -a else a) = BitVec.ofNat 32 a.toInt.natAbs := by
  rw [← BitVec.ofInt_natCast]
  by_cases h : a.toInt < 0
  · rw [if_pos (BitVec.slt_iff_toInt_lt.mpr h), Int.ofNat_natAbs_of_nonpos h.le, BitVec.ofInt_neg, BitVec.ofInt_toInt]
  · rw [if_neg (mt BitVec.slt_iff_toInt_lt.mp h), Int.natAbs_of_nonneg (not_lt.mp h), BitVec.ofInt_toInt]

end

section
variable (a : Word) (imm : Half)

theorem toInt_signExtend_half : (imm.signExtend 32).toInt = imm.toInt := BitVec.toInt_signExtend_of_le (by decide)

theorem and_zeroExtend : a &&& imm.zeroExtend 32 = BitVec.ofNat 32 (a.toNat % 65536) &&& BitVec.ofNat 32 imm.toNat := by
  apply BitVec.eq_of_toNat_eq
  have hi : imm.toNat % 2 ^ 32 = imm.toNat := Nat.mod_eq_of_lt (by omega)
  have ha : a.toNat % 65536 % 2 ^ 32 = a.toNat % 2 ^ 16 := Nat.mod_eq_of_lt (by omega)
  have hm : (a.toNat &&& imm.toNat) % 2 ^ 16 = (a.toNat &&& imm.toNat) :=
    Nat.mod_eq_of_lt (Nat.lt_of_le_of_lt Nat.and_le_right imm.isLt)
  simp only [BitVec.toNat_and, BitVec.zeroExtend, BitVec.toNat_setWidth, BitVec.toNat_ofNat, hi]
  rw [← hm, Nat.and_mod_two_pow, ha, Nat.mod_eq_of_lt imm.isLt]

theorem zeroExtend_shl : imm.zeroExtend 32 <<< 16 = BitVec.ofNat 32 (imm.toNat * 65536) := by
  rw [shl_eq_ofNat, BitVec.zeroExtend, BitVec.toNat_setWidth, Nat.mod_eq_of_lt (by omega)]
  rfl

end

/-- Settles O12: the word operation of each instruction, as a number. -/
theorem aluResults : Obligations.AluResults := by
  intro c d x y sh imm s k a b gives
  exact ⟨does_alu rfl (add_eq_ofInt a b), does_alu rfl (sub_eq_ofInt a b), does_alu rfl rfl, does_alu rfl rfl, does_alu rfl rfl,
    does_alu rfl (shl_eq_ofNat a sh.toNat), does_alu rfl (shr_eq_ofNat a sh.toNat), does_alu rfl (sar_eq_ofInt a sh.toNat),
    does_alu rfl (shl_eq_ofNat a _), does_alu rfl (shr_eq_ofNat a _), does_alu rfl (sar_eq_ofInt a _),
    does_alu rfl (wordOf_slt a b), does_alu rfl (wordOf_ult a b), does_alu rfl (min_eq_ofInt a b), does_alu rfl (max_eq_ofInt a b),
    does_alu rfl (abs_eq_ofNat a), does_alu rfl (mul_eq_ofInt a b), does_alu rfl rfl,
    does_alu rfl ((add_eq_ofInt a _).trans (by rw [toInt_signExtend_half])), does_alu rfl (by rw [BitVec.ofNat_toNat]),
    does_alu rfl (and_zeroExtend a imm), does_alu rfl ((wordOf_slt a _).trans (by rw [toInt_signExtend_half])),
    does_alu rfl (zeroExtend_shl imm)⟩

end Sys2Proof.Machine
end

section
/-! Registers, pairs and lanes (R239). -/

namespace Sys2Proof.Machine

@[simp] theorem Core.gr_zero (k : Core) : k.gr 0 = 0 := rfl
@[simp] theorem Core.setg_zero (k : Core) (v : Word) : k.setg 0 v = k := rfl

theorem Core.setg_of_ne (k : Core) {r : BitVec 5} (v : Word) (h : r ≠ 0) : k.setg r v = { k with g := Tbl.set k.g r.toNat v } :=
  if_neg h

theorem Core.gr_setg_same (k : Core) {r : BitVec 5} (v : Word) (h : r ≠ 0) : (k.setg r v).gr r = v := by
  rw [Core.setg_of_ne k v h, Core.gr, if_neg h, Tbl.get_set_same]

theorem Core.gr_setg_ne (k : Core) {r q : BitVec 5} (v : Word) (hr : r ≠ 0) (h : q ≠ r) : (k.setg r v).gr q = k.gr q := by
  rw [Core.setg_of_ne k v hr, Core.gr, Core.gr, Tbl.get_set_ne _ _ _ fun e => h (BitVec.eq_of_toNat_eq e)]

/-- The low half of a word as a number. -/
theorem ofNat_fld_low (w : Word) : BitVec.ofNat 16 (fld w 15 0) = w.extractLsb' 0 16 :=
  BitVec.eq_of_toNat_eq (by simp [fld, bits])

/-- The high half of a word as a number. -/
theorem ofNat_fld_high (w : Word) : BitVec.ofNat 16 (fld w 31 16) = w.extractLsb' 16 16 :=
  BitVec.eq_of_toNat_eq (by simp [fld, bits])

/-- A lane in the LDM is a little-endian half. -/
theorem State.lanesAt_eq (s : State) (c : Nat) (k : Core) (a i : Nat) : s.lanesAt c k a i = (BitVec.ofNat 16
    ((s.ldByte c k (a + 2 * i)).toNat + 256 * (s.ldByte c k (a + 2 * i + 1)).toNat)).toInt := rfl

section
variable {s : State} {c : Fin 516} {p q r t : BitVec 5}

/-- An odd pair is no operand of a far access, of a transfer or of the 64-bit LDM accesses. -/
theorem odd_pair_transfers (h : oddPair p = true) (q r sh : BitVec 5) (n : BitVec 3) (pm : BitVec 2) (disp : Half) :
    ∀ i ∈ ([.ldD c p n pm disp, .stD c p n pm disp, .ldf c q p, .stf c q p, .dmai c q p r sh, .dmao c q p r sh] : List Instr),
      Does s c i (s.coreFault c.val 1 0) := by
  have hl : (decide (8 = 8) && oddPair p || pm != 0 && disp != 0) = true := by simp [h]
  have hd (out : Bool) : s.startDma c.val out q p r sh = s.runCore c.val fun s _ => (s, .fault F_ILLEGAL 0) := if_pos (.inr h)
  have hdma {i : Instr} {out : Bool} (he : exec i s = s.issue c i fun s => .next (s.startDma c.val out q p r sh)) :
      Does s c i (s.coreFault c.val 1 0) := fun hi => by
    rw [he, issue_of_issues hi, hd, runCore_of_runs hi.1]
  simp only [List.forall_mem_cons]
  exact ⟨does_fault rfl (if_pos hl), does_fault rfl (if_pos hl), does_fault rfl (if_pos h), does_fault rfl (if_pos h),
    hdma rfl, hdma rfl, List.forall_mem_nil _⟩

/-- Nor of a multiplication, a load or a store of an accumulator. -/
theorem odd_pair_accumulators (h : oddPair p = true) (q sh : BitVec 5) (m : BitVec 2) :
    ∀ i ∈ ([.vmpy c m (.vr p q), .vmpy c m (.vr q p), .vmac c m (.vr p q), .vmac c m (.vr q p), .vmsu c m (.vr p q),
      .vmsu c m (.vr q p), .vld c m (.vr p) sh, .vst c m (.vr p) sh] : List Instr), Does s c i (s.coreFault c.val 1 0) := by
  have hpq : (oddPair p || oddPair q) = true := by simp [h]
  have hqp : (oddPair q || oddPair p) = true := by simp [h]
  have hld : Does s c (.vld c m (.vr p) sh) (s.coreFault c.val 1 0) := by
    by_cases hs : 23 < sh.toNat
    · exact does_fault rfl (if_pos hs)
    · exact does_fault rfl ((if_neg hs).trans (if_pos h))
  simp only [List.forall_mem_cons]
  exact ⟨does_fault rfl (if_pos hpq), does_fault rfl (if_pos hqp), does_fault rfl (if_pos hpq), does_fault rfl (if_pos hqp),
    does_fault rfl (if_pos hpq), does_fault rfl (if_pos hqp), hld, does_fault rfl (if_pos h), List.forall_mem_nil _⟩

/-- Nor of lane arithmetic. -/
theorem odd_pair_lanes (h : oddPair p = true) (q r t : BitVec 5) :
    ∀ i ∈ ([.vadd c p q r, .vadd c q p r, .vadd c q r p, .vsub c p q r, .vsub c q p r, .vsub c q r p, .vacsx c p q r t,
      .vacsx c q p r t, .vacsx c q r p t, .vacsx c q r t p, .vacsn c p q r t, .vacsn c q p r t, .vacsn c q r p t,
      .vacsn c q r t p] : List Instr), Does s c i (s.coreFault c.val 1 0) := by
  have hadd {x y z : BitVec 5} (ho : (oddPair x || oddPair y || oddPair z) = true) :
      Does s c (.vadd c x y z) (s.coreFault c.val 1 0) ∧ Does s c (.vsub c x y z) (s.coreFault c.val 1 0) :=
    ⟨doesK_fault rfl (if_pos ho), doesK_fault rfl (if_pos ho)⟩
  have hacs {x y z w : BitVec 5} (ho : (oddPair x || oddPair y || oddPair z || oddPair w) = true) :
      Does s c (.vacsx c x y z w) (s.coreFault c.val 1 0) ∧ Does s c (.vacsn c x y z w) (s.coreFault c.val 1 0) :=
    ⟨doesK_fault rfl (if_pos ho), doesK_fault rfl (if_pos ho)⟩
  simp [hadd, hacs, h]

end

/-- Settles O13: registers and lanes by their definitions; every instruction checks its pairs first. -/
theorem registerRules : Obligations.RegisterRules := by
  refine ⟨fun k v => ⟨k.gr_zero, k.setg_zero v⟩, fun k r q v hr => ⟨k.gr_setg_same v hr, k.gr_setg_ne v hr⟩, fun k p _ =>
    ⟨ofNat_fld_low _, ofNat_fld_high _, ofNat_fld_low _, ofNat_fld_high _⟩, State.lanesAt_eq, ?_⟩
  intro c p q r t n pm m disp sh s h i hi
  have hs := List.mem_append.mp (show i ∈ [_, _, _, _, _, _] ++ ([_, _, _, _, _, _, _, _] ++ [_, _, _, _, _, _, _, _, _, _, _, _, _, _]) from hi)
  rcases hs with h1 | h1
  · exact odd_pair_transfers h q r sh n pm disp i h1
  · rcases List.mem_append.mp h1 with h2 | h2
    · exact odd_pair_accumulators h q sh m i h2
    · exact odd_pair_lanes h q r t i h2

end Sys2Proof.Machine
end

section
/-! Branches (R241, R242), hardware loops (R256) and the ends of their bodies (R257). -/

namespace Sys2Proof.Machine

variable {s : State} {c : Fin 516}

/-! ### Branches -/

/-- A signed offset counts instructions. -/
theorem offset_eq_ofInt {w : Nat} (pc : Word) (ofs : BitVec w) :
    pc + ofs.signExtend 32 * 4 = BitVec.ofInt 32 (pc.toInt + 4 * ofs.toInt) := by
  rw [BitVec.signExtend, Int.mul_comm, BitVec.ofInt_add, BitVec.ofInt_mul, BitVec.ofInt_toInt]
  rfl

/-- A branch is taken exactly when its condition holds. -/
theorem does_branch {i : Instr} {ofs : Half} {p : Core → Bool} {P : Prop}
    (he : exec i s = s.issue c i fun s => .next (branch s c.val ofs p)) (hp : p (s.awake c.val) = true ↔ P) :
    (P → Does s c i (s.jumpTo c.val (s.awake c.val) (BitVec.ofInt 32 ((s.awake c.val).pc.toInt + 4 * ofs.toInt)))) ∧
    (¬P → Does s c i (s.retire c.val (s.awake c.val))) := by
  rw [← offset_eq_ofInt]
  exact ⟨fun h => doesK_jump he (if_pos (hp.mpr h)), fun h => doesK_retire he (if_neg (mt hp.mp h))⟩

theorem less_iff (u : Bool) (a b : Word) :
    (if u then a.ult b else a.slt b) = true ↔ if u then a.toNat < b.toNat else a.toInt < b.toInt := by
  cases u
  · exact BitVec.slt_iff_toInt_lt
  · exact decide_eq_true_iff

theorem not_less_iff (u : Bool) (a b : Word) :
    (if u then !a.ult b else !a.slt b) = true ↔ if u then b.toNat ≤ a.toNat else b.toInt ≤ a.toInt := by
  cases u
  · simp [BitVec.slt_eq_decide]
  · simp [BitVec.ult_eq_decide]

/-! ### `loop` -/

theorem Core.nests_iff {k : Core} {a b : Word} : k.nests a b = true ↔ ∀ j, j < 3 → Tbl.get k.act false j = true →
    (Tbl.get k.ls 0 j).toNat ≤ a.toNat ∧ b.toNat ≤ (Tbl.get k.le 0 j).toNat := by
  change ((List.range 3).all _) = true ↔ _
  rw [List.all_eq_true]
  refine forall_congr' fun j => ?_
  rw [List.mem_range, Bool.or_eq_true, Bool.and_eq_true, Bool.not_eq_true', decide_eq_true_iff, decide_eq_true_iff,
    ← Bool.not_eq_true, ← imp_iff_not_or]

/-- The last instruction of a body. -/
theorem body_end_eq (pc : Word) (stop : BitVec 12) : pc + stop.zeroExtend 32 * 4 = pc + BitVec.ofNat 32 (4 * stop.toNat) := by
  rw [Nat.mul_comm, BitVec.ofNat_mul, BitVec.ofNat_toNat]
  rfl

/-- The count of a loop: of a register its low half, or the immediate. -/
def loopCount (src : Bool) (w : Word) (count : BitVec 11) : Nat := if src then w.toNat % 65536 else count.toNat

theorem loopCount_lt (src : Bool) (w : Word) (count : BitVec 11) : loopCount src w count < 65536 := by
  unfold loopCount
  split
  · exact Nat.mod_lt _ (by decide)
  · omega

theorem ofNat_loopCount (src : Bool) (w : Word) (count : BitVec 11) :
    (if src then w.truncate 16 else count.zeroExtend 16 : Half) = BitVec.ofNat 16 (loopCount src w count) := by
  cases src
  · exact (BitVec.ofNat_toNat 16 count).symm
  · exact BitVec.eq_of_toNat_eq (by simp [loopCount])

section
variable {l : BitVec 2} {src : Bool} {count : BitVec 11} {x : BitVec 5} {stop : BitVec 12} {b : Word}

theorem loop_illegal (h : l = 3 ∨ stop = 0) : Does s c (.loop c l src count x stop) (s.coreFault c.val 1 0) :=
  doesK_fault rfl (if_pos h)

/-- A level that is active already, or a body that lies in no outer body. -/
theorem loop_misnested (h : ¬(l = 3 ∨ stop = 0)) (hb : (s.awake c.val).pc + stop.zeroExtend 32 * 4 = b)
    (hn : (Tbl.get (s.awake c.val).act false l.toNat || !(s.awake c.val).nests ((s.awake c.val).pc + 4) b) = true) :
    Does s c (.loop c l src count x stop) (s.coreFault c.val 8 0) := by
  subst hb
  exact doesK_fault rfl ((if_neg h).trans (if_pos hn))

/-- A loop that starts: a count of zero leaves its body out. -/
theorem loop_starts (h : ¬(l = 3 ∨ stop = 0)) (hb : (s.awake c.val).pc + stop.zeroExtend 32 * 4 = b)
    (hn : ¬(Tbl.get (s.awake c.val).act false l.toNat || !(s.awake c.val).nests ((s.awake c.val).pc + 4) b) = true) :
    let k := s.awake c.val
    let a := k.pc + 4
    let n := loopCount src (k.gr x) count
    let k' := { k with
      lc := Tbl.set k.lc l.toNat (BitVec.ofNat 16 n), ls := Tbl.set k.ls l.toNat a, le := Tbl.set k.le l.toNat b }
    Does s c (.loop c l src count x stop) (if n = 0 then s.jumpTo c.val k' (b + 4)
      else s.jumpTo c.val { k' with act := Tbl.set k.act l.toNat true } a) := by
  intro k a n k'
  subst hb
  have hz : BitVec.ofNat 16 n = 0 ↔ n = 0 := by
    rw [← BitVec.toNat_inj, BitVec.toNat_ofNat, Nat.mod_eq_of_lt (loopCount_lt src _ count)]
    rfl
  by_cases h0 : n = 0
  · rw [if_pos h0]
    refine doesK_jump rfl (((if_neg h).trans (if_neg hn)).trans ?_)
    rw [ofNat_loopCount, if_pos (hz.mpr h0)]
  · rw [if_neg h0]
    refine doesK_jump rfl (((if_neg h).trans (if_neg hn)).trans ?_)
    rw [ofNat_loopCount, if_neg (mt hz.mp h0)]

end

/-! ### The end of a body -/

section
variable {k : Core} {a : Word} {l : Nat}

theorem Core.loopEnd_none {n : Nat} {seen : List Nat} (h : k.loopAt a seen = none) :
    Core.loopEnd a n seen k = { k with pc := a + 4 } := by
  cases n with
  | zero => rfl
  | succ n => rw [Core.loopEnd, h]

/-- The body is repeated while its count is above one. -/
theorem Core.loopEnd_again {n : Nat} {seen : List Nat} (h : k.loopAt a seen = some l) (hc : 1 < (Tbl.get k.lc 0 l).toNat) :
    Core.loopEnd a (n + 1) seen k = { k with lc := Tbl.set k.lc l (Tbl.get k.lc 0 l - 1), pc := Tbl.get k.ls 0 l } := by
  have h0 : Tbl.get k.lc 0 l ≠ 0 := fun e => by
    rw [e] at hc
    exact absurd hc (by decide)
  have h1 : Tbl.get k.lc 0 l - 1 ≠ 0 := fun e => by
    rw [sub_eq_zero.mp e] at hc
    exact absurd hc (by decide)
  rw [Core.loopEnd, h]
  simp only [if_neg h0, ne_eq, h1, not_false_eq_true, if_true]

/-- At a count of one or zero the level ends, and an outer level may end there too. -/
theorem Core.loopEnd_last {n : Nat} {seen : List Nat} (h : k.loopAt a seen = some l) (hc : (Tbl.get k.lc 0 l).toNat ≤ 1) :
    Core.loopEnd a (n + 1) seen k =
      Core.loopEnd a n (l :: seen) { k with lc := Tbl.set k.lc l 0, act := Tbl.set k.act l false } := by
  have hz : (if Tbl.get k.lc 0 l = 0 then 0 else Tbl.get k.lc 0 l - 1) = 0 := by
    split
    · rfl
    · next h0 =>
      have h1 : Tbl.get k.lc 0 l = 1 := BitVec.eq_of_toNat_eq (by
        have hp : (Tbl.get k.lc 0 l).toNat ≠ 0 := fun e => h0 (BitVec.eq_of_toNat_eq e)
        change _ = 1
        omega)
      rw [h1]
      rfl
  rw [Core.loopEnd, h]
  simp only [hz]
  rfl

/-- A level that has been seen may change its count and its activity. -/
theorem Core.loopAt_congr {k' : Core} {seen : List Nat} (hs : k'.ls = k.ls) (he : k'.le = k.le)
    (ha : ∀ j, j ∉ seen → Tbl.get k'.act false j = Tbl.get k.act false j) : k'.loopAt a seen = k.loopAt a seen := by
  unfold Core.loopAt
  rw [hs, he]
  congr 1
  refine List.filter_congr fun j _ => ?_
  by_cases hj : j ∈ seen
  · simp [hj]
  · rw [ha j hj]

theorem Core.loopAt_ended (k : Core) (a : Word) (l : Nat) (v : Half) :
    { k with lc := Tbl.set k.lc l v, act := Tbl.set k.act l false }.loopAt a [l] = k.loopAt a [l] :=
  Core.loopAt_congr rfl rfl fun _ hj => Tbl.get_set_ne _ _ _ (List.ne_of_not_mem_cons hj)

end

/-- Settles O14: branches and loops by their conditions, and the end of a body by the count of its level. -/
theorem branchAndLoopResults : Obligations.BranchAndLoopResults := by
  refine ⟨?branches, ?loop, ?lbrk, ?none, ?again, ?last⟩
  case branches =>
    intro c x y u ofs o27 s k a b goes
    refine ⟨does_branch rfl beq_iff_eq, does_branch rfl bne_iff_ne, does_branch rfl (less_iff u a b),
      does_branch rfl (not_less_iff u a b), ?_, doesK_jump rfl rfl⟩
    rw [← offset_eq_ofInt]
    exact doesK_jump rfl rfl
  case loop =>
    intro c l src count x stop s k a b n k'
    have hb : k.pc + stop.zeroExtend 32 * 4 = b := body_end_eq _ _
    have hc (h3 : l ≠ 3) (h0 : stop ≠ 0) : ¬(l = 3 ∨ stop = 0) := not_or.mpr ⟨h3, h0⟩
    have hn : ¬(Tbl.get k.act false l.toNat || !k.nests a b) = true ↔ Tbl.get k.act false l.toNat = false ∧
        ∀ j, j < 3 → Tbl.get k.act false j = true →
          (Tbl.get k.ls 0 j).toNat ≤ a.toNat ∧ b.toNat ≤ (Tbl.get k.le 0 j).toNat := by
      rw [← Core.nests_iff]
      simp
    refine ⟨loop_illegal, fun h3 h0 h => loop_misnested (hc h3 h0) hb ?_, fun h3 h0 ha hj => loop_starts (hc h3 h0) hb (hn.mpr ⟨ha, hj⟩)⟩
    by_contra hne
    obtain ⟨ha, hj⟩ := hn.mp hne
    rcases h with h | ⟨j, h1, h2, h⟩
    · exact nomatch h.symm.trans ha
    · have := hj j h1 h2
      omega
  case lbrk =>
    intro c l s
    by_cases h : 3 ≤ l.toNat
    · rw [if_pos h]
      exact doesK_fault rfl (if_pos h)
    · rw [if_neg h]
      exact doesK_retire rfl (if_neg h)
  case none =>
    intro s c k h
    rw [State.retire, State.core_setCore_same, Core.loopEnd_none h]
  case again =>
    intro s c k l h hc
    rw [State.retire, State.core_setCore_same, Core.loopEnd_again h hc]
  case last =>
    intro s c k l h hc ho
    rw [State.retire, State.core_setCore_same, Core.loopEnd_last h hc, Core.loopEnd_none ((k.loopAt_ended _ l 0).trans ho)]

end Sys2Proof.Machine
end

section
/-! Special registers (R240). -/

namespace Sys2Proof.Machine

/-! ### What each number reads -/

section
variable (k : Core) (c cyc : Nat) {n : Nat}

theorem Core.mfs_x (h : 0x10 ≤ n) (h' : n ≤ 0x17) : k.mfs c cyc n = ((k.xr (n - 0x10)).zeroExtend 32, k) := by
  simp (disch := omega) only [Core.mfs, if_neg, if_pos]

theorem Core.mfs_o (h : 0x18 ≤ n) (h' : n ≤ 0x1F) : k.mfs c cyc n = ((Tbl.get k.o 0 (n - 0x18)).signExtend 32, k) := by
  simp (disch := omega) only [Core.mfs, if_neg, if_pos]

theorem Core.mfs_cb (h : 0x20 ≤ n) (h' : n ≤ 0x27) : k.mfs c cyc n = ((Tbl.get k.cb 0 (n - 0x20)).zeroExtend 32, k) := by
  simp (disch := omega) only [Core.mfs, if_neg, if_pos]

theorem Core.mfs_cl (h : 0x28 ≤ n) (h' : n ≤ 0x2F) : k.mfs c cyc n = ((Tbl.get k.cl 0 (n - 0x28)).zeroExtend 32, k) := by
  simp (disch := omega) only [Core.mfs, if_neg, if_pos]

theorem Core.mfs_lc (h : 0x30 ≤ n) (h' : n ≤ 0x32) : k.mfs c cyc n = ((Tbl.get k.lc 0 (n - 0x30)).zeroExtend 32, k) := by
  simp (disch := omega) only [Core.mfs, if_neg, if_pos]

theorem Core.mfs_ls (h : 0x34 ≤ n) (h' : n ≤ 0x36) : k.mfs c cyc n = (Tbl.get k.ls 0 (n - 0x34), k) := by
  simp (disch := omega) only [Core.mfs, if_neg, if_pos]

theorem Core.mfs_le (h : 0x38 ≤ n) (h' : n ≤ 0x3A) : k.mfs c cyc n = (Tbl.get k.le 0 (n - 0x38), k) := by
  simp (disch := omega) only [Core.mfs, if_neg, if_pos]

/-- A number that the table does not list reads zero. -/
theorem Core.mfs_unlisted (h : n = 3 ∨ (6 ≤ n ∧ n < 0x10) ∨ n = 0x33 ∨ n = 0x37 ∨ 0x3B ≤ n) : k.mfs c cyc n = (0, k) := by
  simp (disch := omega) only [Core.mfs, if_neg]

end

/-- A field in the upper bits and one below it. -/
theorem id_fields : ∀ m < 4, ∀ n < 512, (0 &&& ~~~maskW 31 30 ||| BitVec.ofNat 32 (m * 2 ^ 30)) &&& ~~~maskW 8 0 |||
    BitVec.ofNat 32 (n * 2 ^ 0) = BitVec.ofNat 32 (m * 2 ^ 30 + n) := by
  intro m hm n hn
  have hmask : (0 &&& ~~~maskW 31 30 ||| BitVec.ofNat 32 (m * 2 ^ 30)) &&& ~~~maskW 8 0 = BitVec.ofNat 32 (m * 2 ^ 30) := by
    interval_cases m <;> rfl
  rw [hmask]
  apply BitVec.eq_of_toNat_eq
  rw [BitVec.toNat_or, BitVec.toNat_ofNat, BitVec.toNat_ofNat, BitVec.toNat_ofNat, Nat.mod_eq_of_lt (by omega),
    Nat.mod_eq_of_lt (by omega), Nat.mod_eq_of_lt (by omega), Nat.pow_zero, Nat.mul_one, Nat.mul_comm m,
    ← Nat.two_pow_add_eq_or_of_lt (by omega)]

/-- The core's identity: its tenant's number above its own. -/
theorem coreId_eq (t c : Nat) : putF (putF 0 31 30 t) 8 0 c = BitVec.ofNat 32 (t % 4 * 2 ^ 30 + c % 512) :=
  id_fields _ (Nat.mod_lt _ (by decide)) _ (Nat.mod_lt _ (by decide))

/-! ### What each number takes -/

section
variable (k : Core) {n : Nat} (v : Word)

theorem Core.mts_x (h : 0x10 ≤ n) (h' : n ≤ 0x17) : k.mts n v = .seq (k.setx (n - 0x10) (v.truncate 16)) := by
  simp (disch := omega) only [Core.mts, if_neg, if_pos]

theorem Core.mts_o (h : 0x18 ≤ n) (h' : n ≤ 0x1F) : k.mts n v = .seq { k with o := Tbl.set k.o (n - 0x18) (v.truncate 16) } := by
  simp (disch := omega) only [Core.mts, if_neg, if_pos]

theorem Core.mts_cb (h : 0x20 ≤ n) (h' : n ≤ 0x27) : k.mts n v = .seq { k with cb := Tbl.set k.cb (n - 0x20) (v.truncate 16) } := by
  simp (disch := omega) only [Core.mts, if_neg, if_pos]

theorem Core.mts_cl (h : 0x28 ≤ n) (h' : n ≤ 0x2F) : k.mts n v = .seq { k with cl := Tbl.set k.cl (n - 0x28) (v.truncate 16) } := by
  simp (disch := omega) only [Core.mts, if_neg, if_pos]

theorem Core.mts_lc (h : 0x30 ≤ n) (h' : n ≤ 0x32) : k.mts n v = .seq { k with lc := Tbl.set k.lc (n - 0x30) (v.truncate 16) } := by
  simp (disch := omega) only [Core.mts, if_neg, if_pos]

/-- The bounds of a body are read-only. -/
theorem Core.mts_bound (h : (0x34 ≤ n ∧ n ≤ 0x36) ∨ (0x38 ≤ n ∧ n ≤ 0x3A)) : k.mts n v = .seq k := by
  simp (disch := omega) only [Core.mts, if_neg, if_pos]

theorem Core.mts_unlisted (h : n = 3 ∨ (6 ≤ n ∧ n < 0x10) ∨ n = 0x33 ∨ n = 0x37 ∨ 0x3B ≤ n) : k.mts n v = .fault 1 0 := by
  simp (disch := omega) only [Core.mts, if_neg]

theorem truncate_half (w : Word) : w.truncate 16 = w.extractLsb' 0 16 := BitVec.eq_of_toNat_eq (by simp)

end

/-! ### The instructions -/

section
variable {s : State} {c : Fin 516} {d x : BitVec 5} {n : BitVec 6}

theorem does_mfs : let r := (s.awake c.val).mfs c.val (s.cyc c.val) n.toNat
    Does s c (.mfs c d n) (s.retire c.val (r.2.setg d r.1)) := does_retire rfl rfl rfl

/-- A read that leaves the core as it was. -/
theorem mfs_reads {w : Word} (h : (s.awake c.val).mfs c.val (s.cyc c.val) n.toNat = (w, s.awake c.val)) :
    Does s c (.mfs c d n) (s.retire c.val ((s.awake c.val).setg d w)) := by
  have hd := does_mfs (s := s) (c := c) (d := d) (n := n)
  rwa [h] at hd

theorem mts_writes {k : Core} (h : (s.awake c.val).mts n.toNat ((s.awake c.val).gr x) = .seq k) :
    Does s c (.mts c n x) (s.retire c.val k) := doesK_retire rfl h

end

/-- Settles O15: number by number, or by the range that a number lies in. -/
theorem specialRegisters : Obligations.SpecialRegisters := by
  intro c d x n s k cyc v h reads writes
  have hh : v.truncate 16 = h := truncate_half v
  refine ⟨?st, ?sv, ?id, ?cyc, ?cycHi, fun h1 h2 => ⟨mfs_reads (k.mfs_x _ _ h1 h2), mts_writes (hh ▸ k.mts_x v h1 h2)⟩,
    fun h1 h2 => ⟨mfs_reads (k.mfs_o _ _ h1 h2), mts_writes (hh ▸ k.mts_o v h1 h2)⟩,
    fun h1 h2 => ⟨mfs_reads (k.mfs_cb _ _ h1 h2), mts_writes (hh ▸ k.mts_cb v h1 h2)⟩,
    fun h1 h2 => ⟨mfs_reads (k.mfs_cl _ _ h1 h2), mts_writes (hh ▸ k.mts_cl v h1 h2)⟩,
    fun h1 h2 => ⟨mfs_reads (k.mfs_lc _ _ h1 h2), mts_writes (hh ▸ k.mts_lc v h1 h2)⟩,
    fun h1 h2 => ⟨mfs_reads (k.mfs_ls _ _ h1 h2), mts_writes (k.mts_bound v (.inl ⟨h1, h2⟩))⟩,
    fun h1 h2 => ⟨mfs_reads (k.mfs_le _ _ h1 h2), mts_writes (k.mts_bound v (.inr ⟨h1, h2⟩))⟩,
    fun h1 => ⟨mfs_reads (k.mfs_unlisted _ _ h1), doesK_fault rfl (k.mts_unlisted v h1)⟩⟩
  case st =>
    rintro rfl
    exact ⟨mfs_reads rfl, mts_writes rfl⟩
  case sv =>
    rintro rfl
    exact ⟨mfs_reads rfl, mts_writes rfl⟩
  case id =>
    rintro rfl
    exact ⟨mfs_reads (congrArg (·, k) (coreId_eq _ _)), mts_writes rfl⟩
  case cyc =>
    rintro rfl
    exact ⟨does_mfs, mts_writes rfl⟩
  case cycHi =>
    rintro rfl
    exact ⟨mfs_reads rfl, mts_writes rfl⟩

end Sys2Proof.Machine
end

section
/-! Address registers (R248) and the step they share (R247). -/

namespace Sys2Proof.Machine

section
variable (k : Core) {n : Nat} {m : Int}

/-- Without a circular buffer the step is modulo 2^16. -/
theorem Core.step_linear (m : Int) (h : Tbl.get k.cl 0 n = 0) : k.step n m = BitVec.ofInt 16 ((k.xr n).toNat + m) :=
  if_pos (by rw [h]; rfl)

theorem toNat_ofInt_half {y : Int} (h0 : 0 ≤ y) (h1 : y < 65536) : ((BitVec.ofInt 16 y).toNat : Int) = y := by
  rw [BitVec.toNat_ofInt, Int.toNat_of_nonneg (Int.emod_nonneg _ (by decide)), Int.emod_eq_of_lt h0 (by simpa using h1)]

/-- A step of at most the buffer's length, from a place in the buffer, wraps at most once and stays in it. -/
theorem Core.step_circular (cb cl x : Int) (hb : cb = (Tbl.get k.cb 0 n).toNat) (hl : cl = (Tbl.get k.cl 0 n).toNat)
    (hx : x = (k.xr n).toNat) (h0 : cl ≠ 0) (hlo : cb ≤ x) (hhi : x < cb + cl) (htop : cb + cl ≤ 65536) (hm : m ≤ cl)
    (hm' : -cl ≤ m) : cb ≤ (k.step n m).toNat ∧ ((k.step n m).toNat : Int) < cb + cl ∧
      ∃ j : Int, ((k.step n m).toNat : Int) = x + m + j * cl := by
  have hcb : 0 ≤ cb := by omega
  have h (y : Int) (j : Int) (hs : k.step n m = BitVec.ofInt 16 y) (hy : cb ≤ y) (hy' : y < cb + cl) (hj : y = x + m + j * cl) :
      cb ≤ (k.step n m).toNat ∧ ((k.step n m).toNat : Int) < cb + cl ∧
        ∃ j : Int, ((k.step n m).toNat : Int) = x + m + j * cl := by
    rw [hs, toNat_ofInt_half (by omega) (by omega)]
    exact ⟨hy, hy', j, hj⟩
  have hs : k.step n m = BitVec.ofInt 16 (let y := if cb + cl ≤ x + m then x + m - cl else x + m
      if y < cb then y + cl else y) := by
    subst hb hl hx
    exact if_neg h0
  by_cases hu : cb + cl ≤ x + m
  · refine h (x + m - cl) (-1) ?_ (by omega) (by omega) (by omega)
    rw [hs, if_pos hu]
    exact congrArg _ (if_neg (by omega))
  · by_cases hd : x + m < cb
    · refine h (x + m + cl) 1 ?_ (by omega) (by omega) (by omega)
      rw [hs, if_neg hu]
      exact congrArg _ (if_pos hd)
    · refine h (x + m) 0 ?_ (by omega) (by omega) (by omega)
      rw [hs, if_neg hu]
      exact congrArg _ (if_neg hd)

end

/-- Settles O16: each instruction writes one table entry; the step by its two cases. -/
theorem addressRegisters : Obligations.AddressRegisters := by
  refine ⟨fun c n imm x s => ?_, fun k n m h => k.step_linear m h, ?_⟩
  · intro k i
    refine ⟨doesK_retire rfl rfl, doesK_retire rfl rfl, doesK_retire rfl rfl, doesK_retire rfl rfl, doesK_retire rfl rfl, ?_⟩
    rw [← truncate_half]
    exact doesK_retire rfl rfl
  · intro k n m cb cl x h0 hlo hhi htop hm hm'
    exact k.step_circular cb cl x rfl rfl rfl h0 hlo hhi htop hm hm'

end Sys2Proof.Machine
end

section
/-! What the steps of an LDM access leave of a core (R237, R246, R257): each writes few fields. -/

namespace Sys2Proof.Machine

variable {s : State} {k : Core} {c n a size : Nat}

/-! ### The address (R246) -/

theorem Core.addr_lt (pm : Nat) (disp size : Int) : (k.addr n pm disp size).1 < 65536 := by
  unfold Core.addr
  split <;> exact BitVec.isLt _

/-- Post-modification writes the address register. -/
theorem Core.addr_core (k : Core) (n pm : Nat) (disp size : Int) :
    (k.addr n pm disp size).2 = { k with x := (k.addr n pm disp size).2.x } := by
  unfold Core.addr
  split <;> rfl

@[simp] theorem Core.addr_win (k : Core) (n pm : Nat) (disp size : Int) : (k.addr n pm disp size).2.win = k.win := by
  rw [Core.addr_core]
@[simp] theorem Core.addr_slots (k : Core) (n pm : Nat) (disp size : Int) : (k.addr n pm disp size).2.slots = k.slots := by
  rw [Core.addr_core]
@[simp] theorem Core.addr_ldm (k : Core) (n pm : Nat) (disp size : Int) : (k.addr n pm disp size).2.ldm = k.ldm := by
  rw [Core.addr_core]
@[simp] theorem Core.addr_acc (k : Core) (n pm : Nat) (disp size : Int) : (k.addr n pm disp size).2.acc = k.acc := by
  rw [Core.addr_core]

/-! ### Corrected bit errors (R237) -/

theorem State.satRf_cores (s : State) (r : RegName) (i hi lo : Nat) : (s.satRf r i hi lo).cores = s.cores := by
  unfold State.satRf
  split <;> rfl

theorem State.scrubLdm_cores (s : State) (c : Nat) (k : Core) (a size : Nat) : (s.scrubLdm c k a size).1.cores = s.cores := by
  unfold State.scrubLdm
  split
  · rfl
  · refine List.foldlRecOn (motive := fun p : State × Core => p.1.cores = s.cores) _ _ rfl fun p hp u _ => ?_
    split
    · exact (State.satRf_cores _ _ _ _ _).trans hp
    · exact hp

theorem State.scrubLdm_core (s : State) (c : Nat) (k : Core) (a size : Nat) :
    (s.scrubLdm c k a size).2 = { k with ldmErr := (s.scrubLdm c k a size).2.ldmErr } := by
  unfold State.scrubLdm
  split
  · rfl
  · refine List.foldlRecOn (motive := fun p : State × Core => p.2 = { k with ldmErr := p.2.ldmErr }) _ _ rfl fun p hp u _ => ?_
    split
    · exact congrArg (fun x : Core => { x with ldmErr := Tbl.del p.2.ldmErr u }) hp
    · exact hp

/-! ### Loop ends (R257) -/

theorem Core.loopEnd_fields (p : Word) (n : Nat) (seen : List Nat) (k : Core) :
    ∃ lc act pc, Core.loopEnd p n seen k = { k with lc := lc, act := act, pc := pc } := by
  induction n generalizing seen k with
  | zero => exact ⟨_, _, _, rfl⟩
  | succ n ih =>
    cases h : k.loopAt p seen with
    | none => exact ⟨_, _, _, Core.loopEnd_none h⟩
    | some l =>
      by_cases hc : (Tbl.get k.lc 0 l).toNat ≤ 1
      · rw [Core.loopEnd_last h hc]
        exact ih _ _
      · exact ⟨_, _, _, Core.loopEnd_again h (Nat.lt_of_not_le hc)⟩

/-- A loop end writes the counts and the activity of levels, and the place where the core goes on. -/
theorem Core.loopEnd_core (p : Word) (n : Nat) (seen : List Nat) (k : Core) : Core.loopEnd p n seen k = { k with
    lc := (Core.loopEnd p n seen k).lc, act := (Core.loopEnd p n seen k).act, pc := (Core.loopEnd p n seen k).pc } := by
  obtain ⟨lc, act, pc, h⟩ := Core.loopEnd_fields p n seen k
  rw [h]

/-! ### Flags (R240) -/

theorem Core.flag_core (k : Core) (i : Nat) (b : Bool) : k.flag i b = { k with st := (k.flag i b).st } := by
  unfold Core.flag
  split <;> rfl

/-! ### Bytes stored (R235, R246) -/

/-- The bytes that a store of `n` bytes writes, with their addresses. -/
def storeBytes (a n v : Nat) : List (Byte × Nat) := (toLe n v).zip ((List.range n).map fun i => (a + i) % 65536)

theorem storeBytes_succ (a n v : Nat) :
    storeBytes a (n + 1) v = (BitVec.ofNat 8 v, a % 65536) :: storeBytes (a + 1) n (v / 256) := by
  unfold storeBytes
  rw [List.range_succ_eq_map, List.map_cons, List.map_map, toLe, List.zip_cons_cons]
  congr 3
  funext i
  exact congrArg (· % 65536) (by simp only [Nat.succ_eq_add_one]; omega)

section
variable {w : List Host.Cell → Byte × Nat → List Host.Cell} {pos : Nat → Nat} {m : List Host.Cell} {v : Nat}

/-- A byte that no store of the run writes. -/
theorem Mem.get_stores_out {x : Nat} (hw : ∀ m b p, x ≠ pos p → Mem.get (w m (b, p)) x = Mem.get m x)
    (hx : ∀ j, j < n → x ≠ pos ((a + j) % 65536)) : Mem.get ((storeBytes a n v).foldl w m) x = Mem.get m x := by
  induction n generalizing a v m with
  | zero => rfl
  | succ n ih =>
    rw [storeBytes_succ, List.foldl_cons, ih fun j hj => ?_]
    · exact hw _ _ _ (hx 0 (Nat.succ_pos n))
    · rw [Nat.add_assoc, Nat.add_comm 1]
      exact hx (j + 1) (by omega)

/-- Byte `j` of a run of stores, at its own place. -/
theorem Mem.get_stores_in {j : Nat} (hj : j < n) (hn : n ≤ 65536)
    (hin : ∀ m b, Mem.get (w m (b, (a + j) % 65536)) (pos ((a + j) % 65536)) = b)
    (hout : ∀ m b p q, q ≠ pos p → Mem.get (w m (b, p)) q = Mem.get m q) (hpos : ∀ p q, pos p = pos q → p = q) :
    Mem.get ((storeBytes a n v).foldl w m) (pos ((a + j) % 65536)) = BitVec.ofNat 8 (v / 256 ^ j) := by
  induction n generalizing a v m j with
  | zero => exact absurd hj (Nat.not_lt_zero j)
  | succ n ih =>
    rw [storeBytes_succ, List.foldl_cons]
    cases j with
    | zero =>
      rw [Mem.get_stores_out (hout · · · _) fun i hi e => ?_]
      · simpa using hin m (BitVec.ofNat 8 v)
      · have := hpos _ _ e
        omega
    | succ j =>
      have he : a + (j + 1) = a + 1 + j := by omega
      rw [he] at hin ⊢
      rw [ih (by omega) (by omega) hin, Nat.div_div_eq_div_mul, Nat.pow_succ, Nat.mul_comm 256]

end

/-! ### Reading what was stored -/

section
variable {v b : Nat}

theorem isCtl_of_le (h : 512 ≤ c) : isCtl c = true := decide_eq_true h
theorem isCtl_of_lt (h : c < 512) : isCtl c = false := decide_eq_false (Nat.not_le_of_lt h)

theorem State.ldByte_ctl (h : 512 ≤ c) : s.ldByte c k b = Mem.get s.csram (k.win.toNat * 65536 + b % 65536) :=
  if_pos (isCtl_of_le h)

theorem State.ldByte_ldm (h : c < 512) (hb : b % 65536 < 0xFF00) : s.ldByte c k b = Mem.get k.ldm (b % 65536) := by
  have h1 : ¬0xFF40 ≤ b % 65536 := by omega
  have h2 : ¬0xFF00 ≤ b % 65536 := by omega
  simp only [State.ldByte, isCtl_of_lt h, Bool.false_eq_true, if_false, if_neg h1, if_neg h2]

/-- A byte read depends on the control SRAM and the core's window, slots and LDM alone. -/
theorem State.ldByte_congr {t : State} {u : Core} (hs : t.csram = s.csram) (hw : u.win = k.win) (hl : u.slots = k.slots)
    (hd : u.ldm = k.ldm) : t.ldByte c u b = s.ldByte c k b := by
  unfold State.ldByte
  rw [hs, hw, hl, hd]

/-- The prefetch slots and what lies above them show nothing of the LDM. -/
theorem State.ldByte_slots {t : State} {u : Core} (h : c < 512) (hb : 0xFF00 ≤ b % 65536) (hl : u.slots = k.slots) :
    t.ldByte c u b = s.ldByte c k b := by
  simp only [State.ldByte, isCtl_of_lt h, Bool.false_eq_true, if_false, if_pos hb, hl]

theorem State.stN_ctl (h : 512 ≤ c) : s.stN c k a n v = ({ s with
    csram := (storeBytes a n v).foldl (fun m p => Mem.put m (k.win.toNat * 65536 + p.2) p.1) s.csram }, k) :=
  if_pos (isCtl_of_le h)

/-- A media core's store changes its LDM below the slots and the marks of its bit errors. -/
theorem State.stN_media (h : c < 512) : s.stN c k a n v = (s, { k with
    ldm := (storeBytes a n v).foldl (fun m p => if 0xFF00 ≤ p.2 then m else Mem.put m p.2 p.1) k.ldm
    ldmErr := (s.stN c k a n v).2.ldmErr }) := by
  unfold State.stN
  rw [isCtl_of_lt h]
  rfl

theorem State.stN_core (s : State) (c : Nat) (k : Core) (a n v : Nat) : (s.stN c k a n v).2 =
    { k with ldm := (s.stN c k a n v).2.ldm, ldmErr := (s.stN c k a n v).2.ldmErr } := by
  unfold State.stN
  split <;> rfl

theorem State.stN_state (s : State) (c : Nat) (k : Core) (a n v : Nat) :
    (s.stN c k a n v).1 = { s with csram := (s.stN c k a n v).1.csram } := by
  unfold State.stN
  split <;> rfl

theorem State.ldByte_stN_in {j : Nat} (hj : j < n) (hn : n ≤ 65536) (h : 512 ≤ c ∨ (a + j) % 65536 < 0xFF00) :
    (s.stN c k a n v).1.ldByte c (s.stN c k a n v).2 (a + j) = BitVec.ofNat 8 (v / 256 ^ j) := by
  by_cases hc : 512 ≤ c
  · rw [State.stN_ctl hc, State.ldByte_ctl hc]
    exact Mem.get_stores_in (pos := fun p => k.win.toNat * 65536 + p) hj hn (fun _ _ => Mem.get_put_same _ _ _)
      (fun _ _ _ _ hq => Mem.get_put_ne _ _ hq) fun _ _ => Nat.add_left_cancel
  · have hlow : (a + j) % 65536 < 0xFF00 := h.resolve_left hc
    rw [State.stN_media (by omega), State.ldByte_ldm (by omega) hlow]
    refine Mem.get_stores_in (pos := id) hj hn (fun m b => ?_) (fun m b p q hq => ?_) fun _ _ => id
    · rw [if_neg (Nat.not_le_of_lt hlow)]
      exact Mem.get_put_same _ _ _
    · dsimp only
      split
      · rfl
      · exact Mem.get_put_ne _ _ hq

theorem State.ldByte_stN_out (h : (∀ j, j < n → b % 65536 ≠ (a + j) % 65536) ∨ (c < 512 ∧ 0xFF00 ≤ b % 65536)) :
    (s.stN c k a n v).1.ldByte c (s.stN c k a n v).2 b = s.ldByte c k b := by
  by_cases hc : 512 ≤ c
  · have hb := h.resolve_right (by omega)
    rw [State.stN_ctl hc, State.ldByte_ctl hc, State.ldByte_ctl hc]
    exact Mem.get_stores_out (pos := fun p => k.win.toNat * 65536 + p) (fun _ _ _ hp => Mem.get_put_ne _ _ hp)
      fun j hj e => hb j hj (Nat.add_left_cancel e)
  · by_cases hlow : b % 65536 < 0xFF00
    · have hb := h.resolve_right (by omega)
      rw [State.stN_media (by omega), State.ldByte_ldm (by omega) hlow, State.ldByte_ldm (by omega) hlow]
      refine Mem.get_stores_out (pos := id) (fun m b p hp => ?_) hb
      dsimp only
      split
      · rfl
      · exact Mem.get_put_ne _ _ hp
    · refine State.ldByte_slots (by omega) (by omega) ?_
      rw [State.stN_core]

theorem State.csram_stN {x : Nat} (h : c < 512 ∨ ∀ j, j < n → x ≠ k.win.toNat * 65536 + (a + j) % 65536) :
    Mem.get (s.stN c k a n v).1.csram x = Mem.get s.csram x := by
  by_cases hc : 512 ≤ c
  · rw [State.stN_ctl hc]
    exact Mem.get_stores_out (pos := fun p => k.win.toNat * 65536 + p) (fun _ _ _ hp => Mem.get_put_ne _ _ hp)
      (h.resolve_left (by omega))
  · rw [State.stN_media (by omega)]

end

/-! ### What a store leaves in the device -/

/-- `t` is `s` after core `c` has stored the `n` low bytes of `v` from address `a` on, through the window `w`. -/
structure State.LdmStored (s t : State) (c w a n v : Nat) : Prop where
  bytes : ∀ j, j < n → (512 ≤ c ∨ (a + j) % 65536 < 0xFF00) →
    t.ldByte c (t.core c) (a + j) = BitVec.ofNat 8 (v / 256 ^ j)
  other : ∀ b, b < 65536 → ((∀ j, j < n → b ≠ (a + j) % 65536) ∨ (c < 512 ∧ 0xFF00 ≤ b)) →
    t.ldByte c (t.core c) b = s.ldByte c (s.core c) b
  cores : ∀ c', c' ≠ c → t.core c' = s.core c'
  csram : ∀ x, (c < 512 ∨ ∀ j, j < n → x ≠ w * 65536 + (a + j) % 65536) → Mem.get t.csram x = Mem.get s.csram x
  rest : { t with cores := s.cores, csram := s.csram } = s

/-- A store through a core `k` that reads as the core that stands, whose result `u` goes on with other fields changed. -/
theorem State.ldmStored {u : Core} {v : Nat} (hn : n ≤ 65536) (hw : k.win = (s.core c).win) (hl : k.slots = (s.core c).slots)
    (hd : k.ldm = (s.core c).ldm) (hu : u = { u with
      win := k.win, slots := k.slots, ldm := (s.stN c k a n v).2.ldm }) :
    s.LdmStored ((s.stN c k a n v).1.setCore c u) c k.win.toNat a n v := by
  have hread (b : Nat) : ((s.stN c k a n v).1.setCore c u).ldByte c (((s.stN c k a n v).1.setCore c u).core c) b =
      (s.stN c k a n v).1.ldByte c (s.stN c k a n v).2 b := by
    rw [State.core_setCore_same, hu]
    refine State.ldByte_congr rfl ?_ ?_ rfl
    · rw [State.stN_core]
    · rw [State.stN_core]
  constructor
  case bytes => exact fun j hj h => (hread _).trans (State.ldByte_stN_in hj hn h)
  case other =>
    intro b hb h
    rw [hread, State.ldByte_stN_out (by rwa [Nat.mod_eq_of_lt hb])]
    exact State.ldByte_congr rfl hw hl hd
  case cores =>
    intro c' hc
    rw [State.core_setCore_ne _ _ hc, State.stN_state]
    rfl
  case csram => exact fun x h => State.csram_stN h
  case rest =>
    rw [State.stN_state]
    rfl

end Sys2Proof.Machine
end

section
/-! Loads and stores of the LDM (R246) and their faults (R236, R237, R249). -/

namespace Sys2Proof.Machine

variable {s : State} {c : Fin 516} {i : Instr} {r : BitVec 5} {n : BitVec 3} {pm : BitVec 2} {disp : Half} {size : Nat}

/-- A displacement stands only where nothing is post-modified, and a pair is even: the encoding is no ILLEGAL one. -/
theorem l_format_legal (hp : pm = 0 ∨ disp = 0) (ho : size = 8 → oddPair r = false) :
    ¬((decide (size = 8) && oddPair r) || (pm != 0 && disp != 0)) = true := by
  have hpm : (pm != 0 && disp != 0) = false := by
    rcases hp with rfl | rfl
    · rfl
    · exact Bool.and_false _
  rw [hpm, Bool.or_false]
  by_cases hs : size = 8
  · simp [ho hs]
  · simp [hs]

/-- The shorter accesses name no pair. -/
theorem no_pair {p : Prop} (h : size ≠ 8) : size = 8 → p := fun e => absurd e h

/-! ### What an access does where its encoding is legal -/

section
variable (hp : pm = 0 ∨ disp = 0) (ho : size = 8 → oddPair r = false)
include hp ho

/-- A load without a fault. -/
theorem does_load {put : Core → Nat → Core}
    (he : exec i s = s.issue c i fun s => .next (loadL s c.val r n pm disp size put)) :
    let k := s.awake c.val
    let q := k.addr n.toNat pm.toNat disp.toInt size
    let t := s.scrubLdm c.val q.2 q.1 size
    s.ldmFault c.val k n.toNat q.1 size size true = 0 →
      Does s c i (t.1.retire c.val (put t.2 (s.ldN c.val k q.1 size))) := by
  intro k q t hf
  exact does_retire he ((if_neg (l_format_legal hp ho)).trans (if_neg (not_not.mpr hf))) (s.scrubLdm_cores _ _ _ _)

theorem load_faults {put : Core → Nat → Core} {cause : Nat}
    (he : exec i s = s.issue c i fun s => .next (loadL s c.val r n pm disp size put))
    (hf : s.ldmFault c.val (s.awake c.val) n.toNat ((s.awake c.val).addr n.toNat pm.toNat disp.toInt size).1 size size true = cause)
    (h0 : cause ≠ 0) :
    Does s c i (s.coreFault c.val cause ((s.awake c.val).addr n.toNat pm.toNat disp.toInt size).1) := by
  subst hf
  exact does_fault he ((if_neg (l_format_legal hp ho)).trans (if_pos h0))

/-- A store without a fault. -/
theorem does_store {val : Core → Nat}
    (he : exec i s = s.issue c i fun s => .next (storeL s c.val r n pm disp size val)) :
    let k := s.awake c.val
    let q := k.addr n.toNat pm.toNat disp.toInt size
    let t := s.stN c.val q.2 q.1 size (val k)
    s.ldmFault c.val k n.toNat q.1 size size false = 0 →
      Does s c i (t.1.setCore c.val (Core.loopEnd (s.core c.val).pc 3 [] t.2)) := by
  intro k q t hf
  exact does_seq he ((if_neg (l_format_legal hp ho)).trans (if_neg (not_not.mpr hf)))

theorem store_faults {val : Core → Nat} {cause : Nat}
    (he : exec i s = s.issue c i fun s => .next (storeL s c.val r n pm disp size val))
    (hf : s.ldmFault c.val (s.awake c.val) n.toNat ((s.awake c.val).addr n.toNat pm.toNat disp.toInt size).1 size size false = cause)
    (h0 : cause ≠ 0) :
    Does s c i (s.coreFault c.val cause ((s.awake c.val).addr n.toNat pm.toNat disp.toInt size).1) := by
  subst hf
  exact does_fault he ((if_neg (l_format_legal hp ho)).trans (if_pos h0))

end

/-! ### Addresses -/

/-- A displacement is signed, and the sum wraps. -/
theorem Core.addr_disp (k : Core) (n : Nat) (size : Int) :
    k.addr n 0 disp.toInt size = (((k.xr n).toNat + disp.toNat) % 65536, k) := by
  refine congrArg (·, k) ?_
  have h : BitVec.ofInt 16 ((k.xr n).toNat + disp.toInt) = k.xr n + disp := by
    rw [BitVec.ofInt_add, BitVec.ofInt_toInt, BitVec.ofInt_natCast, BitVec.ofNat_toNat, BitVec.setWidth_eq]
  exact (congrArg BitVec.toNat h).trans (BitVec.toNat_add _ _)

/-- Post-modification by the offset register, by the size upwards, and by the size downwards. -/
theorem Core.addr_post (k : Core) (n : Nat) (hpm : pm ≠ 0) :
    k.addr n pm.toNat disp.toInt size = ((k.xr n).toNat, k.setx n (k.step n
      (if pm = 1 then (Tbl.get k.o 0 n).toInt else if pm = 2 then (size : Int) else -(size : Int)))) := by
  have h : pm = 1 ∨ pm = 2 ∨ pm = 3 := by
    revert pm
    decide
  rcases h with rfl | rfl | rfl
  · rw [if_pos rfl]
    rfl
  · rw [if_neg (by decide), if_pos rfl]
    rfl
  · rw [if_neg (by decide), if_neg (by decide)]
    rfl

/-- Settles O17: a load without a fault, and the two kinds of address. -/
theorem loadResults : Obligations.LoadResults := by
  intro c r n pm disp s k gives
  have hld {i : Instr} {size : Nat} {put : Core → Nat → Core} (hp : pm = 0 ∨ disp = 0) (ho : size = 8 → oddPair r = false)
      (he : exec i s = s.issue c i fun s => .next (loadL s c.val r n pm disp size put)) : gives i size put :=
    fun hf => does_load hp ho he hf
  refine ⟨fun hp => ?_, ?_, ?_⟩
  · have hH := hld (i := .ldH c r n pm disp) hp (no_pair (by decide)) rfl
    have hHu := hld (i := .ldHu c r n pm disp) hp (no_pair (by decide)) rfl
    have hW := hld (i := .ldW c r n pm disp) hp (no_pair (by decide)) rfl
    refine ⟨hH, hHu, hW, fun ho => ?_⟩
    have hD := hld (i := .ldD c r n pm disp) hp (fun _ => ho) rfl
    have h32 (k : Core) (v : Nat) : k.setg r (BitVec.ofNat 32 (v % 2 ^ 32)) = k.setg r (BitVec.ofNat 32 v) :=
      congrArg _ (BitVec.eq_of_toNat_eq (by simp))
    simp only [h32]
    exact hD
  · rintro rfl size
    exact k.addr_disp n.toNat size
  · exact fun hpm size => k.addr_post n.toNat hpm

/-! ### Stores -/

/-- An access that raises no fault is aligned. -/
theorem aligned_of_no_fault {k : Core} {n a size' : Nat} {rd : Bool} (h : s.ldmFault c.val k n a size size' rd = 0) :
    a % size = 0 := by
  by_contra ha
  exact absurd ((if_pos ha).symm.trans h) (by decide)

/-- An aligned access does not wrap. -/
theorem aligned_end {a : Nat} (hs : size = 2 ∨ size = 4 ∨ size = 8) (ha : a % size = 0) (hlt : a < 65536) : a + size ≤ 65536 := by
  rcases hs with rfl | rfl | rfl <;> omega

/-- Settles O18: what a store leaves in the device, at an address that does not wrap. -/
theorem storeResults : Obligations.StoreResults := by
  intro c r n pm disp s hp k stores
  have hst {i : Instr} {size : Nat} {val : Core → Nat} (hs : size = 2 ∨ size = 4 ∨ size = 8)
      (ho : size = 8 → oddPair r = false) (he : exec i s = s.issue c i fun s => .next (storeL s c.val r n pm disp size val))
      {v : Nat} (hv : val k = v) : stores i size v := by
    subst hv
    unfold stores
    intro q hi hf
    have hw : q.2.win = k.win := k.addr_win _ _ _ _
    have hend := aligned_end hs (aligned_of_no_fault hf) (Core.addr_lt (k := k) _ _ _)
    have hmod {j : Nat} (hj : j < size) : (q.1 + j) % 65536 = q.1 + j := Nat.mod_eq_of_lt (by omega)
    have hst : s.LdmStored _ c.val q.2.win.toNat q.1 size (val k) := State.ldmStored
      (u := Core.loopEnd (s.core c.val).pc 3 [] (s.stN c.val q.2 q.1 size (val k)).2) (by omega) hw (k.addr_slots _ _ _ _)
      (k.addr_ldm _ _ _ _) (by rw [Core.loopEnd_core, State.stN_core])
    refine ⟨_, does_store hp ho he hf hi, fun j hj h => ?_, fun b hb h => ?_, hst.cores, fun a h => ?_, hst.rest, ?_⟩
    · rw [hst.bytes j hj (by rwa [hmod hj]), Nat.pow_mul]
    · refine hst.other b hb ?_
      rcases h with h | h | h
      · exact .inl fun j hj => by
          rw [hmod hj]
          omega
      · exact .inl fun j hj => by
          rw [hmod hj]
          omega
      · exact .inr h
    · refine hst.csram a (h.imp_right fun h j hj => ?_)
      rw [hmod hj, hw]
      omega
    · rw [State.core_setCore_same, Core.loopEnd_core, State.stN_core, show q.2 = _ from k.addr_core _ _ _ _]
  exact ⟨hst (.inl rfl) (no_pair (by decide)) rfl rfl, hst (.inr (.inl rfl)) (no_pair (by decide)) rfl rfl, fun ho =>
    hst (.inr (.inr rfl)) (fun _ => ho) rfl rfl⟩

/-! ### Faults -/

section
variable {k : Core} {x a al : Nat} {rd : Bool}

theorem ldmFault_align {n : Nat} (h : a % al ≠ 0) : s.ldmFault n k x a al size rd = 3 := if_pos h

theorem ldmFault_stack {n : Nat} (h : a % al = 0) (hx : x = 7 ∧ (a < 0xE000 ∨ 0xFF00 ≤ a)) : s.ldmFault n k x a al size rd = 4 :=
  (if_neg (not_not.mpr h)).trans (if_pos hx)

/-- A double-bit error in the first unit of a media core's read. -/
theorem ldmFault_ecc {n : Nat} (h : a % al = 0) (hx : ¬(x = 7 ∧ (a < 0xE000 ∨ 0xFF00 ≤ a))) (hn : n < 512)
    (he : Tbl.find k.ldmErr (a / 8) = some true) : s.ldmFault n k x a al size true = 7 := by
  have hu : (units a size).any (fun u => Tbl.find k.ldmErr u == some true) = true := by
    unfold units
    split <;> simp [he]
  refine (if_neg (not_not.mpr h)).trans ((if_neg hx).trans (if_pos ?_))
  rw [isCtl_of_lt hn, hu]
  rfl

end

/-- Settles O19: the first fault of R236, R249 and R237 that an access meets, for a load and for a store. -/
theorem ldmFaults : Obligations.LdmFaults := by
  intro c r n pm disp s hp k faults
  have h7 : n = 7 ↔ n.toNat = 7 := BitVec.toNat_inj.symm
  have hld {i : Instr} {size : Nat} {put : Core → Nat → Core} (ho : size = 8 → oddPair r = false)
      (he : exec i s = s.issue c i fun s => .next (loadL s c.val r n pm disp size put)) : faults i size true :=
    ⟨fun ha => load_faults hp ho he (ldmFault_align ha) (by decide),
      fun ha hn hs => load_faults hp ho he (ldmFault_stack ha ⟨h7.mp hn, hs⟩) (by decide),
      fun ha hn _ hc hx => load_faults hp ho he (ldmFault_ecc ha (by rwa [← h7]) hc hx) (by decide)⟩
  have hst {i : Instr} {size : Nat} {val : Core → Nat} (ho : size = 8 → oddPair r = false)
      (he : exec i s = s.issue c i fun s => .next (storeL s c.val r n pm disp size val)) : faults i size false :=
    ⟨fun ha => store_faults hp ho he (ldmFault_align ha) (by decide),
      fun ha hn hs => store_faults hp ho he (ldmFault_stack ha ⟨h7.mp hn, hs⟩) (by decide), fun _ _ h => nomatch h⟩
  exact ⟨hld (no_pair (by decide)) rfl, hld (no_pair (by decide)) rfl, hld (no_pair (by decide)) rfl, hst (no_pair (by decide)) rfl, hst (no_pair (by decide)) rfl, fun ho =>
    ⟨hld (fun _ => ho) rfl, hst (fun _ => ho) rfl⟩⟩

end Sys2Proof.Machine
end

section
/-! Vector instructions over accumulators (R253, R254). -/

namespace Sys2Proof.Machine

variable {s : State} {c : Fin 516} {i : Instr}

/-! ### Rounding, clamping and wrapping -/

/-- Halves round towards +∞; a shift of zero rounds nothing. -/
theorem rndV_eq (v : Int) (sh : BitVec 5) :
    rndV v sh.toNat = (v + (if sh = 0 then 0 else 2 ^ (sh.toNat - 1))) / 2 ^ sh.toNat := by
  by_cases h : sh = 0
  · subst h
    simp [rndV]
  · have h0 : sh.toNat ≠ 0 := fun e => h (BitVec.eq_of_toNat_eq e)
    rw [rndV, if_neg h0, if_neg h]

theorem satI_eq (n : Nat) (v : Int) : satI n v = max (-2 ^ (n - 1)) (min (2 ^ (n - 1) - 1) v) := by
  have hp : (0 : Int) < 2 ^ (n - 1) := by positivity
  unfold satI
  push_cast
  generalize (2 : Int) ^ (n - 1) = h at hp
  split_ifs <;> omega

theorem clamps_eq (n : Nat) (v : Int) : clamps n v = decide (satI n v ≠ v) := by
  rw [clamps, Bool.eq_iff_iff, bne_iff_ne, decide_eq_true_iff]

/-- A value wraps exactly outside the signed range of 40 bits. -/
theorem wraps40_eq (v : Int) : wraps40 v = decide (v < -2 ^ 39 ∨ 2 ^ 39 ≤ v) := by
  rw [wraps40, Bool.eq_iff_iff, bne_iff_ne, decide_eq_true_iff, BitVec.toInt_ofInt, Int.bmod_def]
  split_ifs <;> omega

/-! ### Multiplications -/

section
variable {acc : Nat} {f : Int → Int → Int → Int} {aov : Bool}

/-- An accumulator with its four lanes set, and AOV where a lane wraps. -/
def Core.accSet (k : Core) (acc : Nat) (aov : Bool) (v : Nat → Int) : Core :=
  if aov then (k.setAcc acc v).flag 2 ((List.range 4).any fun i => wraps40 (v i)) else k.setAcc acc v

theorem does_mac_vr {p q : BitVec 5} (hp : oddPair p = false) (hq : oddPair q = false)
    (he : exec i s = s.issue c i fun s => .next (vecMac s c.val acc (.vr p q) f aov)) :
    let k := s.awake c.val
    Does s c i (s.retire c.val (k.accSet acc aov fun j => f (k.accL acc j) (k.lane p j).toInt (k.lane q j).toInt)) := by
  have ho : ¬(oddPair p || oddPair q) = true := by simp [hp, hq]
  exact does_retire he (if_neg ho) rfl

theorem State.vmRead_acc (s : State) (c : Nat) (k : Core) (n pm : Nat) : (s.vmRead c k n pm).2.2.acc = k.acc := k.addr_acc n pm 0 8

theorem State.scrubLdm_acc (s : State) (c : Nat) (k : Core) (a size : Nat) : (s.scrubLdm c k a size).2.acc = k.acc := by
  rw [State.scrubLdm_core]

/-- Both vectors are read before the single-bit errors that they met are corrected. -/
theorem does_mac_vm {xA xB : BitVec 3} {mA mB : BitVec 2}
    (he : exec i s = s.issue c i fun s => .next (vecMac s c.val acc (.vm xA mA xB mB) f aov)) :
    let k := s.awake c.val
    let rA := s.vmRead c.val k xA.toNat mA.toNat
    let rB := s.vmRead c.val rA.2.2 xB.toNat mB.toNat
    let u := s.scrubLdm c.val rB.2.2 rA.2.1 8
    let u' := u.1.scrubLdm c.val u.2 rB.2.1 8
    rA.1 = 0 → rB.1 = 0 → Does s c i (u'.1.retire c.val (u'.2.accSet acc aov fun j =>
      f (k.accL acc j) (s.lanesAt c.val k rA.2.1 j) (s.lanesAt c.val k rB.2.1 j))) := by
  intro k rA rB u u' hA hB
  have hacc : k.acc = u'.2.acc := by
    rw [State.scrubLdm_acc, State.scrubLdm_acc, State.vmRead_acc, State.vmRead_acc]
  have hL : k.accL acc = u'.2.accL acc := by
    funext j
    rw [Core.accL, Core.accL, hacc]
  rw [hL]
  exact does_retire he ((if_neg (not_not.mpr hA)).trans (if_neg (not_not.mpr hB)))
    ((State.scrubLdm_cores _ _ _ _ _).trans (State.scrubLdm_cores _ _ _ _ _))

end

/-! ### Loads -/

section
variable {acc : BitVec 2} {sh : BitVec 5}

theorem vld_vr {p : BitVec 5} (hs : sh.toNat ≤ 23) (hp : oddPair p = false) : Does s c (.vld c acc (.vr p) sh)
    (s.retire c.val ((s.awake c.val).setAcc acc.toNat fun i => ((s.awake c.val).lane p i).toInt * 2 ^ sh.toNat)) :=
  does_retire rfl ((if_neg (by omega)).trans (if_neg (by rw [hp]; decide))) rfl

theorem vld_vm {x : BitVec 3} {pm : BitVec 2} (hs : sh.toNat ≤ 23) :
    let k := s.awake c.val
    let r := s.vmRead c.val k x.toNat pm.toNat
    let w := s.scrubLdm c.val r.2.2 r.2.1 8
    r.1 = 0 → Does s c (.vld c acc (.vm x pm) sh)
      (w.1.retire c.val (w.2.setAcc acc.toNat fun i => s.lanesAt c.val k r.2.1 i * 2 ^ sh.toNat)) := by
  intro k r w hr
  exact does_retire rfl ((if_neg (by omega)).trans (if_neg (not_not.mpr hr))) (State.scrubLdm_cores _ _ _ _ _)

/-! ### Stores -/

/-- The lanes that `vst` stores, and whether one of them is clamped. -/
def Core.vstLane (k : Core) (acc : BitVec 2) (sh : BitVec 5) (i : Nat) : Half :=
  BitVec.ofInt 16 (satI 16 (rndV (k.accL acc.toNat i) sh.toNat))
def Core.vstClamps (k : Core) (acc : BitVec 2) (sh : BitVec 5) : Bool :=
  (List.range 4).any fun i => clamps 16 (rndV (k.accL acc.toNat i) sh.toNat)

theorem vst_vr {p : BitVec 5} (hp : oddPair p = false) : Does s c (.vst c acc (.vr p) sh)
    (s.retire c.val (((s.awake c.val).setLanes p ((s.awake c.val).vstLane acc sh)).flag 0 ((s.awake c.val).vstClamps acc sh))) :=
  does_retire rfl (if_neg (by rw [hp]; decide)) rfl

/-- Four lanes as the number that a 64-bit store takes. -/
def lanesNat (v : Nat → Half) : Nat := (v 0).toNat + 2 ^ 16 * (v 1).toNat + 2 ^ 32 * (v 2).toNat + 2 ^ 48 * (v 3).toNat

theorem byte_lanesNat (v : Nat → Half) {j : Nat} (hj : j < 8) :
    BitVec.ofNat 8 (lanesNat v / 256 ^ j) = BitVec.ofNat 8 ((v (j / 2)).toNat / 256 ^ (j % 2)) := by
  have h0 := (v 0).isLt
  have h1 := (v 1).isLt
  have h2 := (v 2).isLt
  have h3 := (v 3).isLt
  apply BitVec.eq_of_toNat_eq
  rw [BitVec.toNat_ofNat, BitVec.toNat_ofNat, lanesNat]
  interval_cases j <;> norm_num <;> omega

theorem vst_vm {x : BitVec 3} {pm : BitVec 2} :
    let k := s.awake c.val
    let q := k.addr x.toNat pm.toNat 0 8
    let t := s.stN c.val q.2 q.1 8 (lanesNat (k.vstLane acc sh))
    s.ldmFault c.val k x.toNat q.1 2 8 false = 0 → Does s c (.vst c acc (.vm x pm) sh)
      (t.1.setCore c.val (Core.loopEnd (s.core c.val).pc 3 [] (t.2.flag 0 (k.vstClamps acc sh)))) := by
  intro k q t hf
  exact does_seq rfl (if_neg (not_not.mpr hf))

/-- A flag stands apart from the LDM. -/
theorem Core.flag_ldm (k : Core) (d : List Host.Cell) (e : Tbl Bool) (i : Nat) (b : Bool) :
    { k with ldm := d, ldmErr := e }.flag i b = { k.flag i b with ldm := d, ldmErr := e } := by
  cases b <;> rfl

/-- What `vst` to an LDM vector leaves in the device. -/
theorem vst_vm_stored {x : BitVec 3} {pm : BitVec 2} (hi : s.issues c (.vst c acc (.vm x pm) sh)) :
    let k := s.awake c.val
    let q := k.addr x.toNat pm.toNat 0 8
    s.ldmFault c.val k x.toNat q.1 2 8 false = 0 → ∃ t, exec (.vst c acc (.vm x pm) sh) s = .next t ∧
      s.LdmStored t c.val k.win.toNat q.1 8 (lanesNat (k.vstLane acc sh)) ∧
      { t.core c.val with ldm := k.ldm, ldmErr := k.ldmErr, pc := k.pc, lc := k.lc, act := k.act } =
        q.2.flag 0 (k.vstClamps acc sh) := by
  intro k q hf
  have hw : q.2.win = k.win := k.addr_win _ _ _ _
  refine ⟨_, vst_vm hf hi, ?_, ?_⟩
  · rw [← hw]
    refine State.ldmStored (by decide) hw (k.addr_slots _ _ _ _) (k.addr_ldm _ _ _ _) ?_
    rw [Core.loopEnd_core, Core.flag_core, State.stN_core]
  · rw [State.core_setCore_same, Core.loopEnd_core, State.stN_core, Core.flag_ldm, Core.flag_core,
      show q.2 = _ from k.addr_core _ _ _ _]

end

/-- Settles O20: the model's rounding, clamping and wrapping are those of R253 and R254; then form by form. -/
theorem vectorAccumulators : Obligations.VectorAccumulators := by
  intro c acc p q d sh ln m1 m2 xA xB s k A S T rnd clip wrapped clipped aw rA rB u u' Sm Tm
  have hrnd (v : Int) : rnd v = rndV v sh.toNat := (rndV_eq v sh).symm
  have hclip (n : Nat) (v : Int) : clip n v = satI n v := (satI_eq n v).symm
  have hne (n : Nat) (v : Int) : decide (clip n (rnd v) ≠ rnd v) = clamps n (rndV v sh.toNat) := by
    rw [hclip, hrnd, clamps_eq]
  have hwrap (v : Nat → Int) : wrapped v = (List.range 4).any fun i => wraps40 (v i) :=
    congrArg (List.range 4).any (funext fun i => (wraps40_eq (v i)).symm)
  have hlane (i : Nat) : BitVec.ofInt 16 (clip 16 (rnd (A i))) = k.vstLane acc sh i := by
    rw [hclip, hrnd]
    rfl
  have hclipped : clipped = k.vstClamps acc sh := congrArg (List.range 4).any (funext fun i => hne 16 (A i))
  refine ⟨doesK_retire rfl rfl, fun hp hq => ?vr, fun hA hB => ?vm, vld_vr, fun hs h => vld_vm hs h, ?vldBad, ?vst, ?vstVm, ?vred, ?vext⟩
  case vr =>
    rw [hwrap, hwrap]
    have hmpy := does_mac_vr (i := .vmpy c acc (.vr p q)) (s := s) hp hq rfl
    have hmac := does_mac_vr (i := .vmac c acc (.vr p q)) (s := s) hp hq rfl
    have hmsu := does_mac_vr (i := .vmsu c acc (.vr p q)) (s := s) hp hq rfl
    exact ⟨hmpy, hmac, hmsu⟩
  case vm =>
    rw [hwrap, hwrap]
    have hmpy := does_mac_vm (i := .vmpy c acc (.vm xA m1 xB m2)) (s := s) rfl hA hB
    have hmac := does_mac_vm (i := .vmac c acc (.vm xA m1 xB m2)) (s := s) rfl hA hB
    have hmsu := does_mac_vm (i := .vmsu c acc (.vm xA m1 xB m2)) (s := s) rfl hA hB
    exact ⟨hmpy, hmac, hmsu⟩
  case vldBad => exact fun hs src => does_fault rfl (if_pos hs)
  case vst =>
    intro hp
    rw [hclipped, funext hlane]
    exact vst_vr hp
  case vstVm =>
    intro hf hi
    obtain ⟨t, he, hst, hcore⟩ := vst_vm_stored hi hf
    refine ⟨t, he, fun j hj h => ?_, hst.other, hst.cores, hst.csram, hst.rest, ?_⟩
    · rw [hlane, hst.bytes j hj h, byte_lanesNat _ hj]
    · rw [hclipped]
      exact hcore
  case vred =>
    rw [hne, hclip, hrnd]
    exact doesK_retire rfl rfl
  case vext =>
    rw [hne, hclip, hrnd]
    exact doesK_retire rfl rfl

end Sys2Proof.Machine
end

section
/-! Saturating lane arithmetic (R253) and add-compare-select (R255). -/

namespace Sys2Proof.Machine

variable {s : State} {c : Fin 516} {i : Instr} {d p q b : BitVec 5}

/-- Sums or differences of lanes, clamped; a clamped lane sets its flag. -/
theorem does_vecAdd {f : Int → Int → Int} (hd : oddPair d = false) (hp : oddPair p = false) (hq : oddPair q = false)
    (he : exec i s = s.issue c i fun s => .next (vecAdd s c.val d p q f)) :
    let k := s.awake c.val
    let v := fun j => f (k.lane p j).toInt (k.lane q j).toInt
    Does s c i (s.retire c.val ((k.setLanes d fun j => BitVec.ofInt 16 (satI 16 (v j))).flag 1
      ((List.range 4).any fun j => clamps 16 (v j)))) := by
  have ho : ¬(oddPair d || oddPair p || oddPair q) = true := by simp [hd, hp, hq]
  exact doesK_retire he (if_neg ho)

/-- The decisions of the four lanes, lane 0 lowest. -/
def laneBits (f : Nat → Bool) : Word := BitVec.ofNat 32 (b2n (f 3) * 8 + b2n (f 2) * 4 + b2n (f 1) * 2 + b2n (f 0))

/-- The better of two clamped path metrics in each lane, where `pick` says that the second one is it. -/
theorem does_vecAcs {pick : Int → Int → Bool} {best : Int → Int → Int} (hd : oddPair d = false) (hp : oddPair p = false)
    (hq : oddPair q = false) (hb : oddPair b = false) (hbest : ∀ x y, (if pick x y then y else x) = best x y)
    (he : exec i s = s.issue c i fun s => .next (vecAcs s c.val d p q b pick)) :
    let k := s.awake c.val
    let p0 := fun j => (k.lane p j).toInt + (k.lane b j).toInt
    let p1 := fun j => (k.lane q j).toInt - (k.lane b j).toInt
    Does s c i (s.retire c.val (({ k.setLanes d fun j => BitVec.ofInt 16 (best (satI 16 (p0 j)) (satI 16 (p1 j))) with
      sv := (k.sv <<< 4) ||| laneBits fun j => pick (satI 16 (p0 j)) (satI 16 (p1 j)) }).flag 1
        ((List.range 4).any (fun j => clamps 16 (p0 j)) || (List.range 4).any fun j => clamps 16 (p1 j)))) := by
  intro k p0 p1
  have ho : ¬(oddPair d || oddPair p || oddPair q || oddPair b) = true := by simp [hd, hp, hq, hb]
  have hany (f g : Nat → Bool) :
      ((List.range 4).any f || (List.range 4).any g) = (List.range 4).any fun j => f j || g j := by
    rw [Bool.eq_iff_iff]
    simp only [Bool.or_eq_true, List.any_eq_true, and_or_left, exists_or]
  have hbits (f : Nat → Bool) : laneBits f = BitVec.ofNat 32 (b2n (f 0) + 2 * b2n (f 1) + 4 * b2n (f 2) + 8 * b2n (f 3)) :=
    congrArg (BitVec.ofNat 32) (by omega)
  simp only [hany, hbits, ← hbest]
  exact doesK_retire he (if_neg ho)

/-- Settles O21: one argument for each pair of instructions, with what they choose. -/
theorem vectorLanes : Obligations.VectorLanes := by
  intro c d p q b s hd hp hq hb k S T B sat16 over16 m0 m1 asat bits4
  have hsat (v : Int) : sat16 v = satI 16 v := (satI_16 v).symm
  have hover (v : Nat → Int) : over16 v = (List.range 4).any fun j => clamps 16 (v j) :=
    congrArg (List.range 4).any (funext fun j => (satI_16_ne (v j)).symm)
  have hm0 : m0 = fun j => satI 16 (S j + B j) := funext fun j => hsat _
  have hm1 : m1 = fun j => satI 16 (T j - B j) := funext fun j => hsat _
  have hmax (x y : Int) : (if decide (x < y) then y else x) = max x y := by
    simp only [decide_eq_true_eq]
    omega
  have hmin (x y : Int) : (if decide (y < x) then y else x) = min x y := by
    simp only [decide_eq_true_eq]
    omega
  have hadd := does_vecAdd (i := .vadd c d p q) (s := s) hd hp hq rfl
  have hsub := does_vecAdd (i := .vsub c d p q) (s := s) hd hp hq rfl
  have hacsx := does_vecAcs (i := .vacsx c d p q b) (s := s) hd hp hq hb hmax rfl
  have hacsn := does_vecAcs (i := .vacsn c d p q b) (s := s) hd hp hq hb hmin rfl
  rw [show asat = _ from congrArg₂ or (hover _) (hover _), hm0, hm1, hover, hover]
  simp only [hsat]
  exact ⟨hadd, hsub, hacsx, hacsn⟩

end Sys2Proof.Machine
end

section
/-! What a fault of a core records (R245, R258). -/

namespace Sys2Proof.Machine

variable {s : State} {c cause addr : Nat}

theorem State.coreFault_cores (s : State) (c cause addr : Nat) :
    (s.coreFault c cause addr).cores = (s.setCore c { s.core c with faulted := some cause }).cores := by
  unfold State.coreFault
  dsimp only
  split_ifs <;> rfl

theorem State.core_coreFault (s : State) (c cause addr : Nat) :
    (s.coreFault c cause addr).core c = { s.core c with faulted := some cause } := by
  rw [State.core_congr (s.coreFault_cores c cause addr), State.core_setCore_same]

theorem State.core_coreFault_ne (s : State) (cause addr : Nat) {c' : Nat} (h : c' ≠ c) :
    (s.coreFault c cause addr).core c' = s.core c' := by
  rw [State.core_congr (s.coreFault_cores c cause addr), State.core_setCore_ne _ _ h]

/-- A fault writes the core and registers, and nothing else. -/
theorem State.coreFault_rest (s : State) (c cause addr : Nat) :
    { s.coreFault c cause addr with cores := s.cores, regs := s.regs } = s := by
  unfold State.coreFault
  dsimp only
  split_ifs <;> rfl

/-- The record of a media core's first fault. -/
theorem State.coreFault_first (hc : c < 512) (h : s.rb .CORE_FAULT c 0 = false) : s.coreFault c cause addr =
    (((s.setCore c { s.core c with faulted := some cause }).setReg .CORE_FAULT c
      (putB (putF (s.reg .CORE_FAULT c) 7 4 cause) 0 true)).setReg .CORE_FAULT_PC c (s.core c).pc).setReg .CORE_FAULT_ADDR c
        (BitVec.ofNat 32 addr) :=
  (if_neg (Nat.not_le_of_lt hc)).trans (if_neg (Bool.eq_false_iff.mp h))

/-- A further fault only marks that it was lost. -/
theorem State.coreFault_further (hc : c < 512) (h : s.rb .CORE_FAULT c 0 = true) : s.coreFault c cause addr =
    (s.setCore c { s.core c with faulted := some cause }).setRb .CORE_FAULT c 1 true :=
  (if_neg (Nat.not_le_of_lt hc)).trans (if_pos h)

theorem State.coreFault_record (hc : c < 512) (hcause : cause < 16) (h : s.rb .CORE_FAULT c 0 = false) :
    let u := s.coreFault c cause addr
    u.rb .CORE_FAULT c 0 = true ∧ u.rf .CORE_FAULT c 7 4 = cause ∧ u.reg .CORE_FAULT_PC c = (s.core c).pc ∧
    u.reg .CORE_FAULT_ADDR c = BitVec.ofNat 32 addr := by
  have h20 : c < 2 ^ 20 := by omega
  have haddr : RegName.CORE_FAULT ≠ .CORE_FAULT_ADDR := nofun
  have hpc : RegName.CORE_FAULT ≠ .CORE_FAULT_PC := nofun
  have hboth : RegName.CORE_FAULT_PC ≠ .CORE_FAULT_ADDR := nofun
  have hreg : (s.coreFault c cause addr).reg .CORE_FAULT c = putB (putF (s.reg .CORE_FAULT c) 7 4 cause) 0 true := by
    rw [State.coreFault_first hc h, State.reg_setReg_name _ _ h20 h20 haddr, State.reg_setReg_name _ _ h20 h20 hpc,
      State.reg_setReg_same]
  refine ⟨?_, ?_, ?_, ?_⟩
  · rw [State.rb, hreg, bit_putB _ _ _ _ (by decide), if_pos rfl]
  · rw [State.rf, hreg, fld_putB_ne _ (by decide), fld_putF_same _ (by decide) (by decide)]
    exact Nat.mod_eq_of_lt hcause
  · rw [State.coreFault_first hc h, State.reg_setReg_name _ _ h20 h20 hboth, State.reg_setReg_same]
  · rw [State.coreFault_first hc h, State.reg_setReg_same]

theorem State.coreFault_overrun (hc : c < 512) (h : s.rb .CORE_FAULT c 0 = true) :
    let u := s.coreFault c cause addr
    u.rb .CORE_FAULT c 1 = true ∧ u.rf .CORE_FAULT c 7 4 = s.rf .CORE_FAULT c 7 4 ∧
    u.reg .CORE_FAULT_PC c = s.reg .CORE_FAULT_PC c ∧ u.reg .CORE_FAULT_ADDR c = s.reg .CORE_FAULT_ADDR c := by
  have h20 : c < 2 ^ 20 := by omega
  dsimp only
  rw [State.coreFault_further hc h]
  refine ⟨State.rb_setRb_same _ _ _ _ (by decide), ?_, State.reg_setReg_name _ _ h20 h20 nofun,
    State.reg_setReg_name _ _ h20 h20 nofun⟩
  rw [State.rf, State.setRb, State.reg_setReg_same, fld_putB_ne _ (by decide)]
  rfl

end Sys2Proof.Machine
end

section
/-! Far access (R250, R341) and DMA (R251, R252). -/

namespace Sys2Proof.Machine

variable {s u : State} {c : Fin 516} {d x y sh : BitVec 5}

/-! ### `ldf` and `stf` -/

section
variable (ho : ¬oddPair x = true)
include ho

/-- Far addresses are aligned to words. -/
theorem far_align (ha : (s.awake c.val).far x % 4 ≠ 0) :
    Does s c (.ldf c d x) (s.coreFault c.val 3 ((s.awake c.val).far x)) ∧
    Does s c (.stf c d x) (s.coreFault c.val 3 ((s.awake c.val).far x)) := by
  exact ⟨does_fault rfl ((if_neg ho).trans (if_pos ha)), does_fault rfl ((if_neg ho).trans (if_pos ha))⟩

variable (ha : (s.awake c.val).far x % 4 = 0)
include ha

/-- A unit that memory could not correct is a bus error. -/
theorem ldf_uncorrectable (hm : (s.awake c.val).far x / 64 ∈ (s.awake c.val).memErr) :
    Does s c (.ldf c d x) (s.coreFault c.val 5 ((s.awake c.val).far x)) := by
  exact does_fault rfl ((if_neg ho).trans ((if_neg (not_not.mpr ha)).trans (if_pos (List.contains_iff_mem.mpr hm))))

section
variable (hm : (s.awake c.val).far x / 64 ∉ (s.awake c.val).memErr)
include hm

theorem ldf_reads {v : Word} (hb : (s.busRead (coreAgent c.val) ((s.awake c.val).far x)).bus = .ok v) :
    Does s c (.ldf c d x) ((s.busRead (coreAgent c.val) ((s.awake c.val).far x)).setCore c.val
      (Core.loopEnd (s.core c.val).pc 3 [] ((s.awake c.val).setg d v))) := by
  refine does_seq rfl ((if_neg ho).trans ((if_neg (not_not.mpr ha)).trans ((if_neg (mt List.contains_iff_mem.mp hm)).trans ?_)))
  dsimp only
  rw [hb]

theorem ldf_waits (hb : (s.busRead (coreAgent c.val) ((s.awake c.val).far x)).bus = .none) :
    Does s c (.ldf c d x) (s.busRead (coreAgent c.val) ((s.awake c.val).far x)) := by
  refine does_stay rfl ((if_neg ho).trans ((if_neg (not_not.mpr ha)).trans ((if_neg (mt List.contains_iff_mem.mp hm)).trans ?_)))
  dsimp only
  rw [hb]

theorem ldf_bus_error (hv : ∀ v, (s.busRead (coreAgent c.val) ((s.awake c.val).far x)).bus ≠ .ok v)
    (hn : (s.busRead (coreAgent c.val) ((s.awake c.val).far x)).bus ≠ .none) :
    Does s c (.ldf c d x) (s.coreFault c.val 5 ((s.awake c.val).far x)) := by
  refine does_fault (t := s.busRead (coreAgent c.val) ((s.awake c.val).far x)) rfl
    ((if_neg ho).trans ((if_neg (not_not.mpr ha)).trans ((if_neg (mt List.contains_iff_mem.mp hm)).trans ?_)))
  dsimp only
  cases hb : (s.busRead (coreAgent c.val) ((s.awake c.val).far x)).bus with
  | ok v => exact absurd hb (hv v)
  | none => exact absurd hb hn
  | busError | completerAbort | unsupported => rfl

end

theorem stf_writes {v : Word} (hb : (s.busWrite (coreAgent c.val) ((s.awake c.val).far x) ((s.awake c.val).gr d)).bus = .ok v)
    (hr : c.val < 512 ∨ s.locate ((s.awake c.val).far x) ≠ .reg .CLKPWR_RESET 0 ∨ bit ((s.awake c.val).gr d) 31 = false) :
    let w := s.busWrite (coreAgent c.val) ((s.awake c.val).far x) ((s.awake c.val).gr d)
    Does s c (.stf c d x) (w.setCore c.val (Core.loopEnd (s.core c.val).pc 3 [] { w.core c.val with waiting := false })) := by
  have hreset : ¬(isCtl c.val && s.locate ((s.awake c.val).far x) == .reg .CLKPWR_RESET 0
      && bit ((s.awake c.val).gr d) 31) = true := by
    rw [Bool.and_eq_true, Bool.and_eq_true, beq_iff_eq]
    rintro ⟨⟨h1, h2⟩, h3⟩
    rcases hr with h | h | h
    · exact nomatch h1.symm.trans (isCtl_of_lt h)
    · exact h h2
    · exact nomatch h3.symm.trans h
  refine does_seq rfl ((if_neg ho).trans ((if_neg (not_not.mpr ha)).trans ?_))
  dsimp only
  rw [hb]
  exact if_neg hreset

theorem stf_waits (hb : (s.busWrite (coreAgent c.val) ((s.awake c.val).far x) ((s.awake c.val).gr d)).bus = .none) :
    Does s c (.stf c d x) (s.busWrite (coreAgent c.val) ((s.awake c.val).far x) ((s.awake c.val).gr d)) := by
  refine does_stay rfl ((if_neg ho).trans ((if_neg (not_not.mpr ha)).trans ?_))
  dsimp only
  rw [hb]

theorem stf_bus_error (hv : ∀ v, (s.busWrite (coreAgent c.val) ((s.awake c.val).far x) ((s.awake c.val).gr d)).bus ≠ .ok v)
    (hn : (s.busWrite (coreAgent c.val) ((s.awake c.val).far x) ((s.awake c.val).gr d)).bus ≠ .none) :
    Does s c (.stf c d x) (s.coreFault c.val 5 ((s.awake c.val).far x)) := by
  refine does_fault (t := s.busWrite (coreAgent c.val) ((s.awake c.val).far x) ((s.awake c.val).gr d)) rfl
    ((if_neg ho).trans ((if_neg (not_not.mpr ha)).trans ?_))
  dsimp only
  cases hb : (s.busWrite (coreAgent c.val) ((s.awake c.val).far x) ((s.awake c.val).gr d)).bus with
  | ok v => exact absurd hb (hv v)
  | none => exact absurd hb hn
  | busError | completerAbort | unsupported => rfl

end

/-! ### Instructions that wait for a tag (R251) -/

section
variable {n : Nat} {g : State → Core → State × Eff}

theorem onTag_waits {c : Nat} (hr : s.runs c) (h : ((s.core c).tag n).inFlight = true) : s.onTag c n g = s := by
  obtain ⟨h1, h2⟩ := hr
  rw [State.onTag, h, if_neg (by simp), runCore_of_runs ⟨h1, h2⟩]

theorem onTag_raises {c a : Nat} (hr : s.runs c) (h : ((s.core c).tag n).inFlight = false)
    (hf : ((s.core c).tag n).fail = some a) : s.onTag c n g = s.raiseDma c n a := by
  obtain ⟨h1, h2⟩ := hr
  rw [State.onTag, if_pos (by simp [h1, h2, h]), hf]

theorem onTag_goes {c : Nat} (hr : s.runs c) (h : ((s.core c).tag n).inFlight = false)
    (hf : ((s.core c).tag n).fail = none) : s.onTag c n g = s.runCore c g := by
  obtain ⟨h1, h2⟩ := hr
  rw [State.onTag, if_pos (by simp [h1, h2, h]), hf]

end

/-! ### `dmai` and `dmao` -/

theorem startDma_legal {out : Bool} (hd : d.toNat < 8) (hx : oddPair x = false) : s.startDma c.val out d x y sh =
    s.onTag c.val d.toNat fun s k =>
      let a := k.far x
      let m := fld (k.gr y) 15 0
      let n := fld (k.gr sh) 15 0
      if a % 8 ≠ 0 then (s, .fault F_ALIGN a)
      else if m % 8 ≠ 0 then (s, .fault F_ALIGN m)
      else if n % 8 ≠ 0 ∨ n = 0 then (s, .fault F_ALIGN a)
      else (s, .seq { k with tags := Tbl.set k.tags d.toNat { inFlight := true, out, bridge := a, ldm := m, len := n } }) :=
  if_neg (by simp [hx]; omega)

/-- A transfer starts where its tag is free and its addresses and its length are multiples of 8. -/
theorem dma_starts {i : Instr} {out : Bool} (hd : d.toNat < 8) (hx : oddPair x = false)
    (he : exec i s = s.issue c i fun s => .next (s.startDma c.val out d x y sh)) :
    let k := s.awake c.val
    let a := k.far x
    let m := fld (k.gr y) 15 0
    let n := fld (k.gr sh) 15 0
    ((k.tag d.toNat).inFlight = true → Does s c i s) ∧
    (∀ f, (k.tag d.toNat).inFlight = false → (k.tag d.toNat).fail = some f → Does s c i (s.raiseDma c.val d.toNat f)) ∧
    ((k.tag d.toNat).inFlight = false → (k.tag d.toNat).fail = none →
      (a % 8 = 0 → m % 8 = 0 → n % 8 = 0 → n ≠ 0 → Does s c i (s.retire c.val { k with
        tags := Tbl.set k.tags d.toNat { inFlight := true, out := out, bridge := a, ldm := m, len := n } })) ∧
      (a % 8 ≠ 0 → Does s c i (s.coreFault c.val 3 a))) := by
  intro k a m n
  have hl := startDma_legal (s := s) (c := c) (y := y) (sh := sh) (out := out) hd hx
  refine ⟨fun h => does_of_next he fun hr => hl.trans (onTag_waits hr h),
    fun f h hf => does_of_next he fun hr => hl.trans (onTag_raises hr h hf),
    fun h hf => ⟨fun h1 h2 h3 h4 => does_of_next he fun hr => ?_, fun h1 => does_of_next he fun hr => ?_⟩⟩
  · exact (hl.trans (onTag_goes hr h hf)).trans (runCore_seq hr ((if_neg (not_not.mpr h1)).trans
      ((if_neg (not_not.mpr h2)).trans (if_neg (not_or.mpr ⟨not_not.mpr h3, h4⟩)))))
  · exact (hl.trans (onTag_goes hr h hf)).trans (runCore_fault hr (if_pos h1))

/-! ### `dmaw` and `dmas` -/

section
variable {t : BitVec 5}

theorem exec_dmaw_bad (h : 8 ≤ t.toNat) :
    exec (.dmaw c t) s = s.issue c (.dmaw c t) fun s => .next (s.runCore c.val fun s _ => (s, .fault F_ILLEGAL 0)) := by
  simp only [exec, execDmaw, if_pos h]

theorem exec_dmaw (h : t.toNat < 8) :
    exec (.dmaw c t) s = s.issue c (.dmaw c t) fun s => .next (s.onTag c.val t.toNat fun s k => (s, .seq k)) := by
  simp only [exec, execDmaw, if_neg (Nat.not_le_of_lt h)]

/-- `dmaw` goes on when its tag's transfer has ended without a failure. -/
theorem dmaw_waits (ht : t.toNat < 8) : let k := s.awake c.val
    ((k.tag t.toNat).inFlight = true → Does s c (.dmaw c t) s) ∧
    (∀ f, (k.tag t.toNat).inFlight = false → (k.tag t.toNat).fail = some f →
      Does s c (.dmaw c t) (s.raiseDma c.val t.toNat f)) ∧
    ((k.tag t.toNat).inFlight = false → (k.tag t.toNat).fail = none → Does s c (.dmaw c t) (s.retire c.val k)) := by
  intro k
  refine ⟨fun h => does_of_next (exec_dmaw ht) fun hr => onTag_waits hr h,
    fun f h hf => does_of_next (exec_dmaw ht) fun hr => onTag_raises hr h hf,
    fun h hf => does_of_next (exec_dmaw ht) fun hr => ?_⟩
  exact (onTag_goes hr h hf).trans (runCore_seq hr rfl)

end

theorem sumN_range_succ (f : Nat → Nat) (n : Nat) :
    sumN ((List.range (n + 1)).map f) = sumN ((List.range n).map f) + f n := by
  simp [sumN, List.range_succ]

/-- A sum of powers of two, each at most once, is a bitmap. -/
theorem sumN_bitmap (p : Nat → Bool) (n : Nat) : sumN ((List.range n).map fun i => if p i then 2 ^ i else 0) < 2 ^ n ∧
    ∀ j, (sumN ((List.range n).map fun i => if p i then 2 ^ i else 0)).testBit j = (decide (j < n) && p j) := by
  induction n with
  | zero => exact ⟨Nat.one_pos, fun j => by simp [sumN]⟩
  | succ n ih =>
    obtain ⟨hlt, hbit⟩ := ih
    rw [sumN_range_succ]
    generalize sumN ((List.range n).map fun i => if p i then 2 ^ i else 0) = v at hlt hbit
    cases hp : p n with
    | false =>
      refine ⟨by simp only [Bool.false_eq_true, if_false]; omega, fun j => ?_⟩
      rw [if_neg (by simp), Nat.add_zero, hbit]
      by_cases hj : j = n
      · simp [hj, hp]
      · simp only [show j < n + 1 ↔ j < n by omega]
    | true =>
      refine ⟨by simp only [if_true]; omega, fun j => ?_⟩
      have hor : v + 2 ^ n = 2 ^ n * 1 ||| v := by rw [← Nat.two_pow_add_eq_or_of_lt hlt, Nat.mul_one, Nat.add_comm]
      rw [if_pos rfl, hor, Nat.mul_one, Nat.testBit_or, Nat.testBit_two_pow, hbit]
      by_cases hj : n = j
      · simp [← hj, hp]
      · simp only [hj, decide_false, Bool.false_or, show j < n + 1 ↔ j < n by omega]

/-- The bitmap of the tags in flight. -/
theorem Core.bit_inFlight (k : Core) (j : Nat) :
    (BitVec.ofNat 32 k.inFlight : Word).getLsbD j = (decide (j < 8) && (k.tag j).inFlight) := by
  rw [BitVec.getLsbD_ofNat, Core.inFlight, (sumN_bitmap (fun n => (k.tag n).inFlight) 8).2]
  by_cases h : j < 8
  · simp [h, show j < 32 by omega]
  · simp [h]

/-! ### A failed transfer's fault (R252) -/

theorem State.raiseDma_record {c n a : Nat} {t : Tag} (ht : Tbl.find (s.core c).tags n = some t) (hc : c < 512)
    (h : s.rb .CORE_FAULT c 0 = false) : let u := s.raiseDma c n a
    (u.core c).tag n = { t with fail := none } ∧ (u.core c).faulted = some 6 ∧ u.rf .CORE_FAULT c 7 4 = 6 ∧
    u.reg .CORE_FAULT_ADDR c = BitVec.ofNat 32 a := by
  intro u
  obtain ⟨_, hcause, _, haddr⟩ := State.coreFault_record (s := s.setCore c { s.core c with
    tags := Tbl.upd (s.core c).tags n fun t => { t with fail := none } }) (cause := 6) (addr := a) hc (by decide) h
  have hu : u.core c = { s.core c with
      tags := Tbl.upd (s.core c).tags n fun t => { t with fail := none }, faulted := some 6 } := by
    refine (State.core_coreFault _ _ _ _).trans ?_
    rw [State.core_setCore_same]
  refine ⟨?_, by rw [hu], hcause, haddr⟩
  rw [hu, Core.tag, Tbl.get, Tbl.find_upd_same, ht]
  rfl

/-! ### The end of a transfer of one block (R251, R252) -/

/-- A tag whose transfer has ended. -/
def State.endTag (s : State) (c n : Nat) (t : Tag) (fail : Option Nat) : State :=
  s.setCore c { s.core c with tags := Tbl.set (s.core c).tags n { t with inFlight := false, fail := fail } }

section
variable {core n f : Nat} {t : Tag} {failAt : Option Nat} (h0 : 0 < t.len) (h1 : t.len ≤ 64 - t.bridge % 64)
include h0 h1

theorem State.dmaRun_one_hit {o : Nat} (ho : o < t.len) :
    s.dmaRun core n t (some o) (f + 1) 0 = s.endTag core n t (some t.bridge) := by
  have hlen : min (64 - (t.bridge + 0) % 64) (t.len - 0) = t.len := min_eq_right h1
  rw [State.dmaRun, if_neg (Nat.not_le_of_lt h0)]
  dsimp only
  rw [hlen, if_pos (by simp [ho])]
  rfl

variable (hmiss : ∀ o, failAt = some o → t.len ≤ o)
include hmiss

/-- A transfer of one block that no failure hits copies that block. -/
theorem State.dmaRun_one_miss : s.dmaRun core n t failAt (f + 1) 0 =
    match s.dmaBlock core t.out t.bridge t.ldm t.len with
    | (u, .ok) => u.dmaRun core n t failAt f t.len
    | (u, .wait) => u.setCore core { u.core core with
        tags := Tbl.set (u.core core).tags n { t with bridge := t.bridge, ldm := t.ldm % 65536, len := t.len } }
    | (u, .fail) => u.endTag core n t (some t.bridge) := by
  have hlen : min (64 - (t.bridge + 0) % 64) (t.len - 0) = t.len := min_eq_right h1
  rw [State.dmaRun, if_neg (Nat.not_le_of_lt h0)]
  dsimp only
  rw [hlen, if_neg, Nat.zero_add]
  · rfl
  · cases failAt with
    | none => simp
    | some o => simp [hmiss o rfl]

theorem State.dmaRun_one_ok (hb : s.dmaBlock core t.out t.bridge t.ldm t.len = (u, .ok)) :
    s.dmaRun core n t failAt (f + 2) 0 = u.endTag core n t t.fail := by
  rw [State.dmaRun_one_miss h0 h1 hmiss, hb]
  dsimp only
  rw [State.dmaRun, if_pos (le_refl _)]
  rfl

theorem State.dmaRun_one_fail (hb : s.dmaBlock core t.out t.bridge t.ldm t.len = (u, .fail)) :
    s.dmaRun core n t failAt (f + 1) 0 = u.endTag core n t (some t.bridge) := by
  rw [State.dmaRun_one_miss h0 h1 hmiss, hb]

end

theorem exec_dmaComplete {g : Fin 8} {failAt : Option Nat} (h : ((s.core c.val).tag g.val).inFlight = true) :
    exec (.dmaComplete c g failAt) s = .next (s.dmaRun c.val g.val ((s.core c.val).tag g.val) failAt 1030 0) := by
  exact if_pos h

/-- Settles O23: one rule for each way in which a far access or a DMA instruction ends, and one for each end of a
transfer that has a single block. -/
theorem farAccessAndDma : Obligations.FarAccessAndDma := by
  unfold Obligations.FarAccessAndDma
  refine ⟨fun c d x s hx => ?_, fun c d x y sh s hd hx => ?_, fun c d t s => ?_, fun s c n a t ht hc h =>
    State.raiseDma_record ht hc h, fun c g failAt s => ?_⟩
  · have ho : ¬oddPair x = true := Bool.eq_false_iff.mp hx
    exact ⟨fun ha => far_align ho ha, fun ha => ⟨fun hm => ⟨fun v hb => ldf_reads ho ha hm hb, fun hb => ldf_waits ho ha hm hb,
      fun hv hn => ldf_bus_error ho ha hm hv hn⟩, fun hm => ldf_uncorrectable ho ha hm,
      fun v hb hr => stf_writes ho ha hb hr, fun hb => stf_waits ho ha hb, fun hv hn => stf_bus_error ho ha hv hn⟩⟩
  · exact ⟨dma_starts hd hx rfl, dma_starts hd hx rfl⟩
  · refine ⟨fun ht => does_of_next (exec_dmaw_bad ht) fun hr => runCore_fault hr rfl, fun ht => dmaw_waits ht,
      BitVec.ofNat 32 (s.awake c.val).inFlight, does_alu rfl rfl, fun j => Core.bit_inFlight _ j⟩
  · refine ⟨fun h => if_neg (by simp [h]), fun h h0 h1 => ⟨fun o ho hlt => ?_, fun hmiss => ⟨fun u hb => ?_, fun u hb => ?_⟩⟩⟩
    · rw [exec_dmaComplete h, ho, State.dmaRun_one_hit h0 h1 hlt]
      rfl
    · rw [exec_dmaComplete h, State.dmaRun_one_ok h0 h1 hmiss hb]
      rfl
    · rw [exec_dmaComplete h, State.dmaRun_one_fail h0 h1 hmiss hb]
      rfl

end Sys2Proof.Machine
end

section
/-! What the instructions of a core leave unchanged (R234, R237, R245, R257, R258). -/

namespace Sys2Proof.Machine

variable {s t u : State} {k : Core} {c : Nat}

/-! ### The fields of a core that no instruction writes -/

/-- A core with only what no instruction but `done` and `romcall` writes: its item, its prefetch slots, its image, what it
ran before. -/
def Core.unwritten (k : Core) : Core := {
  running := k.running, slot := k.slot, qid := k.qid, kern := k.kern, tenant := k.tenant, since := k.since, posts := k.posts
  prev := k.prev, warm := k.warm, slots := k.slots, order := k.order, ip := k.ip, inRom := k.inRom, ceSeen := k.ceSeen
  load := k.load, prevT := k.prevT, imgErr := k.imgErr }

@[simp] theorem Core.unwritten_setg (k : Core) (d : BitVec 5) (v : Word) : (k.setg d v).unwritten = k.unwritten := by
  unfold Core.setg
  split <;> rfl

@[simp] theorem Core.unwritten_setLanes (k : Core) (d : BitVec 5) (l : Nat → Half) : (k.setLanes d l).unwritten = k.unwritten := by
  rw [Core.setLanes, Core.unwritten_setg, Core.unwritten_setg]

@[simp] theorem Core.unwritten_flag (k : Core) (i : Nat) (b : Bool) : (k.flag i b).unwritten = k.unwritten := by
  rw [Core.flag_core]
  rfl

@[simp] theorem Core.unwritten_addr (k : Core) (n pm : Nat) (disp size : Int) : (k.addr n pm disp size).2.unwritten = k.unwritten := by
  rw [Core.addr_core]
  rfl

@[simp] theorem State.unwritten_vmRead (s : State) (c : Nat) (k : Core) (n pm : Nat) :
    (s.vmRead c k n pm).2.2.unwritten = k.unwritten := k.unwritten_addr n pm 0 8

@[simp] theorem State.unwritten_scrubLdm (s : State) (c : Nat) (k : Core) (a n : Nat) :
    (s.scrubLdm c k a n).2.unwritten = k.unwritten := by
  rw [State.scrubLdm_core]
  rfl

@[simp] theorem State.unwritten_stN (s : State) (c : Nat) (k : Core) (a n v : Nat) : (s.stN c k a n v).2.unwritten = k.unwritten := by
  rw [State.stN_core]
  rfl

@[simp] theorem Core.unwritten_loopEnd (p : Word) (n : Nat) (l : List Nat) (k : Core) :
    (Core.loopEnd p n l k).unwritten = k.unwritten := by
  rw [Core.loopEnd_core]
  rfl

theorem Core.unwritten_ite {p : Prop} [Decidable p] {a b : Word × Core} (ha : a.2.unwritten = k.unwritten)
    (hb : b.2.unwritten = k.unwritten) : (if p then a else b).2.unwritten = k.unwritten := by
  split
  · exact ha
  · exact hb

@[simp] theorem Core.unwritten_mfs (k : Core) (c cyc n : Nat) : (k.mfs c cyc n).2.unwritten = k.unwritten := by
  unfold Core.mfs
  repeat refine Core.unwritten_ite rfl ?_
  rfl

/-! ### States that differ in one core -/

/-- The registers of a core that its instructions write. -/
def coreRegs : List RegName := [.CORE_FAULT, .CORE_FAULT_PC, .CORE_FAULT_ADDR, .CORE_ECC]

/-- `t` is `s` but for core `c`, its fault and error registers and, on a control core, the control SRAM. -/
structure State.OnlyCore (s t : State) (c : Nat) : Prop where
  rest : { t with cores := s.cores, csram := s.csram, regs := s.regs } = s
  csram : c < 512 → t.csram = s.csram
  cores : ∀ c', c' ≠ c → t.core c' = s.core c'
  regs : ∀ r j, j < 2 ^ 20 → (j = c → r ∉ coreRegs) → t.reg r j = s.reg r j
  core : (t.core c).unwritten = (s.core c).unwritten

namespace State.OnlyCore

theorem refl (s : State) (c : Nat) : s.OnlyCore s c where
  rest := rfl
  csram _ := rfl
  cores _ _ := rfl
  regs _ _ _ _ := rfl
  core := rfl

theorem trans (h1 : s.OnlyCore t c) (h2 : t.OnlyCore u c) : s.OnlyCore u c where
  rest := (congrArg (fun x : State => { x with cores := s.cores, csram := s.csram, regs := s.regs }) h2.rest).trans h1.rest
  csram hc := (h2.csram hc).trans (h1.csram hc)
  cores c' hc := (h2.cores c' hc).trans (h1.cores c' hc)
  regs r j hj hr := (h2.regs r j hj hr).trans (h1.regs r j hj hr)
  core := h2.core.trans h1.core

theorem ite {p : Prop} [Decidable p] (h1 : s.OnlyCore t c) (h2 : s.OnlyCore u c) : s.OnlyCore (if p then t else u) c := by
  split
  · exact h1
  · exact h2

theorem setCore (h : s.OnlyCore t c) (hk : k.unwritten = (s.core c).unwritten) : s.OnlyCore (t.setCore c k) c where
  rest := h.rest
  csram := h.csram
  cores c' hc := (State.core_setCore_ne _ _ hc).trans (h.cores c' hc)
  regs := h.regs
  core := by rw [State.core_setCore_same, hk]

theorem setReg (h : s.OnlyCore t c) (hc : c < 2 ^ 20) {r : RegName} (hr : r ∈ coreRegs) (v : Word) : s.OnlyCore (t.setReg r c v) c where
  rest := h.rest
  csram := h.csram
  cores := h.cores
  regs n j hj hn := by
    refine Eq.trans ?_ (h.regs n j hj hn)
    by_cases hjc : j = c
    · exact State.reg_setReg_name _ _ hc hj fun e => hn hjc (e ▸ hr)
    · by_cases hnr : n = r
      · rw [hnr]
        exact State.reg_setReg_idx _ _ hjc
      · exact State.reg_setReg_name _ _ hc hj hnr
  core := h.core

/-- The counters of corrected errors. -/
theorem satEcc (h : s.OnlyCore t c) (hc : c < 2 ^ 20) (hi lo : Nat) : s.OnlyCore (t.satRf .CORE_ECC c hi lo) c :=
  .ite h (h.setReg hc (by decide) _)

theorem coreFault (h : s.OnlyCore t c) (cause addr : Nat) : s.OnlyCore (t.coreFault c cause addr) c := by
  have h1 : s.OnlyCore (t.setCore c { t.core c with faulted := some cause }) c := h.setCore h.core
  by_cases hc : 512 ≤ c
  · rwa [show t.coreFault c cause addr = _ from if_pos hc]
  · have hc20 : c < 2 ^ 20 := by omega
    cases hf : t.rb .CORE_FAULT c 0 with
    | true =>
      rw [State.coreFault_further (by omega) hf]
      exact h1.setReg hc20 (by decide) _
    | false =>
      rw [State.coreFault_first (by omega) hf]
      exact ((h1.setReg hc20 (by decide) _).setReg hc20 (by decide) _).setReg hc20 (by decide) _

theorem scrubLdm (h : s.OnlyCore t c) (k : Core) (a n : Nat) : s.OnlyCore (t.scrubLdm c k a n).1 c := by
  unfold State.scrubLdm
  cases hc : isCtl c with
  | true => exact h
  | false =>
    have hlt : c < 2 ^ 20 := by
      have := of_decide_eq_false hc
      omega
    refine List.foldlRecOn (motive := fun p : State × Core => s.OnlyCore p.1 c) _ _ h fun p hp v _ => ?_
    split
    · exact hp.satEcc hlt 31 16
    · exact hp

theorem stN (h : s.OnlyCore t c) (k : Core) (a n v : Nat) : s.OnlyCore (t.stN c k a n v).1 c := by
  by_cases hc : 512 ≤ c
  · rw [State.stN_ctl hc]
    exact ⟨h.rest, fun hlt => absurd hc (Nat.not_le_of_lt hlt), h.cores, h.regs, h.core⟩
  · rwa [State.stN_media (Nat.lt_of_not_le hc)]

theorem refetch (s : State) (c : Nat) : s.OnlyCore (s.refetch c) c := by
  unfold State.refetch
  cases hc : isCtl c with
  | true => exact refl s c
  | false =>
    have hlt : c < 2 ^ 20 := by
      have := of_decide_eq_false hc
      omega
    refine .ite (satEcc ((refl s c).setCore ?_) hlt 15 0) (refl s c)
    rfl

theorem raiseDma (s : State) (c n a : Nat) : s.OnlyCore (s.raiseDma c n a) c := by
  refine coreFault ((refl s c).setCore ?_) _ _
  rfl

end State.OnlyCore

/-! ### Effects that stay within the core -/

/-- The effect leaves of a core what no instruction writes. -/
def Eff.Keeps (k : Core) : Eff → Prop
  | .seq u => u.unwritten = k.unwritten
  | .jump u _ => u.unwritten = k.unwritten
  | _ => True

theorem Eff.Keeps.ite {p : Prop} [Decidable p] {a b : Eff} (ha : a.Keeps k) (hb : b.Keeps k) : (if p then a else b).Keeps k := by
  split
  · exact ha
  · exact hb

theorem Core.keeps_mts (k : Core) (n : Nat) (v : Word) : (k.mts n v).Keeps k := by
  unfold Core.mts
  repeat refine .ite rfl ?_
  trivial

/-- What an instruction of core `c` makes of `s` stays within the core. -/
structure State.Within (s : State) (c : Nat) (p : State × Eff) : Prop where
  state : s.OnlyCore p.1 c
  eff : p.2.Keeps (s.core c)

namespace State.Within

theorem ite {p : Prop} [Decidable p] {a b : State × Eff} (ha : s.Within c a) (hb : s.Within c b) : s.Within c (if p then a else b) := by
  split
  · exact ha
  · exact hb

theorem seq (h : s.OnlyCore t c) (hk : k.unwritten = (s.core c).unwritten) : s.Within c (t, .seq k) := ⟨h, hk⟩
theorem fault (s : State) (c cause addr : Nat) : s.Within c (s, .fault cause addr) := ⟨.refl s c, trivial⟩
theorem stay (h : s.OnlyCore t c) : s.Within c (t, .stay) := ⟨h, trivial⟩

end State.Within

namespace State.OnlyCore

theorem runCore {g : State → Core → State × Eff} (h : s.Within c (g s (s.awake c))) : s.OnlyCore (s.runCore c g) c := by
  cases hr : s.coreRuns c with
  | false =>
    rw [runCore_idle hr]
    exact .refl s c
  | true =>
    cases hf : s.fetchFails c with
    | true =>
      rw [runCore_fetch hr hf]
      exact (refl s c).coreFault _ _
    | false =>
      have hruns : s.runs c := ⟨hr, hf⟩
      obtain ⟨hs, he⟩ := h
      cases hg : g s (s.awake c) with
      | mk t e =>
        rw [hg] at hs he
        cases e with
        | seq k =>
          rw [runCore_seq hruns hg]
          exact hs.setCore ((Core.unwritten_loopEnd _ _ _ _).trans he)
        | jump k a =>
          rw [runCore_jump hruns hg]
          exact hs.setCore he
        | fault cause addr =>
          rw [runCore_fault hruns hg]
          exact (refl s c).coreFault _ _
        | stay =>
          rw [runCore_stay hruns hg]
          exact hs

theorem onTag {n : Nat} {g : State → Core → State × Eff} (h : s.Within c (g s (s.awake c))) : s.OnlyCore (s.onTag c n g) c := by
  unfold State.onTag
  refine .ite ?_ (runCore (.stay (.refl s c)))
  cases ((s.core c).tag n).fail with
  | some a => exact raiseDma s c n a
  | none => exact runCore h

end State.OnlyCore

/-! ### What the parts of the instructions leave -/

section
variable {s : State} {c : Nat}

/-- An instruction that touches only its core. -/
theorem runK_onlyCore {f : Core → Eff} (h : (f (s.awake c)).Keeps (s.awake c)) : s.OnlyCore (s.runK c f) c :=
  State.OnlyCore.runCore ⟨.refl s c, h⟩

theorem loadL_onlyCore {r : BitVec 5} {n : BitVec 3} {pm : BitVec 2} {disp : Half} {size : Nat} {put : Core → Nat → Core}
    (h : ∀ k v, (put k v).unwritten = k.unwritten) : s.OnlyCore (loadL s c r n pm disp size put) c := by
  exact .runCore (.ite (.fault _ _ _ _) (.ite (.fault _ _ _ _) (.seq ((State.OnlyCore.refl s c).scrubLdm _ _ _)
    ((h _ _).trans ((State.unwritten_scrubLdm _ _ _ _ _).trans (Core.unwritten_addr _ _ _ _ _))))))

theorem storeL_onlyCore {r : BitVec 5} {n : BitVec 3} {pm : BitVec 2} {disp : Half} {size : Nat} {val : Core → Nat} :
    s.OnlyCore (storeL s c r n pm disp size val) c := by
  exact .runCore (.ite (.fault _ _ _ _) (.ite (.fault _ _ _ _) (.seq ((State.OnlyCore.refl s c).stN _ _ _ _)
    ((State.unwritten_stN _ _ _ _ _ _).trans (Core.unwritten_addr _ _ _ _ _)))))

theorem unwritten_mac (k : Core) (acc : Nat) (v : Nat → Int) (p b : Bool) :
    (if p then (k.setAcc acc v).flag 2 b else k.setAcc acc v).unwritten = k.unwritten := by
  split
  · exact Core.unwritten_flag _ _ _
  · rfl

theorem vecMac_onlyCore {acc : Nat} {src : VSrc2} {f : Int → Int → Int → Int} {aov : Bool} :
    s.OnlyCore (vecMac s c acc src f aov) c := by
  refine .runCore ?_
  cases src with
  | vr gs gt => exact .ite (.fault _ _ _ _) (.seq (.refl s c) (unwritten_mac _ _ _ _ _))
  | vm xA pmA xB pmB =>
    exact .ite (.fault _ _ _ _) (.ite (.fault _ _ _ _) (.seq (((State.OnlyCore.refl s c).scrubLdm _ _ _).scrubLdm _ _ _)
      ((unwritten_mac _ _ _ _ _).trans ((State.unwritten_scrubLdm _ _ _ _ _).trans ((State.unwritten_scrubLdm _ _ _ _ _).trans
        ((State.unwritten_vmRead s c _ _ _).trans (State.unwritten_vmRead s c _ _ _)))))))

theorem startDma_onlyCore {out : Bool} {d x y sh : BitVec 5} : s.OnlyCore (s.startDma c out d x y sh) c := by
  refine .ite (.runCore (.fault _ _ _ _)) (.onTag (.ite (.fault _ _ _ _) (.ite (.fault _ _ _ _) (.ite (.fault _ _ _ _) ?_))))
  exact .seq (.refl s c) rfl

theorem runCtl_onlyCore {g : State → Core → State × Eff} (h : s.Within c (g s (s.awake c))) : s.OnlyCore (s.runCtl c g) c :=
  .runCore (.ite h (.fault _ _ _ _))

end

end Sys2Proof.Machine
end

section
/-! The rule of every core instruction: it is issued, a core that does not run or fetch does not have its effect (R241, R245,
R258), and the effect stays within the core (R234). -/

namespace Sys2Proof.Machine

variable {s t : State} {c : Fin 516} {i : Instr} {F : State → Res}

/-- `i` is neither `done` nor a far access nor a call of the ROM, which reach beyond the core. -/
def StaysInCore (i : Instr) : Prop :=
  (∀ e o, i ≠ .done e o) ∧ (∀ e d x, i ≠ .ldf e d x) ∧ (∀ e d x, i ≠ .stf e d x) ∧ ∀ e n, i ≠ .romcall e n

/-- `F` is the effect that `exec` gives instruction `i` of core `c`. -/
structure CoreRule (c : Fin 516) (i : Instr) (F : State → Res) : Prop where
  issue : ∀ s, exec i s = s.issue c i F
  idle : ∀ s, s.coreRuns c.val = false → F s = .next s
  fetch : ∀ s, s.coreRuns c.val = true → s.fetchFails c.val = true → F s = .next (s.coreFault c.val 9 (s.core c.val).pc.toNat)
  within : StaysInCore i → ∀ s t, F s = .next t → s.OnlyCore t c.val

/-- Instruction `i` of core `c` has a rule. -/
def Ruled (c : Fin 516) (i : Instr) : Prop := ∃ F, CoreRule c i F

section
variable {n c : Nat} {g : State → Core → State × Eff}

theorem onTag_idle (h : s.coreRuns c = false) : s.onTag c n g = s := by
  rw [State.onTag, h, if_neg (by simp), runCore_idle h]

theorem onTag_fetch (h : s.coreRuns c = true) (hf : s.fetchFails c = true) :
    s.onTag c n g = s.coreFault c F_FETCH (s.core c).pc.toNat := by
  rw [State.onTag, hf, if_neg (by simp), runCore_fetch h hf]

end

namespace Ruled

/-- An instruction whose effect is one run of the core. -/
theorem runCore {g : State → Core → State × Eff} (he : ∀ s, exec i s = s.issue c i fun s => .next (s.runCore c.val g))
    (hw : StaysInCore i → ∀ s : State, s.OnlyCore (s.runCore c.val g) c.val) : Ruled c i :=
  ⟨fun s => .next (s.runCore c.val g), he, fun _ h => congrArg _ (runCore_idle h), fun _ h hf => congrArg _ (runCore_fetch h hf),
    fun hl s _ ht => Host.Outcome.next.inj ht ▸ hw hl s⟩

/-- An instruction that waits for a tag. -/
theorem onTag {n : Nat} {g : State → Core → State × Eff} (he : ∀ s, exec i s = s.issue c i fun s => .next (s.onTag c.val n g))
    (hw : ∀ s : State, s.OnlyCore (s.onTag c.val n g) c.val) : Ruled c i :=
  ⟨fun s => .next (s.onTag c.val n g), he, fun _ h => congrArg _ (onTag_idle h), fun _ h hf => congrArg _ (onTag_fetch h hf),
    fun _ s _ ht => Host.Outcome.next.inj ht ▸ hw s⟩

/-- `done` waits, raises a failed transfer, or ends the item. -/
theorem done (tone : Option Tone) : Ruled c (.done c tone) := by
  have he (s : State) : exec (.done c tone) s = execDone c tone s := rfl
  refine ⟨_, fun s => by rw [he, execDone], fun s h => ?_, fun s h hf => ?_, fun hl => absurd rfl (hl.1 c tone)⟩
  · dsimp only
    rw [h, runCore_idle h, runCore_idle h]
    split
    · rfl
    · simp
  · dsimp only
    rw [h, hf, runCore_fetch h hf, runCore_fetch h hf]
    split
    · rfl
    · simp

/-- `dmaw`: a tag that does not exist is ILLEGAL. -/
theorem dmaw (t : BitVec 5) : Ruled c (.dmaw c t) := by
  by_cases ht : 8 ≤ t.toNat
  · exact runCore (fun _ => exec_dmaw_bad ht) fun _ s => .runCore (.fault _ _ _ _)
  · exact onTag (fun _ => exec_dmaw (Nat.lt_of_not_le ht)) fun s => .onTag (.seq (.refl s c.val) rfl)

/-- `dmai` and `dmao`: operands that name no tag or no pair are ILLEGAL. -/
theorem dma {out : Bool} {d x y sh : BitVec 5}
    (he : ∀ s, exec i s = s.issue c i fun s => .next (s.startDma c.val out d x y sh)) : Ruled c i :=
  ⟨fun s => .next (s.startDma c.val out d x y sh), he,
    fun s h => congrArg _ (by rw [State.startDma, runCore_idle h, onTag_idle h, ite_self]),
    fun s h hf => congrArg _ (by rw [State.startDma, runCore_fetch h hf, onTag_fetch h hf, ite_self]),
    fun _ s _ ht => Host.Outcome.next.inj ht ▸ startDma_onlyCore⟩

section
variable {f : Core → Eff}

theorem runK (he : ∀ s, exec i s = s.issue c i fun s => .next (s.runK c.val f)) (hf : ∀ k, (f k).Keeps k) : Ruled c i :=
  runCore (g := fun s k => (s, f k)) he fun _ _ => runK_onlyCore (hf _)

theorem alu {d : BitVec 5} {f : Core → Word} (he : ∀ s, exec i s = s.issue c i fun s => .next (s.alu c.val d f)) : Ruled c i :=
  runK he fun _ => Core.unwritten_setg _ _ _

/-- An instruction of the control cores. -/
theorem runCtl {g : State → Core → State × Eff} (he : ∀ s, exec i s = s.issue c i fun s => .next (s.runCtl c.val g))
    (hw : StaysInCore i → ∀ s : State, s.Within c.val (g s (s.awake c.val))) : Ruled c i :=
  runCore (g := fun s k => if isCtl c.val then g s k else (s, .fault F_PRIVILEGED 0)) he fun hl s => runCtl_onlyCore (hw hl s)

end

/-! ### The classes of instructions that share a meaning -/

theorem jump {ofs : Half} {p : Core → Bool} (he : ∀ s, exec i s = s.issue c i fun s => .next (branch s c.val ofs p)) : Ruled c i :=
  runK he fun _ => .ite rfl rfl

theorem load {r : BitVec 5} {n : BitVec 3} {pm : BitVec 2} {disp : Half} {size : Nat} {put : Core → Nat → Core}
    (he : ∀ s, exec i s = s.issue c i fun s => .next (loadL s c.val r n pm disp size put))
    (hp : ∀ k v, (put k v).unwritten = k.unwritten) : Ruled c i :=
  runCore he fun _ _ => loadL_onlyCore hp

theorem store {r : BitVec 5} {n : BitVec 3} {pm : BitVec 2} {disp : Half} {size : Nat} {val : Core → Nat}
    (he : ∀ s, exec i s = s.issue c i fun s => .next (storeL s c.val r n pm disp size val)) : Ruled c i :=
  runCore he fun _ _ => storeL_onlyCore

theorem mac {acc : Nat} {src : VSrc2} {f : Int → Int → Int → Int} {aov : Bool}
    (he : ∀ s, exec i s = s.issue c i fun s => .next (vecMac s c.val acc src f aov)) : Ruled c i :=
  runCore he fun _ _ => vecMac_onlyCore

theorem lanes {d a b : BitVec 5} {f : Int → Int → Int}
    (he : ∀ s, exec i s = s.issue c i fun s => .next (vecAdd s c.val d a b f)) : Ruled c i :=
  runK he fun _ => .ite trivial ((Core.unwritten_flag _ _ _).trans (Core.unwritten_setLanes _ _ _))

theorem select {d gs gt gb : BitVec 5} {pick : Int → Int → Bool}
    (he : ∀ s, exec i s = s.issue c i fun s => .next (vecAcs s c.val d gs gt gb pick)) : Ruled c i :=
  runK he fun _ => .ite trivial ((Core.unwritten_flag _ _ _).trans (Core.unwritten_setLanes _ _ _))

theorem vld (acc : BitVec 2) (src : VSrc1) (sh : BitVec 5) : Ruled c (.vld c acc src sh) := by
  refine runCore (fun _ => rfl) fun _ s => .runCore (.ite (.fault _ _ _ _) ?_)
  cases src with
  | vr g => exact .ite (.fault _ _ _ _) (.seq (.refl s c.val) rfl)
  | vm x pm => exact .ite (.fault _ _ _ _) (.seq ((State.OnlyCore.refl s c.val).scrubLdm _ _ _)
      ((State.unwritten_scrubLdm _ _ _ _ _).trans (State.unwritten_vmRead s c.val _ _ _)))

theorem vst (acc : BitVec 2) (dst : VSrc1) (sh : BitVec 5) : Ruled c (.vst c acc dst sh) := by
  refine runCore (fun _ => rfl) fun _ s => .runCore ?_
  cases dst with
  | vr g => exact .ite (.fault _ _ _ _) (.seq (.refl s c.val) ((Core.unwritten_flag _ _ _).trans (Core.unwritten_setLanes _ _ _)))
  | vm x pm => exact .ite (.fault _ _ _ _) (.seq ((State.OnlyCore.refl s c.val).stN _ _ _ _) ((Core.unwritten_flag _ _ _).trans
      ((State.unwritten_stN _ _ _ _ _ _).trans (Core.unwritten_addr _ _ _ _ _))))

end Ruled

/-- Every core instruction has its rule. -/
theorem ruled {n : Nat} (h : coreOf i = some n) : ∃ c : Fin 516, c.val = n ∧ Ruled c i := by
  cases i with
  | add c | sub c | and c | or c | xor c | shl c | shr c | sar c | shlv c | shrv c | sarv c | cmplt c | cmpltu c | min c
  | max c | abs c | mul c | mulhi c | addk c | ork c | andk c | cmpltk c | movh c | dmas c =>
    exact ⟨c, Option.some.inj h, .alu fun _ => rfl⟩
  | brEq c | brNe c | brLt c | brGe c => exact ⟨c, Option.some.inj h, .jump fun _ => rfl⟩
  | call c => exact ⟨c, Option.some.inj h, .runK (fun _ => rfl) fun k => k.unwritten_setg _ _⟩
  | jmpr c | setx c | seto c | setcb c | setcl c | addx c | movx c | vclr c =>
    exact ⟨c, Option.some.inj h, .runK (fun _ => rfl) fun k => rfl⟩
  | loop c =>
    refine ⟨c, Option.some.inj h, .runK (fun _ => rfl) fun k => .ite trivial (.ite trivial (.ite ?_ ?_))⟩ <;> rfl
  | lbrk c =>
    refine ⟨c, Option.some.inj h, .runK (fun _ => rfl) fun k => .ite trivial ?_⟩
    rfl
  | mts c => exact ⟨c, Option.some.inj h, .runK (fun _ => rfl) fun k => k.keeps_mts _ _⟩
  | vred c | vext c =>
    exact ⟨c, Option.some.inj h, .runK (fun _ => rfl) fun k => (Core.unwritten_flag _ _ _).trans (k.unwritten_setg _ _)⟩
  | mfs c =>
    exact ⟨c, Option.some.inj h, .runCore (fun _ => rfl) fun _ s => .runCore (.seq (.refl s c.val)
      ((Core.unwritten_setg _ _ _).trans (Core.unwritten_mfs _ _ _ _)))⟩
  | ldH c | ldHu c | ldW c => exact ⟨c, Option.some.inj h, .load (fun _ => rfl) fun k v => k.unwritten_setg _ _⟩
  | ldD c =>
    exact ⟨c, Option.some.inj h, .load (fun _ => rfl) fun k v => (Core.unwritten_setg _ _ _).trans (k.unwritten_setg _ _)⟩
  | stH c | stW c | stD c => exact ⟨c, Option.some.inj h, .store fun _ => rfl⟩
  | vmpy c | vmac c | vmsu c => exact ⟨c, Option.some.inj h, .mac fun _ => rfl⟩
  | vld c acc src sh => exact ⟨c, Option.some.inj h, .vld acc src sh⟩
  | vst c acc dst sh => exact ⟨c, Option.some.inj h, .vst acc dst sh⟩
  | vadd c | vsub c => exact ⟨c, Option.some.inj h, .lanes fun _ => rfl⟩
  | vacsx c | vacsn c => exact ⟨c, Option.some.inj h, .select fun _ => rfl⟩
  | ldf c d x => exact ⟨c, Option.some.inj h, .runCore (fun _ => rfl) fun hl => absurd rfl (hl.2.1 c d x)⟩
  | stf c d x => exact ⟨c, Option.some.inj h, .runCore (fun _ => rfl) fun hl => absurd rfl (hl.2.2.1 c d x)⟩
  | dmai c | dmao c => exact ⟨c, Option.some.inj h, .dma fun _ => rfl⟩
  | dmaw c t => exact ⟨c, Option.some.inj h, .dmaw t⟩
  | done c tone => exact ⟨c, Option.some.inj h, .done tone⟩
  | mfp c =>
    exact ⟨c, Option.some.inj h, .runCtl (fun _ => rfl) fun _ s => .seq (.refl s c.val) (Core.unwritten_setg _ _ _)⟩
  | mtp c n =>
    refine ⟨c, Option.some.inj h, .runCtl (fun _ => rfl) fun _ s => ⟨.refl s c.val, ?_⟩⟩
    dsimp only
    split <;> trivial
  | wfi c =>
    refine ⟨c, Option.some.inj h, .runCtl (fun _ => rfl) fun _ s => .ite (.stay ((State.OnlyCore.refl s c.val).setCore ?_))
      (.seq (.refl s c.val) ?_)⟩ <;> rfl
  | iret c => exact ⟨c, Option.some.inj h, .runCtl (fun _ => rfl) fun _ s => ⟨.refl s c.val, rfl⟩⟩
  | fencef c =>
    exact ⟨c, Option.some.inj h, .runCtl (fun _ => rfl) fun _ s => .ite (.stay (.refl s c.val)) (.seq (.refl s c.val) rfl)⟩
  | romcall c n => exact ⟨c, Option.some.inj h, .runCtl (fun _ => rfl) fun hl => absurd rfl (hl.2.2.2 c n)⟩
  | _ => exact nomatch h

end Sys2Proof.Machine
end

section
/-! Idle cores and what a core's fetch decides (R242, R245, R258), and the frame of the core instructions (R234). -/

namespace Sys2Proof.Machine

variable {s t : State} {c : Fin 516} {i : Instr} {F : State → Res} {w : Word}

/-! ### The frame -/

theorem CoreRule.onlyCore (hr : CoreRule c i F) (hl : StaysInCore i) (he : exec i s = .next t) : s.OnlyCore t c.val := by
  rw [hr.issue] at he
  by_cases h : s.runs c.val
  · have hrest := State.OnlyCore.refetch s c.val
    cases hw : s.wordAt c.val with
    | none =>
      rw [issue_unknown h hw] at he
      exact hrest.trans (hr.within hl _ _ he)
    | some w =>
      rw [issue_known h hw] at he
      cases hd : decodeCore (isCtl c.val) c w with
      | run j =>
        simp only [hd] at he
        split_ifs at he
        · exact hrest.trans (hr.within hl _ _ he)
        · exact Host.Outcome.next.inj he ▸ .refl s c.val
      | illegal =>
        simp only [hd] at he
        exact Host.Outcome.next.inj he ▸ hrest.coreFault _ _
      | privileged =>
        simp only [hd] at he
        exact Host.Outcome.next.inj he ▸ hrest.coreFault _ _
  · rw [issue_not_runs h] at he
    exact hr.within hl _ _ he

/-- Settles O26: every effect but those of `done`, the far accesses and the ROM's service stays within its core, and so do a
fetch and a fault. -/
theorem coreFrame : Obligations.CoreFrame := by
  unfold Obligations.CoreFrame
  intro i n s t hi he hdone hldf hstf hrom
  obtain ⟨c, rfl, F, hr⟩ := ruled hi
  obtain ⟨hrest, hcsram, hcores, hregs, hcore⟩ := hr.onlyCore ⟨hdone, hldf, hstf, hrom⟩ he
  refine ⟨hrest, hcsram, hcores, hregs, ?_⟩
  simp only [Core.unwritten, Core.mk.injEq] at hcore
  simp only [hcore, and_self]

/-! ### Idle cores and failed fetches -/

theorem CoreRule.exec_idle (hr : CoreRule c i F) (h : s.coreRuns c.val = false) : exec i s = .next s := by
  rw [hr.issue, issue_not_runs fun hs => Bool.false_ne_true (h.symm.trans hs.1)]
  exact hr.idle s h

theorem CoreRule.exec_fetchFails (hr : CoreRule c i F) (h : s.coreRuns c.val = true) (hf : s.fetchFails c.val = true) :
    exec i s = .next (s.coreFault c.val 9 (s.core c.val).pc.toNat) := by
  rw [hr.issue, issue_not_runs fun hs => Bool.false_ne_true (hs.2.symm.trans hf)]
  exact hr.fetch s h hf

/-! ### A line with a parity error is fetched again (R258) -/

section
variable {n : Nat}

/-- The core after a fetch: its line of the cache is clean. -/
theorem State.core_refetch (s : State) (n : Nat) : ∃ l, (s.refetch n).core n = { s.core n with icErr := l } ∧
    (n < 512 → l.contains (s.core n).line = false) := by
  unfold State.refetch
  dsimp only
  split
  case isTrue h =>
    refine ⟨_, (State.core_congr (State.satRf_cores _ _ _ _ _)).trans (State.core_setCore_same _ _ _), fun _ => ?_⟩
    simp
  case isFalse h =>
    refine ⟨(s.core n).icErr, rfl, fun hn => ?_⟩
    rw [isCtl_of_lt hn] at h
    simpa using h

theorem State.refetch_refetch (s : State) (n : Nat) : (s.refetch n).refetch n = s.refetch n := by
  obtain ⟨l, hcore, hclean⟩ := s.core_refetch n
  refine State.refetch_clean fun hn => ?_
  rw [hcore]
  exact hclean hn

theorem State.kernel_refetch (s : State) (n k : Nat) : (s.refetch n).kernel k = s.kernel k := by
  have h := congrArg (fun x : State => x.kernel k) (State.OnlyCore.refetch s n).rest
  exact h

theorem State.pdOn_refetch (s : State) {n d : Nat} (hd : d < 2 ^ 20) : (s.refetch n).pdOn d = s.pdOn d := by
  have h := (State.OnlyCore.refetch s n).regs
  unfold State.pdOn State.pdState State.rf
  rw [h .CLKPWR_PD_STAT d hd fun _ => by decide, h .CLKPWR_CL_STAT (d - 35) (by omega) fun _ => by decide]

theorem State.wordAt_refetch (s : State) (n : Nat) : (s.refetch n).wordAt n = s.wordAt n := by
  obtain ⟨l, hcore, _⟩ := s.core_refetch n
  unfold State.wordAt
  rw [hcore]
  simp only [State.kernel_refetch]

theorem State.runs_refetch (hn : n < 516) (h : s.runs n) : (s.refetch n).runs n := by
  obtain ⟨l, hcore, _⟩ := s.core_refetch n
  have hrun : (s.refetch n).coreRuns n = s.coreRuns n := by
    unfold State.coreRuns State.clOn
    rw [hcore, State.pdOn_refetch s (by decide), State.pdOn_refetch s (by omega)]
  have hfetch : (s.refetch n).fetchFails n = s.fetchFails n := by
    unfold State.fetchFails
    rw [hcore]
    simp only [State.kernel_refetch]
    rfl
  exact ⟨hrun.trans h.1, hfetch.trans h.2⟩

/-- A fetch decides nothing but the errors of the line. -/
theorem issue_refetch {f : State → Res} (h : s.runs c.val)
    (hw : ∀ w j, s.wordAt c.val = some w → decodeCore (isCtl c.val) c w = .run j → j = plain i) :
    s.issue c i f = (s.refetch c.val).issue c i f := by
  have hr := State.runs_refetch c.isLt h
  have hword := s.wordAt_refetch c.val
  cases hs : s.wordAt c.val with
  | none => rw [issue_unknown h hs, issue_unknown hr (hword.trans hs), State.refetch_refetch]
  | some w =>
    rw [issue_known h hs, issue_known hr (hword.trans hs), State.refetch_refetch]
    cases hd : decodeCore (isCtl c.val) c w with
    | run j => simp only [hw w j hs hd, if_true]
    | illegal => rfl
    | privileged => rfl

/-- A saturating count. -/
theorem State.rf_satRf (s : State) (r : RegName) (i : Nat) {hi lo : Nat} (h : lo ≤ hi) (h32 : hi < 32) :
    (s.satRf r i hi lo).rf r i hi lo = min (2 ^ (hi + 1 - lo) - 1) (s.rf r i hi lo + 1) := by
  have hlt : s.rf r i hi lo < 2 ^ (hi + 1 - lo) := Nat.mod_lt _ (Nat.two_pow_pos _)
  unfold State.satRf
  split
  case isTrue hmax =>
    rw [hmax, min_eq_left (Nat.le_succ _)]
  case isFalse hmax =>
    rw [State.rf_setRf_same _ _ _ _ h h32, Nat.mod_eq_of_lt (by omega), min_eq_right (by omega)]

/-- A parity error is counted, and the line is clean. -/
theorem State.refetch_counts (hn : n < 512) (h : (s.core n).icErr.contains (s.core n).line = true) :
    (s.refetch n).rf .CORE_ECC n 15 0 = min 65535 (s.rf .CORE_ECC n 15 0 + 1) ∧
    (s.refetch n).core n = { s.core n with icErr := (s.core n).icErr.filter (· != (s.core n).line) } := by
  have he : s.refetch n = (s.setCore n { s.core n with icErr := (s.core n).icErr.filter (· != (s.core n).line) }).satRf .CORE_ECC n 15 0 :=
    if_pos (by rw [isCtl_of_lt hn, h]; rfl)
  rw [he]
  exact ⟨State.rf_satRf _ _ _ (by decide) (by decide),
    (State.core_congr (State.satRf_cores _ _ _ _ _)).trans (State.core_setCore_same _ _ _)⟩

end

/-! ### Words that spell no instruction (R242) -/

theorem wordField_group (w : Word) : (wordField w 27 5).toNat = w.toNat / 2 ^ 27 := by
  rw [wordField, BitVec.extractLsb'_toNat, Nat.shiftRight_eq_div_pow]
  exact Nat.mod_eq_of_lt (by omega)

theorem decodeCore_illegal (ctl : Bool) (c : Fin 516) (h : w.toNat / 2 ^ 27 = 0x17 ∨ w.toNat / 2 ^ 27 = 0x1A ∨ w.toNat / 2 ^ 27 = 0x1B) :
    decodeCore ctl c w = .illegal := by
  rw [← wordField_group] at h
  unfold decodeCore
  rcases h with h | h | h <;> rw [h] <;> rfl

theorem decodeCore_privileged (c : Fin 516) (h : 0x1C ≤ w.toNat / 2 ^ 27) : decodeCore false c w = .privileged := by
  have hg : w.toNat / 2 ^ 27 = 0x1C ∨ w.toNat / 2 ^ 27 = 0x1D ∨ w.toNat / 2 ^ 27 = 0x1E ∨ w.toNat / 2 ^ 27 = 0x1F := by omega
  rw [← wordField_group] at hg
  unfold decodeCore
  rcases hg with h | h | h | h <;> rw [h] <;> rfl

theorem decodeCore_ctl_illegal (c : Fin 516) (h : 0x1D ≤ w.toNat / 2 ^ 27) : decodeCore true c w = .illegal := by
  have hg : w.toNat / 2 ^ 27 = 0x1D ∨ w.toNat / 2 ^ 27 = 0x1E ∨ w.toNat / 2 ^ 27 = 0x1F := by omega
  rw [← wordField_group] at hg
  unfold decodeCore
  rcases hg with h | h | h <;> rw [h] <;> rfl

/-- Settles O25: an idle core and a failed fetch by the instruction's rule, a known word by what it spells, a fetch by the
errors of its line, and a fault by the registers that it writes. -/
theorem coreFaultsAndIdle : Obligations.CoreFaultsAndIdle := by
  unfold Obligations.CoreFaultsAndIdle
  refine ⟨fun i n s hi h => ?_, fun i n s hi h hf => ?_, fun i c s w hi h hw => ?_, fun i c s hi h hw => ?_, fun s n hn => ?_,
    fun ctl c w => ?_, fun s n cause addr hn hcause => ?_⟩
  · obtain ⟨c, rfl, F, hr⟩ := ruled hi
    exact hr.exec_idle h
  · obtain ⟨c, rfl, F, hr⟩ := ruled hi
    exact hr.exec_fetchFails h hf
  · obtain ⟨e, he, F, hr⟩ := ruled hi
    obtain rfl := Fin.ext he
    rw [hr.issue, issue_known h hw]
    exact ⟨fun hd => by rw [hd], fun hd => by rw [hd], fun j hd hj => by rw [hd]; exact if_neg hj.symm⟩
  · obtain ⟨e, he, F, hr⟩ := ruled hi
    obtain rfl := Fin.ext he
    rw [hr.issue, hr.issue]
    exact issue_refetch h hw
  · exact ⟨State.refetch_counts hn, fun h => State.refetch_clean fun _ => h⟩
  · exact ⟨decodeCore_illegal ctl c, decodeCore_privileged c, decodeCore_ctl_illegal c⟩
  · have hcore := s.core_coreFault n cause addr
    exact ⟨by rw [hcore], by rw [hcore], fun _ hc => s.core_coreFault_ne cause addr hc, s.coreFault_rest n cause addr,
      State.coreFault_record hn hcause, State.coreFault_overrun hn⟩

end Sys2Proof.Machine
end

section
/-! What the fabric's other work leaves of the crypto plane (R314 to R317, R477): demands, the journal, the loss of a domain, fences and the
Test strip change neither the key store nor the registers by which the window, the sensors and Bleach are read. Each function of the
model has one lemma, `State.CryptKept.<function>`, that follows the function's text. -/

namespace Sys2Proof.Machine

/-! ### The relation -/

/-- The registers by which the key window, the sensors and Bleach are read. -/
def cryptRegs : List RegName := [.CRYPT_STAT, .CRYPT_TAMPER_EN, .CRYPT_TAMPER_STAT, .KEYWIN_LOCK_STAT, .KEYWIN_DATA]

/-- The key store and the crypto plane's registers read in `t` as in `s`. -/
structure State.CryptKept (s t : State) : Prop where
  keys : t.keys = s.keys
  reg : ∀ n ∈ cryptRegs, ∀ i < 2 ^ 20, t.reg n i = s.reg n i

variable {u s t : State}

theorem State.CryptKept.refl (s : State) : s.CryptKept s := ⟨rfl, fun _ _ _ _ => rfl⟩

theorem State.CryptKept.rb (h : s.CryptKept t) {n : RegName} (hn : n ∈ cryptRegs) (b : Nat) : t.rb n 0 b = s.rb n 0 b :=
  congrArg (bit · b) (h.reg n hn 0 (by decide))

theorem State.CryptKept.rf (h : s.CryptKept t) {n : RegName} (hn : n ∈ cryptRegs) (hi lo : Nat) : t.rf n 0 hi lo = s.rf n 0 hi lo :=
  congrArg (fld · hi lo) (h.reg n hn 0 (by decide))

/-- A named update of the other parts of the state. -/
theorem State.CryptKept.frame (h : u.CryptKept s) {pending cnts fifos bus mem csram out freeCtr time power vusta net cores disp mix
    video hbm trust tst} :
    u.CryptKept ⟨pending, s.regs, cnts, fifos, bus, mem, csram, out, freeCtr, time, power, vusta, net, cores, disp, s.keys, mix,
      video, hbm, trust, tst⟩ := ⟨h.keys, fun n hn i hi => h.reg n hn i hi⟩

theorem State.CryptKept.ite {p : Prop} {_ : Decidable p} (hs : u.CryptKept s) (ht : u.CryptKept t) :
    u.CryptKept (if p then s else t) := by
  split
  · exact hs
  · exact ht

theorem State.CryptKept.foldl_mem {α : Type} {f : State → α → State} {l : List α} (h : u.CryptKept s)
    (hf : ∀ {t : State} {x : α}, x ∈ l → u.CryptKept t → u.CryptKept (f t x)) : u.CryptKept (l.foldl f s) :=
  List.foldlRecOn l f h fun _ ht _ hx => hf hx ht

theorem State.CryptKept.foldl {α : Type} {f : State → α → State} {l : List α} (h : u.CryptKept s)
    (hf : ∀ {t : State} {x : α}, u.CryptKept t → u.CryptKept (f t x)) : u.CryptKept (l.foldl f s) :=
  h.foldl_mem fun _ => hf

/-- The state that a pair carries first keeps the crypto plane. -/
def State.CryptKeptFst {α : Type} (u : State) (p : State × α) : Prop := u.CryptKept p.1

theorem State.CryptKeptFst.of_eq {α : Type} {p : State × α} {a : α} (e : p = (t, a)) (h : u.CryptKeptFst p) : u.CryptKept t := by
  subst e
  exact h

theorem State.CryptKeptFst.ite {α : Type} {p : Prop} {_ : Decidable p} {a b : State × α} (ha : u.CryptKeptFst a)
    (hb : u.CryptKeptFst b) : u.CryptKeptFst (if p then a else b) := by
  split
  · exact ha
  · exact hb

/-! ### Registers -/

/-- A register after the crypto plane's in the map, at any place: the key of no crypto register meets it. -/
theorem State.CryptKept.setReg (h : u.CryptKept s) {n : RegName} {i : Nat} {v : Word} (hn : RegName.KEYWIN_DATA.code < n.code := by decide) :
    u.CryptKept (s.setReg n i v) := by
  refine ⟨h.keys, fun m hm j hj => (State.reg_setReg_ne s v ?_).trans (h.reg m hm j hj)⟩
  have hle : ∀ m ∈ cryptRegs, m.code ≤ RegName.KEYWIN_DATA.code := by decide
  have := hle m hm
  unfold regKey
  omega

theorem State.CryptKept.setRf (h : u.CryptKept s) {n : RegName} {i hi lo v : Nat} (hn : RegName.KEYWIN_DATA.code < n.code := by decide) :
    u.CryptKept (s.setRf n i hi lo v) := h.setReg hn

theorem State.CryptKept.setRb (h : u.CryptKept s) {n : RegName} {i b : Nat} {v : Bool} (hn : RegName.KEYWIN_DATA.code < n.code := by decide) :
    u.CryptKept (s.setRb n i b v) := h.setReg hn

/-- Another register of the map, at a place that it has. -/
theorem State.CryptKept.setReg_at (h : u.CryptKept s) {n : RegName} {i : Nat} {v : Word} (hi : i < 2 ^ 20)
    (hn : n ∉ cryptRegs := by decide) : u.CryptKept (s.setReg n i v) :=
  ⟨h.keys, fun m hm j hj => (s.reg_setReg_name v hi hj (ne_of_mem_of_not_mem hm hn)).trans (h.reg m hm j hj)⟩

theorem State.CryptKept.setRb_at (h : u.CryptKept s) {n : RegName} {i b : Nat} {v : Bool} (hi : i < 2 ^ 20)
    (hn : n ∉ cryptRegs := by decide) : u.CryptKept (s.setRb n i b v) := h.setReg_at hi hn

/-- A reset of registers none of which is the crypto plane's. -/
theorem State.CryptKept.rstRegs (h : u.CryptKept s) {p : RegName → Nat → Bool}
    (hp : ∀ n ∈ cryptRegs, ∀ i, p n i = false) : u.CryptKept (s.rstRegs p) := by
  refine ⟨h.keys, fun n hn i hi => Eq.trans ?_ (h.reg n hn i hi)⟩
  have hk : regKey n i / 2 ^ 20 = n.code ∧ regKey n i % 2 ^ 20 = i := by
    unfold regKey
    omega
  unfold State.reg State.rstRegs Tbl.get
  rw [Tbl.find_keep]
  simp only [hk, RegName.all_code, hp n hn i, Bool.not_false, if_true]

/-! ### Power and notifications -/

theorem code_pdStat (d : Nat) : RegName.KEYWIN_DATA.code < (pdStat d).1.code := by
  unfold pdStat
  split
  · exact (by decide : RegName.KEYWIN_DATA.code < RegName.code .CLKPWR_PD_STAT)
  · exact (by decide : RegName.KEYWIN_DATA.code < RegName.code .CLKPWR_CL_STAT)

theorem code_pdCtrl (d : Nat) : RegName.KEYWIN_DATA.code < (pdCtrl d).1.code := by
  unfold pdCtrl
  split
  · exact (by decide : RegName.KEYWIN_DATA.code < RegName.code .CLKPWR_PD_CTRL)
  · exact (by decide : RegName.KEYWIN_DATA.code < RegName.code .CLKPWR_CL_CTRL)

theorem State.CryptKept.setPd (h : u.CryptKept s) {d st : Nat} : u.CryptKept (s.setPd d st) := h.setRf (code_pdStat d)

theorem State.CryptKept.startUp (h : u.CryptKept s) {d : Nat} {r : Bool} : u.CryptKept (s.startUp d r) :=
  .ite h (.ite h.setPd (.ite h h.frame))

theorem State.CryptKept.wake (h : u.CryptKept s) {d : Nat} {r : Bool} : u.CryptKept (s.wake d r) := by
  unfold State.wake
  split
  · exact h.startUp
  · exact .ite h.frame h
  · exact .ite h.frame h.setPd
  · exact h.frame
  · exact h.frame
  · exact h

theorem State.CryptKept.wakeUp (h : u.CryptKept s) {d : Nat} {r : Bool} : u.CryptKept (s.wakeUp d r) := .ite h.wake.wake h.wake

theorem State.CryptKept.reqOn (h : u.CryptKept s) {d : Nat} : u.CryptKept (s.reqOn d) := .ite (h.setRf (code_pdCtrl d)) h

theorem State.CryptKept.demand (h : u.CryptKept s) {d : Nat} {r : Bool} : u.CryptKept (s.demand d r) :=
  .ite (.wakeUp (.reqOn (.ite h.reqOn h))) h

theorem State.CryptKept.msix (h : u.CryptKept s) {f v : Nat} : u.CryptKept (s.msix f v) := .ite h h.frame

theorem State.CryptKept.notify (h : u.CryptKept s) {f op hd : Nat} {l : List Nat} : u.CryptKept (s.notify f op hd l) := .ite h h.frame

theorem State.CryptKept.notifyAll (h : u.CryptKept s) {op hd : Nat} {l : List Nat} : u.CryptKept (s.notifyAll op hd l) :=
  h.foldl fun h1 => h1.notify

theorem State.CryptKept.ctrlIrq (h : u.CryptKept s) {ch : Nat} : u.CryptKept (s.ctrlIrq ch) :=
  State.CryptKept.foldl (s := s.emit _) h.frame fun h1 => h1.frame

theorem State.CryptKept.doPost (h : u.CryptKept s) {ch : Fin 64} : u.CryptKept (s.doPost ch) := by
  have hc : ch.val < 2 ^ 20 := ch.isLt.trans (by decide)
  have hp : ∀ {t}, u.CryptKept t → u.CryptKept (t.intReceiver ch.val) := fun ht => .ite ht.msix ht.ctrlIrq
  exact .ite (h.setRb_at hc) (hp (.ite (h.setReg_at hc).frame (h.setReg_at hc)))

theorem State.CryptKept.chan2 (h : u.CryptKept s) {what arg : Nat} : u.CryptKept (s.chan2 what arg) := by
  have h1 : u.CryptKept ((s.emit (.chan2 what arg)).demand 1) := .demand h.frame
  refine .ite (.doPost (h1.foldl_mem fun hx ht => ?_)) h1
  have := List.mem_range.mp hx
  exact State.CryptKept.setReg_at ht.frame (by omega)

/-! ### The journal -/

theorem State.CryptKept.pfailOn (h : u.CryptKept s) : u.CryptKept s.pfailOn := .ite h h.setRb.setRb.chan2.notifyAll

theorem State.CryptKept.refuseCommit (h : u.CryptKept s) {code : Nat} : u.CryptKeptFst (s.refuseCommit code) :=
  State.CryptKept.setRf (s := s.updTrust _) h.frame

theorem State.CryptKept.convert (h : u.CryptKept s) : u.CryptKept s.convert :=
  .setRf (by split; exacts [h.frame, h])

theorem State.CryptKept.mayCommit (h : u.CryptKept s) {erase : Bool} : u.CryptKeptFst (s.mayCommit erase) := by
  unfold State.mayCommit
  extract_lets s0 s1 s2
  have h0 : u.CryptKept s0 := by
    unfold s0
    split
    · exact State.CryptKept.pfailOn h.frame
    · exact h.frame
    · exact h
  have h2 : u.CryptKept s2 := h0.convert.setReg.setReg
  exact .ite h0.refuseCommit (.ite h2 h2.refuseCommit)

theorem State.CryptKept.progPage (h : u.CryptKept s) {a : Nat} {page : List Byte} : u.CryptKeptFst (s.progPage a page) := by
  unfold State.progPage
  split
  · next heq => exact State.CryptKept.setRf (s := State.updTrust _ _) (State.CryptKeptFst.of_eq heq h.mayCommit).frame
  · exact h.mayCommit

theorem State.CryptKept.eraseSector (h : u.CryptKept s) {a : Nat} : u.CryptKeptFst (s.eraseSector a) := by
  unfold State.eraseSector
  split
  · next heq => exact State.CryptKept.setRf (s := State.updTrust _ _) (State.CryptKeptFst.of_eq heq h.mayCommit).frame
  · exact h.mayCommit

theorem State.CryptKept.progPages (h : u.CryptKept s) {n : Nat} {l : List Byte} : u.CryptKeptFst (s.progPages n l) := by
  induction n generalizing s l with
  | zero => exact h
  | succ n ih =>
    unfold State.progPages
    split
    · next heq => exact ih (State.CryptKeptFst.of_eq heq h.progPage).frame
    · exact h.progPage

theorem State.CryptKept.jrnlRet (h : u.CryptKept s) : u.CryptKept s.jrnlRet :=
  .setReg_at (.setReg_at (.setReg_at (h.setReg_at (by decide)) (by decide)) (by decide)) (by decide)

theorem State.CryptKept.putRec (h : u.CryptKept s) {r : JRec} : u.CryptKeptFst (s.putRec r) := by
  unfold State.putRec
  refine .ite h.refuseCommit ?_
  split
  · next heq => exact State.CryptKept.jrnlRet (State.CryptKeptFst.of_eq heq h.progPages).frame
  · next heq => exact (State.CryptKeptFst.of_eq heq h.progPages).jrnlRet

theorem State.CryptKept.copyForward (h : u.CryptKept s) {a : Nat} : u.CryptKeptFst (s.copyForward a) :=
  List.foldlRecOn (motive := u.CryptKeptFst) _ _ h fun _ hp _ _ => .ite hp (State.CryptKept.putRec hp)

theorem State.CryptKept.reclaim (h : u.CryptKept s) {n : Nat} : u.CryptKept (s.reclaim n) := by
  induction n generalizing s with
  | zero => exact h
  | succ n ih =>
    unfold State.reclaim
    refine .ite h ?_
    dsimp only
    split
    · next heq =>
      have ht := State.CryptKeptFst.of_eq heq h.copyForward
      split
      · next heq => exact ih (State.CryptKept.jrnlRet (State.CryptKeptFst.of_eq heq ht.eraseSector).frame)
      · next heq => exact State.CryptKeptFst.of_eq heq ht.eraseSector
    · next heq => exact State.CryptKeptFst.of_eq heq h.copyForward

theorem State.CryptKept.commitRec (h : u.CryptKept s) {typ tenant : Nat} {l : List Byte} :
    u.CryptKeptFst (s.commitRec typ tenant l) := by
  unfold State.commitRec
  dsimp only
  split
  · next heq => exact (State.CryptKeptFst.of_eq heq h.reclaim.putRec).frame
  · exact h.reclaim.putRec

theorem State.CryptKept.flushAudits (h : u.CryptKept s) {n : Nat} : u.CryptKept (s.flushAudits n) := by
  induction n generalizing s with
  | zero => exact h
  | succ n ih =>
    unfold State.flushAudits
    split
    · exact h
    · refine .ite h ?_
      split
      · next heq => exact ih (State.CryptKeptFst.of_eq heq h.commitRec).frame
      · next heq => exact State.CryptKeptFst.of_eq heq h.commitRec

theorem State.CryptKept.audit (h : u.CryptKept s) {code : Nat} {l : List Nat} : u.CryptKept (s.audit code l) :=
  State.CryptKept.flushAudits h.frame

theorem State.CryptKept.commitCmdRec (h : u.CryptKept s) {typ tenant : Nat} {l : List Byte} :
    u.CryptKeptFst (s.commitCmdRec typ tenant l) := h.flushAudits.commitRec

end Sys2Proof.Machine
end

section
/-! What the loss of a domain, fences and the Test strip's runs leave of the crypto plane (R24, R146, R175, R209, R232, R264, R291, R474
to R483): all of it. -/

namespace Sys2Proof.Machine

variable {u s t : State}

/-! ### The dispatcher -/

theorem State.CryptKept.releaseOpt (h : u.CryptKept s) {p : Option Nat} : u.CryptKept (s.releaseOpt p) := by
  unfold State.releaseOpt State.releasePayload
  split
  · split
    · exact h
    · exact .ite h.frame (State.CryptKept.setReg_at (s := s.updNet _) h.frame (by decide))
  · exact h

theorem State.CryptKept.drawItem (h : u.CryptKept s) {k p : Nat} : u.CryptKept (s.drawItem k p) := by
  unfold State.drawItem State.dispStat
  exact .setRf h.frame

theorem State.CryptKept.returnItem (h : u.CryptKept s) {k p : Nat} : u.CryptKept (s.returnItem k p) := by
  unfold State.returnItem State.dispStat
  exact .setRf h.frame

theorem State.CryptKept.wakeCheck (h : u.CryptKept s) {q : Nat} : u.CryptKept (s.wakeCheck q) := by
  unfold State.wakeCheck
  split
  · exact h
  · refine .ite h ?_
    split
    · exact h
    · exact .ite (State.CryptKept.demand (s := s.setDispQ _ _) h.frame).frame h

theorem State.CryptKept.wakeEngines (h : u.CryptKept s) {q : Nat} : u.CryptKept (s.wakeEngines q) :=
  h.foldl fun h1 => .ite h1.demand h1

theorem State.CryptKept.enqueue (h : u.CryptKept s) {q p : Nat} {it : Item} : u.CryptKept (s.enqueue q p it) := by
  unfold State.enqueue
  split
  · exact h
  · exact .wakeCheck (.wakeEngines (.ite (.demand h.frame) h.frame))

theorem State.CryptKept.postHw (h : u.CryptKept s) {q p : Nat} {it : Item} : u.CryptKept (s.postHw q p it) := by
  unfold State.postHw
  split
  · exact h.releaseOpt.frame
  · split
    · exact (State.CryptKept.releaseOpt (s := s.setDispQ _ _) h.frame).frame
    · exact h.drawItem.enqueue

theorem State.CryptKept.unplace (h : u.CryptKept s) {c : Nat} : u.CryptKept (s.unplace c) :=
  State.CryptKept.frame (h.foldl fun h1 => by dsimp only; split; exacts [h1, h1.frame])

theorem State.CryptKept.returnPosts (h : u.CryptKept s) {l : List (Nat × Item)} : u.CryptKept (s.returnPosts l) :=
  h.foldl fun {t x} h1 => by
    split
    · exact State.CryptKept.returnItem (s := t.setDispQ _ _) h1.frame
    · exact h1

theorem State.CryptKept.retryRunning (h : u.CryptKept s) {c : Nat} : u.CryptKept (s.retryRunning c) := by
  unfold State.retryRunning
  refine .ite h ?_
  dsimp only
  split
  · exact h.releaseOpt
  · exact h.returnPosts.frame

/-! ### Clusters and tiles -/

theorem State.CryptKept.loseCore (h : u.CryptKept s) {c : Nat} : u.CryptKept (s.loseCore c) := by
  have hr : ∀ n ∈ cryptRegs, [RegName.CORE_STAT, .CORE_FAULT, .CORE_FAULT_PC, .CORE_FAULT_ADDR, .CORE_CYC_LO, .CORE_CYC_HI,
    .CORE_ECC].contains n = false := by decide
  unfold State.loseCore
  refine .rstRegs h.unplace.retryRunning.frame fun n hn i => ?_
  rw [hr n hn, Bool.and_false]

theorem State.CryptKept.loseCluster (h : u.CryptKept s) {c : Nat} : u.CryptKept (s.loseCluster c) := by
  unfold State.loseCluster
  extract_lets s1
  have h1 : u.CryptKept s1 := h.foldl fun h1 => h1.loseCore
  clear_value s1
  exact h1.frame

theorem State.CryptKept.directEntry (h : u.CryptKept s) {n i : Nat} {ws : List Word} : u.CryptKept (s.directEntry n i ws) := by
  have hw (k : Int) : u.CryptKept (s.writeEntry n i ws k false) := by
    unfold State.writeEntry
    refine .ite h.frame ?_
    split
    · exact .ite h.frame (State.CryptKept.foldl (s := s.putEntry _ _ _ _ _) h.frame fun h1 => h1.frame)
    · exact h.frame
  unfold State.directEntry State.directWords
  exact (State.CryptKept.ite h (hw _)).frame

theorem State.CryptKept.moveSource (h : u.CryptKept s) {i : Nat} {ws : List Word} : u.CryptKept (s.moveSource i ws) := by
  unfold State.moveSource
  dsimp only
  split
  · exact h
  · exact State.CryptKept.directEntry h.frame

theorem State.CryptKept.moveEncode (h : u.CryptKept s) {i : Nat} {ws : List Word} : u.CryptKept (s.moveEncode i ws) := by
  unfold State.moveEncode
  dsimp only
  split
  · exact h
  · exact State.CryptKept.directEntry h.frame

theorem State.CryptKept.moveConf (h : u.CryptKept s) {i : Nat} {ws : Nat → List Word} : u.CryptKept (s.moveConf i ws) := by
  unfold State.moveConf
  dsimp only
  split
  · exact h
  · exact State.CryptKept.foldl (s := s.updConf _ _) h.frame fun h1 => (State.CryptKept.directEntry h1.frame).frame

theorem State.CryptKept.loseSlice (h : u.CryptKept s) {k : Nat} : u.CryptKept (s.loseSlice k) := by
  have hr : ∀ n ∈ cryptRegs, [RegName.MIXF_SL_ARM, .MIXF_SL_AT_LO, .MIXF_SL_AT_HI].contains n = false := by decide
  refine .foldl (.foldl (State.CryptKept.foldl (State.CryptKept.rstRegs (s := s.updMix _) h.frame fun n hn i => ?_)
    fun h1 => h1.moveSource) fun h1 => h1.moveConf) fun h1 => h1.moveEncode
  rw [hr n hn, Bool.and_false]

theorem State.CryptKept.loseTile (h : u.CryptKept s) {k : Nat} : u.CryptKept (s.loseTile k) :=
  .loseSlice (h.foldl fun h1 => h1.loseCluster)

/-! ### Engines -/

theorem State.CryptKept.shelved (h : u.CryptKept s) (ht : s.Shelved t) : u.CryptKept t := by
  obtain ⟨_, _, _, _, rfl⟩ := ht
  exact h.frame

theorem State.CryptKept.unmark (h : u.CryptKept s) {b : Buf} {m : Nat} : u.CryptKept (s.unmark b m) :=
  h.shelved (s.pooled_unmark b m).shelved

theorem State.CryptKept.poolDrop (h : u.CryptKept s) {b : Buf} : u.CryptKept (s.poolDrop b) :=
  h.shelved (s.pooled_settle _ _).shelved

theorem State.CryptKept.encPost (h : u.CryptKept s) {pe : Nat} {p : EncPost} : u.CryptKept (s.encPost pe p) := by
  obtain ⟨_, _, _, ht⟩ := (s.posted_encPost pe p).rest
  rw [ht]
  exact h.frame

theorem State.CryptKept.breakLayout (h : u.CryptKept s) {i : Nat} : u.CryptKept (s.breakLayout i) := by
  have hd : u.CryptKept (s.dropPicture i) := by
    unfold State.dropPicture
    split
    · exact h
    · exact State.CryptKept.frame (.foldl (h.foldl fun h1 => h1.poolDrop) fun h1 => h1.unmark)
  exact .ite (.ite (.notify hd.frame) hd.frame) hd.frame

theorem State.CryptKept.moveLayout (h : u.CryptKept s) {i pe : Nat} : u.CryptKept (s.moveLayout i pe) :=
  State.CryptKept.breakLayout h.frame

theorem State.CryptKept.abortJob (h : u.CryptKept s) {pe c e : Nat} {lost : Bool} : u.CryptKept (s.abortJob pe c e lost) := by
  unfold State.abortJob
  split
  · exact h
  · next j _ =>
    extract_lets s1 s2
    have h1 : u.CryptKept s1 := by
      unfold s1
      split
      · exact h.poolDrop
      · exact h
    have h2 : u.CryptKept s2 := .ite h1 h1.encPost
    exact State.CryptKept.shelved (s := (s2.jobDone e 5 j).updEnc _ _) h2.encPost.frame (State.shelved_endJob _ _ _ _)

theorem State.CryptKept.moveGroup (h : u.CryptKept s) {g pe : Nat} {lost : Bool} : u.CryptKept (s.moveGroup g pe lost) := by
  unfold State.moveGroup
  extract_lets old jobs s1 s2 s3 s4
  have h1 : u.CryptKept s1 := h.foldl fun h1 => h1.abortJob
  have h2 : u.CryptKept s2 := h1.foldl fun {t _} ht => (ht.shelved (t.shelved_dropQueue _)).frame
  have h4 : u.CryptKept s4 := State.CryptKept.foldl (s := s3) h2.frame fun {t _} ht => ht.shelved (t.shelved_unmarks _ _ _)
  exact State.CryptKept.shelved (s := s4.updGroup g _) h4.frame (State.shelved_sweepGroup _ g)

theorem State.CryptKept.dropRequests (h : u.CryptKept s) {i : Nat} : u.CryptKept (s.dropRequests i) := by
  have hj : ∀ j, u.CryptKept (s.dropJob j) := fun j => by
    unfold State.dropJob
    cases j.buf <;> cases j.grey
    · exact h
    · exact h.poolDrop
    · exact h.poolDrop
    · exact h.poolDrop.poolDrop
  have h1 : ∀ {t}, u.CryptKept t → ∀ pe, u.CryptKept (t.sweepReqs pe) := fun ht _ => .ite ht ht.frame
  refine h1 (State.CryptKept.frame ?_) _
  split
  · exact .ite (hj _).frame h
  · exact h

theorem State.CryptKept.moveDec (h : u.CryptKept s) {i pe : Nat} : u.CryptKept (s.moveDec i pe) := by
  have h1 : u.CryptKept ((s.dropRequests i).clearDecMarks i) :=
    State.CryptKept.frame (.foldl (.foldl (h.dropRequests.foldl fun h1 => h1.unmark) fun h1 => h1.unmark) fun h1 => h1.unmark)
  unfold State.moveDec State.refreshReq
  generalize (s.dropRequests i).clearDecMarks i = v at h1 ⊢
  dsimp only
  split
  · exact h1.frame
  · exact .ite h1.frame (.postHw h1.frame)

theorem State.CryptKept.moveEngine (h : u.CryptKept s) {pe : Nat} {lost : Bool} : u.CryptKept (s.moveEngine pe lost) := by
  refine .foldl (.foldl (.foldl h fun {t i} h1 => ?layout) fun {t i} h1 => ?group) fun {t i} h1 => ?decoder
  case layout =>
    dsimp only
    split
    · exact h1.moveLayout
    · exact .ite h1.breakLayout h1
  case group =>
    split
    · exact h1.moveGroup
    · exact .ite h1.moveGroup h1
  case decoder => split <;> exact h1.moveDec

/-- The crypto plane's registers are no engine's. -/
theorem engineOf_cryptReg {n : RegName} (hn : n ∈ cryptRegs) (i : Nat) : n.engineOf i = none := by
  simp only [cryptRegs, List.mem_cons, List.not_mem_nil, or_false] at hn
  rcases hn with rfl | rfl | rfl | rfl | rfl <;> rfl

theorem State.CryptKept.loseEngine (h : u.CryptKept s) {pe : Nat} : u.CryptKept (s.loseEngine pe) := by
  have h1 : u.CryptKept (s.rstRegs fun n i => n.engineOf i == some pe) :=
    h.rstRegs fun n hn i => by rw [engineOf_cryptReg hn]; rfl
  exact State.CryptKept.frame (h1.moveEngine.foldl fun h2 => h2.frame)

theorem State.CryptKept.loseDomain (h : u.CryptKept s) {d : Nat} : u.CryptKept (s.loseDomain d) :=
  .ite h.loseCluster (.ite h.loseTile (.ite h.loseEngine h))

/-! ### Fences -/

theorem State.CryptKept.stopping (h : u.CryptKept s) {d : Nat} : u.CryptKept (s.stopping d) :=
  have h1 : u.CryptKept ((s.setPd d 3).updDom d _) := h.setPd.frame
  .ite (h1.foldl fun h2 => h2.unplace) h1

theorem State.CryptKept.goDown (h : u.CryptKept s) {d k : Nat} : u.CryptKept (s.goDown d k) :=
  .ite (.ite h.frame (.stopping h.frame)) (.stopping h.frame)

theorem State.CryptKept.holdOff (h : u.CryptKept s) {d : Nat} : u.CryptKept (s.holdOff d) := by
  have h1 := (h.setRf (code_pdCtrl d) (i := (pdCtrl d).2) (hi := 31) (lo := 30) (v := 2)).setRb (code_pdCtrl d)
    (i := (pdCtrl d).2) (b := 28) (v := true)
  unfold State.holdOff
  dsimp only
  split
  · exact .ite h1 h1.goDown
  · exact h1.frame
  · exact h1.setPd
  · exact h1

theorem State.CryptKept.setFence (h : u.CryptKept s) {c : Nat} {on : Bool} : u.CryptKept (s.setFence c on) := .ite h.setRb h.setRb

theorem State.CryptKept.fenceCluster (h : u.CryptKept s) {c : Nat} : u.CryptKept (s.fenceCluster c) := h.setFence.holdOff.frame

theorem State.CryptKept.fenceUnit (h : u.CryptKept s) {k : Nat} : u.CryptKept (s.fenceUnit k) :=
  .ite h.fenceCluster <|
    .ite (.holdOff (.loseSlice (.setRb (h.foldl fun h1 => h1.fenceCluster)))) (.ite h.setRb.moveEngine.holdOff h)

theorem State.CryptKept.fence (h : u.CryptKept s) {k : Nat} {on : Bool} : u.CryptKept (s.fence k on) :=
  .ite h (.audit (.notifyAll (.fenceUnit h.frame)))

/-! ### The Test strip -/

theorem State.CryptKept.testGo (h : u.CryptKept s) {p k : Nat} : u.CryptKept (s.testGo p k) :=
  State.CryptKept.frame h.setRf.setReg.setReg.setRb.setReg

theorem State.CryptKept.testHold (h : u.CryptKept s) {k : Nat} {on : Bool} : u.CryptKept (s.testHold k on) := by
  have h1 : u.CryptKept (if k < 64 then if !on && s.tst.fenced.contains (64 + k / 4) then s else s.setFence k on else s) :=
    .ite (.ite h h.setFence) h
  exact .ite h (.ite h1 (h1.setRb (code_pdCtrl _)))

theorem State.CryptKept.writeResult (h : u.CryptKept s) {r : TestRun} : u.CryptKept (s.writeResult r) := by
  refine .setReg_at (h.foldl_mem fun {t x} hx ht => ht.setReg_at ?_) (by decide)
  have hlt := List.snd_lt_of_mem_zipIdx hx
  simp [wordsOfUnits] at hlt
  omega

theorem State.CryptKept.powerDown (h : u.CryptKept s) : u.CryptKept s.powerDown :=
  .ite (State.CryptKept.setReg_at h.frame (by decide)) h

theorem State.CryptKept.endRun (h : u.CryptKept s) {r : TestRun} : u.CryptKept (s.endRun r) := by
  unfold State.endRun
  extract_lets s1 s2 p s3 s4 s5
  have h2 : u.CryptKept s2 := State.CryptKept.writeResult (s := s1) h.frame
  have h4 : u.CryptKept s4 := by
    refine State.CryptKept.notifyAll ?_
    unfold s3
    split
    · next heq => exact (State.CryptKeptFst.of_eq heq h2.commitCmdRec).frame
    · next heq => exact State.CryptKeptFst.of_eq heq h2.commitCmdRec
  exact (State.CryptKept.ite h4 (h4.foldl fun h5 => h5.fence)).powerDown

theorem State.CryptKept.nextSlot (h : u.CryptKept s) : u.CryptKept s.nextSlot := by
  unfold State.nextSlot
  split
  · exact h
  · refine .ite h ?_
    dsimp only
    split
    · exact h.endRun
    · refine .ite h (.foldl ?_ fun h1 => .ite h1.testGo h1)
      exact .ite (State.CryptKept.foldl h.frame fun h1 => h1.testHold) h.frame

theorem State.CryptKept.dropTest (h : u.CryptKept s) {p : Nat} : u.CryptKept (s.dropTest p) := by
  have ha : u.CryptKept (s.testAbort p) := by
    unfold State.testAbort
    split
    · exact h
    · exact State.CryptKept.loseDomain h.setRf.setRb.frame
  unfold State.dropTest State.lift
  split
  · split
    · exact .ite (ha.foldl fun h1 => h1.testHold) ha
    · exact ha
  · exact h

end Sys2Proof.Machine
end

section
/-! The key window (R303 to R305, R307, R311): its lock, its registers, and what a commit makes of a slot. -/

namespace Sys2Proof.Machine

/-! ### The window's registers -/

theorem State.reg_rstReg_same (s : State) (n : RegName) (i : Nat) : (s.rstReg n i).reg n i = n.rst i := Tbl.get_del_same _ _ _

theorem State.reg_rstReg_ne (s : State) {n m : RegName} {i j : Nat} (h : regKey m j ≠ regKey n i) :
    (s.rstReg n i).reg m j = s.reg m j := Tbl.get_del_ne _ _ h

theorem State.reg_foldl_rstReg (n : RegName) (l : List Nat) (s : State) (i : Nat) :
    (l.foldl (fun s w => s.rstReg n w) s).reg n i = if i ∈ l then n.rst i else s.reg n i := by
  induction l generalizing s with
  | nil => rfl
  | cons w l ih =>
    rw [List.foldl_cons, ih]
    by_cases h : i = w
    · simp [h, State.reg_rstReg_same]
    · simp [h, s.reg_rstReg_ne (regKey_ne_of_idx h)]

theorem State.reg_kwZero_data (s : State) {w : Nat} (hw : w < 16) : s.kwZero.reg .KEYWIN_DATA w = 0 := by
  rw [State.kwZero, State.reg_foldl_rstReg, if_pos (List.mem_range.mpr hw)]
  rfl

theorem State.reg_kwZero_ne (s : State) {n : RegName} {i : Nat} (hi : i < 2 ^ 20) (hn : n ≠ .KEYWIN_DATA) :
    s.kwZero.reg n i = s.reg n i := by
  refine List.foldlRecOn (motive := fun t : State => t.reg n i = s.reg n i) _ _ rfl fun t ht w hw => ?_
  have := List.mem_range.mp hw
  rw [t.reg_rstReg_ne (regKey_ne_of_name hi (by omega) hn), ht]

@[simp] theorem State.kwZero_keys (s : State) : s.kwZero.keys = s.keys :=
  List.foldlRecOn (motive := fun t : State => t.keys = s.keys) _ _ rfl fun _ ht _ _ => ht

@[simp] theorem State.kwFree_keys (s : State) : s.kwFree.keys = s.keys := rfl

@[simp] theorem State.kwResult_keys (s : State) (r g i : Nat) : (s.kwResult r g i).keys = s.keys := rfl

@[simp] theorem State.kwOwner_kwFree (s : State) : s.kwFree.kwOwner = 0 := by
  rw [State.kwOwner, State.kwFree, State.rf_setRf_ne _ _ _ _ (by decide) (by decide),
    State.rf_setRf_same _ _ _ _ (by decide) (by decide), Nat.zero_mod]

theorem State.reg_kwFree_ne (s : State) {n : RegName} {i : Nat} (hi : i < 2 ^ 20) (hn : n ≠ .KEYWIN_LOCK_STAT) :
    s.kwFree.reg n i = s.reg n i :=
  (State.reg_setReg_name _ _ (by decide) hi hn).trans (State.reg_setReg_name _ _ (by decide) hi hn)

/-- The fields that a result shows. -/
structure State.ShowsResult (t : State) (r g i : Nat) : Prop where
  code : t.rf .KEYWIN_RESULT 0 31 29 = r % 8
  gen : t.rf .KEYWIN_RESULT 0 20 17 = g % 16
  slot : t.rf .KEYWIN_RESULT 0 16 0 = i % 2 ^ 17

theorem State.showsResult_kwResult (s : State) (r g i : Nat) : (s.kwResult r g i).ShowsResult r g i := by
  constructor
  all_goals simp only [State.rf, State.kwResult, State.reg_setReg_same]
  · rw [fld_putF_ne _ (by decide) (by decide), fld_putF_ne _ (by decide) (by decide), fld_putF_same _ (by decide) (by decide)]
    rfl
  · rw [fld_putF_ne _ (by decide) (by decide), fld_putF_same _ (by decide) (by decide)]
    rfl
  · exact fld_putF_same _ (by decide) (by decide)

theorem State.reg_kwResult_ne (s : State) {n : RegName} {i : Nat} (r g k : Nat) (hi : i < 2 ^ 20) (hn : n ≠ .KEYWIN_RESULT) :
    (s.kwResult r g k).reg n i = s.reg n i := s.reg_setReg_name _ (by decide) hi hn

/-! ### Slots -/

theorem State.slot_congr {s t : State} (h : t.keys = s.keys) (k : Nat) : t.slot k = s.slot k := by rw [State.slot, h, State.slot]

@[simp] theorem State.slot_setSlot_same (s : State) (k : Nat) (v : KeySlot) : (s.setSlot k v).slot k = v := Tbl.get_set_same _ _ _ _

theorem State.slot_setSlot_ne (s : State) {k j : Nat} (v : KeySlot) (h : j ≠ k) : (s.setSlot k v).slot j = s.slot j :=
  Tbl.get_set_ne _ _ _ h

/-- A half written reads back, whatever else of the slot changes with it. -/
theorem KeySlot.half_setHalf (k : KeySlot) (i : Nat) (h : KeyHalf) {own enc srtcp suite sca st act lastGen sw t0 t1 nextRtcp ep refused
    authFail replay erased refAt refNew} :
    (KeySlot.mk own enc srtcp suite sca st act (k.setHalf i h).h0 (k.setHalf i h).h1 lastGen sw t0 t1 nextRtcp ep refused authFail
      replay erased refAt refNew).half i = h := by
  unfold KeySlot.half KeySlot.setHalf
  by_cases hi : i = 0 <;> simp [hi]

@[simp] theorem KeySlot.act_setHalf (k : KeySlot) (i : Nat) (h : KeyHalf) : (k.setHalf i h).act = k.act := by
  unfold KeySlot.setHalf
  split <;> rfl

@[simp] theorem KeySlot.t0_setHalf (k : KeySlot) (i : Nat) (h : KeyHalf) : (k.setHalf i h).t0 = k.t0 := by
  unfold KeySlot.setHalf
  split <;> rfl

/-- A load into an EMPTY or EXHAUSTED slot makes it ACTIVE with the next generation (R300, R307). -/
theorem KeySlot.load_fresh {k : KeySlot} (l : Load) (h : k.st = .empty ∨ k.st = .exhausted) :
    (k.load l).st = .active ∧ ((k.load l).half (k.load l).act).keys = l.keys ∧ (k.load l).lastGen = (k.lastGen + 1) % 16 ∧
      (k.load l).newGen = (k.lastGen + 1) % 16 ∧ (k.load l).t0 = { initRoc := l.initRoc } := by
  simp [KeySlot.load, h, KeySlot.newGen, KeySlot.half_setHalf, freshTrack]

/-- A switched load into an ACTIVE slot leaves it PENDING with its active half (R309). -/
theorem KeySlot.load_pending {k : KeySlot} {l : Load} (h : k.st = .active) (hat : l.at' = true) :
    (k.load l).st = .pending ∧ (k.load l).act = k.act ∧ (k.load l).sw = some l.sw ∧ (k.load l).t0 = k.t0 := by
  simp [KeySlot.load, h, hat]

theorem KeySlot.halfBusy_iff (k : KeySlot) : k.halfBusy = true ↔ k.st = .draining := by
  unfold KeySlot.halfBusy
  cases k.st <;> simp

/-! ### The lock (R303, R304) -/

/-- What an acquiring read returns: the state and the owner. -/
theorem lockWord : ∀ o : Fin 16, putF (putF 0 31 30 1) 3 0 o.val = BitVec.ofNat 32 (2 ^ 30 + o.val) ∧
    putF (putF 0 31 30 2) 3 0 o.val = BitVec.ofNat 32 (2 ^ 31 + o.val) := by decide

theorem State.kwOwner_lt (s : State) : s.kwOwner < 16 := fld_lt _ 3 0

theorem exec_keywinLockAcquire_bad {o : Nat} (el : Nat) (s : State) (h : o = 0 ∨ 5 < o) :
    exec (.keywinLockAcquire o el) s = .next { s.advance el with bus := .busError } := if_pos h

theorem exec_keywinLockAcquire_free {o : Nat} (el : Nat) {s : State} (h0 : 0 < o) (h5 : o ≤ 5) (hf : s.kwOwner = 0) :
    ∃ t, exec (.keywinLockAcquire o el) s = .next t ∧ t.kwOwner = o ∧ t.rf .KEYWIN_LOCK_STAT 0 31 30 = 3 ∧
      t.bus = .ok (BitVec.ofNat 32 (2 ^ 30 + o)) ∧ t.keys.since = (s.advance el).ela := by
  have hx : exec (.keywinLockAcquire o el) s = _ := (if_neg (by omega)).trans (if_pos hf)
  refine ⟨_, hx, ?_, ?_, congrArg Bus.ok (lockWord ⟨o, by omega⟩).1, rfl⟩
  · have h1 := State.rf_setRf_ne ((s.advance el).setRf .KEYWIN_LOCK_STAT 0 3 0 o) .KEYWIN_LOCK_STAT 0 (hi := 31) (lo := 30) (hi' := 3)
      (lo' := 0) 3 (by decide) (by decide)
    refine h1.trans ((State.rf_setRf_same _ _ _ _ (by decide) (by decide)).trans ?_)
    omega
  · exact State.rf_setRf_same _ _ _ _ (by decide) (by decide)

theorem exec_keywinLockAcquire_mine {o : Nat} (el : Nat) {s : State} (h0 : 0 < o) (h5 : o ≤ 5) (ho : s.kwOwner = o) :
    exec (.keywinLockAcquire o el) s = .next { s.advance el with bus := .ok (BitVec.ofNat 32 (2 ^ 30 + o)) } := by
  rw [← (lockWord ⟨o, by omega⟩).1]
  exact (if_neg (by omega)).trans ((if_neg (show ¬s.kwOwner = 0 by omega)).trans (if_pos ho))

theorem exec_keywinLockAcquire_held {o : Nat} (el : Nat) {s : State} (h0 : 0 < o) (h5 : o ≤ 5) (hf : s.kwOwner ≠ 0)
    (ho : s.kwOwner ≠ o) :
    exec (.keywinLockAcquire o el) s = .next { s.advance el with bus := .ok (BitVec.ofNat 32 (2 ^ 31 + s.kwOwner)) } := by
  rw [← (lockWord ⟨s.kwOwner, s.kwOwner_lt⟩).2]
  exact (if_neg (by omega)).trans ((if_neg hf).trans (if_neg ho))

theorem exec_keywinRelease {o : Nat} (v : Word) (s : State) (h0 : 0 < o) (h5 : o ≤ 5) :
    exec (.keywinRelease o v) s =
      if bit v 0 && s.kwOwner == o then .next { s.kwFree with bus := .ok 0 } else .next { s with bus := .ok 0 } := if_neg (by omega)

/-- The lock timed out (R304). -/
theorem State.kwFree_kwZero_timeout (s : State) :
    let t := s.kwFree.kwZero.setRb .KEYWIN_LOCK_STAT 0 29 true
    t.kwOwner = 0 ∧ t.rb .KEYWIN_LOCK_STAT 0 29 = true ∧ (∀ w, w < 16 → t.reg .KEYWIN_DATA w = 0) ∧ t.keys = s.keys := by
  refine ⟨?_, State.rb_setRb_same _ _ _ _ (by decide), fun w hw => ?_, by simp⟩
  · have h1 : (s.kwFree.kwZero.setRb .KEYWIN_LOCK_STAT 0 29 true).kwOwner = s.kwFree.kwZero.kwOwner :=
      (congrArg (fld · 3 0) (State.reg_setReg_same _ _ _ _)).trans (fld_putB_ne _ (by decide))
    rw [h1, State.kwOwner, State.rf, State.reg_kwZero_ne _ (by decide) (by decide)]
    exact s.kwOwner_kwFree
  · rw [State.setRb, State.reg_setReg_name _ _ (by decide) (by omega) (by decide), State.reg_kwZero_data _ hw]

/-! ### Commits (R305, R316) -/

/-- A word that is put into the operation field keeps its slot. -/
theorem fld_putOp (v : Word) (op : Nat) : fld (putF v 31 30 op) 16 0 = fld v 16 0 := fld_putF_ne _ (by decide) (by decide)

theorem State.kwCommit_foreign {s : State} {o : Nat} (v : Word) (h : o = 0 ∨ o ≠ s.kwOwner) :
    s.kwCommit o v = { s with bus := .busError } := if_pos h

theorem State.kwCommit_held {s : State} {o : Nat} (v : Word) (h0 : o ≠ 0) (ho : o = s.kwOwner) (hp : s.keys.pend = none) :
    s.kwCommit o v = if s.bleached then { s.kwResult R_BLEACH_LOCK 0 (fld v 16 0) with bus := .ok 0 }
      else { s.kwResult R_BUSY 0 (fld v 16 0) with bus := .ok 0, keys := { s.keys with pend := some v } } := by
  have hb : (s.bleached || s.keys.bleaching) = s.bleached := by
    unfold State.bleached
    cases s.keys.bleaching <;> simp
  unfold State.kwCommit
  rw [if_neg (by simp [h0, ho.symm]), hp, hb]
  rfl

/-- Both commands that commit: `i` runs as a commit of the word `w`, which names the slot of `v`. -/
theorem commits_of_kwCommit {i : Instr} {s b : State} {o : Nat} {v w : Word} (hi : exec i s = .next (b.kwCommit o w))
    (hw : fld w 16 0 = fld v 16 0) (hown : b.kwOwner = s.kwOwner) (hk : b.keys = s.keys) (hb : b.bleached = s.bleached) :
    (o = 0 ∨ o ≠ s.kwOwner → exec i s = .next { b with bus := .busError }) ∧
    (o ≠ 0 → o = s.kwOwner → s.keys.pend = none →
      (s.bleached = true → ∃ t, exec i s = .next t ∧ t.rf .KEYWIN_RESULT 0 31 29 = 6 ∧ t.keys = s.keys) ∧
      (s.bleached = false → ∃ t, exec i s = .next t ∧ t.rf .KEYWIN_RESULT 0 31 29 = 1 ∧ t.rf .KEYWIN_RESULT 0 16 0 = fld v 16 0 ∧
        t.keys = { s.keys with pend := some w })) := by
  refine ⟨fun h => hi.trans (congrArg _ (State.kwCommit_foreign w (hown ▸ h))), fun h0 ho hp => ?_⟩
  rw [State.kwCommit_held w h0 (hown ▸ ho) (hk ▸ hp), hb] at hi
  have hshow := fun r => b.showsResult_kwResult r 0 (fld w 16 0)
  refine ⟨fun hbl => ?_, fun hbl => ?_⟩
  · rw [hbl] at hi
    exact ⟨_, hi, (hshow 6).code, hk⟩
  · rw [hbl] at hi
    refine ⟨_, hi, (hshow 1).code, ?_, congrArg (fun k : Keys => { k with pend := some w }) hk⟩
    rw [← hw]
    exact (hshow 1).slot.trans (Nat.mod_eq_of_lt (fld_lt w 16 0))

/-! ### The end of a commit (R305, R307, R311) -/

/-- The state `v` with the window's words zeroed and a result shown. -/
theorem State.kwZero_kwResult (v : State) (r g i : Nat) :
    let t := v.kwZero.kwResult r g i
    t.keys = v.keys ∧ (∀ w, w < 16 → t.reg .KEYWIN_DATA w = 0) ∧ t.ShowsResult r g i := by
  refine ⟨by simp, fun w hw => ?_, State.showsResult_kwResult _ _ _ _⟩
  rw [State.reg_kwResult_ne _ _ _ _ (by omega) (by decide), State.reg_kwZero_data _ hw]

/-- The state whose command is no longer pending. -/
def State.noPend (s : State) : State := { s with keys := { s.keys with pend := none } }

/-- What the end of a commit of slot `i` leaves, whatever the commit was: no command, no words, the slot's number with result
`r` and generation `g`, and the slots of `v`. -/
structure State.CommitEnded (s v : State) (r g i : Nat) (t : State) : Prop where
  run : exec .keywinCommitDone s = .next t
  pend : t.keys.pend = none
  data : ∀ w, w < 16 → t.reg .KEYWIN_DATA w = 0
  shows : t.ShowsResult r g i
  slots : ∀ j, t.slot j = v.slot j

theorem State.commitEnded {s v : State} {r g i : Nat} (hv : v.keys.pend = none)
    (hx : exec .keywinCommitDone s = .next (v.kwZero.kwResult r g i)) : s.CommitEnded v r g i (v.kwZero.kwResult r g i) :=
  have ⟨hk, hd, hs⟩ := v.kwZero_kwResult r g i
  ⟨hx, (congrArg Keys.pend hk).trans hv, hd, hs, State.slot_congr hk⟩

variable {s : State} {v : Word}

theorem State.commitEnded_erase (hp : s.keys.pend = some v) (h : fld v 31 30 = 2) : ∃ t, s.CommitEnded
    (s.noPend.setSlot (fld v 16 0) (s.slot (fld v 16 0)).erase) R_DONE (s.slot (fld v 16 0)).lastGen (fld v 16 0) t := by
  refine ⟨_, State.commitEnded rfl ?_⟩
  change execKeywinCommitDone s = _
  simp only [execKeywinCommitDone, hp, h, if_true]
  rfl

theorem exec_keywinCommitDone_load (hp : s.keys.pend = some v) (h : fld v 31 30 ≠ 2) : exec .keywinCommitDone s =
    (let k := s.slot (fld v 16 0)
     let l := s.kwLoad v
     if k.loadBad l then .next (s.noPend.kwZero.kwResult R_BAD_PARAM 0 l.slot)
     else if k.halfBusy then .next (s.noPend.kwZero.kwResult R_HALF_BUSY 0 l.slot)
     else .next ((s.noPend.setSlot l.slot (k.load l)).kwZero.kwResult R_DONE (k.load l).newGen l.slot)) := by
  change execKeywinCommitDone s = _
  simp only [execKeywinCommitDone, hp, h, if_false]
  rfl

theorem State.commitEnded_bad (hp : s.keys.pend = some v) (h : fld v 31 30 ≠ 2)
    (hb : (s.slot (fld v 16 0)).loadBad (s.kwLoad v) = true) : ∃ t, s.CommitEnded s.noPend R_BAD_PARAM 0 (fld v 16 0) t :=
  ⟨_, State.commitEnded rfl ((exec_keywinCommitDone_load hp h).trans (if_pos hb))⟩

theorem State.commitEnded_busy (hp : s.keys.pend = some v) (h : fld v 31 30 ≠ 2)
    (hb : (s.slot (fld v 16 0)).loadBad (s.kwLoad v) = false) (hd : (s.slot (fld v 16 0)).st = .draining) :
    ∃ t, s.CommitEnded s.noPend R_HALF_BUSY 0 (fld v 16 0) t :=
  ⟨_, State.commitEnded rfl ((exec_keywinCommitDone_load hp h).trans
    ((if_neg (Bool.eq_false_iff.mp hb)).trans (if_pos ((KeySlot.halfBusy_iff _).mpr hd))))⟩

theorem State.commitEnded_load (hp : s.keys.pend = some v) (h : fld v 31 30 ≠ 2)
    (hb : (s.slot (fld v 16 0)).loadBad (s.kwLoad v) = false) (hd : (s.slot (fld v 16 0)).st ≠ .draining) :
    ∃ t, s.CommitEnded (s.noPend.setSlot (fld v 16 0) ((s.slot (fld v 16 0)).load (s.kwLoad v))) R_DONE
      ((s.slot (fld v 16 0)).load (s.kwLoad v)).newGen (fld v 16 0) t :=
  ⟨_, State.commitEnded rfl ((exec_keywinCommitDone_load hp h).trans
    ((if_neg (Bool.eq_false_iff.mp hb)).trans (if_neg fun hc => hd ((KeySlot.halfBusy_iff _).mp hc))))⟩

theorem State.CommitEnded.slotShown {u t : State} {r g : Nat} (h : s.CommitEnded u r g (fld v 16 0) t) :
    t.rf .KEYWIN_RESULT 0 16 0 = fld v 16 0 := h.shows.slot.trans (Nat.mod_eq_of_lt (fld_lt v 16 0))

/-- Settles O43: the lock, its timeout, a commit, and the four ways in which a commit ends. -/
theorem keyWindowEvents : Obligations.KeyWindowEvents := by
  refine ⟨?acquire, ?release, ?timeout, ?commit, ?done⟩
  case acquire =>
    intro o el s b
    exact ⟨exec_keywinLockAcquire_bad el s, fun h0 h5 => ⟨exec_keywinLockAcquire_free el h0 h5,
      exec_keywinLockAcquire_mine el h0 h5, exec_keywinLockAcquire_held el h0 h5⟩⟩
  case release =>
    intro o v s h0 h5
    rw [exec_keywinRelease v s h0 h5]
    refine ⟨fun hv ho => ⟨_, if_pos (by simp [hv, ho]), rfl, s.kwOwner_kwFree, rfl⟩, fun h => if_neg ?_⟩
    rcases h with h | h <;> simp [h]
  case timeout =>
    intro el s b hown hat hp
    exact ⟨_, if_pos ⟨hown, hat, hp⟩, b.kwFree_kwZero_timeout⟩
  case commit =>
    intro o v el s b commits
    exact ⟨commits_of_kwCommit rfl (fld_putOp v 1) rfl rfl rfl, commits_of_kwCommit rfl (fld_putOp v 2) rfl rfl rfl⟩
  case done =>
    intro s v hp i k
    by_cases he : fld v 31 30 = 2
    · obtain ⟨t, h⟩ := s.commitEnded_erase hp he
      refine ⟨t, h.run, h.pend, h.data, h.slotShown, fun j hj => (h.slots j).trans (State.slot_setSlot_ne _ _ hj), fun _ => ?_,
        fun hne => absurd he hne⟩
      rw [(h.slots i).trans (State.slot_setSlot_same _ _ _)]
      exact ⟨h.shows.code, rfl, rfl, rfl, rfl, rfl, rfl, rfl⟩
    by_cases hb : k.loadBad (s.kwLoad v) = true
    · obtain ⟨t, h⟩ := s.commitEnded_bad hp he hb
      exact ⟨t, h.run, h.pend, h.data, h.slotShown, fun j _ => h.slots j, fun h2 => absurd h2 he, fun _ =>
        ⟨fun _ => ⟨h.shows.code, h.slots i⟩, fun hf => absurd (hb.symm.trans hf) (by decide),
          fun hf => absurd (hb.symm.trans hf) (by decide), fun hf => absurd (hb.symm.trans hf) (by decide)⟩⟩
    by_cases hd : k.st = .draining
    · obtain ⟨t, h⟩ := s.commitEnded_busy hp he (Bool.eq_false_iff.mpr hb) hd
      exact ⟨t, h.run, h.pend, h.data, h.slotShown, fun j _ => h.slots j, fun h2 => absurd h2 he, fun _ =>
        ⟨fun hf => absurd hf hb, fun _ _ => ⟨h.shows.code, h.slots i⟩, fun _ hf => by simp [hd] at hf,
          fun _ hf => by simp [hd] at hf⟩⟩
    · obtain ⟨t, h⟩ := s.commitEnded_load hp he (Bool.eq_false_iff.mpr hb) hd
      have hs : t.slot i = k.load (s.kwLoad v) := (h.slots i).trans (State.slot_setSlot_same _ _ _)
      refine ⟨t, h.run, h.pend, h.data, h.slotShown, fun j hj => (h.slots j).trans (State.slot_setSlot_ne _ _ hj),
        fun h2 => absurd h2 he, fun _ => ⟨fun hf => absurd hf hb, fun _ hf => absurd hf hd, fun _ hf => ?fresh, fun _ hst hat => ?_⟩⟩
      case fresh =>
        obtain ⟨hst, hkeys, hgen, hnew, ht0⟩ := KeySlot.load_fresh (s.kwLoad v) hf
        rw [hs]
        refine ⟨h.shows.code, hst, hkeys, hgen, h.shows.gen.trans ?_, ht0⟩
        rw [hnew, Nat.mod_mod]
      rw [hs]
      exact ⟨h.shows.code, KeySlot.load_pending hst hat⟩

end Sys2Proof.Machine
end

section
/-! Messages of Safelight (R417): the registers that a message on channel 2 leaves. -/

namespace Sys2Proof.Machine

variable {n : RegName} {i : Nat}

theorem State.reg_wake_one (s : State) (r : Bool) (hi : i < 2 ^ 20) (hn : n ≠ .CLKPWR_PD_STAT) : (s.wake 1 r).reg n i = s.reg n i := by
  have hpd : ∀ st, (s.setPd 1 st).reg n i = s.reg n i := fun st => s.reg_setReg_name _ (by decide) hi hn
  unfold State.wake State.startUp
  split
  · split
    · rfl
    · split
      · exact hpd 1
      · split <;> rfl
  · rfl
  · split
    · rfl
    · exact hpd 2
  · rfl
  · rfl
  · rfl

/-- The control domain's demand writes its two power registers alone. -/
theorem State.reg_demand_one (s : State) (hi : i < 2 ^ 20) (hc : n ≠ .CLKPWR_PD_CTRL) (hs : n ≠ .CLKPWR_PD_STAT) :
    (s.demand 1).reg n i = s.reg n i := by
  have hq : (s.reqOn 1).reg n i = s.reg n i := by
    unfold State.reqOn
    split
    · exact s.reg_setReg_name _ (by decide) hi hc
    · rfl
  unfold State.demand
  split
  · exact (State.reg_wake_one _ _ hi hs).trans hq
  · rfl

theorem State.regs_intReceiver (s : State) (ch : Nat) : (s.intReceiver ch).regs = s.regs := by
  unfold State.intReceiver State.msix
  split
  · split <;> rfl
  · exact List.foldlRecOn (motive := fun t : State => t.regs = s.regs) _ _ rfl fun _ ht _ _ => ht

theorem State.reg_doPost (s : State) (ch : Fin 64) (hi : i < 2 ^ 20) (hn : n ≠ .MBX_STAT) : (s.doPost ch).reg n i = s.reg n i := by
  have hset : ∀ v, (s.setReg .MBX_STAT ch.val v).reg n i = s.reg n i := fun v =>
    s.reg_setReg_name v (ch.isLt.trans (by decide)) hi hn
  unfold State.doPost
  split
  · exact hset _
  · dsimp only
    rw [State.reg, State.regs_intReceiver]
    split <;> exact hset _

theorem State.reg_chan2 (s : State) (what arg : Nat) (hi : i < 2 ^ 20)
    (hn : n ∉ [RegName.MBX_MSG, .MBX_STAT, .CLKPWR_PD_CTRL, .CLKPWR_PD_STAT]) : (s.chan2 what arg).reg n i = s.reg n i := by
  simp only [List.mem_cons, List.not_mem_nil, or_false, not_or] at hn
  obtain ⟨hmsg, hstat, hctrl, hpd⟩ := hn
  have hd : ((s.emit (.chan2 what arg)).demand 1).reg n i = s.reg n i := State.reg_demand_one _ hi hctrl hpd
  unfold State.chan2
  dsimp only
  split
  · refine (State.reg_doPost _ _ hi hstat).trans
      (List.foldlRecOn (motive := fun t : State => t.reg n i = s.reg n i) _ _ hd fun t ht w hw => ?_)
    have := List.mem_range.mp hw
    exact (State.reg_setReg_name _ _ (by omega) hi hmsg).trans ht
  · exact hd

end Sys2Proof.Machine
end

section
/-! The tamper sensors and Bleach (R314 to R316, R454, R477). -/

namespace Sys2Proof.Machine

variable {s t : State}

/-! ### Sensors (R314) -/

theorem State.armedSensors_congr (h : t.reg .CRYPT_TAMPER_EN 0 = s.reg .CRYPT_TAMPER_EN 0) : t.armedSensors = s.armedSensors := by
  rw [State.armedSensors, State.rf, h, State.armedSensors, State.rf]

theorem State.armedSensors_mod (s : State) : s.armedSensors % 8 = 7 := by
  unfold State.armedSensors
  omega

/-- Sensors 0 to 2 are always armed. -/
theorem State.testBit_armedSensors_low (s : State) {j : Nat} (hj : j < 3) : s.armedSensors.testBit j = true := by
  have h := Nat.testBit_mod_two_pow s.armedSensors 3 j
  rw [s.armedSensors_mod, decide_eq_true hj, Bool.true_and] at h
  rw [← h]
  interval_cases j <;> rfl

/-- Sensors 3 to 5 are armed by their bits. -/
theorem State.testBit_armedSensors (s : State) (i : Nat) : s.armedSensors.testBit (3 + i) = (s.rf .CRYPT_TAMPER_EN 0 5 3).testBit i := by
  have h : s.armedSensors = 2 ^ 3 * s.rf .CRYPT_TAMPER_EN 0 5 3 + 7 := by
    unfold State.armedSensors
    omega
  rw [h, Nat.testBit_two_pow_mul_add _ (by decide), if_neg (by omega), Nat.add_sub_cancel_left]

theorem State.testBit_armedSensors_reg (s : State) {i : Nat} (hi : i < 3) :
    s.armedSensors.testBit (3 + i) = bit (s.reg .CRYPT_TAMPER_EN) (3 + i) := by
  rw [s.testBit_armedSensors, State.rf, testBit_fld, decide_eq_true (by omega), Bool.true_and]

/-- The difference of two sets of sensors, one within the other, is the set of those in one alone. -/
theorem testBit_sensors_sub : ∀ f g : Fin 8, (∀ i < 3, f.val.testBit i = true → g.val.testBit i = true) → ∀ j < 6,
    (g.val * 8 + 7 - (f.val * 8 + 7)).testBit j = ((g.val * 8 + 7).testBit j && !(f.val * 8 + 7).testBit j) := by decide

theorem State.testBit_armedSensors_sub {j : Nat} (hj : j < 6)
    (h : ∀ i < 3, s.armedSensors.testBit (3 + i) = true → t.armedSensors.testBit (3 + i) = true) :
    (t.armedSensors - s.armedSensors).testBit j = (t.armedSensors.testBit j && !s.armedSensors.testBit j) := by
  simp only [State.testBit_armedSensors] at h
  exact testBit_sensors_sub ⟨_, fld_lt (s.reg .CRYPT_TAMPER_EN) 5 3⟩ ⟨_, fld_lt (t.reg .CRYPT_TAMPER_EN) 5 3⟩ h j hj

/-- A write of `CRYPT_TAMPER_EN` arms the sensors whose bits it sets, and disarms none (R314). -/
theorem bit_tamperEn_write (old v : Word) {i : Nat} (hi : i < 3) :
    bit (applyWrite (RegName.flds .CRYPT_TAMPER_EN) old v) (3 + i) = (bit old (3 + i) || bit v (3 + i)) := by
  change bit (old ||| (v &&& maskW 5 3)) (3 + i) = _
  rw [bit_or, bit_and, bit_maskW _ _ _ (by decide), decide_eq_true (by omega), Bool.and_true]

/-- The state after a write of `CRYPT_TAMPER_EN` while the sensors in alarm are `a`. -/
def State.tamperWritten (s : State) (v : Word) (a : BitVec 6) : State :=
  (s.setReg .CRYPT_TAMPER_EN 0 (applyWrite (RegName.flds .CRYPT_TAMPER_EN) (s.reg .CRYPT_TAMPER_EN) v)).setRf .CRYPT_TAMPER_STAT 0 15 10
    a.toNat

theorem State.testBit_armed_tamperWritten (s : State) (v : Word) (a : BitVec 6) {i : Nat} (hi : i < 3) :
    (s.tamperWritten v a).armedSensors.testBit (3 + i) = (s.armedSensors.testBit (3 + i) || bit v (3 + i)) := by
  rw [State.testBit_armedSensors_reg _ hi, State.testBit_armedSensors_reg _ hi, State.tamperWritten, State.setRf,
    State.reg_setReg_name _ _ (by decide) (by decide) (by decide), State.reg_setReg_same]
  exact bit_tamperEn_write _ _ hi

/-- The sensors that a write arms while they are in alarm: their alarms are latched (R314). -/
def State.armAlarms (s : State) (v : Word) (a : BitVec 6) : Nat := ((s.tamperWritten v a).armedSensors - s.armedSensors) &&& a.toNat

theorem State.testBit_armAlarms (s : State) (v : Word) (a : BitVec 6) {j : Nat} (hj : j < 6) : (s.armAlarms v a).testBit j =
    ((s.tamperWritten v a).armedSensors.testBit j && !s.armedSensors.testBit j && a.getLsbD j) := by
  have hsub : ∀ i < 3, s.armedSensors.testBit (3 + i) = true → (s.tamperWritten v a).armedSensors.testBit (3 + i) = true :=
    fun i hi h => by rw [s.testBit_armed_tamperWritten v a hi, h, Bool.true_or]
  rw [State.armAlarms, Nat.testBit_and, State.testBit_armedSensors_sub hj hsub]
  rfl

theorem State.armAlarms_eq_zero {v : Word} {a : BitVec 6}
    (h : ∀ i, i < 3 → s.armedSensors.testBit (3 + i) = true ∨ bit v (3 + i) = false ∨ a.getLsbD (3 + i) = false) :
    s.armAlarms v a = 0 := by
  refine Nat.eq_of_testBit_eq fun j => ?_
  rw [Nat.zero_testBit]
  by_cases h6 : j < 6
  · rw [s.testBit_armAlarms v a h6]
    by_cases h3 : j < 3
    · simp [s.testBit_armedSensors_low h3]
    · obtain ⟨i, rfl⟩ := Nat.exists_eq_add_of_le (Nat.le_of_not_lt h3)
      rw [s.testBit_armed_tamperWritten v a (by omega)]
      rcases h i (by omega) with h | h | h <;> simp [h]
  · rw [State.armAlarms, Nat.testBit_and, BitVec.testBit_toNat, BitVec.getLsbD_of_ge _ _ (Nat.le_of_not_lt h6), Bool.and_false]

theorem State.armAlarms_ne_zero {v : Word} {a : BitVec 6} {i : Nat} (hi : i < 3) (hs : s.armedSensors.testBit (3 + i) = false)
    (hv : bit v (3 + i) = true) (ha : a.getLsbD (3 + i) = true) : s.armAlarms v a ≠ 0 := by
  have h := s.testBit_armAlarms v a (j := 3 + i) (by omega)
  rw [s.testBit_armed_tamperWritten v a hi, hs, hv, ha] at h
  exact fun h0 => by simp [h0] at h

/-! ### The start of Bleach (R315) -/

/-- The window shows that it abandons its command. -/
def State.commandAborted (s : State) : State :=
  match s.keys.pend with
  | some v => s.kwResult R_ABORTED 0 (fld v 16 0)
  | none => s

/-- The window abandons its command, its words and its lock, and the lanes stop. -/
def State.windowAbandoned (s : State) : State :=
  { s.commandAborted.kwZero.kwFree with keys := { s.commandAborted.kwZero.kwFree.keys with pend := none, bleaching := true } }

theorem State.reg_withKeys (s : State) (keys : Keys) (n : RegName) (i : Nat) : ({ s with keys } : State).reg n i = s.reg n i := rfl

theorem State.reg_windowAbandoned_eq (s : State) (n : RegName) (i : Nat) :
    s.windowAbandoned.reg n i = s.commandAborted.kwZero.kwFree.reg n i := State.reg_withKeys _ _ _ _

/-- What follows at the start of Bleach, the end of a test of the crypto plane, leaves the plane as it is (R477). -/
theorem State.cryptKept_bleachStart (h : s.keys.bleaching = false) : s.windowAbandoned.CryptKept s.bleachStart := by
  have hk := (State.CryptKept.refl s.windowAbandoned).foldl (f := State.dropTest)
    (l := Tbl.keysWhere s.windowAbandoned.tst.pos fun _ u => u == 89) fun h1 => h1.dropTest
  unfold State.bleachStart
  rw [h]
  exact hk.nextSlot

theorem State.reg_windowAbandoned (s : State) {n : RegName} (hn : n ∈ [RegName.CRYPT_STAT, .CRYPT_TAMPER_EN, .CRYPT_TAMPER_STAT]) :
    s.windowAbandoned.reg n 0 = s.reg n 0 := by
  have hne : n ≠ .KEYWIN_RESULT ∧ n ≠ .KEYWIN_DATA ∧ n ≠ .KEYWIN_LOCK_STAT := by
    refine ⟨?_, ?_, ?_⟩ <;> exact ne_of_mem_of_not_mem hn (by decide)
  obtain ⟨hr, hd, hl⟩ := hne
  rw [State.reg_windowAbandoned_eq, State.reg_kwFree_ne _ (by decide) hl, State.reg_kwZero_ne _ (by decide) hd, State.commandAborted]
  split
  · exact State.reg_kwResult_ne _ _ _ _ (by decide) hr
  · rfl

theorem State.data_windowAbandoned (s : State) {w : Nat} (hw : w < 16) : s.windowAbandoned.reg .KEYWIN_DATA w = 0 := by
  rw [State.reg_windowAbandoned_eq, State.reg_kwFree_ne _ (by omega) (by decide), State.reg_kwZero_data _ hw]

theorem State.kwOwner_windowAbandoned (s : State) : s.windowAbandoned.kwOwner = 0 := by
  rw [State.kwOwner, State.rf, State.reg_windowAbandoned_eq]
  exact State.kwOwner_kwFree _

/-- Bleach leaves the sensors and `BLEACHED` as they are when it starts. -/
theorem State.reg_bleachStart (s : State) {n : RegName} (hn : n ∈ [RegName.CRYPT_STAT, .CRYPT_TAMPER_EN, .CRYPT_TAMPER_STAT]) :
    s.bleachStart.reg n 0 = s.reg n 0 := by
  cases h : s.keys.bleaching with
  | true => rw [State.bleachStart, if_pos h]
  | false =>
    have hsub : ∀ n ∈ [RegName.CRYPT_STAT, .CRYPT_TAMPER_EN, .CRYPT_TAMPER_STAT], n ∈ cryptRegs := by decide
    exact ((State.cryptKept_bleachStart h).reg n (hsub n hn) 0 (by decide)).trans (s.reg_windowAbandoned hn)

theorem State.bleaching_bleachStart (s : State) : s.bleachStart.keys.bleaching = true := by
  cases h : s.keys.bleaching with
  | true => rw [State.bleachStart, if_pos h, h]
  | false => rw [(State.cryptKept_bleachStart h).keys]; rfl

/-! ### Alarms (R314, R315) -/

theorem State.alarm_zero (s : State) : s.alarm 0 = s := if_pos rfl

theorem State.alarm_of_ne {l : Nat} (h : l ≠ 0) : s.alarm l =
    (s.setReg .CRYPT_TAMPER_STAT 0 (s.reg .CRYPT_TAMPER_STAT ||| BitVec.ofNat 32 l)).bleachStart := if_neg h

theorem State.bleaching_alarm {l : Nat} (h : l ≠ 0) : (s.alarm l).keys.bleaching = true := by
  rw [State.alarm_of_ne h, State.bleaching_bleachStart]

/-- An alarm latches its bits and leaves the others. -/
theorem State.rb_alarm (s : State) (l : Nat) {b : Nat} (hb : b < 32) :
    (s.alarm l).rb .CRYPT_TAMPER_STAT 0 b = (s.rb .CRYPT_TAMPER_STAT 0 b || l.testBit b) := by
  by_cases h : l = 0
  · rw [h, State.alarm_zero, Nat.zero_testBit, Bool.or_false]
  · rw [State.alarm_of_ne h, State.rb, State.reg_bleachStart _ (by decide), State.reg_setReg_same, bit_or, bit_eq_getLsbD (BitVec.ofNat 32 l),
      BitVec.getLsbD_ofNat, decide_eq_true hb, Bool.true_and]
    rfl

theorem State.armedSensors_alarm (s : State) (l : Nat) : (s.alarm l).armedSensors = s.armedSensors := by
  by_cases h : l = 0
  · rw [h, State.alarm_zero]
  · refine State.armedSensors_congr ?_
    rw [State.alarm_of_ne h, State.reg_bleachStart _ (by decide), State.reg_setReg_name _ _ (by decide) (by decide) (by decide)]

/-- An alarm while no Bleach runs: the window holds no command, no lock and no words. -/
theorem State.window_alarm {l : Nat} (hl : l ≠ 0) (h : s.keys.bleaching = false) : (s.alarm l).keys.pend = none ∧
    (s.alarm l).kwOwner = 0 ∧ ∀ w, w < 16 → (s.alarm l).reg .KEYWIN_DATA w = 0 := by
  rw [State.alarm_of_ne hl]
  have hk := State.cryptKept_bleachStart (s := s.setReg .CRYPT_TAMPER_STAT 0 (s.reg .CRYPT_TAMPER_STAT ||| BitVec.ofNat 32 l)) h
  refine ⟨by rw [hk.keys]; rfl, ?_, fun w hw => ?_⟩
  · exact (hk.rf (by decide) 3 0).trans (State.kwOwner_windowAbandoned _)
  · exact (hk.reg _ (by decide) w (by omega)).trans (State.data_windowAbandoned _ hw)

/-! ### The end of Bleach, and `BLEACHED` (R315, R316, R454) -/

/-- Every slot erased, and Bleach over. -/
def State.keysErased (s : State) : State :=
  { s with keys := { s.keys with bleaching := false, slots := Tbl.mapv s.keys.slots fun _ k => k.erase } }

/-- What firmware hears of once Bleach is over. -/
def State.bleachShown (s : State) : State :=
  (((s.keysErased.setRb .TRUST_STAT 0 31 true).setRb .TRUST_STAT 0 30 true).setRb .CRYPT_STAT 0 31 true).setRb .CRYPT_CTRL 0 30 false

theorem exec_bleachComplete (h : s.keys.bleaching = true) : exec .bleachComplete s = .next (s.bleachShown.chan2 S2_BLEACH 0) := if_pos h

theorem State.bleachShown_stat (s : State) : s.bleachShown.rb .CRYPT_STAT 0 31 = true ∧ s.bleachShown.rb .TRUST_STAT 0 31 = true ∧
    s.bleachShown.rb .CRYPT_CTRL 0 30 = false := by
  refine ⟨?_, ?_, State.rb_setRb_same _ _ _ _ (by decide)⟩
  · rw [State.rb, State.bleachShown, State.setRb, State.reg_setReg_name _ _ (by decide) (by decide) (by decide)]
    exact State.rb_setRb_same _ _ _ _ (by decide)
  · rw [State.rb, State.bleachShown, State.setRb, State.reg_setReg_name _ _ (by decide) (by decide) (by decide), State.setRb,
      State.reg_setReg_name _ _ (by decide) (by decide) (by decide)]
    exact (State.rb_setRb_ne _ _ _ _ (by decide) (by decide)).trans (State.rb_setRb_same _ _ _ _ (by decide))

theorem State.erased_of_find {i : Nat} {k : KeySlot} (h : Tbl.find s.keysErased.keys.slots i = some k) :
    k.st = .empty ∧ k.h0 = {} ∧ k.h1 = {} := by
  change Tbl.find (Tbl.mapv s.keys.slots fun _ k => k.erase) i = some k at h
  rw [Tbl.find_mapv] at h
  obtain ⟨x, -, rfl⟩ := Option.map_eq_some_iff.mp h
  exact ⟨rfl, rfl, rfl⟩

/-- The sensors' lines as a poll reads them. -/
def State.sensed (s : State) (a : BitVec 6) : State := s.setRf .CRYPT_TAMPER_STAT 0 15 10 a.toNat

theorem State.sensed_bleached (s : State) (a : BitVec 6) : (s.sensed a).rb .CRYPT_STAT 0 31 = s.rb .CRYPT_STAT 0 31 := by
  rw [State.rb, State.sensed, State.setRf, State.reg_setReg_name _ _ (by decide) (by decide) (by decide), State.rb]

theorem State.clearBleached_alarmed {a : BitVec 6} (h : s.armedSensors &&& a.toNat ≠ 0) : s.clearBleached a = s.sensed a := by
  have ha : (s.sensed a).armedSensors = s.armedSensors :=
    State.armedSensors_congr (State.reg_setReg_name _ _ (by decide) (by decide) (by decide))
  refine if_neg ?_
  change ¬(_ && ((s.sensed a).armedSensors &&& a.toNat) == 0) = true
  rw [ha]
  simp [h]

theorem State.clearBleached_clears {a : BitVec 6} (h : s.armedSensors &&& a.toNat = 0) (hb : s.rb .CRYPT_STAT 0 31 = true) :
    (s.clearBleached a).rb .CRYPT_STAT 0 31 = false := by
  have ha : (s.sensed a).armedSensors = s.armedSensors :=
    State.armedSensors_congr (State.reg_setReg_name _ _ (by decide) (by decide) (by decide))
  have hc : ((s.sensed a).rb .CRYPT_STAT 0 31 && ((s.sensed a).armedSensors &&& a.toNat) == 0) = true := by
    simp [State.sensed_bleached, hb, ha, h]
  have hk : ((s.sensed a).setRb .CRYPT_STAT 0 31 false).CryptKept (s.clearBleached a) := by
    have hx : s.clearBleached a = _ := if_pos hc
    rw [hx]
    exact (State.CryptKept.refl _).notifyAll.audit
  rw [hk.rb (by decide), State.rb_setRb_same _ _ _ _ (by decide)]

/-- Settles O44: which alarms latch, how Bleach starts and ends, and when `BLEACHED` clears. -/
theorem tamperAndBleach : Obligations.TamperAndBleach := by
  refine ⟨?alarm, State.armedSensors_mod, ?arm, ?start, ?done, ?clear⟩
  case alarm =>
    intro n s
    have hn := n.isLt
    let s1 := s.setRb .CRYPT_TAMPER_STAT 0 (10 + n.val) true
    have h10 : s1.rb .CRYPT_TAMPER_STAT 0 (10 + n.val) = true := State.rb_setRb_same _ _ _ _ (by omega)
    have hx : exec (.tamperAlarm n) s = .next (if s.armedSensors.testBit n.val then s1.alarm (2 ^ n.val) else s1) := rfl
    refine ⟨_, hx, ?_, fun h => ?_, fun h => ?_⟩
    · split
      · rw [State.rb_alarm _ _ (by omega), h10, Bool.true_or]
      · exact h10
    · rw [if_pos h]
      exact ⟨by rw [State.rb_alarm _ _ (by omega), Nat.testBit_two_pow_self, Bool.or_true],
        State.bleaching_alarm (Nat.pos_iff_ne_zero.mp (Nat.two_pow_pos _))⟩
    · rw [if_neg (Bool.eq_false_iff.mp h)]
      exact ⟨rfl, State.rb_setRb_ne _ _ _ _ (by omega) (by omega)⟩
  case arm =>
    intro v a s
    have hx : exec (.tamperArm v a) s = .next { (s.tamperWritten v a).alarm (s.armAlarms v a) with bus := .ok 0 } := rfl
    refine ⟨_, hx, rfl, fun i hi => ?_, fun h => ?_, fun i hi hs hv ha => ?_⟩
    · exact (congrArg (Nat.testBit · _) (State.armedSensors_alarm _ _)).trans (s.testBit_armed_tamperWritten v a hi)
    · rw [State.armAlarms_eq_zero h, State.alarm_zero]
      rfl
    · exact State.bleaching_alarm (State.armAlarms_ne_zero hi hs hv ha)
  case start =>
    intro s
    have hx : exec .cryptBleach s = .next { (s.setRb .CRYPT_CTRL 0 30 true).alarm 64 with bus := .ok 0 } := rfl
    refine ⟨_, hx, rfl, State.bleaching_alarm (by decide), ?_, fun h => State.window_alarm (by decide) h⟩
    exact (State.rb_alarm _ 64 (by decide)).trans (Bool.or_true _)
  case done =>
    intro s h
    obtain ⟨hstat, htrust, hctrl⟩ := s.bleachShown_stat
    have hk := (State.CryptKept.refl s.bleachShown).chan2 (what := S2_BLEACH) (arg := 0)
    refine ⟨_, exec_bleachComplete h, by rw [hk.keys]; rfl, ?_, fun i k hf => ?_, ?_, ?_⟩
    · rw [State.bleached, hk.rb (by decide), hstat, Bool.true_or]
    · rw [hk.keys] at hf
      exact State.erased_of_find (s := s) hf
    · rw [State.rb, State.reg_chan2 _ _ _ (by decide) (by decide)]
      exact htrust
    · rw [State.rb, State.reg_chan2 _ _ _ (by decide) (by decide)]
      exact hctrl
  case clear =>
    intro a s act clears
    refine ⟨⟨fun ha hb => ⟨_, rfl, ?_⟩, fun ha hb => ⟨_, rfl, State.clearBleached_clears ha hb⟩⟩,
      ⟨fun ha hb => ⟨_, rfl, ?_⟩, fun ha hb => ⟨_, rfl, State.clearBleached_clears ha hb⟩⟩⟩
    all_goals
      rw [State.clearBleached_alarmed ha]
      exact ⟨(s.sensed_bleached a).trans hb, rfl⟩

end Sys2Proof.Machine
end

section
/-! KERNEL and KEY commands (R306): the words of a KEY command are zeroed where they stood before it runs by the one path. -/

namespace Sys2Proof.Machine

/-- A KEY command that runs by the one path after its words were zeroed completes with the state that its reply gives. -/
theorem CompletesKey.of_runCmd {i : Cmd → Instr} {k : CmdSpec} {check : Cmd → State → Nat} {apply : Cmd → State → Reply}
    {eff : Cmd → State → State} (hrun : ∀ c s, exec (i c) s = .next (runCmd k check apply c (s.wipeKey c)))
    (happly : ∀ c s, apply c s = { st := eff c s }) : CompletesKey i k check eff := by
  intro c s h
  rw [hrun c s, runCmd_done h (by rw [happly]), happly]

/-- Settles O48: each command runs by the one path, and its reply is the state that the statement names. -/
theorem kernelAndKeyCommands : Obligations.KernelAndKeyCommands := by
  refine ⟨?keySet, ?load, ?unload, ?queueCfg, ?queueRelease, ?chainSet, ?query, ?resume, ?tenantSet, ?keyLoad, ?keyLoadDtls, ?keyErase,
    ?keyRelease, ?keyQuery⟩
  case query => exact .of_runCmd (fun _ _ _ => rfl) fun _ _ => reply_ite _ _ _
  case keyLoad | keyLoadDtls | keyErase | keyRelease | keyQuery => exact .of_runCmd (fun _ _ => rfl) fun _ _ => rfl
  all_goals exact .of_runCmd (fun _ _ _ => rfl) fun _ _ => rfl

end Sys2Proof.Machine
end

section
/-! What the operations of the memory controllers leave (R323 to R336, R344): registers, memory, and the parts of a controller. -/

namespace Sys2Proof.Machine

variable {s : State} {n p q c k : Nat}

/-! ### Fields and bits of registers -/

theorem State.rf_setRb_ne (s : State) (m : RegName) (i : Nat) {b hi lo : Nat} (v : Bool) (hd : hi < b ∨ b < lo) :
    (s.setRb m i b v).rf m i hi lo = s.rf m i hi lo := by
  rw [State.rf, State.setRb, State.reg_setReg_same, fld_putB_ne _ hd, State.rf]

/-- A register by another name keeps its fields. -/
theorem State.rf_setReg_name (s : State) {m r : RegName} {i j : Nat} (v : Word) (hi : i < 2 ^ 20) (hj : j < 2 ^ 20) (h : m ≠ r)
    (a b : Nat) : (s.setReg r i v).rf m j a b = s.rf m j a b := congrArg (fld · a b) (s.reg_setReg_name v hi hj h)

theorem State.rb_setReg_name (s : State) {m r : RegName} {i j : Nat} (v : Word) (hi : i < 2 ^ 20) (hj : j < 2 ^ 20) (h : m ≠ r)
    (b : Nat) : (s.setReg r i v).rb m j b = s.rb m j b := congrArg (bit · b) (s.reg_setReg_name v hi hj h)

theorem State.hbState_setHbState (s : State) (n : Nat) {st : Nat} (h : st < 8) : (s.setHbState n st).hbState n = st :=
  (s.rf_setRf_same .HBMC_STAT n st (by decide) (by decide)).trans (Nat.mod_eq_of_lt h)

/-- The other bits of `HBMC_STAT` are not the state. -/
theorem State.hbState_setStat (s : State) (n : Nat) {b : Nat} (v : Bool) (h : b < 29) :
    (s.setRb .HBMC_STAT n b v).hbState n = s.hbState n := s.rf_setRb_ne _ _ _ (.inr h)

/-! ### What registers and controllers are read from -/

theorem State.rf_of_regs {t : State} (h : t.regs = s.regs) (m : RegName) (i hi lo : Nat) : t.rf m i hi lo = s.rf m i hi lo := by
  rw [State.rf, State.reg, h, ← State.reg, ← State.rf]

theorem State.rb_of_regs {t : State} (h : t.regs = s.regs) (m : RegName) (i b : Nat) : t.rb m i b = s.rb m i b := by
  rw [State.rb, State.reg, h, ← State.reg, ← State.rb]

theorem State.hbState_of_regs {t : State} (h : t.regs = s.regs) (n : Nat) : t.hbState n = s.hbState n := State.rf_of_regs h _ _ _ _

theorem State.hbmc_of_hbm {t : State} (h : t.hbm = s.hbm) (n : Nat) : t.hbmc n = s.hbmc n := by
  rw [State.hbmc, h, ← State.hbmc]

@[simp] theorem State.rf_updHbm (s : State) (f : Hbm → Hbm) (m : RegName) (i hi lo : Nat) :
    (s.updHbm n f).rf m i hi lo = s.rf m i hi lo := State.rf_of_regs rfl _ _ _ _
@[simp] theorem State.rb_updHbm (s : State) (f : Hbm → Hbm) (m : RegName) (i b : Nat) : (s.updHbm n f).rb m i b = s.rb m i b :=
  State.rb_of_regs rfl _ _ _
@[simp] theorem State.hbState_updHbm (s : State) (f : Hbm → Hbm) : (s.updHbm n f).hbState q = s.hbState q := s.rf_updHbm f _ _ _ _

/-! ### Ports and pseudo-channels -/

@[simp] theorem State.port_updHport_same (s : State) (n p : Nat) (f : HbmPort → HbmPort) :
    ((s.updHport n p f).hbmc n).port p = f ((s.hbmc n).port p) := by
  rw [State.updHport, State.hbmc_updHbm_same]
  exact Tbl.get_updD_same _ _ _ _

theorem State.port_updHport_ne (s : State) (f : HbmPort → HbmPort) (h : q ≠ p) :
    ((s.updHport n p f).hbmc n).port q = (s.hbmc n).port q := by
  rw [State.updHport, State.hbmc_updHbm_same]
  exact Tbl.get_updD_ne _ _ _ h

@[simp] theorem State.pc_updHpc_same (s : State) (n c : Nat) (f : HbmPc → HbmPc) :
    ((s.updHpc n c f).hbmc n).pc c = f ((s.hbmc n).pc c) := by
  rw [State.updHpc, State.hbmc_updHbm_same]
  exact Tbl.get_updD_same _ _ _ _

/-- A change of a controller that leaves its ports. -/
theorem State.port_updHbm (s : State) {f : Hbm → Hbm} (h : (f (s.hbmc n)).ports = (s.hbmc n).ports) :
    ((s.updHbm n f).hbmc n).port q = (s.hbmc n).port q := by
  rw [State.hbmc_updHbm_same, Hbm.port, h, Hbm.port]

@[simp] theorem State.port_updHpc (s : State) (f : HbmPc → HbmPc) : ((s.updHpc n c f).hbmc n).port q = (s.hbmc n).port q :=
  s.port_updHbm rfl

@[simp] theorem State.flying_updHpc (s : State) (f : HbmPc → HbmPc) : ((s.updHpc n c f).hbmc n).flying = (s.hbmc n).flying := by
  rw [State.updHpc, State.hbmc_updHbm_same]

@[simp] theorem State.hbmc_setHbState (s : State) (st : Nat) : (s.setHbState q st).hbmc n = s.hbmc n := State.hbmc_of_hbm rfl n
@[simp] theorem State.hbmc_cntHbm (s : State) (k by' : Nat) : (s.cntHbm q k by').hbmc n = s.hbmc n :=
  State.hbmc_of_hbm rfl n
@[simp] theorem State.rb_cntHbm (s : State) (k by' : Nat) (m : RegName) (i b : Nat) : (s.cntHbm n k by').rb m i b = s.rb m i b :=
  State.rb_of_regs rfl _ _ _

/-! ### Levels, modes and payments -/

/-- A count in between leaves what a write of a bit makes of the registers. -/
theorem State.regs_setRb_cntHbm (s : State) (b : Prop) [Decidable b] (n k : Nat) (m : RegName) (i j : Nat) (v : Bool) :
    ((if b then s.cntHbm n k else s).setRb m i j v).regs = (s.setRb m i j v).regs := by
  split <;> rfl

/-- A level writes the port's status and the PANIC bit of its controller (R328). -/
theorem State.regs_hbLevel (s : State) (n p : Nat) : ∃ now panic, (s.hbLevel n p).regs =
    (((s.setRf .HBMC_PORT_STAT (16 * n + p) 6 0 ((s.hbmc n).port p).reads.length).setRb .HBMC_PORT_STAT (16 * n + p) 31 now).setRb
      .HBMC_STAT n 25 panic).regs := ⟨_, _, State.regs_setRb_cntHbm _ _ _ _ _ _ _ _⟩

theorem State.hbLevel_keeps (s : State) (n p : Nat) : (s.hbLevel n p).mem = s.mem ∧ (s.hbLevel n p).hbm = s.hbm := by
  unfold State.hbLevel
  extract_lets i lvl rt was now s1 s2
  change s2.mem = s.mem ∧ s2.hbm = s.hbm
  unfold s2
  split <;> exact ⟨rfl, rfl⟩

@[simp] theorem State.mem_hbLevel (s : State) (n p : Nat) : (s.hbLevel n p).mem = s.mem := (s.hbLevel_keeps n p).1

@[simp] theorem State.hbmc_hbLevel (s : State) (n p : Nat) : (s.hbLevel n p).hbmc q = s.hbmc q :=
  State.hbmc_of_hbm (s.hbLevel_keeps n p).2 q

/-- `LEVEL` shows the reads that wait at the port (R328). -/
theorem State.level_hbLevel (hn : n < 2) (hp : p < 16) (h : ((s.hbmc n).port p).reads.length < 128) :
    (s.hbLevel n p).rf .HBMC_PORT_STAT (16 * n + p) 6 0 = ((s.hbmc n).port p).reads.length := by
  obtain ⟨now, panic, he⟩ := s.regs_hbLevel n p
  refine (State.rf_of_regs he _ _ _ _).trans ?_
  calc (State.setRb _ .HBMC_STAT n 25 panic).rf .HBMC_PORT_STAT (16 * n + p) 6 0
      = (State.setRb _ .HBMC_PORT_STAT (16 * n + p) 31 now).rf .HBMC_PORT_STAT (16 * n + p) 6 0 :=
        State.rf_setReg_name _ _ (by omega) (by omega) (by decide) _ _
    _ = (State.setRf _ .HBMC_PORT_STAT (16 * n + p) 6 0 _).rf .HBMC_PORT_STAT (16 * n + p) 6 0 :=
        State.rf_setRb_ne _ _ _ _ (by decide)
    _ = ((s.hbmc n).port p).reads.length % 2 ^ (6 + 1 - 0) := State.rf_setRf_same _ _ _ _ (by decide) (by decide)
    _ = ((s.hbmc n).port p).reads.length := Nat.mod_eq_of_lt h

/-- PANIC is none of the controller's states. -/
theorem State.hbState_hbLevel (hn : n < 2) (hp : p < 16) : (s.hbLevel n p).hbState n = s.hbState n := by
  obtain ⟨now, panic, he⟩ := s.regs_hbLevel n p
  refine (State.hbState_of_regs he _).trans ?_
  calc (State.setRb _ .HBMC_STAT n 25 panic).hbState n
      = (State.setRb _ .HBMC_PORT_STAT (16 * n + p) 31 now).hbState n := State.hbState_setStat _ _ _ (by decide)
    _ = (State.setRf s .HBMC_PORT_STAT (16 * n + p) 6 0 _).hbState n :=
        State.rf_setReg_name _ _ (by omega) (by omega) (by decide) _ _
    _ = s.hbState n := State.rf_setReg_name _ _ (by omega) (by omega) (by decide) _ _

@[simp] theorem State.mem_hbMode (s : State) (n c : Nat) : (s.hbMode n c).mem = s.mem := by
  unfold State.hbMode
  dsimp only
  split <;> rfl

theorem State.hbmc_hbMode (s : State) (n c : Nat) : (s.hbMode n c).hbmc n =
    (s.updHpc n c fun x => { x with inorder := behindWrite [] ((s.hbmc n).pc c).queue }).hbmc n := by
  unfold State.hbMode
  dsimp only
  split <;> rfl

@[simp] theorem State.hbmc_hbOwed (s : State) (n : Nat) : (s.hbOwed n).hbmc q = s.hbmc q := State.hbmc_of_hbm rfl q

@[simp] theorem State.mem_hbPay (s : State) (n c : Nat) : (s.hbPay n c).mem = s.mem := by
  unfold State.hbPay
  split <;> rfl

@[simp] theorem State.flying_hbPay (s : State) (n c : Nat) : ((s.hbPay n c).hbmc n).flying = (s.hbmc n).flying := by
  unfold State.hbPay
  split
  · rw [State.hbmc_hbOwed, State.flying_updHpc]
  · rfl

/-- A payment concerns the owed count alone. -/
theorem State.pc_hbPay (s : State) (n c : Nat) :
    ((s.hbPay n c).hbmc n).pc c = { (s.hbmc n).pc c with owed := (((s.hbPay n c).hbmc n).pc c).owed } := by
  unfold State.hbPay
  split
  · rw [State.hbmc_hbOwed, State.pc_updHpc_same]
  · rfl

/-- With an empty queue and no PANIC nothing stays owed (R336). -/
theorem State.owed_hbPay (hq : ((s.hbmc n).pc c).queue.isEmpty = true) (hp : s.rb .HBMC_STAT n 25 = false) :
    (((s.hbPay n c).hbmc n).pc c).owed = 0 := by
  rw [State.hbPay, if_pos (by simp [hq, hp]), State.hbmc_hbOwed, State.pc_updHpc_same]

@[simp] theorem State.mem_hbGrant (s : State) (n c k : Nat) : (s.hbGrant n c k).mem = s.mem := by
  induction k generalizing s with
  | zero => rfl
  | succ k ih =>
    unfold State.hbGrant
    split
    · rfl
    · split
      · rfl
      · rw [ih, State.mem_hbLevel, State.mem_hbMode]
        rfl

end Sys2Proof.Machine
end

section
/-! The states of a memory controller (R325, R344, R345, R347, R348): enabling, training, self-refresh and window fences. -/

namespace Sys2Proof.Machine

variable {s : State} {n p q : Nat} {v : Word}

/-! ### Enabling (R348) -/

/-- The state after a write of `HBMC_CTRL`, before what its edges do. -/
def State.ctrlWritten (s : State) (n : Nat) (v : Word) : State :=
  s.setReg .HBMC_CTRL n (applyWrite (RegName.flds .HBMC_CTRL) (s.reg .HBMC_CTRL n) v)

theorem State.enable_ctrlWritten (s : State) (n : Nat) (v : Word) : (s.ctrlWritten n v).rb .HBMC_CTRL n 31 = bit v 31 := by
  rw [State.rb, State.ctrlWritten, State.reg_setReg_same]
  exact bit_applyWrite (f := ⟨31, 31, .rw, 0⟩) (by unfold FldsFit; decide) (by unfold FldsApart; decide) List.mem_cons_self
    ⟨by decide, by decide⟩

theorem State.hbState_ctrlWritten (hn : n < 2) : (s.ctrlWritten n v).hbState n = s.hbState n :=
  s.rf_setReg_name _ (by omega) (by omega) (by decide) _ _

theorem State.enable_setHbState (hn : n < 2) (st : Nat) : (s.setHbState n st).rb .HBMC_CTRL n 31 = s.rb .HBMC_CTRL n 31 :=
  s.rb_setReg_name _ (by omega) (by omega) (by decide) _

/-- Log entries change the log alone. -/
theorem State.foldl_emit {α : Type} (l : List α) (f : α → Out) (s : State) :
    ∃ out, l.foldl (fun s x => s.emit (f x)) s = { s with out } :=
  List.foldlRecOn (motive := fun t : State => ∃ out, t = { s with out }) l _ ⟨_, rfl⟩ fun _ h _ _ => by
    obtain ⟨_, rfl⟩ := h
    exact ⟨_, rfl⟩

section
variable (h : s.rb .HBMC_CTRL n 31 = false) (hv : bit v 31 = true)
include h hv

theorem State.hbCtrl_trains (hk : bit v 29 = false) : (s.hbCtrl n v).regs = ((s.ctrlWritten n v).setHbState n HB_TRAINING).regs ∧
    (s.hbCtrl n v).mem = Mem.clear s.mem (n * 0x600000000) 0x600000000 := by
  have hs : s.hbCtrl n v =
      { (s.ctrlWritten n v).setHbState n HB_TRAINING with mem := Mem.clear s.mem (n * 0x600000000) 0x600000000 } :=
    (if_pos (by simp [h, hv])).trans (if_neg (by simp [hk]))
  rw [hs]
  exact ⟨rfl, rfl⟩

theorem State.hbCtrl_resumes (hk : bit v 29 = true) : s.hbCtrl n v = (s.ctrlWritten n v).setHbState n HB_SR_EXIT :=
  (if_pos (by simp [h, hv])).trans (if_pos hk)

end

/-- A falling `ENABLE` drops the controller's state; the accesses that waited are answered in the log. -/
theorem State.hbCtrl_stops (h : s.rb .HBMC_CTRL n 31 = true) (hv : bit v 31 = false) : (s.hbCtrl n v).hbm = Tbl.del s.hbm n ∧
    (s.hbCtrl n v).mem = s.mem ∧ (s.hbCtrl n v).regs = ((s.ctrlWritten n v).setHbState n HB_OFF).regs := by
  obtain ⟨out, he⟩ := State.foldl_emit ((s.ctrlWritten n v).hbmc n).held (fun x => .served x.who x.addr .busError) (s.ctrlWritten n v)
  have hs : s.hbCtrl n v = { (State.setHbState { s.ctrlWritten n v with out } n HB_OFF) with hbm := Tbl.del s.hbm n } :=
    ((if_neg (by simp [hv])).trans (if_pos (by simp [h, hv]))).trans
      (congrArg (fun t : State => { t.setHbState n HB_OFF with hbm := Tbl.del t.hbm n }) he)
  rw [hs]
  exact ⟨rfl, rfl, rfl⟩

theorem State.hbCtrl_keeps (h : s.rb .HBMC_CTRL n 31 = bit v 31) : s.hbCtrl n v = s.ctrlWritten n v :=
  (if_neg (by simp [h])).trans (if_neg (by simp [h]))

/-- After the write, `ENABLE` is as written. -/
theorem State.enable_hbCtrl (hn : n < 2) : (s.hbCtrl n v).rb .HBMC_CTRL n 31 = bit v 31 := by
  have hset (st : Nat) : ((s.ctrlWritten n v).setHbState n st).rb .HBMC_CTRL n 31 = bit v 31 :=
    (State.enable_setHbState hn st).trans (s.enable_ctrlWritten n v)
  cases h : s.rb .HBMC_CTRL n 31 <;> cases hv : bit v 31
  case false.true =>
    cases hk : bit v 29
    · rw [State.rb_of_regs (State.hbCtrl_trains h hv hk).1, hset, hv]
    · rw [State.hbCtrl_resumes h hv hk, hset, hv]
  case true.false =>
    obtain ⟨-, -, hregs⟩ := State.hbCtrl_stops h hv
    rw [State.rb_of_regs hregs, hset, hv]
  all_goals
    rw [State.hbCtrl_keeps (h.trans hv.symm)]
    rw [State.enable_ctrlWritten, hv]

/-! ### Self-refresh entry (R344) -/

/-- A drain takes the oldest posted write of its port. -/
theorem State.posted_hbDrain_same (s : State) (n p : Nat) :
    (((s.hbDrain n p).hbmc n).port p).posted = ((s.hbmc n).port p).posted.tail := by
  unfold State.hbDrain
  split
  next h => rw [h]; rfl
  next r rest h =>
    change (((State.updHpc _ n _ _).hbmc n).port p).posted = _
    rw [State.port_updHpc, State.port_updHbm _ (by rfl), State.hbSpend, State.port_updHport_same, State.port_updHport_same, h]
    rfl

theorem State.posted_hbDrain_ne (s : State) (h : q ≠ p) :
    (((s.hbDrain n p).hbmc n).port q).posted = ((s.hbmc n).port q).posted := by
  unfold State.hbDrain
  split
  · rfl
  · change (((State.updHpc _ n _ _).hbmc n).port q).posted = _
    rw [State.port_updHpc, State.port_updHbm _ (by rfl), State.hbSpend, State.port_updHport_ne _ _ h, State.port_updHport_ne _ _ h]

/-- As many drains as `l` is long. -/
theorem State.posted_drains_same (l : List UnitReq) (s : State) (n p : Nat) :
    (((l.foldl (fun s _ => s.hbDrain n p) s).hbmc n).port p).posted = ((s.hbmc n).port p).posted.drop l.length := by
  induction l generalizing s with
  | nil => rfl
  | cons r l ih => rw [List.foldl_cons, ih, State.posted_hbDrain_same, List.drop_tail, List.length_cons]

theorem State.posted_drains_ne (l : List UnitReq) (s : State) (h : q ≠ p) :
    (((l.foldl (fun s _ => s.hbDrain n p) s).hbmc n).port q).posted = ((s.hbmc n).port q).posted := by
  induction l generalizing s with
  | nil => rfl
  | cons r l ih => rw [List.foldl_cons, ih, State.posted_hbDrain_ne _ h]

/-- Every port of `ps` drains as many writes as it posted in `h`. -/
theorem State.posted_drainPorts (h : Hbm) {ps : List Nat} (hps : ps.Nodup) (s : State) :
    (((ps.foldl (fun s p => (h.port p).posted.foldl (fun s _ => s.hbDrain n p) s) s).hbmc n).port q).posted =
      if q ∈ ps then ((s.hbmc n).port q).posted.drop (h.port q).posted.length else ((s.hbmc n).port q).posted := by
  induction ps generalizing s with
  | nil => rfl
  | cons p ps ih =>
    obtain ⟨hp, hps⟩ := List.nodup_cons.mp hps
    rw [List.foldl_cons, ih hps]
    by_cases hq : q = p
    · subst hq
      rw [if_neg hp, if_pos List.mem_cons_self, State.posted_drains_same]
    · simp only [List.mem_cons, hq, false_or, State.posted_drains_ne _ _ hq]

theorem State.posted_hbSettle (s : State) (n : Nat) (hp : p < 16) : (((s.hbSettle n).hbmc n).port p).posted = [] := by
  unfold State.hbSettle
  dsimp only
  rw [State.hbmc_cntHbm, State.hbmc_cntHbm, State.hbmc_hbOwed, State.port_updHbm _ (by rfl),
    State.posted_drainPorts _ List.nodup_range, if_pos (List.mem_range.mpr hp), List.drop_length]

/-- The state at the end of an entry: asleep, or on its way out for a request that came too late to abort it (R345). -/
def State.srEntered (s : State) (n : Nat) : State :=
  (((s.hbSettle n).cntHbm n H_SR_ENTRIES).setHbState n (if (s.hbmc n).srWait then HB_SR_EXIT else HB_SELF_REFRESH)).updHbm n fun h =>
    { h with srWait := false }

theorem exec_srEntryComplete {n : Fin 2} (h : s.hbState n.val = HB_SR_ENTRY) : exec (.srEntryComplete n) s = .next (s.srEntered n.val) :=
  if_neg (not_not.mpr h)

theorem State.hbState_srEntered (s : State) (n : Nat) :
    (s.srEntered n).hbState n = if (s.hbmc n).srWait then HB_SR_EXIT else HB_SELF_REFRESH := by
  rw [State.srEntered, State.hbState_updHbm, State.hbState_setHbState]
  split <;> decide

theorem State.posted_srEntered (s : State) (n : Nat) (hp : p < 16) : (((s.srEntered n).hbmc n).port p).posted = [] := by
  rw [State.srEntered, State.port_updHbm _ (by rfl), State.hbmc_setHbState, State.hbmc_cntHbm, State.posted_hbSettle _ _ hp]

theorem State.srWait_srEntered (s : State) (n : Nat) : ((s.srEntered n).hbmc n).srWait = false := by
  rw [State.srEntered, State.hbmc_updHbm_same]

/-! ### Self-refresh exit (R345) -/

/-- The state of a stack that has left self-refresh, before the accesses that waited are served. -/
def State.srExited (s : State) (n : Nat) : State :=
  ((s.setHbState n HB_ACTIVE).setRb .HBMC_STAT n 28 true).updHbm n fun h => { h with held := [] }

theorem exec_srExitComplete {n : Fin 2} (h : s.hbState n.val = HB_SR_EXIT) :
    exec (.srExitComplete n) s = .next ((s.hbmc n.val).held.foldl State.serveHeld (s.srExited n.val)) := if_pos h

theorem State.hbState_srExited (s : State) (n : Nat) : (s.srExited n).hbState n = HB_ACTIVE := by
  rw [State.srExited, State.hbState_updHbm, State.hbState_setStat _ _ _ (by decide), State.hbState_setHbState _ _ (by decide)]

theorem State.hot_srExited (s : State) (n : Nat) : (s.srExited n).rb .HBMC_STAT n 28 = true := by
  rw [State.srExited, State.rb_updHbm, State.rb_setRb_same _ _ _ _ (by decide)]

theorem State.held_srExited (s : State) (n : Nat) : ((s.srExited n).hbmc n).held = [] := by
  rw [State.srExited, State.hbmc_updHbm_same]

/-- The word of a table rests on the tables' bases and on the blocks that keep them. `delta` unfolds the function before it is applied:
in a comparison of its values the kernel would count each product of a base down one by one. -/
theorem State.tableWord_congr {t : State} (hsub : t.rf .STRATA_OCTX_BASE 0 18 0 = s.rf .STRATA_OCTX_BASE 0 18 0)
    (hpool : t.rf .POOL_TBL_BASE 0 14 0 = s.rf .POOL_TBL_BASE 0 14 0)
    (hslot : t.rf .CRYPT_SLOTCNT_BASE 0 18 0 = s.rf .CRYPT_SLOTCNT_BASE 0 18 0) (hnet : t.net = s.net) (hvideo : t.video = s.video)
    (hkeys : t.keys = s.keys) (a : Nat) : t.tableWord a = s.tableWord a := by
  have h : @State.tableWord = @State.tableWord := rfl
  conv at h => rhs; delta State.tableWord
  rw [h]
  dsimp only
  rw [hsub, hpool, hslot, hnet, hvideo, hkeys]

/-- What an address reads does not depend on the controllers' states. -/
theorem State.memWord_srExited (hn : n < 2) (a : Nat) : (s.srExited n).memWord a = s.memWord a := by
  have hrf (m : RegName) (hm : m ≠ .HBMC_STAT) (hi lo : Nat) : (s.srExited n).rf m 0 hi lo = s.rf m 0 hi lo := calc
    (s.srExited n).rf m 0 hi lo = ((s.setHbState n HB_ACTIVE).setRb .HBMC_STAT n 28 true).rf m 0 hi lo := State.rf_updHbm _ _ _ _ _ _
    _ = (s.setHbState n HB_ACTIVE).rf m 0 hi lo := State.rf_setReg_name _ _ (by omega) (by decide) hm _ _
    _ = s.rf m 0 hi lo := State.rf_setReg_name _ _ (by omega) (by decide) hm _ _
  have hmem : (s.srExited n).mem = s.mem := rfl
  have htable : (s.srExited n).tableWord a = s.tableWord a :=
    State.tableWord_congr (hrf _ (by decide) _ _) (hrf _ (by decide) _ _) (hrf _ (by decide) _ _) rfl rfl rfl a
  rw [State.memWord, htable, hmem, State.memWord]

/-- Accesses served change memory, the answer and the log. -/
theorem State.foldl_serveHeld (l : List Held) (s : State) : ∃ mem bus out, l.foldl State.serveHeld s = { s with mem, bus, out } := by
  refine List.foldlRecOn (motive := fun t : State => ∃ mem bus out, t = { s with mem, bus, out }) l _ ⟨_, _, _, rfl⟩ fun t h x _ => ?_
  obtain ⟨mem, bus, out, rfl⟩ := h
  unfold State.serveHeld
  split <;> exact ⟨_, _, _, rfl⟩

theorem State.serveHeld_write {x : Held} (h : x.data = some v) :
    (s.serveHeld x).mem = Mem.write s.mem x.addr (toLe 4 v.toNat) ∧ (s.serveHeld x).out = .served x.who x.addr (.ok 0) :: s.out := by
  unfold State.serveHeld
  rw [h]
  exact ⟨rfl, rfl⟩

theorem State.serveHeld_read {x : Held} (h : x.data = none) :
    (s.serveHeld x).mem = s.mem ∧ (s.serveHeld x).out = .served x.who x.addr (.ok (s.memWord x.addr)) :: s.out := by
  unfold State.serveHeld
  rw [h]
  exact ⟨rfl, rfl⟩

/-! ### Window fences (R347) -/

theorem State.winFence_raised (s : State) : s.winFence.rb .HBMC_WIN_FENCE 0 0 = true := by
  unfold State.winFence
  split
  · assumption
  · rw [State.rb_updHbm, State.rb_setRb_same _ _ _ _ (by decide)]

theorem State.fence_winFence (h : s.rb .HBMC_WIN_FENCE 0 0 = false) :
    (s.winFence.hbmc 0).fence = ((s.hbmc 0).seq, (s.hbmc 1).seq) := by
  rw [State.winFence, if_neg (by simp [h]), State.hbmc_updHbm_same]
  rfl

end Sys2Proof.Machine
end

section
/-! Requests of the masters (R325, R331, R346), the drain of posted writes (R333), and what a pseudo-channel issues (R326, R330,
R332). -/

namespace Sys2Proof.Machine

variable {s : State} {n p q c : Nat} {checked : Bool}

/-! ### Requests that enter a port (R331) -/

theorem State.hbEnter_read (s : State) (n p : Nat) (checked : Bool) (a : Nat) (data : List Byte) :
    ∃ r : UnitReq, r.addr = a ∧ ((s.hbEnter n p false checked a data).hbmc n).port p =
      { (s.hbmc n).port p with reads := ((s.hbmc n).port p).reads ++ [r] } := by
  refine ⟨{ seq := (s.hbmc n).seq, port := p, addr := a, data, checked, at' := s.ela }, rfl, ?_⟩
  unfold State.hbEnter
  dsimp only
  rw [if_neg (by decide), apply_ite (State.hbmc · n), State.hbmc_cntHbm, ite_self, State.port_updHport_same, State.port_updHbm _ (by rfl)]

theorem State.hbEnter_write (s : State) (n p : Nat) (checked : Bool) (a : Nat) (data : List Byte) :
    ∃ r : UnitReq, (r.addr, r.data) = (a, data) ∧ ((s.hbEnter n p true checked a data).hbmc n).port p =
      { (s.hbmc n).port p with posted := ((s.hbmc n).port p).posted ++ [r] } := by
  refine ⟨{ seq := (s.hbmc n).seq, port := p, write := true, addr := a, data, checked, at' := s.ela }, rfl, ?_⟩
  unfold State.hbEnter
  dsimp only
  rw [if_pos rfl, State.port_updHport_same, State.port_updHbm _ (by rfl)]

/-- A request that enters a port changes the controllers and the counters. -/
theorem State.hbEnter_eq (s : State) (n p : Nat) (write checked : Bool) (a : Nat) (data : List Byte) :
    ∃ hbm cnts, s.hbEnter n p write checked a data = { s with hbm, cnts } := by
  unfold State.hbEnter
  dsimp only
  split
  · exact ⟨_, _, rfl⟩
  · split <;> exact ⟨_, _, rfl⟩

/-- The units of an access enter their port in order. -/
def State.enterAll (s : State) (n p : Nat) (write checked : Bool) (us : List (Nat × List Byte)) : State :=
  us.foldl (fun s u => s.hbEnter n p write checked u.1 u.2) s

theorem State.enterAll_eq (s : State) (n p : Nat) (write checked : Bool) (us : List (Nat × List Byte)) :
    ∃ hbm cnts, s.enterAll n p write checked us = { s with hbm, cnts } := by
  refine List.foldlRecOn (motive := fun t : State => ∃ hbm cnts, t = { s with hbm, cnts }) us _ ⟨_, _, rfl⟩ fun t h u _ => ?_
  obtain ⟨_, _, rfl⟩ := h
  obtain ⟨_, _, he⟩ := State.hbEnter_eq { s with hbm := _, cnts := _ } n p write checked u.1 u.2
  exact ⟨_, _, he⟩

theorem State.mem_enterAll (s : State) (n p : Nat) (write checked : Bool) (us : List (Nat × List Byte)) :
    (s.enterAll n p write checked us).mem = s.mem := by
  obtain ⟨_, _, h⟩ := s.enterAll_eq n p write checked us
  rw [h]

theorem State.hbState_enterAll (s : State) (n p : Nat) (write checked : Bool) (us : List (Nat × List Byte)) (j : Nat) :
    (s.enterAll n p write checked us).hbState j = s.hbState j := by
  obtain ⟨_, _, h⟩ := s.enterAll_eq n p write checked us
  rw [h]
  rfl

/-- Posted writes stand in the order of their units (R323, R331). -/
theorem State.posted_enterAll (us : List (Nat × List Byte)) (s : State) :
    (((s.enterAll n p true checked us).hbmc n).port p).posted.map (fun r => (r.addr, r.data)) =
        ((s.hbmc n).port p).posted.map (fun r => (r.addr, r.data)) ++ us ∧
      (((s.enterAll n p true checked us).hbmc n).port p).reads = ((s.hbmc n).port p).reads := by
  induction us generalizing s with
  | nil => exact ⟨(List.append_nil _).symm, rfl⟩
  | cons u us ih =>
    obtain ⟨r, hr, hp⟩ := s.hbEnter_write n p checked u.1 u.2
    obtain ⟨hposted, hreads⟩ := ih (s.hbEnter n p true checked u.1 u.2)
    rw [hp] at hposted hreads
    refine ⟨hposted.trans ?_, hreads⟩
    rw [List.map_append, List.map_singleton, hr, List.append_assoc, List.singleton_append]

/-! ### What a request does to self-refresh (R345) -/

@[simp] theorem State.mem_srRequest (s : State) (n : Nat) : (s.srRequest n).mem = s.mem := by
  unfold State.srRequest
  split_ifs <;> rfl

@[simp] theorem State.port_srRequest (s : State) (n p : Nat) : ((s.srRequest n).hbmc n).port p = (s.hbmc n).port p := by
  unfold State.srRequest
  split_ifs
  · rfl
  · exact s.port_updHbm rfl
  · rfl
  · rfl

theorem State.hbState_srRequest (h : s.hbState n = HB_SELF_REFRESH) : (s.srRequest n).hbState n = HB_SR_EXIT := by
  rw [State.srRequest, if_neg (by rw [h]; decide), if_pos h]
  exact s.hbState_setHbState n (by decide)

/-! ### What a request that is taken leaves (R331, R345) -/

/-- The state after a request is taken. -/
def State.requested (s : State) (n p : Nat) (write checked : Bool) (us : List (Nat × List Byte)) : State :=
  { ((s.enterAll n p write checked us).srRequest n).hbLevel n p with bus := .ok 0 }

section
variable (s n p) (write : Bool) (checked) (us : List (Nat × List Byte))

theorem State.mem_requested : (s.requested n p write checked us).mem = s.mem := calc
  (s.requested n p write checked us).mem = (((s.enterAll n p write checked us).srRequest n).hbLevel n p).mem := rfl
  _ = s.mem := by rw [State.mem_hbLevel, State.mem_srRequest, State.mem_enterAll]

theorem State.port_requested (j : Nat) :
    ((s.requested n p write checked us).hbmc n).port j = ((s.enterAll n p write checked us).hbmc n).port j := by
  have h : (s.requested n p write checked us).hbm = (((s.enterAll n p write checked us).srRequest n).hbLevel n p).hbm := rfl
  rw [State.hbmc_of_hbm h, State.hbmc_hbLevel, State.port_srRequest]

theorem State.regs_requested : (s.requested n p write checked us).regs =
    (((s.enterAll n p write checked us).srRequest n).hbLevel n p).regs := rfl

variable {n p}

/-- A request that finds the stack asleep wakes it. -/
theorem State.hbState_requested (hn : n < 2) (hp : p < 16) (h : s.hbState n = HB_SELF_REFRESH) :
    (s.requested n p write checked us).hbState n = HB_SR_EXIT := by
  rw [State.hbState_of_regs (s.regs_requested _ _ _ _ _), State.hbState_hbLevel hn hp,
    State.hbState_srRequest ((State.hbState_enterAll _ _ _ _ _ _ _).trans h)]

theorem State.level_requested (hn : n < 2) (hp : p < 16) {k : Nat} (hk : k < 128)
    (h : (((s.enterAll n p write checked us).hbmc n).port p).reads.length = k) :
    (s.requested n p write checked us).rf .HBMC_PORT_STAT (16 * n + p) 6 0 = k := by
  have hlen : ((((s.enterAll n p write checked us).srRequest n).hbmc n).port p).reads.length = k := by rw [State.port_srRequest, h]
  rw [State.rf_of_regs (s.regs_requested _ _ _ _ _), State.level_hbLevel hn hp (by omega), hlen]

end

/-! ### The command (R325, R346) -/

section
variable {n : Fin 2} {p : Fin 16} {write : Bool} {a : Nat} {tn : Option (Fin 4)} {l : List Byte} {el : Nat}

/-- The units of an access. -/
def reqUnits (write : Bool) (a : Nat) (l : List Byte) : List (Nat × List Byte) := if write then splitUnits l.length a l else [(a, [])]

/-- Is the access outside the windows of the tenant for which it is made (R346)? -/
def State.reqDenied (s : State) (write : Bool) (a : Nat) (tn : Option (Fin 4)) (l : List Byte) : Bool :=
  match tn with
  | some t => !s.windowOk t.val write a (if write then l.length else 1)
  | none => false

/-- Has the port room for the units? -/
def HbmPort.room (x : HbmPort) (write : Bool) (us : List (Nat × List Byte)) : Bool :=
  if write then decide (x.posted.length + us.length ≤ 64) else decide (x.reads.length + 1 ≤ 64)

/-- The decisions of a request in their order. -/
theorem exec_hbmRequest : exec (.hbmRequest n p write a tn l el) s =
    if (reqUnits write a l).isEmpty then .next (s.advance el)
    else if !inHbm a || (reqUnits write a l).any (fun u => stackOf u.1 != n.val) || (s.advance el).reqDenied write a tn l
        || !(s.advance el).hbServes n.val then .next { s.advance el with bus := .busError }
    else if !(((s.advance el).hbmc n.val).port p.val).room write (reqUnits write a l) then .next (s.advance el)
    else .next ((s.advance el).requested n.val p.val write tn.isSome (reqUnits write a l)) := by
  cases tn <;> rfl

variable (hus : reqUnits write a l ≠ [])
include hus

theorem exec_hbmRequest_refused (h : inHbm a = false ∨ (reqUnits write a l).any (fun u => stackOf u.1 != n.val) = true ∨
    (s.advance el).reqDenied write a tn l = true ∨ (s.advance el).hbServes n.val = false) :
    exec (.hbmRequest n p write a tn l el) s = .next { s.advance el with bus := .busError } := by
  rw [exec_hbmRequest, if_neg (by simpa using hus), if_pos]
  rcases h with h | h | h | h <;> simp [h]

theorem exec_hbmRequest_taken (ha : inHbm a = true) (hst : (reqUnits write a l).all (fun u => stackOf u.1 == n.val) = true)
    (hd : (s.advance el).reqDenied write a tn l = false) (hs : (s.advance el).hbServes n.val = true)
    (hr : (((s.advance el).hbmc n.val).port p.val).room write (reqUnits write a l) = true) :
    exec (.hbmRequest n p write a tn l el) s = .next ((s.advance el).requested n.val p.val write tn.isSome (reqUnits write a l)) := by
  have hany : (reqUnits write a l).any (fun u => stackOf u.1 != n.val) = false := by
    rw [List.any_eq_false]
    intro u hu
    simpa using List.all_eq_true.mp hst u hu
  rw [exec_hbmRequest, if_neg (by simpa using hus), if_neg (by simp [ha, hany, hd, hs]), if_neg (by simp [hr])]

end

/-! ### Drains (R333) -/

theorem State.mem_hbDrain {r : UnitReq} {rest : List UnitReq} (h : ((s.hbmc n).port p).posted = r :: rest) :
    (s.hbDrain n p).mem = Mem.write s.mem r.addr r.data := by
  rw [State.hbDrain, h]
  rfl

theorem State.regs_hbDrain (s : State) (n p : Nat) : (s.hbDrain n p).regs = s.regs := by
  unfold State.hbDrain
  split <;> rfl

theorem exec_postedWriteDrain {n : Fin 2} {k p : Nat} (h : s.hbState n.val = HB_ACTIVE)
    (ha : s.hbArb n.val (s.hbmc n.val).ptrs (fun q => !((s.hbmc n.val).port q).posted.isEmpty) = some (k, p)) :
    exec (.postedWriteDrain n) s =
      .next ((s.updHbm n.val fun h => { h with ptrs := Tbl.set h.ptrs k ((p + 1) % 16) }).hbDrain n.val p) := by
  change execPostedWriteDrain n s = _
  rw [execPostedWriteDrain, if_neg (not_not.mpr h), ha]

/-! ### Issue (R326, R330, R332) -/

/-- The request leaves the queue of its pseudo-channel. -/
def State.unqueued (s : State) (n c : Nat) (r : UnitReq) (ptrs : Tbl Nat) : State :=
  (s.updHpc n c fun x => { x with queue := x.queue.filter fun q => q.seq != r.seq, ptrs }).hbMode n c

/-- The request's commands: a write of a whole unit needs no read, and no other has its data before its read returns. -/
def State.issued (s : State) (n : Nat) (r : UnitReq) : State :=
  if r.write && r.full then s.cntHbm n H_WRITES
  else
    let f := if r.write then r else { r with data := Mem.read s.mem (unitOf r.addr) 64 }
    (s.updHbm n fun h => { h with flying := h.flying ++ [f] }).cntHbm n (if r.write then H_RMW else H_READS)

section
variable {n : Fin 2} {pc : Fin 64} (h : s.hbState n.val = HB_ACTIVE)
include h

theorem exec_hbmUnitIssue_none (hp : (s.hbGrant n.val (pc.val % 32) 1024).hbPick n.val (pc.val % 32) = none) :
    exec (.hbmUnitIssue n pc) s = .next ((s.hbGrant n.val (pc.val % 32) 1024).hbPay n.val (pc.val % 32)) := by
  change execHbmUnitIssue n pc s = _
  rw [execHbmUnitIssue, if_neg (not_not.mpr h)]
  dsimp only
  rw [hp]

theorem exec_hbmUnitIssue_some {r : UnitReq} {ptrs : Tbl Nat}
    (hp : (s.hbGrant n.val (pc.val % 32) 1024).hbPick n.val (pc.val % 32) = some (r, ptrs)) : exec (.hbmUnitIssue n pc) s =
      .next ((((s.hbGrant n.val (pc.val % 32) 1024).unqueued n.val (pc.val % 32) r ptrs).issued n.val r).hbPay n.val (pc.val % 32)) := by
  change execHbmUnitIssue n pc s = _
  rw [execHbmUnitIssue, if_neg (not_not.mpr h)]
  dsimp only
  rw [hp]
  rfl

end

section
variable (r : UnitReq) (ptrs : Tbl Nat)

theorem State.mem_unqueued : (s.unqueued n c r ptrs).mem = s.mem := State.mem_hbMode _ _ _

theorem State.flying_unqueued : ((s.unqueued n c r ptrs).hbmc n).flying = (s.hbmc n).flying := by
  rw [State.unqueued, State.hbmc_hbMode, State.flying_updHpc, State.flying_updHpc]

/-- The queue without the request, and the pointers as the choice left them. -/
theorem State.pc_unqueued : (((s.unqueued n c r ptrs).hbmc n).pc c).queue = ((s.hbmc n).pc c).queue.filter (fun q => q.seq != r.seq) ∧
    (((s.unqueued n c r ptrs).hbmc n).pc c).ptrs = ptrs := by
  rw [State.unqueued, State.hbmc_hbMode, State.pc_updHpc_same, State.pc_updHpc_same]
  exact ⟨rfl, rfl⟩

end

section
variable {r : UnitReq}

theorem State.mem_issued (s : State) (n : Nat) (r : UnitReq) : (s.issued n r).mem = s.mem := by
  unfold State.issued
  split <;> rfl

theorem State.pc_issued (s : State) (n : Nat) (r : UnitReq) : ((s.issued n r).hbmc n).pc c = (s.hbmc n).pc c := by
  unfold State.issued
  split
  · rfl
  · rw [State.hbmc_cntHbm, State.hbmc_updHbm_same]
    rfl

theorem State.flying_issued_full (hw : r.write = true) (hf : r.full = true) :
    ((s.issued n r).hbmc n).flying = (s.hbmc n).flying := by
  rw [State.issued, if_pos (by simp [hw, hf]), State.hbmc_cntHbm]

theorem State.flying_issued_partial (hw : r.write = true) (hf : r.full = false) :
    ((s.issued n r).hbmc n).flying = (s.hbmc n).flying ++ [r] := by
  rw [State.issued, if_neg (by simp [hf]), State.hbmc_cntHbm, State.hbmc_updHbm_same, if_pos hw]

theorem State.flying_issued_read (hw : r.write = false) :
    ((s.issued n r).hbmc n).flying = (s.hbmc n).flying ++ [{ r with data := Mem.read s.mem (unitOf r.addr) 64 }] := by
  rw [State.issued, if_neg (by simp [hw]), State.hbmc_cntHbm, State.hbmc_updHbm_same, if_neg (by simp [hw])]

end

end Sys2Proof.Machine
end

section
/-! The memory controllers' states and requests (R325, R326, R330 to R333, R344 to R348). -/

namespace Sys2Proof.Machine

/-- Settles O51: a clause for each command; what each operation leaves is said of the operation. -/
theorem hbmStatesAndRequests : Obligations.HbmStatesAndRequests := by
  refine ⟨?enable, fun _ _ _ => (apply_ite Host.Outcome.next _ _ _).symm, ?idle, ?entry, ?exit, ?fence, ?clear, ?request, ?drain, ?issue⟩
  case enable =>
    intro n v s lo
    refine ⟨fun hd => if_neg (by simp [hd]), fun hd => ⟨_, if_pos hd, rfl, State.enable_hbCtrl n.isLt, ?_, ?_, ?_, ?_⟩⟩
    · intro h hv hk
      obtain ⟨hregs, hmem⟩ := State.hbCtrl_trains h hv hk
      refine ⟨?_, fun x hlo hhi => ?_, fun x hx => ?_⟩
      · exact (State.hbState_of_regs hregs _).trans (State.hbState_setHbState _ _ (by decide))
      · exact (congrArg (Mem.get · x) hmem).trans ((Mem.get_clear _ _ _ x).trans (if_pos ⟨hlo, hhi⟩))
      · exact (congrArg (Mem.get · x) hmem).trans ((Mem.get_clear _ _ _ x).trans (if_neg (by omega)))
    · intro h hv hk
      rw [State.hbCtrl_resumes h hv hk]
      exact ⟨State.hbState_setHbState _ _ (by decide), rfl⟩
    · intro h hv
      obtain ⟨hhbm, hmem, hregs⟩ := State.hbCtrl_stops h hv
      refine ⟨(State.hbState_of_regs hregs _).trans (State.hbState_setHbState _ _ (by decide)), ?_, hmem⟩
      exact (congrArg (Tbl.get · {} n.val) hhbm).trans (Tbl.get_del_same _ _ _)
    · intro h
      rw [State.hbCtrl_keeps h]
      exact ⟨State.hbState_ctrlWritten n.isLt, rfl, rfl⟩
  case idle =>
    intro n s ha hen hsleep hq
    refine ⟨_, if_pos ⟨ha, hen, hsleep, hq⟩, State.hbState_setHbState _ _ (by decide), ?_, rfl⟩
    rw [State.hbmc_updHbm_same]
  case entry =>
    exact fun n s h => ⟨_, exec_srEntryComplete h, s.hbState_srEntered n.val, fun _ hp => s.posted_srEntered n.val hp,
      s.srWait_srEntered n.val⟩
  case exit =>
    intro n s h
    obtain ⟨mem, bus, out, he⟩ := State.foldl_serveHeld (s.hbmc n.val).held (s.srExited n.val)
    refine ⟨_, exec_srExitComplete h, ?_, ?_, ?_, fun h0 => ?_, fun x v h1 hx => ?_, fun x h1 hx => ?_⟩
    · rw [he]
      exact s.hbState_srExited n.val
    · rw [he]
      exact s.hot_srExited n.val
    · rw [he]
      exact s.held_srExited n.val
    · rw [h0]
      exact ⟨rfl, rfl⟩
    · rw [h1]
      exact State.serveHeld_write hx
    · rw [h1, ← State.memWord_srExited n.isLt]
      exact State.serveHeld_read hx
  case fence => exact fun s => ⟨_, rfl, s.winFence_raised, State.fence_winFence⟩
  case clear => exact fun s h0 h1 => if_neg (by simp [h0, h1])
  case request =>
    intro n p write a tn l el s b us len denied x i hus
    refine ⟨exec_hbmRequest_refused hus, fun ha hst hd hs => ⟨fun hw hroom => ?_, fun hw hroom => ?_⟩⟩
    · subst hw
      obtain ⟨hposted, hreads⟩ := State.posted_enterAll (n := n.val) (p := p.val) (checked := tn.isSome) us b
      refine ⟨_, exec_hbmRequest_taken hus ha hst hd hs (decide_eq_true hroom), rfl, State.mem_requested _ _ _ _ _ _, ?_, ?_,
        State.hbState_requested _ _ _ _ n.isLt p.isLt⟩
      · rw [State.port_requested]
        exact hposted
      · rw [State.port_requested]
        exact hreads
    · subst hw
      obtain ⟨r, hr, hport⟩ := b.hbEnter_read n.val p.val tn.isSome a []
      have hx : ((b.requested n.val p.val false tn.isSome us).hbmc n.val).port p.val = { x with reads := x.reads ++ [r] } :=
        (State.port_requested _ _ _ _ _ _ _).trans hport
      refine ⟨_, exec_hbmRequest_taken hus ha hst hd hs (decide_eq_true hroom), rfl, State.mem_requested _ _ _ _ _ _, ?_, ?_,
        State.level_requested _ _ _ _ n.isLt p.isLt (Nat.lt_of_le_of_lt hroom (by decide)) ?_⟩
      · refine (congrArg (fun y : HbmPort => y.reads.map (·.addr)) hx).trans ?_
        rw [List.map_append, List.map_singleton, hr]
      · exact (congrArg HbmPort.posted hx :)
      · exact (congrArg (fun y : HbmPort => y.reads.length) hport).trans (by rw [List.length_append, List.length_singleton])
  case drain =>
    intro n s k p r rest h ha hp
    have hp' : (((s.updHbm n.val fun h => { h with ptrs := Tbl.set h.ptrs k ((p + 1) % 16) }).hbmc n.val).port p).posted = r :: rest := by
      rw [State.port_updHbm _ (by rfl), hp]
    refine ⟨_, exec_postedWriteDrain h ha, ?_, ?_, fun x hx => ?_, State.regs_hbDrain _ _ _⟩
    · rw [State.posted_hbDrain_same, hp', List.tail_cons]
    · rw [State.mem_hbDrain hp', Mem.read_write_same]
    · rw [State.mem_hbDrain hp', Mem.get_write_out _ _ hx]
      rfl
  case issue =>
    intro n pc s c u h
    refine ⟨exec_hbmUnitIssue_none h, fun r ptrs hp => ?_⟩
    have hmem : (u.unqueued n.val c r ptrs).mem = s.mem := (State.mem_unqueued r ptrs).trans (s.mem_hbGrant _ _ _)
    obtain ⟨hqueue, hptrs⟩ := State.pc_unqueued (s := u) (n := n.val) (c := c) r ptrs
    have hfly : ((u.unqueued n.val c r ptrs).hbmc n.val).flying = (u.hbmc n.val).flying := State.flying_unqueued r ptrs
    refine ⟨_, exec_hbmUnitIssue_some h hp, ?_, ?_, ?_, fun hw hf => ?_, fun hw hf => ?_, fun hw => ?_⟩
    · rw [State.mem_hbPay, State.mem_issued, hmem]
    · rw [State.pc_hbPay, State.pc_issued, hqueue]
    · rw [State.pc_hbPay, State.pc_issued, hptrs]
    · rw [State.flying_hbPay, State.flying_issued_full hw hf, hfly]
    · rw [State.flying_hbPay, State.flying_issued_partial hw hf, hfly]
    · rw [State.flying_hbPay, State.flying_issued_read hw, hfly, hmem]

end Sys2Proof.Machine
end

section
/-! Read data and the care of the stacks (R335 to R343): returns, refreshes, temperatures and scrub reads. -/

namespace Sys2Proof.Machine

variable {s : State} {n : Nat}

/-! ### Returns (R338 to R341) -/

/-- The oldest read has returned, and its inner severity is counted (R339). -/
def State.returned (s : State) (n : Nat) (rest : List UnitReq) (inner : Fin 3) : State :=
  (s.updHbm n fun h => { h with flying := rest }).innerCount n inner

/-- The inner severity changes nothing but its count (R339). -/
theorem State.innerCount_keeps (s : State) (n : Nat) (inner : Fin 3) :
    (s.innerCount n inner).regs = s.regs ∧ (s.innerCount n inner).mem = s.mem ∧ (s.innerCount n inner).hbm = s.hbm := by
  unfold State.innerCount
  split_ifs <;> exact ⟨rfl, rfl, rfl⟩

section
variable (s n) (rest : List UnitReq) (inner : Fin 3)

theorem State.mem_returned : (s.returned n rest inner).mem = s.mem := by
  obtain ⟨-, hmem, -⟩ := State.innerCount_keeps (s.updHbm n fun h => { h with flying := rest }) n inner
  exact hmem

theorem State.regs_returned : (s.returned n rest inner).regs = s.regs := by
  obtain ⟨hregs, -, -⟩ := State.innerCount_keeps (s.updHbm n fun h => { h with flying := rest }) n inner
  exact hregs

theorem State.flying_returned : ((s.returned n rest inner).hbmc n).flying = rest := by
  obtain ⟨-, -, hhbm⟩ := State.innerCount_keeps (s.updHbm n fun h => { h with flying := rest }) n inner
  rw [State.returned, State.hbmc_of_hbm hhbm, State.hbmc_updHbm_same]

end

section
variable {n : Fin 2} {inner : Fin 3} {outer : Outer} {r : UnitReq} {rest : List UnitReq} (hf : (s.hbmc n.val).flying = r :: rest)
include hf

/-- What the outer code finds clean or corrects is delivered as good, and memory stays (R339, R340). -/
theorem exec_hbmReadComplete_good (ho : outer = .clean ∨ ∃ k, outer = .corrected k) :
    ∃ t, exec (.hbmReadComplete n { inner, outer }) s = .next t ∧ t.mem = s.mem ∧ (t.hbmc n.val).flying = rest ∧
      t.bus = if r.write then .ok 0 else .ok (unitWord r.addr r.data) := by
  have hmem := s.mem_returned n.val rest inner
  have hfly (t : State) (ht : t.hbm = (s.returned n.val rest inner).hbm) : (t.hbmc n.val).flying = rest := by
    rw [State.hbmc_of_hbm ht, State.flying_returned]
  change ∃ t, execHbmReadComplete n { inner, outer } s = .next t ∧ _
  rw [execHbmReadComplete, hf]
  rcases ho with rfl | ⟨k, rfl⟩
  · exact ⟨_, rfl, hmem, hfly _ rfl, rfl⟩
  · dsimp only
    cases r.write
    all_goals exact ⟨_, rfl, hmem, hfly _ rfl, rfl⟩

theorem exec_hbmReadComplete_lost (hw : r.write = false) :
    exec (.hbmReadComplete n { inner, outer := .uncorrectable }) s = .next
      { (s.returned n.val rest inner).latchUe n.val r.addr false false r.port with bus := .busError } := by
  change execHbmReadComplete n { inner, outer := .uncorrectable } s = _
  rw [execHbmReadComplete, hf]
  exact if_neg (by simp [hw])

end

section
variable {a port : Nat} {scrub rmw : Bool}

/-- The registers of the first uncorrectable unit, before its owner is told (R340). -/
def State.ueLatched (s : State) (n a : Nat) (scrub rmw : Bool) (port : Nat) : State :=
  (((s.cntHbm n H_UE).setReg .HBMC_UE_INFO n (putF (putB (putB (putB (s.reg .HBMC_UE_INFO n) 31 true) 29 scrub) 28 rmw) 27 24 port)).setReg
    .HBMC_UE_ADDR_LO n (BitVec.ofNat 32 (unitOf a))).setReg .HBMC_UE_ADDR_HI n (BitVec.ofNat 32 (unitOf a / 2 ^ 32))

theorem State.latchUe_first (h : s.rb .HBMC_UE_INFO n 31 = false) :
    (s.ueLatched n a scrub rmw port).Notified (s.latchUe n a scrub rmw port) := by
  unfold State.latchUe
  dsimp only
  rw [if_neg (by simp [h])]
  split
  · exact State.notified_notify _ _ _ _ _
  · exact ⟨_, rfl⟩

theorem State.latchUe_later (h : s.rb .HBMC_UE_INFO n 31 = true) :
    s.latchUe n a scrub rmw port = (s.cntHbm n H_UE).setRb .HBMC_UE_INFO n 30 true := if_pos h

/-- A later unit sets `OVERFLOW` and leaves the record of the first. -/
theorem State.latchUe_overflows (h : s.rb .HBMC_UE_INFO n 31 = true) : (s.latchUe n a scrub rmw port).rb .HBMC_UE_INFO n 30 = true ∧
    (s.latchUe n a scrub rmw port).rb .HBMC_UE_INFO n 31 = true := by
  rw [State.latchUe_later h]
  refine ⟨State.rb_setRb_same _ _ _ _ (by decide), ?_⟩
  rw [State.rb_setRb_ne _ _ _ _ (by decide) (by decide), State.rb_cntHbm, h]

/-- The array and the controllers stay as they are. -/
theorem State.latchUe_keeps (s : State) (n a : Nat) (scrub rmw : Bool) (port : Nat) :
    (s.latchUe n a scrub rmw port).mem = s.mem ∧ ∀ j, (s.latchUe n a scrub rmw port).hbmc j = s.hbmc j := by
  cases h : s.rb .HBMC_UE_INFO n 31
  · obtain ⟨_, hl⟩ := State.latchUe_first (a := a) (scrub := scrub) (rmw := rmw) (port := port) h
    rw [hl]
    exact ⟨rfl, fun _ => rfl⟩
  · rw [State.latchUe_later h]
    exact ⟨rfl, fun _ => rfl⟩

/-- The first unit latched: valid, its port and its address. -/
theorem State.latchUe_records (hn : n < 2) (h : s.rb .HBMC_UE_INFO n 31 = false) :
    (s.latchUe n a scrub rmw port).rb .HBMC_UE_INFO n 31 = true ∧
      (s.latchUe n a scrub rmw port).rf .HBMC_UE_INFO n 27 24 = port % 16 ∧
      (s.latchUe n a scrub rmw port).reg .HBMC_UE_ADDR_LO n = BitVec.ofNat 32 (unitOf a) := by
  have hl : (s.ueLatched n a scrub rmw port).Notified (s.latchUe n a scrub rmw port) := State.latchUe_first h
  have hinfo : (s.latchUe n a scrub rmw port).reg .HBMC_UE_INFO n =
      putF (putB (putB (putB (s.reg .HBMC_UE_INFO n) 31 true) 29 scrub) 28 rmw) 27 24 port := by
    rw [hl.reg, State.ueLatched, State.reg_setReg_name _ _ (by omega) (by omega) (by decide),
      State.reg_setReg_name _ _ (by omega) (by omega) (by decide), State.reg_setReg_same]
  refine ⟨?_, ?_, ?_⟩
  · rw [State.rb, hinfo, bit_putF_ne _ (by decide) (by decide), bit_putB _ _ _ _ (by decide), bit_putB _ _ _ _ (by decide),
      bit_putB _ _ _ _ (by decide)]
    rfl
  · rw [State.rf, hinfo, fld_putF_same _ (by decide) (by decide)]
    rfl
  · rw [hl.reg, State.ueLatched, State.reg_setReg_name _ _ (by omega) (by omega) (by decide), State.reg_setReg_same]

end

/-! ### Refreshes (R336) -/

/-- Do requests wait for the pseudo-channel, in its queue or at a port? -/
def State.hbBusy (s : State) (n c : Nat) : Bool :=
  !((s.hbmc n).pc c).queue.isEmpty || (s.hbmc n).ports.any fun kv => kv.2.reads.any fun r => r.pc == c

/-- Outside a PANIC a refresh is issued, postponed, or forced. -/
theorem exec_refreshDue {n : Fin 2} {pc : Fin 64} (h : s.hbState n.val = HB_ACTIVE) (hp : s.rb .HBMC_STAT n.val 25 = false) :
    exec (.refreshDue n pc) s =
      if !s.hbBusy n.val (pc.val % 32) then .next (s.hbPay n.val (pc.val % 32))
      else if ((s.hbmc n.val).pc (pc.val % 32)).owed < min 8 (s.rf .HBMC_THERM n.val 7 4) then
        .next ((s.updHpc n.val (pc.val % 32) fun x => { x with owed := x.owed + 1 }).hbOwed n.val)
      else .next (s.cntHbm n.val H_REFRESH_FORCED) :=
  (if_neg (not_not.mpr h)).trans (if_neg (by simp [hp]))

/-! ### Temperatures (R335, R337) -/

/-- What a reading of `t` makes of the status: the temperature, and the hot interval with its hysteresis. -/
def State.tempShown (s : State) (n t : Nat) : State :=
  let u := s.setRf .HBMC_STAT n 7 0 t
  if s.rf .HBMC_THERM n 31 24 < t then u.setRb .HBMC_STAT n 28 true
  else if t ≤ s.rf .HBMC_THERM n 23 16 then u.setRb .HBMC_STAT n 28 false else u

theorem State.rf_tempShown (s : State) (n : Nat) (x : Byte) : (s.tempShown n x.toNat).rf .HBMC_STAT n 7 0 = x.toNat := by
  have hset : (s.setRf .HBMC_STAT n 7 0 x.toNat).rf .HBMC_STAT n 7 0 = x.toNat :=
    (State.rf_setRf_same _ _ _ _ (by decide) (by decide)).trans (Nat.mod_eq_of_lt x.isLt)
  unfold State.tempShown
  dsimp only
  split_ifs
  · exact (State.rf_setRb_ne _ _ _ _ (by decide)).trans hset
  · exact (State.rf_setRb_ne _ _ _ _ (by decide)).trans hset
  · exact hset

section
variable {t : Nat}

theorem State.hot_tempShown (h : s.rf .HBMC_THERM n 31 24 < t) : (s.tempShown n t).rb .HBMC_STAT n 28 = true := by
  rw [State.tempShown, if_pos h]
  exact State.rb_setRb_same _ _ _ _ (by decide)

theorem State.cool_tempShown (hh : t ≤ s.rf .HBMC_THERM n 31 24) (hc : t ≤ s.rf .HBMC_THERM n 23 16) :
    (s.tempShown n t).rb .HBMC_STAT n 28 = false := by
  rw [State.tempShown, if_neg (Nat.not_lt.mpr hh), if_pos hc]
  exact State.rb_setRb_same _ _ _ _ (by decide)

end

/-- A reading above `CRIT_C` sets `TEMP_CRIT` besides, and the message to firmware leaves the status. -/
theorem exec_hbmTempRead_some {n : Fin 2} (x : Byte) (h : s.hbState n.val = HB_ACTIVE) :
    ∃ t, exec (.hbmTempRead n (some x)) s = .next t ∧ t.reg .HBMC_STAT n.val =
      if s.rf .HBMC_THERM n.val 15 8 < x.toNat then putB ((s.tempShown n.val x.toNat).reg .HBMC_STAT n.val) 27 true
      else (s.tempShown n.val x.toNat).reg .HBMC_STAT n.val := by
  refine ⟨_, if_neg (not_not.mpr h), ?_⟩
  change (if _ then ((s.tempShown n.val x.toNat).setRb .HBMC_STAT n.val 27 true).chan2 S2_HBM_TEMP n.val else s.tempShown n.val x.toNat).reg
    .HBMC_STAT n.val = _
  split
  · exact (State.reg_chan2 _ _ _ (by omega) (by decide)).trans (State.reg_setReg_same _ _ _ _)
  · rfl

/-! ### Scrub reads (R342, R343) -/

section
variable {n : Fin 2} (h : s.hbState n.val = HB_ACTIVE) (hen : s.rb .HBMC_SCRUB n.val 31 = true)
include h hen

theorem exec_scrubRead_next (hu : s.rf .HBMC_SCRUB_POS n.val 28 0 + 1 < stackUnits) :
    exec (.scrubRead n { inner := 0, outer := .clean }) s =
      .next (s.setRf .HBMC_SCRUB_POS n.val 28 0 (s.rf .HBMC_SCRUB_POS n.val 28 0 + 1)) := by
  change execScrubRead n { inner := 0, outer := .clean } s = _
  rw [execScrubRead, if_neg (by simp [h, hen])]
  dsimp only
  rw [decide_eq_false (Nat.not_le.mpr hu)]
  rfl

theorem exec_scrubRead_wrap (hu : stackUnits ≤ s.rf .HBMC_SCRUB_POS n.val 28 0 + 1) :
    exec (.scrubRead n { inner := 0, outer := .clean }) s =
      .next ((s.setRf .HBMC_SCRUB_POS n.val 28 0 0).setReg .HBMC_SCRUB_PASS n.val (s.reg .HBMC_SCRUB_PASS n.val + 1)) := by
  have hpass : (s.setRf .HBMC_SCRUB_POS n.val 28 0 0).reg .HBMC_SCRUB_PASS n.val = s.reg .HBMC_SCRUB_PASS n.val :=
    State.reg_setReg_name _ _ (by omega) (by omega) (by decide)
  change execScrubRead n { inner := 0, outer := .clean } s = _
  rw [execScrubRead, if_neg (by simp [h, hen])]
  dsimp only
  rw [decide_eq_true hu, ← hpass]
  rfl

end

end Sys2Proof.Machine
end

section
/-! Read data and the care of the stacks: the commands of R335 to R343. -/

namespace Sys2Proof.Machine

/-- Settles O52: a clause for each command. -/
theorem hbmReadsAndCare : Obligations.HbmReadsAndCare := by
  refine ⟨?returns, ?refresh, fun n s h => ⟨?failed, fun x => ?reading⟩, ?scrub⟩
  case returns =>
    intro n inner outer s r rest hf go
    have hgood (ho : outer = .clean ∨ ∃ k, outer = .corrected k) : ∃ t, go t ∧ t.mem = s.mem ∧
        t.bus = (if r.write then .ok 0 else .ok (unitWord r.addr r.data)) := by
      obtain ⟨t, he, hmem, hfly, hbus⟩ := exec_hbmReadComplete_good (inner := inner) hf ho
      exact ⟨t, ⟨he, hfly⟩, hmem, hbus⟩
    refine ⟨fun ho => hgood (.inl ho), fun k ho => hgood (.inr ⟨k, ho⟩), fun ho hw => ?_⟩
    subst ho
    have hregs := s.regs_returned n.val rest inner
    obtain ⟨hmem, hctl⟩ := (s.returned n.val rest inner).latchUe_keeps n.val r.addr false false r.port
    refine ⟨_, ⟨exec_hbmReadComplete_lost hf hw, ?_⟩, hmem.trans (s.mem_returned _ _ _), rfl, fun hv => ?_, fun hv => ?_⟩
    · exact (congrArg Hbm.flying (hctl n.val)).trans (s.flying_returned _ _ _)
    · exact State.latchUe_overflows ((State.rb_of_regs hregs _ _ _).trans hv)
    · exact State.latchUe_records n.isLt ((State.rb_of_regs hregs _ _ _).trans hv)
  case refresh =>
    intro n pc s c x busy most h hp
    have he := exec_refreshDue (pc := pc) h hp
    have hbusy : s.hbBusy n.val (pc.val % 32) = busy := rfl
    rw [hbusy] at he
    refine ⟨fun hb => ⟨_, he.trans (if_pos (by rw [hb]; rfl)), ?_⟩,
      fun hb ho => ⟨_, he.trans ((if_neg (by rw [hb]; decide)).trans (if_pos ho)), ?_⟩,
      fun hb ho => he.trans ((if_neg (by rw [hb]; decide)).trans (if_neg (Nat.not_lt.mpr ho)))⟩
    · obtain ⟨hq, -⟩ := Bool.or_eq_false_iff.mp hb
      exact State.owed_hbPay (by simpa using hq) hp
    · rw [State.hbmc_hbOwed, State.pc_updHpc_same]
  case failed =>
    exact ⟨_, if_neg (not_not.mpr h), (State.rb_setRb_ne _ _ _ _ (by decide) (by decide)).trans (State.rb_setRb_same _ _ _ _ (by decide)),
      State.rb_setRb_same _ _ _ _ (by decide)⟩
  case reading =>
    obtain ⟨t, he, ht⟩ := exec_hbmTempRead_some x h
    have hhot : t.rb .HBMC_STAT n.val 28 = (s.tempShown n.val x.toNat).rb .HBMC_STAT n.val 28 := by
      rw [State.rb, ht]
      split
      · exact bit_putB _ _ _ _ (by decide)
      · rfl
    refine ⟨t, he, ?_, fun hh => hhot.trans (State.hot_tempShown hh), fun hh hc => hhot.trans (State.cool_tempShown hh hc), fun hc => ?_⟩
    · refine Eq.trans ?_ (s.rf_tempShown n.val x)
      rw [State.rf, ht]
      split
      · exact fld_putB_ne _ (by decide)
      · rfl
    · rw [State.rb, ht, if_pos hc, bit_putB _ _ _ _ (by decide), if_pos rfl]
  case scrub =>
    intro n s u h hen
    rcases Nat.lt_or_ge (u + 1) stackUnits with hu | hu
    · refine ⟨_, exec_scrubRead_next h hen hu, rfl, fun _ => ⟨?_, ?_⟩, fun hge => absurd hu (Nat.not_lt.mpr hge)⟩
      · exact (State.rf_setRf_same _ _ _ _ (by decide) (by decide)).trans (Nat.mod_eq_of_lt (hu.trans (by decide)))
      · exact State.reg_setReg_name _ _ (by omega) (by omega) (by decide)
    · refine ⟨_, exec_scrubRead_wrap h hen hu, rfl, fun hlt => absurd hlt (Nat.not_lt.mpr hu), fun _ => ⟨?_, ?_⟩⟩
      · exact (State.rf_setReg_name _ _ (by omega) (by omega) (by decide) _ _).trans
          (State.rf_setRf_same _ _ _ _ (by decide) (by decide))
      · exact State.reg_setReg_same _ _ _ _

end Sys2Proof.Machine
end
